-- ==== Sys2Proof/Word.lean ====
section
/-! DEFINITION. The word and byte types of the VTN-8140: every register is 32 bits wide at a 16-bit address
(00_scope, "Registers and fields"), every record, image and journal field is made of bytes. -/

namespace Sys2Proof

/-- A 32-bit register value or entry word (R12, R180). -/
abbrev Word := BitVec 32

/-- One byte of a record payload, of flash or of a datagram. -/
abbrev Byte := BitVec 8

/-- A 16-bit register address (00_scope, "Registers and fields"). -/
abbrev Addr := BitVec 16

end Sys2Proof
end

