-- ==== Sys2Proof/Syntax.lean ====
section
/-! DEFINITION. The commands and events of the VTN-8140, one constructor of `Instr` per row of spec/opcode_table.json,
and the types of their operands. Every constructor begins with `dt`, the FAB cycles (2.56 ns) since the command before
it; `dt = 0` puts it in the same FAB cycle (log entry 1). What only the analogue world or a decoder's soft input can
decide is an operand (log entry 3). -/

namespace Sys2Proof

/-- The transport of a register access (R24, R540). -/
inductive Via | twoWire | qrp
  deriving DecidableEq, Repr

/-- The class of a reference input (R58). -/
inductive RefClass | absent | mhz10 | mhz25 | mhz125
  deriving DecidableEq, Repr

/-- Which of the boundaries of Table 1.7 an engine reports (R28). -/
inductive BoundaryKind | tick | dabFrame | burstEnd
  deriving DecidableEq, Repr

/-- A spate detector: one per tributary and one per context (chapter 03, "The spate path"). -/
inductive SpateDet | trib (r : Fin 4) (n : Fin 8) | ctx (c : Fin 256)
  deriving DecidableEq, Repr

/-- The actions of a proposal in the order of R443 (codes of Table 12.7). -/
inductive Action | wardenRestart | reachFailure | engineRestart | subAdcRetire
  deriving DecidableEq, Repr

/-- What a proposal about a reach is known by: its action, with the engine or sub-ADC concerned (R436, R440). -/
structure ProposalId where
  act : Action
  ident : Nat
  deriving DecidableEq, Repr

/-- A vote (R440): the voter, the control logic as none; the proposal; and the reach's health lines as the voter sees them. -/
structure Vote where
  voter : Option (Fin 4)
  reach : Fin 4
  id : ProposalId
  lines : BitVec 7
  deriving DecidableEq, Repr

/-- What a voter sees of the health lines, and the other votes that arrive in its FAB cycle (R440, R443). -/
structure Sight where
  lines : BitVec 7
  more : List Vote := []
  deriving DecidableEq, Repr

/-- What a warden has found of a sub-ADC (Table 12.1): consecutive codes of it; its mean power and that of the others over 1 ms; or its last
fallow measurement beyond the trim range. -/
inductive SubAdcFault | stuck (codes : List Int) | power (own others : Nat) | beyond
  deriving DecidableEq, Repr

/-- The memory areas of Table 12.3. -/
inductive EccArea
  | engineRuntime (e : Fin 8) | engineCtx (c : Fin 256) | ring (c : Fin 256) | softBits (c : Fin 256)
  | program (page : Nat) | replayWindow (n : Nat) | recordQueue (n : Nat) | snapshot (c : Fin 256)
  | sideData (c : Fin 256) | replayTable (n : Nat) | control
  deriving DecidableEq, Repr

/-- A two-wire address and port of the other side are an IPv4 address and a UDP port (chapter 14, "Sessions"). -/
structure Peer where
  ip : BitVec 32
  port : BitVec 16
  deriving DecidableEq, Repr

/-- The marks borne by the samples a record is made of (R121, R123, R155): an operand, for the data plane marks samples. -/
structure Marks where
  blanked : Bool := false
  overrange : Bool := false
  deriving DecidableEq, Repr

/-- One measurement of the fallow sub-ADC and its trims (R404): errors of offset, gain and skew. -/
structure TrimError where
  offset : Int
  gain : Int
  skew : Int
  deriving DecidableEq, Repr

/-- A sample of a demodulator's input (R181) with the phase of its pilot or carrier loop (R223, R227), its marks and its sample time as a
value of the clock. -/
structure AudioIn where
  i : Int
  q : Int
  ref : BitVec 32 := 0
  marks : Marks := {}
  atPs : Nat := 0
  deriving DecidableEq, Repr

/-- The offset word an RDS block's syndrome matches (R230, R231). -/
inductive RdsOffset | a | b | c | cPrime | d | e | none
  deriving DecidableEq, Repr

/-- An item of Table 6.9: item code and VALUE. -/
structure RdsItem where
  code : BitVec 8
  value : List Byte
  deriving DecidableEq, Repr

/-- A candidate carrier of service following (R327): standard code, EAB channel, frequency in Hz, identity. -/
structure Carrier where
  std : BitVec 4
  chan : Bool
  freq : Nat
  ident : Nat
  deriving DecidableEq, Repr

/-- A soft bit of the MSC (R266, R279). Of its 2-bit value the manual tells apart the hard decision and the erasure. -/
inductive Soft | zero | one | erased
  deriving DecidableEq, Repr

/-- An OFDM symbol: the marks of its samples, and whether R156 makes one of them invalid (Table 7.9). -/
structure DabSym where
  marks : Marks := {}
  invalid : Bool := false
  deriving DecidableEq, Repr

/-- The MSC of one CIF as the demodulator delivers it (R266): 55,296 soft bits, its 18 symbols, the sample time of the first (R277), and the
symbol before that, against which the first is demodulated. -/
structure MscCif where
  soft : List Soft
  symbols : List DabSym
  stamp : Nat
  before : DabSym := {}
  deriving DecidableEq, Repr

/-- One FIB as the Viterbi decoder returns it (R262): its place in the transmission frame, and its 30 bytes with their CRC. -/
structure Fib where
  index : Fin 12
  bytes : List Byte
  deriving DecidableEq, Repr

/-- The FIC of one CIF (chapter 07, "The FIC"): its place in the transmission frame, the soft bits that the demodulator delivers, and the
FIBs that the Viterbi decoder returns. -/
structure Fic where
  cif : Fin 4
  soft : List Soft
  fibs : List Fib
  deriving DecidableEq, Repr

/-- A logical frame as the Viterbi decoder returns it (R269): its bits before energy dispersal is removed, and whether the partner's soft
bits were added (R359). -/
structure LogicalFrame where
  bits : List Bool
  combined : Bool := false
  deriving DecidableEq, Repr

/-- A symbol of an EAB burst or the decision on one (Table 8.2): +3, +1, −1, −3. -/
inductive Quad | p3 | p1 | m1 | m3
  deriving DecidableEq, Repr

/-- A symbol as the demodulator of an EAB context delivers it: its decision, its two soft bits, above 0 for a 1 and below for a 0 (R316, R356),
its mean power, in which 2^32 stands at the reach-referred reference level, and the marks of its samples. -/
structure EabSym where
  value : Quad
  soft : Int × Int := (0, 0)
  power : Nat := 0
  invalid : Bool := false
  marks : Marks := {}
  deriving DecidableEq, Repr

/-- What an EAB engine measures over a run of samples (R310): how many carry the overrange mark, and their mean power as for a symbol. -/
structure EabSpan where
  marked : Nat
  power : Nat := 0
  deriving DecidableEq, Repr

/-- A record that a chain beside the context's own has built (R350): type, timestamp, sample time of the last sample that contributed,
payload, and the marks of its samples. -/
structure Built where
  typ : Nat
  stamp : Nat
  spanEnd : Nat
  payload : List Byte
  marks : Marks := {}
  combined : Bool := false
  discont : Bool := false
  deriving DecidableEq, Repr

/-- One CIF as a landing's engine takes it (R347): its FIC in the frame that starts at `stamp`, with the four symbols of DAB_FIC_DECODE, its
MSC, the logical frames that it completes, and the superframes that end with them, decoded, with the codewords that failed. -/
structure LandedCif where
  fic : Fic
  symbols : List DabSym := []
  stamp : Nat
  msc : Option MscCif := none
  frames : List (Fin 64 × LogicalFrame) := []
  supers : List (Fin 64 × List Byte × List Nat) := []
  deriving DecidableEq, Repr

/-- What a landing's demodulator has delivered (R346, R347): how long the condition of its lock has held and how long it has failed, with the
least and the greatest carrier-to-noise ratio meanwhile; pilot; RDS bits; the ms between two null symbols, whether their PRS correlate, the
carrier offset, frames in a row without a PRS, and CIFs; samples, overrange ones and their mean power; and whether an EAB burst is being
received. -/
structure Landed where
  lockUs : Nat := 0
  lowest : Nat := 0
  failUs : Nat := 0
  highest : Nat := 0
  pilotUs : Nat := 0
  deviation : Nat := 0
  rds : List Bool := []
  rdsStamp : Nat := 0
  apartMs : Nat := 0
  prs : Bool := false
  offset : Int := 0
  missed : Nat := 0
  cifs : List LandedCif := []
  samples : Nat := 0
  marked : Nat := 0
  power : Nat := 0
  burst : Bool := false
  deriving DecidableEq, Repr

/-- The step table (R107): corrections of the three LNA steps and of the 31 attenuations, 17 fractional bits. -/
structure StepTable where
  lna : Vector Nat 3 := Vector.replicate 3 131072
  attn : Vector Nat 31 := Vector.replicate 31 131072
  deriving DecidableEq, Repr

/-- What the two detectors of the level loop read at one comparison (R375, R376, R379): the internal one in 0.01 dBm, TXDET in µV. -/
structure DetReading where
  inner : Int
  txdet : Int := 0
  deriving DecidableEq, Repr

/-- A mismatch of a self-test (R422, Table 12.7): block 0 pipeline, 1 LDPC, 2 Viterbi, 3 Reed-Solomon; pipeline. -/
structure Mismatch where
  block : Fin 4
  pipeline : Fin 8
  deriving DecidableEq, Repr

/-- One NAK entry (Table 14.12). -/
structure NakEntry where
  ctx : BitVec 16
  count : Nat
  first : BitVec 32
  deriving DecidableEq, Repr

/-- TRANSMIT arguments (Table 14.15). -/
structure TxArgs where
  carrier : Nat
  channel : BitVec 8
  level : BitVec 8
  typ : BitVec 8
  hop : BitVec 8
  rate : BitVec 8
  keySlot : BitVec 8
  late : BitVec 16
  start : Nat
  counter : BitVec 32
  body : List Byte
  deriving DecidableEq, Repr

/-- One register of a two-wire write: its word, the bytes that arrived, and the PEC byte after them (R557, R563). -/
structure TwWord where
  value : Word
  bytes : Nat := 4
  pec : Byte := 0
  deriving DecidableEq, Repr

/-- The commands and events (spec/opcode_table.json). The rule of each constructor is the row's. -/
inductive Instr
  | registerWrite (dt : Nat) (via : Via) (addr : Addr) (value : Word)          -- R8
  | reachOvrRead (dt : Nat) (r : Fin 4)                                        -- R13
  | reachChainRead (dt : Nat) (r : Fin 4)                                      -- R13
  | engineRead (dt : Nat) (e : Fin 8)                                          -- R13
  | hostportCountsRead (dt : Nat)                                              -- R13
  | twStatusRead (dt : Nat)                                                    -- R560
  | healthLostRead (dt : Nat)                                                  -- R13
  | ctxStatusRead (dt : Nat)                                                   -- R205
  | healthStatusRead (dt : Nat)                                                -- R612
  | healthNext (dt : Nat)                                                      -- R613
  | healthFlush (dt : Nat)                                                     -- R613
  | rtcSecondsRead (dt : Nat)                                                  -- R596
  | mailboxConsume (dt : Nat)                                                  -- R35
  | frameBoundary (dt : Nat) (c : Fin 256) (kind : BoundaryKind)               -- R28
  | crossFadeEnd (dt : Nat) (c : Fin 256)                                      -- R171
  | journalSessionGrant (dt : Nat)                                             -- R41
  | journalAppend (dt : Nat) (readBackOk : Bool)                               -- R490
  | journalCompaction (dt : Nat) (readBackOk : Bool)                           -- R498
  | dozeEnter (dt : Nat)                                                       -- R89
  | dozeExit (dt : Nat)                                                        -- R89
  | dozeWindowStart (dt : Nat)                                                 -- R88
  | dozeWindowEnd (dt : Nat)                                                   -- R88
  | dozeEntry (dt : Nat)                                                       -- R93
  | dozeExitSequence (dt : Nat)                                                -- R95
  | dozeTwWake (dt : Nat)                                                      -- R94
  | dozeFabIdleStop (dt : Nat)                                                 -- R94
  | reset (dt : Nat) (us : Nat)                                                -- R74, µs asserted
  | powerOnReset (dt : Nat) (core ana a18 : Nat)                               -- R625, mV
  | powerOnResetRelease (dt : Nat) (pins : BitVec 3) (aboveUs : Nat) (bank18 : BitVec 2) -- R625
  | refClassify (dt : Nat) (hz1 hz2 : Nat)                                     -- R58, as measured
  | confluencePllLock (dt : Nat)                                               -- R75
  | reachPllLock (dt : Nat) (r : Fin 4)                                        -- R71
  | adcSettled (dt : Nat) (r : Fin 4)                                          -- R76
  | initialFallowPassEnd (dt : Nat) (r : Fin 4) (subAdcStillBad : Bool)        -- R76
  | reachReady (dt : Nat) (r : Fin 4)                                          -- R75
  | bringupTimeout (dt : Nat) (r : Fin 4)                                      -- R77
  | refLost (dt : Nat) (ref2 : Bool) (sinceLastEdgeNs : Nat) (degrees : List Nat) (words : Vector Nat 5) -- R61
  | holdoverExit (dt : Nat) (belowUs : Nat)                                    -- R64
  | refRevert (dt : Nat)                                                       -- R67
  | refRecovered (dt : Nat) (hz1 hz2 : Nat)                                    -- R68, as measured
  | agcWindowEnd (dt : Nat) (r : Fin 4) (peak : Int) (mean : Nat)              -- R101, peak in 0.01 dBFS
  | agcClipReduction (dt : Nat) (r : Fin 4)                                    -- R103
  | agcDeferredIncrease (dt : Nat) (r : Fin 4)                                 -- R104
  | reachAgcWrite (dt : Nat) (r : Fin 4) (value : Word)                        -- R102
  | reachAttnWrite (dt : Nat) (r : Fin 4) (value : Word)                       -- R106
  | fallowBoundary (dt : Nat) (r : Fin 4) (err : TrimError) (spur : Int)       -- R111
  | fallowTrimCommit (dt : Nat) (r : Fin 4)                                    -- R113
  | spateFlagRaise (dt : Nat) (d : SpateDet) (levels : List Int)               -- R117, 0.5 dB steps
  | spateFlagClear (dt : Nat) (d : SpateDet) (levels : List Int)               -- R116
  | blankInAssert (dt : Nat)                                                   -- R118
  | blankInRelease (dt : Nat)                                                  -- R118
  | blankingIntervalEnd (dt : Nat) (r : Fin 4)                                 -- R118
  | overrangeSample (dt : Nat) (r : Fin 4)                                     -- R123
  | reachTribWrite (dt : Nat) (r : Fin 4) (n : Fin 8) (value : Word)           -- R133
  | syncNAssert (dt : Nat) (levels : List Bool)                                -- R159
  | syncGo (dt : Nat)                                                          -- R160
  | syncResetApply (dt : Nat)                                                  -- R163
  | firstValidSample (dt : Nat) (c : Fin 256) (gapStart gapEnd : Nat)          -- R157
  | ctxLoad (dt : Nat) (pair : Bool)                                           -- R205
  | ctxCommitWindow (dt : Nat) (pair load : Bool)                              -- R206
  | engineRound (dt : Nat) (e : Fin 8) (codes : List Int)                      -- R200
  | engineWatchdog (dt : Nat) (e : Fin 8)                                      -- R201
  | contextAgcWindow (dt : Nat) (c : Fin 256) (mean : Int) (held : Bool)       -- R182, mean in 0.25 dB below full scale
  | fmCarrierLock (dt : Nat) (c : Fin 256) (lowest overUs : Nat)               -- R221, 0.5 dB
  | fmCarrierLockLost (dt : Nat) (c : Fin 256) (highest overUs : Nat)          -- R221, 0.5 dB
  | fmPilotDecision (dt : Nat) (c : Fin 256) (lockedUs deviation : Nat)        -- R223, deviation in Hz
  | fmStereoToMono (dt : Nat) (c : Fin 256) (unlockedUs : Nat)                 -- R224
  | fmMonoToStereo (dt : Nat) (c : Fin 256) (lockedUs : Nat)                   -- R224
  | rdsBlock (dt : Nat) (c : Fin 256) (bits : List Bool) (stamp : Nat) (marks : Marks) -- R231
  | rdsGroupComplete (dt : Nat) (c : Fin 256) (level : Int) (cnr : Nat)        -- R236, 0.1 dB, 0.5 dB
  | pcmRecord (dt : Nat) (c : Fin 256) (audio : List AudioIn) (cnr : Nat)      -- R244
  | amLockGained (dt : Nat) (c : Fin 256) (lowest overUs : Nat)                -- R228, 0.5 dB
  | amLockLost (dt : Nat) (c : Fin 256) (highest overUs : Nat)                 -- R228, 0.5 dB
  | amDetectorSwitch (dt : Nat) (c : Fin 256) (loopLocked : Bool) (offset : Int) -- R228, Hz
  | dabFrameSync (dt : Nat) (c : Fin 256) (apartMs : Nat) (prs : Bool) (offset : Int) -- R256, offset in Hz
  | dabFrameSyncLost (dt : Nat) (c : Fin 256) (missed : Nat)                   -- R256
  | dabFicDecode (dt : Nat) (c : Fin 256) (fic : Fic) (msc : Option MscCif) (frameStamp : Nat) (combined : Bool)
      (symbols : List DabSym)                                                  -- R263, the PRS and the FIC symbols
  | dabLogicalFrame (dt : Nat) (c : Fin 256) (sub : Fin 64) (f : LogicalFrame) -- R269
  | dabSuperframe (dt : Nat) (c : Fin 256) (sub : Fin 64) (corrected : List Byte) (failed : List Nat) -- R270, codewords not corrected
  | dabReconfiguration (dt : Nat) (c : Fin 256)                                -- R275
  | eabLock (dt : Nat) (c : Fin 256) (samples : Nat) (span : EabSpan)            -- R310
  | eabLockLost (dt : Nat) (c : Fin 256) (samples marked : Nat)                  -- R310
  | eabPreambleDetect (dt : Nat) (c : Fin 256) (last : List EabSym) (level : Int) (snr : Nat) (foffset : Int) (stamp : Nat) -- R312
  | eabPreambleEnd (dt : Nat) (c : Fin 256) (syms : List EabSym) (foffset : Int) -- R314
  | eabFalsePreamble (dt : Nat) (c : Fin 256) (syms : List EabSym)             -- R311
  | eabSyncFound (dt : Nat) (c : Fin 256) (syms : List EabSym) (stamp : Nat)   -- R314
  | eabNoSync (dt : Nat) (c : Fin 256) (syms : List EabSym)                    -- R311
  | eabHeaderDecoded (dt : Nat) (c : Fin 256) (syms : List EabSym) (decoded : List Bool) (iter snr : Nat) -- R300
  | eabCodewordDecoded (dt : Nat) (c : Fin 256) (syms : List EabSym) (decoded : List Bool) (iter snr : Nat) -- R300
  | eabBurstEnd (dt : Nat) (c : Fin 256) (syms : List EabSym)                  -- R311
  | eabRecordHandover (dt : Nat) (c : Fin 256)                                 -- R321
  | eabShadowDetect (dt : Nat) (c : Fin 256) (syms main : List EabSym) (snr : Nat) (foffset : Int) (stamp now : Nat) -- R316
  | eabShadowDrop (dt : Nat) (c : Fin 256) (syms : List EabSym) (snrs : List Nat) -- R316
  | eabLevelRise (dt : Nat) (c : Fin 256) (syms : List EabSym) (stamp : Nat)   -- R318
  | eabNfBlock (dt : Nat) (c : Fin 256) (power : Nat) (invalid : Bool) (marks : Marks) -- R322, as a symbol's
  | eabNfReport (dt : Nat) (c : Fin 256)                                       -- R323
  | eabReplayJournal (dt : Nat)                                                -- R306
  | scoutCheckStart (dt : Nat) (sc : Fin 256)                                  -- R334
  | scoutCheckEnd (dt : Nat) (sc : Fin 256) (level : Int) (cnr lowest heldUs : Nat) (ownLevel : Int) -- R336, 0.1 dB, 0.5 dB
  | afSwitchDecision (dt : Nat) (c : Fin 256)                                  -- R341
  | landingStart (dt : Nat) (c : Fin 256)                                      -- R346
  | landingReady (dt : Nat) (c : Fin 256) (d : Landed)                         -- R347
  | landingFailed (dt : Nat) (c : Fin 256)                                     -- R347
  | afSwitch (dt : Nat) (c : Fin 256) (other : Landed) (otherBuilt : List Built) (switchStamp : Nat) (d : Landed) (built : List Built) -- R348
  | runOutEnd (dt : Nat) (c : Fin 256) (built : List Built)                    -- R348
  | twinCombineTimeout (dt : Nat) (c : Fin 256)                                -- R357
  | twinSelectionChange (dt : Nat) (c : Fin 256) (ticks : List (Nat × Nat)) (levelL levelH : Int) (stamp : Nat) -- R360, 0.5 dB, 0.1 dB
  | transmit (dt : Nat) (src : Peer) (id : BitVec 32) (a : TxArgs)             -- R380
  | outfallToneStart (dt : Nat) (via : Via) (id : BitVec 32)                   -- R378
  | outfallAbort (dt : Nat)                                                    -- R386
  | outfallRetuneStart (dt : Nat)                                              -- R383
  | outfallRetuneLocked (dt : Nat)                                             -- R369
  | outfallLockTimeout (dt : Nat)                                              -- R384
  | outfallBlankOutAssert (dt : Nat)                                           -- R372
  | cxGntAssert (dt : Nat)                                                     -- R373
  | cxDenied (dt : Nat)                                                        -- R373
  | cxGntRelease (dt : Nat)                                                    -- R374
  | outfallRampStart (dt : Nat)                                                -- R383
  | outfallLevelLoopEnd (dt : Nat) (readings : List DetReading)                -- R375
  | outfallRampDownStart (dt : Nat)                                            -- R386
  | outfallRampEnd (dt : Nat)                                                  -- R387
  | outfallBlankOutRelease (dt : Nat)                                          -- R372
  | outfallLateDrop (dt : Nat)                                                 -- R385
  | relayIntake (dt : Nat) (c : Fin 256)                                       -- R388
  | relayLbtCheck (dt : Nat)                                                   -- R392
  | relayConfirmed (dt : Nat)                                                  -- R393
  | relayNotConfirmed (dt : Nat)                                               -- R393
  | tempSensorRead (dt : Nat) (tA tB tC tD : Int)                              -- R398
  | calRecalibration (dt : Nat) (r : Fin 4)                                    -- R408
  | calAbsolute (dt : Nat) (r : Fin 4) (points : Fin 16)                       -- R412
  | calSelftest (dt : Nat) (r : Fin 4)                                         -- R422
  | calApplySet (dt : Nat) (store : Bool)                                      -- R420
  | calRollback (dt : Nat) (r : Fin 4) (node : BitVec 3) (store : Bool)        -- R421
  | calLoad (dt : Nat)                                                         -- R420
  | calAbort (dt : Nat) (r : Fin 4) (op : BitVec 3)                            -- R428
  | selftestDue (dt : Nat)                                                     -- R422
  | maintenanceAdmit (dt : Nat) (r : Fin 4)                                    -- R425
  | fegrComplete (dt : Nat) (r : Fin 4) (table : StepTable) (gainErr : Int)    -- R408
  | calAbsBlock (dt : Nat) (r : Fin 4) (power : Int) (snr : Nat) (marked : Bool) -- R414, 0.01 dB
  | calPointComplete (dt : Nat) (r : Fin 4) (check : Option Int)               -- R413, R414; none: marked
  | calPointTimeout (dt : Nat) (r : Fin 4)                                     -- R414
  | calSlotTaken (dt : Nat) (r : Fin 4)                                        -- R415
  | calCommitPoint (dt : Nat) (r : Fin 4)                                      -- R403
  | selftestComplete (dt : Nat) (r : Fin 4) (bad : List Mismatch)              -- R422
  | proposalRaise (dt : Nat) (proposer : Option (Fin 4)) (r : Fin 4) (act : Action) (lines : BitVec 7) (ident : Nat)
      (drift : Bool) (evidenceAgoNs : Nat)                                     -- R440
  | wardenVote (dt : Nat) (voter : Option (Fin 4)) (r : Fin 4) (id : ProposalId) (sight : Sight) -- R440
  | proposalLapse (dt : Nat) (r : Fin 4) (id : ProposalId)                     -- R441
  | engineRestartComplete (dt : Nat) (e : Fin 8)                               -- R642
  | wardenRestartComplete (dt : Nat) (w : Fin 4)                               -- R444
  | wardenHeartbeatTimeout (dt : Nat) (w : Fin 4)                              -- R437
  | wardenMiscompare (dt : Nat) (w : Fin 4)                                    -- R437
  | subadcFaultDetect (dt : Nat) (r : Fin 4) (n : Fin 17) (fault : SubAdcFault) -- R438
  | tmrMismatch (dt : Nat) (copy : Fin 3)                                      -- R446
  | tmrRepair (dt : Nat) (copy : Fin 3)                                        -- R447
  | eccCorrected (dt : Nat) (region : Fin 4) (count : Nat)                     -- R449
  | eccScrub (dt : Nat)                                                        -- R449
  | eccUncorrectable (dt : Nat) (area : EccArea) (address : BitVec 32)         -- R450
  | programPageReload (dt : Nat) (page : Nat) (imageOk : Bool)                 -- R450
  | recordRelease (dt : Nat)                                                   -- R451
  | imageLoadComplete (dt : Nat) (fastReadOk : Bool)                           -- R479
  | journalReplayComplete (dt : Nat)                                           -- R494
  | journalRead (dt : Nat) (len : BitVec 12)                                   -- R43
  | journalWrite (dt : Nat) (len : BitVec 12) (key : BitVec 8)                 -- R490
  | journalFlashRead (dt : Nat)                                                -- R501
  | journalProgram (dt : Nat) (len : BitVec 12)                                -- R501
  | journalErase4k (dt : Nat)                                                  -- R501
  | journalErase64k (dt : Nat)                                                 -- R501
  | journalCompact (dt : Nat)                                                  -- R498
  | keysDataWrite (dt : Nat) (n : Fin 4) (value : Word)                        -- R485
  | keysDataClear (dt : Nat)                                                   -- R485
  | keysProgramKey (dt : Nat) (confirm : BitVec 16) (slot : Fin 8)             -- R485
  | keysBlowAuthReq (dt : Nat) (confirm : BitVec 16)                           -- R485
  | keysBlowStillOff (dt : Nat) (confirm : BitVec 16)                          -- R485
  | keysOperationEnd (dt : Nat) (ok : Bool)                                    -- R485
  | linkUp (dt : Nat) (syncUs : Nat) (anDone : Bool)                           -- R504
  | linkDown (dt : Nat)                                                        -- R504
  | hostportLinkWrite (dt : Nat) (value : Word)                                -- R551
  | hostportAddressWrite (dt : Nat) (addr : Addr) (value : Word)               -- R515
  | arpRequest (dt : Nat) (sender target : BitVec 32) (mac : BitVec 48)        -- R507
  | arpResolve (dt : Nat)                                                      -- R507
  | arpRefresh (dt : Nat)                                                      -- R507
  | icmpEcho (dt : Nat) (sender : BitVec 32) (mac : BitVec 48) (ident seq : BitVec 16) (payload : List Byte) -- R508
  | hello (dt : Nat) (src : Peer) (minVer maxVer : BitVec 8) (takeover : Bool) (timeout : BitVec 16) (mask : BitVec 128) -- R514
  | bye (dt : Nat) (src : Peer)                                                -- R515
  | sessionTimeout (dt : Nat)                                                  -- R515
  | nak (dt : Nat) (src : Peer) (entries : List NakEntry)                      -- R531
  | recordsSend (dt : Nat)                                                     -- R511
  | recordsKeepalive (dt : Nat)                                                -- R512
  | regRead (dt : Nat) (src : Peer) (id : BitVec 32) (addr : Addr) (count : BitVec 16) -- R540
  | regWrite (dt : Nat) (src : Peer) (id : BitVec 32) (pairs : List (Addr × Word)) -- R540
  | ctxRead (dt : Nat) (src : Peer) (id : BitVec 32) (c : Fin 256) (copy : BitVec 8) -- R205
  | ctxCommit (dt : Nat) (src : Peer) (id : BitVec 32) (c p : Fin 256) (pair : Bool) (e1 e2 : Vector Word 16) -- R541
  | qrpCal (dt : Nat) (src : Peer) (id : BitVec 32) (word : Word)              -- R543
  | syncReset (dt : Nat) (src : Peer) (id : BitVec 32)                         -- R160
  | doze (dt : Nat) (src : Peer) (id : BitVec 32)                              -- R89
  | abort (dt : Nat) (src : Peer) (id target : BitVec 32)                      -- R546
  | status (dt : Nat) (src : Peer) (id target : BitVec 32)                     -- R536
  | twWrite (dt : Nat) (address : BitVec 7) (reg : Addr) (words : List TwWord) (byStop : Bool) -- R557
  | twRead (dt : Nat) (address : BitVec 7) (reg : Option Addr) (count : Nat) (lastWhole : Bool) -- R558
  | twSdaRelease (dt : Nat) (us : Nat)                                         -- R568, µs held low
  | twAraRead (dt : Nat) (others : Byte)                                       -- R572
  | versionHandshake (dt : Nat) (hostMax : BitVec 8)                           -- R561
  | twCmdReset (dt : Nat) (confirm : BitVec 16)                                -- R582
  | twCmdFreeze (dt : Nat) (confirm : BitVec 16)                               -- R576
  | stillNFreeze (dt : Nat) (ns : Nat)                                         -- R576, ns asserted
  | stillSelWrite (dt : Nat) (value : Word)                                    -- R580
  | rtcSwitchToVbat (dt : Nat) (a18 vbat : Nat)                                -- R586, mV
  | rtcReturnToMain (dt : Nat) (a18 vbat aboveUs : Nat)                        -- R586, mV
  | rtcDomainLost (dt : Nat) (oscillator : Bool) (outageUs : Nat)              -- R588
  | vbatMeasure (dt : Nat) (millivolts : Nat)                                  -- R589
  | rtcSecondBoundary (dt : Nat)                                               -- R597
  | rtcCommit (dt : Nat)                                                       -- R597
  | rtcCancel (dt : Nat)                                                       -- R597
  | rtcStepUp (dt : Nat)                                                       -- R602
  | rtcStepDown (dt : Nat)                                                     -- R602
  | rtcOffsetWrite (dt : Nat) (value : BitVec 8)                               -- R601
  | rtcTrimWrite (dt : Nat) (value : BitVec 16)                                -- R604
  | rtcTrimWindowEnd (dt : Nat) (deltaS deltaR : Nat) (events : Nat)           -- R604, ns
  | supplyOutOfRange (dt : Nat) (k : Fin 6) (mv ioc us : Nat)                  -- R627, mV
  | supplyMonitorRepeat (dt : Nat) (k : Fin 6)                                 -- R627
  | resetNRelease (dt : Nat) (pins : BitVec 3)                                 -- R75
  | arpReply (dt : Nat) (sender : BitVec 32) (mac : BitVec 48)                 -- R507
  | datagramDiscarded (dt : Nat) (frame : List Byte)                           -- R510, R537
  | mainsInEdge (dt : Nat)                                                     -- R603
  | supplyBackInRange (dt : Nat) (k : Fin 6) (mv ioc : Nat)                    -- R627, mV
  | refclkRestored (dt : Nat) (ref2 : Bool) (hz : Nat)                         -- R67, as measured
  | sampleClamped (dt : Nat) (r : Fin 4)                                       -- R139
  | afLearnedJournal (dt : Nat) (c : Fin 256)                                  -- R333
  deriving DecidableEq, Repr

end Sys2Proof
end

