-- ==== Sys2Proof/Decode.lean ====
section
/-! DEFINITION. Decoding a table word. spec/opcode_table.json gives no row any bits: the commands are accesses, pin
events and results of the part's own units, which no common word spells. So no word spells a command (log entry 13). -/

namespace Sys2Proof

/-- The command that the word `w` of `nbits` bits spells by the table: none, for the table gives no row bits. -/
def decodeTableWord (_nbits _w : Nat) : Option Instr := none

end Sys2Proof
end

