-- ==== Sys2Proof/Config.lean ====
section
/-! DEFINITION. The values that the manual leaves open, as constants without a body: nothing can evaluate them,
so a claim holds whatever they are. -/

namespace Sys2Proof.Config

/-- The n-th draw of the relay's jitter before its reduction to 0 … JITTER (R391 gives the distribution and the range
and no value). Free value, log entry 9. -/
opaque jitterDraw : Nat → Nat

/-- Content of SRAM word `addr` of read-out region `region` at the `n`-th freeze (R581, Table 15.4): the manual gives no
layout of the SRAM regions. Free value, log entry 10. -/
opaque sramWord : Nat → Nat → Nat → Word

/-- Whether that word has an uncorrectable error (R581, UE of STILL_STATUS). Free value, log entry 10. -/
opaque sramUe : Nat → Nat → Nat → Bool

/-- Whether the backup domain keeps its content when both supplies are below 1.5 V for between 1.8 ms and 2 ms (R588
allows either outcome). Free value, log entry 11. -/
opaque domainSurvives : Nat → Bool

/-- The input range of the LDPC decoder, less one (R356 names the range and gives no value). Free value, log entry 69. -/
opaque softRange : Nat

/-- Correction of the factory curve of the mask ROM at a frequency in Hz, 0.01 dB (R402 names the curve and gives no
value). Free value, log entry 12. -/
opaque factoryCurve : Nat → Int

/-- FAB cycles that the n-th check of a window commit takes, before its reduction to the 20 µs of R188, which gives no
other time. Free value, log entry 16. -/
opaque checkCycles : Nat → Nat

/-- How far the journal session that the `n`-th reset or power loss cut off had come (R500 lists the steps and fixes none), before
its reduction. Free value, log entry 30. -/
opaque sessionCut : Nat → Nat

/-- Session timeout in s of a HELLO whose TIMEOUT lies above the 1 to 600 of Table 14.4, which states no effect for it. Free value,
log entry 31. -/
opaque longTimeout : Nat → Nat

/-- Slot that a CTX_COMMIT response reports for an entry whose REQ_STATE is idle, which is given none (Table 14.14). Free value,
log entry 31. -/
opaque idleSlot : Nat

/-- The blanking latency TB in ps, before its reduction to the 140 ns to 160 ns of R118. Free value, log entry 19. -/
opaque blankLatency : Nat

/-- Coefficient at odd distance `k` from the centre of half-band stage `stage` of the tributary cascade of division `div`, 17 fractional
bits (Table 4.2). R128 bounds the response that the coefficients give and names none of them. Free value, log entry 49. -/
opaque tribTap (div stage k : Nat) : BitVec 18

/-- Coefficient at odd distance `k` from the centre of the context half-band with `taps` taps, 17 fractional bits (Table 4.2). Free value,
log entry 49. -/
opaque halfTap (taps k : Nat) : BitVec 18

/-- Coefficient at distance `k` from the centre of the channel FIR of response `id`, 17 fractional bits (R142). Free value, log entry 49. -/
opaque firTap (id k : Nat) : BitVec 18

/-- Coefficient at odd distance `k` from the centre of the rate stage of a preset, 17 fractional bits (R144). Free value, log entry 49. -/
opaque rateTap (preset k : Nat) : BitVec 18

/-- Coefficient `n` of the resampler's prototype for a preset, of which phase p holds every 1,024th from p on, 17 fractional bits (R148).
Free value, log entry 49. -/
opaque protoTap (preset n : Nat) : BitVec 18

/-- Phase in ps, before its reduction to one SAMP period, of the SAMP edges of a reach against FAB at the `n`-th lock (R72). Free value,
log entry 50. -/
opaque sampPhase (n : Nat) : Nat

/-- SAMP samples from the `n`-th gain decision to its step instant, before its reduction to the 0 to 64 of R108. Free value, log entry 20. -/
opaque stepSamples (n : Nat) : Nat

/-- Coefficient `n` of the prototype of the rate converter that takes audio at `num`/`den` of the context's rate and limits it to `limit`
Hz, 17 fractional bits (R218 gives the ratio and the limit and no filter). Free value, log entry 49. -/
opaque audioTap (limit num den n : Nat) : Int

/-- Samples of the context's rate that the rate converter spans, and its fixed delay in ps (R218, R241). Free values, log entry 49. -/
opaque audioLength : Nat
opaque audioDelay : Nat

/-- Coefficient of the de-emphasis section with a time constant of `us` µs at a PCM rate, 17 fractional bits (R220 gives the corner and no
discretisation). Free value, log entry 49. -/
opaque deemph (us rate : Nat) : Int

/-- Coefficient of the mean that the envelope detector removes, 17 fractional bits (R227). Free value, log entry 49. -/
opaque amMean : Int

/-- Phase of the loop of context `c`'s demodulator (pilot or carrier) at its `n`-th output (R223, R227 name the loops and give no design).
Free value, log entry 49. -/
opaque loopPhase (c n : Nat) : BitVec 32

/-- Power in 0.01 dBm that a voltage in µV at TXDET stands for while SLOPE is 0, for which the law of R376 has no solution. Free value, log
entry 71. -/
opaque flatDetector : Int → Int

/-- Whether an assertion of STILL_N of 50 ns to 200 ns freezes the part (R576). Free value, log entry 72. -/
opaque stillFilter : Nat → Bool

/-- VERSION (bits 39:32) and DSEQ (bits 31:0) of the `n`-th thing sent, when it goes to an address that holds no session (Table 14.2). Free
value, log entry 72. -/
opaque strayHeader : Nat → BitVec 40

/-- Type of service (bits 23:16) and identification (bits 15:0) of the IPv4 header of the `n`-th thing sent (R508). Free value, log entry
72. -/
opaque ipHeader : Nat → BitVec 24

/-- MAC address to which a datagram for an address goes that is not the resolved next hop (R507, R516). Free value, log entry 72. -/
opaque strayMac : BitVec 32 → BitVec 48

/-- Time in ps of the VCO calibration that begins at a clock, before its reduction to the 110 µs of Table 10.1. Free value, log entry 71. -/
opaque vcoCalPs : Nat → Nat

/-- Weight of the difference signal at a sample time within the 20 ms in which R224 leaves its course to the engine, before its reduction
to 0 to 255. Free value, log entry 66. -/
opaque stereoRamp : Nat → Nat

/-- Trim range of a sub-ADC, of offset, gain and skew (Table 12.1 names it and no rule gives it). Free value, log entry 78. -/
opaque trimRange : Nat × Nat × Nat

end Sys2Proof.Config
end

