-- ==== Sys2Proof/Machine/State.lean ====
section
/-! DEFINITION. The state of the VTN-8140 as plain data, one structure per area of the manual, and the state after
reset. A field that mirrors a register keeps the register's word; a field in `…Ps` or `…At` is a value of `clock`, in ps. -/

namespace Sys2Proof.Machine

/-- Why the machine stops with a fault. No command of this block faults: the manual gives every one an effect. -/
inductive Fault
  /-- Raised by nothing: kept so that the type has a name to extend. Safe. -/
  | unreachable
  deriving DecidableEq, Repr

/-- Why a command has no meaning. -/
inductive Refusal
  /-- Raised by `exec` for a command whose meaning has not been written. Safe. -/
  | notModelled (mnemonic : String)
  deriving DecidableEq, Repr

/-- A context entry: the sixteen words W0 to W15 of Table 5.2 (R180). -/
abbrev Entry := Vector Word 16

/-- The all-zero entry, an IDLE context (R180). -/
abbrev Entry.zero : Entry := Vector.replicate 16 0

/-- A counter that a read subtracts from (R13): its value, what of it stood before the FAB cycle that began at `atPs`, and the increments of
that cycle. -/
structure Tally where
  n : Nat := 0
  old : Nat := 0
  new : Nat := 0
  atPs : Nat := 0
  deriving DecidableEq, Repr

/-- A bit that a written 1 clears (R13), with the clock at which an event last set it. -/
structure Latch where
  on : Bool := false
  atPs : Nat := 0
  deriving DecidableEq, Repr

/-- A complex sample of the data plane with the marks of R155; `atPs` is the clock at which the newest reach-referred sample that it
depends on was taken (R153). A real sample has `q` 0. -/
structure Sample where
  i : Int
  q : Int
  invalid : Bool := false
  marks : Marks := {}
  atPs : Nat := 0
  deriving DecidableEq, Repr

/-- The context stages of one chain (R135) under the entry that they run: NCO, CIC, half-bands, FIR, Oxbow and rate stage or
resampler. Delay lines hold the newest sample first; `pos` counts tributary samples from the last instant at which every decimation
counter stood at its start (R163). -/
structure Chain where
  entry : Entry
  /-- division of its tributary, and its NCO frequency word (R137) -/
  div : Nat
  word : BitVec 32
  /-- samples taken up to this clock belong to what ran before it (R647) -/
  fromPs : Nat
  phase : BitVec 32 := 0
  pos : Nat := 0
  acc : Vector (BitVec 66 × BitVec 66) 5 := Vector.replicate 5 (0, 0)
  comb : Vector (BitVec 66 × BitVec 66) 5 := Vector.replicate 5 (0, 0)
  /-- tributary samples for which an invalid, a blanked and an overrange mark still lie in the CIC's span -/
  cicInvalid : Nat := 0
  cicBlanked : Nat := 0
  cicOverrange : Nat := 0
  half1 : List Sample := []
  half2 : List Sample := []
  fir : List Sample := []
  rate : List Sample := []
  /-- fractional position of the resampler, 36 fractional bits (R146) -/
  frac : Nat := 0
  /-- Oxbow estimate of I and Q, 22 fractional bits (R149, Table 4.2) -/
  oxbow : Int × Int := (0, 0)
  /-- outputs still to be marked invalid since a hard change or start (R169), and since a synchronising reset (R156) -/
  left : Nat := 0
  leftSync : Nat := 0
  deriving DecidableEq, Repr

/-- What a swap changes in the chain, from its first tributary sample on (R167 to R171, R647); `restart` starts it from cleared state. -/
inductive ChainStep | retune | hard | fade | restart
  deriving DecidableEq, Repr

/-- A change that the chain has not reached: the clock that ends the FAB cycle of the swap, and the entry swapped in. -/
structure ChainDue where
  fromPs : Nat
  step : ChainStep
  entry : Entry
  deriving DecidableEq, Repr

/-- Context states in the code order of Table 5.4. -/
inductive CtxSt | idle | acquire | settling | valid | hold | migrating
  deriving DecidableEq, Repr

/-- Who made a commit: the CTX window, a QRP command, the sequencer (for AF or a scout check), the image (Table 1.8). -/
inductive Origin | window (via : Via) | qrp (id : BitVec 32) | sequencer | image
  deriving DecidableEq, Repr

/-- The slots and engine given at a commit (R190, R202): reach, first slot, slot count, engine of the reach (0 or 1),
engine of each decoded DAB subchannel, and load units on both engines. -/
structure Place where
  reach : Fin 4 := 0
  slot : Nat := 0
  slots : Nat := 0
  engine : Fin 2 := 0
  subs : List (Fin 64 × Fin 2) := []
  deriving DecidableEq, Repr

/-- A pending entry (R25, R26) with its place, its origin, and the partner of a pair commit (R207). -/
structure Pending where
  entry : Entry
  place : Place
  origin : Origin
  pair : Option (Fin 256) := none
  firstSwapped : Bool := false
  /-- it stood pending as its context entered MIGRATING (Table 1.8) -/
  early : Bool := false
  /-- the context that the commit names first, CTX of CTX_COMMIT -/
  lead : Fin 256 := 0
  /-- clock of the commit (R29) -/
  at_ : Nat := 0
  deriving DecidableEq, Repr

/-- A running fade period (R171, R172): the spare slot, the clock of its claim (R175), and the first clock at which output
s0 + V_C + 63 can have been formed. -/
structure Fade where
  spare : Place
  /-- the commit gave no other slot, so that the spare is borrowed -/
  lent : Bool := true
  claimPs : Nat := 0
  endPs : Nat := 0
  deriving DecidableEq, Repr

/-- The chain that a cross-fade brings in, the outputs supplied since s0, and the outputs of either chain that wait for the other's of the
same instant, oldest first (R171). -/
structure Mix where
  chain : Chain
  outs : Nat := 0
  old : List Sample := []
  new : List Sample := []
  deriving DecidableEq, Repr

/-- A record (Table 14.7, R518): VERSION, RETRANSMIT and SEQ are added where they are known. -/
structure Record where
  typ : Nat
  flags : BitVec 16 := 0
  ctx : Nat
  reach : Nat
  seq : BitVec 32 := 0
  stamp : Nat
  payload : List Byte
  /-- clock of its release (R511) -/
  relPs : Nat := 0
  deriving DecidableEq, Repr

/-- A record handed over by a reach and held 50 us (R451). -/
structure Held where
  record : Record
  from_ : Fin 4
  atPs : Nat
  deriving DecidableEq, Repr

/-- A record in the replay window (R524 to R526, R534). -/
structure Kept where
  record : Record
  sent : Bool
  deriving DecidableEq, Repr

/-- An event mailbox entry (Table 1.9). -/
structure MboxEntry where
  /-- clock of the post, by which posts of one FAB cycle are told (R34) -/
  atPs : Nat
  stamp : Nat
  source : Nat
  reach : Nat
  ctx : Nat
  code : Nat
  severity : Nat
  alert : Bool
  data : List Byte
  deriving DecidableEq, Repr

/-- The event mailbox and the HEALTH block (R33 to R37, R612 to R614). -/
structure Mailbox where
  /-- entries that record assembly has not yet consumed, oldest first -/
  toConsume : List MboxEntry := []
  /-- entries between the read and write pointers, oldest first -/
  pending : List MboxEntry := []
  rdPtr : Nat := 0
  captured : List Byte := List.replicate 32 0
  lost : Tally := {}
  alertPending : Bool := false
  /-- clock at which an entry or a skip last requested the alert line (R13) -/
  alertPs : Nat := 0
  alertSev : Nat := 0
  alertSkip : Bool := false
  alertThreshold : BitVec 3 := 2
  /-- CODE and clock of the last FAULT record (R489) -/
  faultPs : List (Nat × Nat) := []
  deriving DecidableEq, Repr

/-- A PCM frame (R244): its samples as Table 6.3 gives their width, and the weight of the difference signal. -/
structure PcmFrame where
  left : Int
  right : Int
  clip : Bool
  weight : Nat
  marks : Marks
  atPs : Nat
  deriving DecidableEq, Repr

/-- The audio path of an FM or AM context (R218 to R220, R227): the sample before, the audio and the difference signal that the rate
converter holds, newest first, its position, the de-emphasis sections, the mean that the envelope detector removes, the frames not yet
sent, the time of the last one sent, the clocks of the swaps of the last second (R246), and, while a landing exists, the mono audio of
the last 100 ms (R351). -/
structure Audio where
  last : Option (Int × Int) := none
  line : List (Int × Int) := []
  phase : Option Nat := none
  deemph : Int × Int := (0, 0)
  mean : Int := 0
  frames : List PcmFrame := []
  sentPs : Option Nat := none
  swaps : List Nat := []
  mono : List (Nat × Int) := []
  deriving DecidableEq, Repr

/-- A value that is confirmed when it comes twice running (R237): the last one, and the one confirmed. -/
structure Seen where
  last : Option Nat := none
  conf : Option Nat := none
  deriving DecidableEq, Repr

/-- The RDS items being built (R237): PTY, TP, TA, MS, DI bits, PS and PTYN segments, the RT text, its A/B flag and version, and the AF list
with its count. -/
structure RdsWork where
  pty : Seen := {}
  tp : Seen := {}
  ta : Seen := {}
  ms : Seen := {}
  di : Vector Seen 4 := Vector.replicate 4 {}
  ps : Vector Seen 4 := Vector.replicate 4 {}
  ptyn : Vector Seen 2 := Vector.replicate 2 {}
  ptynAb : Option Bool := none
  rtAb : Option (Bool × Bool) := none
  rt : List (Nat × List Byte) := []
  afCount : Nat := 0
  af : List Nat := []
  deriving DecidableEq, Repr

/-- A confirmed item that waits for VALID (R240): the timestamp and marks of its group, and the PI confirmed then. -/
structure Waiting where
  stamp : Nat
  pi : BitVec 16
  item : RdsItem
  marks : Marks
  deriving DecidableEq, Repr

/-- A block with a zero syndrome that the search has found (R230): bits since its last bit, offset, information word and timestamp. -/
structure RdsCand where
  age : Nat := 0
  off : RdsOffset
  info : BitVec 16
  stamp : Nat
  marks : Marks
  deriving DecidableEq, Repr

/-- FM and RDS state of a context's engine and side-data table (chapter 06). -/
structure Fm where
  carrierLock : Bool := false
  lock : Bool := false
  pilotWindow : Bool := false
  pilotKnown : Bool := false
  stereo : Bool := false
  /-- the clock at which the weight last left its law, for at most 20 ms (R224) -/
  rampPs : Option Nat := none
  /-- carrier-to-noise ratio last measured, 0.5 dB (R643) -/
  cnr : Nat := 0
  /-- carrier lock, or the start of the pilot window (R221, R223) -/
  sincePs : Nat := 0
  /-- the last 26 bits with their marks, newest last, and the bits since the last block boundary of the flywheel -/
  rdsReg : BitVec 26 := 0
  rdsMarks : List Marks := []
  rdsPos : Nat := 0
  rdsCands : List RdsCand := []
  rdsSync : Bool := false
  rdsPrev : Option RdsOffset := none
  rdsClasses : List (Fin 4) := []
  group : List (RdsOffset × BitVec 16 × Fin 4) := []
  groupStamp : Nat := 0
  groupMarks : Marks := {}
  piBad : Nat := 0
  piGood : Nat := 0
  piLost : Bool := false
  /-- the last two blocks A, newest first: information word and error class (R336, R347) -/
  blocksA : List (BitVec 16 × Fin 4) := []
  /-- ODA map, least recently confirmed first: AID and group-type code (R233) -/
  oda : List (BitVec 16 × BitVec 5) := []
  /-- the confirmed PI, and that of the last group -/
  pi : BitVec 16 := 0
  piLast : Option (BitVec 16) := none
  work : RdsWork := {}
  /-- items confirmed and last sent: code and VALUE (R238) -/
  items : List RdsItem := []
  sentItems : List RdsItem := []
  /-- items confirmed in SETTLING or HOLD (R240) -/
  waiting : List Waiting := []
  audio : Audio := {}
  pcmDiscont : Bool := false
  deriving DecidableEq, Repr

/-- AM state (R228): the detector in use, the clock of its blend, the carrier loop and the clock of its last change. -/
structure Am where
  lock : Bool := false
  syncDet : Bool := false
  blendPs : Option Nat := none
  loopLocked : Bool := false
  loopPs : Nat := 0
  deriving DecidableEq, Repr

/-- One FIG 0/1 entry (R264, Table 7.4): start, size, and profile: the table index of the short form, or 64 + 4 × option + level of the
long form; and whether EN 300 401 defines that profile and size (R265). -/
structure SubOrg where
  sub : Fin 64
  start : Nat
  size : Nat
  profile : Nat
  defined : Bool
  deriving DecidableEq, Repr

/-- The class of a subchannel (R268). -/
inductive SubClass | dabPlus | layer2 | stream | packet
  deriving DecidableEq, Repr

/-- A CIF in the time de-interleaver (R266) with its count and the clock at which it was stored. -/
structure StoredCif where
  msc : MscCif
  count : Option Nat
  atPs : Nat := 0
  deriving DecidableEq, Repr

/-- The soft bits of a CIF's FIC, those of R279 erased, with its count (R359). -/
structure StoredFic where
  soft : List Soft
  count : Option Nat
  deriving DecidableEq, Repr

/-- What a record tells of a logical frame: its timestamp and CIF count (R277), re-encoded bits that differ from the hard decisions and bits
compared (R269), the marks of the samples that bore each of its bytes and of those that bore the record's (R278), and whether it was decoded
from a sum (R359). -/
structure FrameInfo where
  stamp : Nat
  cif : Nat
  errors : Nat
  compared : Nat
  byteMarks : List Marks := []
  marks : Marks
  combined : Bool
  deriving DecidableEq, Repr

/-- A data group being assembled (R273): address, next continuity index, data, and the logical frames that carried it, oldest first. -/
structure DabGroup where
  addr : BitVec 10
  next : Fin 4
  bytes : List Byte
  frames : List FrameInfo
  deriving DecidableEq, Repr

/-- One selected DAB subchannel (R267 to R275), with the logical frames of the superframe being formed (R270). -/
structure DabSub where
  sub : Fin 64
  discont : Bool := false
  lost : Nat := 0
  sfLost : Nat := 0
  groups : List DabGroup := []
  frames : List (List Byte × FrameInfo) := []
  /-- logical frames to discard after a reconfiguration (R275) -/
  discard : Nat := 0
  /-- length of the last X-PAD of variable size that gave its contents (R274) -/
  xPadLen : Nat := 0
  deriving DecidableEq, Repr

/-- DAB state (chapter 07). -/
structure Dab where
  sync : Bool := false
  lock : Bool := false
  /-- start of the transmission frame being received, and the CIF count of its first CIF -/
  frameStamp : Option Nat := none
  frameCif : Option Nat := none
  /-- CIFs of this frame that are stored, the time de-interleaver newest first, and the CIFs stored since synchronisation (R266) -/
  inFrame : Nat := 0
  lines : List StoredCif := []
  stored : Nat := 0
  /-- the present CIF has counted as combined (Table 9.6) -/
  cifCounted : Bool := false
  fibFail : Nat := 0
  frameGood : Nat := 0
  badFrames : Nat := 0
  eid : Option Nat := none
  eidBad : Nat := 0
  eidGood : Nat := 0
  eidLost : Bool := false
  orgs : List SubOrg := []
  classes : List (Fin 64 × SubClass) := []
  /-- the next configuration, whether it is complete, the lower part of the occurrence CIF's count, and whether that CIF has come (R275,
  R276) -/
  newOrgs : List SubOrg := []
  newClasses : List (Fin 64 × SubClass) := []
  newComplete : Bool := false
  occurrence : Option Nat := none
  reached : Bool := false
  /-- the FIBs of the occurrence CIF have come, from which on the current organisation that FIGs give is the next one -/
  passed : Bool := false
  /-- lock is regained on the next PRS (Table 7.9) -/
  relock : Bool := false
  /-- soft bits of the FIC of the last four CIFs, newest first, and the counts of the CIFs to be decoded alone (R359) -/
  fic : List StoredFic := []
  alone : List Nat := []
  /-- the transmission frame whose FIC a scout decodes (R339) -/
  onlyFrame : Option Nat := none
  /-- the entries of FIG 0/21 since the first of them that has not come again (R327) -/
  fig21 : List (Nat × Nat × List Nat) := []
  subs : List DabSub := []
  undefinedPosted : List SubOrg := []
  /-- digest table of FIG_FILTER 0b01: CRC-32 and the clock it was last matched (R263) -/
  digests : List (BitVec 32 × Nat) := []
  deriving DecidableEq, Repr

/-- Main receiver states of Table 8.15. -/
inductive RxSt | off | armed | preamble | syncWait | header | payload | filtered
  deriving DecidableEq, Repr

/-- A candidate of the candidate table (R327 to R338): sources (bit 0 image, 1 side data, 2 learned), last checks. -/
structure Cand where
  carrier : Carrier
  sources : BitVec 3
  /-- clock at which the last check began -/
  checkedAt : Option Nat := none
  /-- last two checks, newest first: VERIFIED, level, clock of the end -/
  checks : List (Bool × Int × Nat) := []
  /-- scout and carrier-to-noise ratio of the last check -/
  lastBy : Fin 256 := 0
  lastCnr : Option Nat := none
  deriving DecidableEq, Repr

/-- A shadow candidate (R316): the symbols from the 16 of its detection on, an erased one without a decision, and their marks. -/
structure Candidate where
  level : Int
  foffset : Int
  stamp : Nat
  syms : List (Option Quad) := []
  raw : List EabSym := []
  marks : Marks := {}
  deriving DecidableEq, Repr

/-- One reception (R311 to R325) as its records report it. -/
structure Reception where
  level : Int := 0
  foffset : Int := 0
  detectStamp : Nat := 0
  /-- symbols from the 16 of the detection on: their decisions, an erased one without, then with their soft bits and power, an erased one as
  invalid (R320), and their marks -/
  syms : List (Option Quad) := []
  raw : List EabSym := []
  marks : Marks := {}
  /-- noise power at the detection, as a symbol's (R312) -/
  noise : Nat := 0
  syncStamp : Option Nat := none
  syncErr : Nat := 255
  header : Option (BitVec 128) := none
  blocks : List Byte := []
  cwDone : Nat := 0
  cwFail : Nat := 0
  iter : Nat := 0
  erased : Bool := false
  shadow : Bool := false
  combined : Bool := false
  /-- level and frequency offset of the partner's matched reception, where its signal-to-noise ratio is the higher (R358) -/
  pairBest : Option (Int × Int) := none
  /-- signal-to-noise ratio of the partner's matched reception at the last decoding of a sum, as power and noise (R358) -/
  pairSnr : Option (Nat × Nat) := none
  deriving DecidableEq, Repr

/-- A reception that has ended and waits for its records (R321, R325), and the message for the relay (R388). -/
structure Ended where
  rx : Reception
  status : Nat
  stage : Nat
  auth : Nat
  symbols : Nat
  other : Option Int
  endStamp : Nat
  /-- the partner of a matched pair yields the records (R358) -/
  echo : Bool := false
  /-- it brought a neighbour list, and the candidate table and the side-data list before that (Table 8.22) -/
  listed : Bool := false
  before : List Cand × Option (List Carrier) := ([], none)
  /-- the partner delivered the same message within the last second (R646) -/
  dup : Bool := false
  /-- the entry under which the reception ended -/
  entry : Entry := Entry.zero
  atPs : Nat := 0
  handedOver : Bool := false
  /-- clock at which its records were handed over, the instant of R321 -/
  handedPs : Nat := 0
  relayed : Bool := false
  deriving DecidableEq, Repr

/-- EAB state (chapter 08). -/
structure Eab where
  lock : Bool := false
  /-- lock has been lost since it was first gained (R310) -/
  lockLost : Bool := false
  st : RxSt := .off
  rx : Reception := {}
  shadow : Option Candidate := none
  /-- noise power in the equivalent noise bandwidth, as a symbol's: over the samples that gained lock, then over the last block that
  qualified (R310, R312) -/
  noise : Nat := 0
  spateAtDetect : Int := 0
  shadowRestart : Option Nat := none
  afcFrozen : Bool := false
  ended : List Ended := []
  /-- clock at which a reception last ended or was abandoned: the frame boundary of Table 1.7 -/
  endPs : Option Nat := none
  /-- clock at which the context's spate flag was last cleared (R322) -/
  spatePs : Option Nat := none
  nfBlocks : List Int := []
  nfStartPs : Nat := 0
  bursts : Nat := 0
  /-- clock of the start of the burst being received, and start and end of those of the last second (R151) -/
  burstPs : Nat := 0
  frozen : List (Nat × Nat) := []
  /-- clock since which a burst is being received, and such time in this period before it (BUSY_MS) -/
  rxPs : Nat := 0
  busyPs : Nat := 0
  deriving DecidableEq, Repr

/-- A member of a follow set (Table 13.4). -/
structure Member where
  std : BitVec 4
  chan : Bool
  response : BitVec 6
  preset : BitVec 2
  ownParam : Bool
  centre : Nat
  ident : Nat
  params : List Word
  deriving DecidableEq, Repr

/-- A landing (R344 to R348) with its chain, the outputs that its engine has not yet taken and, for I/Q blocks, those of the last second that
it has, its engine's state, the subchannels that have delivered, and whether it is receiving an EAB burst. -/
structure Landing where
  entry : Entry
  place : Place
  cand : Carrier
  started : Bool := false
  ready : Bool := false
  /-- clocks of the decision and of the start -/
  decidedPs : Nat := 0
  startedPs : Nat := 0
  pair : Option (Fin 256) := none
  chain : Option Chain := none
  outs : List Sample := []
  recent : List Sample := []
  delivered : List (Fin 64) := []
  burst : Bool := false
  fm : Fm := {}
  am : Am := {}
  dab : Dab := {}
  eab : Eab := {}
  deriving DecidableEq, Repr

/-- A run-out (R348 to R350): the old entry, place, chain, audio path and gain, the switch instant S as a clock value and as a station time,
the clock of the switch, the landing's records that wait for the old chain's last, the old chain's outputs of S and later, which only the
old audio path takes, and the landing's outputs of before S, which only its own takes. -/
structure RunOut where
  entry : Entry
  place : Place
  chain : Option Chain := none
  fm : Fm := {}
  am : Am := {}
  gain : Nat := 0
  switchPs : Nat := 0
  switchNs : Nat := 0
  sincePs : Nat := 0
  waiting : List Built := []
  late : List Sample := []
  early : List Sample := []
  deriving DecidableEq, Repr

/-- Service-following state of a context, and of a scout (chapter 09). -/
structure Follow where
  cands : List Cand := []
  /-- the list that side data last confirmed (R327) -/
  side : Option (List Carrier) := none
  learned : List Carrier := []
  learnedDirty : Bool := false
  learnedAt : Option Nat := none
  landing : Option Landing := none
  runOut : Option RunOut := none
  /-- an AF change committed as an ordinary change (R345) waits for its swap -/
  hard : Option Carrier := none
  lastSwitch : Option Nat := none
  holdSince : Option Nat := none
  /-- a scout's running check: followed context and candidate, and the clock of the scout's swap -/
  check : Option (Fin 256 × Carrier) := none
  checkPs : Nat := 0

  /-- where the span of the last record of each type ended (R350) -/
  spans : List (Nat × Nat) := []
  deriving DecidableEq, Repr

/-- A message that a pair has delivered (R646): what tells it, its clock, and the member, false the record context. -/
structure Delivered where
  origin : Nat
  slot : Nat
  counter : Nat
  pcrc : Nat
  atPs : Nat
  member : Bool
  deriving DecidableEq, Repr

/-- A change of selection whose records are being divided (R361): the member selected before, the switch instant, the clock, and the new
member's records that wait for the old one's last. -/
structure Turn where
  old : Fin 256
  switchNs : Nat
  sincePs : Nat
  waiting : List Built := []
  deriving DecidableEq, Repr

/-- Twin state, held with the record context of a pair (R354 to R363). -/
structure Twin where
  validSet : BitVec 2 := 0
  selected : Option Bool := none
  decoder : Option Bool := none
  combined : Nat := 0
  aloneNext : Bool := false
  /-- messages of the last second (R646) -/
  delivered : List Delivered := []
  /-- a change of selection under way, and what the member not selected built in the last second, with its clock (R361) -/
  turn : Option Turn := none
  recent : List (Nat × Built) := []
  deriving DecidableEq, Repr

/-- The division of PCM frames and I/Q samples at a switch or a change of selection (R350, R361): frames of before `pcmPs` and samples of before
`iqPs` come from the old chain or member. From the clock of the change on, later ones wait until the old one has reached that instant, the
samples in `wait`. -/
structure Gate where
  pcmPs : Nat
  iqPs : Nat
  sincePs : Nat
  pcmOpen : Bool := false
  iqOpen : Bool := false
  wait : List Sample := []
  deriving DecidableEq, Repr

/-- The state that a context's snapshot carries (R204, R280, R458). -/
structure Snapshot where
  fm : Fm
  am : Am
  dab : Dab
  gain : Nat
  deriving DecidableEq, Repr

/-- One context (chapter 05). -/
structure Ctx where
  /-- the shadow copy (R25, Table 1.5): the entry last handed over for a commit -/
  shadow : Entry := Entry.zero
  active : Entry := Entry.zero
  pending : Option Pending := none
  /-- image entry held until its reach is ready (R211) -/
  held : Option Entry := none
  st : CtxSt := .idle
  /-- HOLD by REQ_STATE (Table 5.5, "paused by command") -/
  paused : Bool := false
  /-- SETTLING only for the invalid outputs of a hard change (Table 5.5) -/
  resettle : Bool := false
  /-- outputs marked invalid, not yet followed by a valid one (R156, R157, R169) -/
  invalid : Bool := true
  place : Option Place := none
  /-- the chain in the held slot, the changes that it has not reached, and its outputs in the context's buffer, oldest first (R200) -/
  chain : Option Chain := none
  mix : Option Mix := none
  /-- the chain that a swap to another tributary ends, for the samples taken up to a clock (R647) -/
  ending : Option (Chain × Nat) := none
  due : List ChainDue := []
  outs : List Sample := []
  /-- first clock at which an output after those marked invalid can have been formed (R156, R157, R169) -/
  validPs : Nat := 0
  fade : Option Fade := none
  snap : Option Snapshot := none
  /-- samples erased until the end of an engine restart or by a memory error (R642, Table 12.3) -/
  erased : Bool := false
  /-- its engine state is restored from the snapshot at the next round (Table 12.3) -/
  restoreDue : Bool := false
  /-- waits for its own reach after a failure (R456, R461) -/
  waiting : Bool := false
  /-- placed by a migration that has not ended for it (R457, R460) -/
  placed : Bool := false
  /-- clock of the decision that placed it: the contexts of reaches that fail in one cycle are placed in one pass (Table 12.2) -/
  movedPs : Nat := 0
  /-- the reach and tributary that it left then -/
  movedFrom : Option (Fin 4 × Fin 8) := none
  /-- its records of the last 50 us and the one before them, newest first: clock of the hand-over and time of the last sample (R460) -/
  sentEnds : List (Nat × Nat) := []
  /-- time of the first valid output formed since it was placed (R460) -/
  firstAt : Option Nat := none
  /-- context AGC gain in 0.25 dB steps, 0 to 384 (R181) -/
  gain : Nat := 0
  spateFlag : Bool := false
  spateLevel : Int := -255
  /-- the average A of E in 2^-24 of 0.5 dB, none before the first E (R116) -/
  spateAvg : Option Int := none
  /-- demodulator input of the last round (R181) -/
  demod : List (Int × Int) := []
  /-- level of the measurement windows of the last 100 ms, newest first, 0.1 dB against the reach-referred reference level (R338) -/
  levels : List (Nat × Int) := []
  /-- clocks of the last frame boundary and of the last tick reported (R346, R348, R363) -/
  boundaryPs : Option Nat := none
  tickPs : Option Nat := none
  fm : Fm := {}
  am : Am := {}
  dab : Dab := {}
  eab : Eab := {}
  follow : Follow := {}
  twin : Twin := {}
  /-- records released: SEQ of the next one is this modulo 2^32 (R197, R520) -/
  released : Nat := 0
  /-- output instants since the context left IDLE (Table 14.10) -/
  iqIndex : BitVec 32 := 0
  iqBuf : List (Int × Int) := []
  iqFirst : BitVec 32 := 0
  iqStamp : Nat := 0
  iqMarks : Marks := {}
  iqDiscont : Bool := false
  /-- a sample has been put into a block since the context left IDLE -/
  iqSent : Bool := false
  /-- time of the first sample after the last one put into a block (R362) -/
  iqEndPs : Option Nat := none
  /-- samples of the last second of a pair's member that does not deliver (R361, R362) -/
  iqKept : List Sample := []
  /-- a division of frames and samples under way -/
  gate : Option Gate := none
  /-- record types whose next record carries DISCONT (R460, R642) -/
  discont : List Nat := []
  deriving DecidableEq, Repr

/-- Reach states with the codes of Table 17.13. -/
inductive ReachSt | disabled | bringup | ready | failed | retired | stopped
  deriving DecidableEq, Repr

/-- The blanking interval of a reach (R118, R122): the clock it began, and that of the release of the last source. -/
inductive Blank | none | on (fromPs : Nat) | tail (fromPs sincePs : Nat)
  deriving DecidableEq, Repr

/-- One tributary (R127 to R133): its NCO phase, the samples taken since its decimation counters stood at their start, the delay lines
of its half-band stages, and the outputs still to be marked invalid. -/
structure Trib where
  reg : Word := 0
  nco : BitVec 32 := 0
  pos : Nat := 0
  lines : List (List Sample) := []
  left : Nat := 28
  /-- clock of the last write or reset (R156) -/
  startPs : Nat := 0
  spateFlag : Bool := false
  /-- last spate level, 0.5 dB against the reach-referred reference level -/
  spateLevel : Int := -255
  /-- the average A of E in 2^-24 of 0.5 dB, none before the first E (R116) -/
  spateAvg : Option Int := none
  deriving DecidableEq, Repr

/-- A gain step decided and not yet in force (R108): the clock of the decision, that of the step instant, and the gain state. -/
structure GainStep where
  decidedPs : Nat
  atPs : Nat
  lna : BitVec 2
  attn : BitVec 5
  gain : Int
  deriving DecidableEq, Repr

/-- What meets the reach's samples at an instant: a new multiplier (R108), a synchronising reset (R163), a tributary written (R133). -/
inductive FrontEvent | gain (m : Nat) | sync | trib (n : Fin 8)
  deriving DecidableEq, Repr

/-- The AGC, spate and blanking registers as they are in force: written values wait for the reach to be ready (R79), the LNA step and
attenuation of MANUAL among them. -/
structure FrontRegs where
  agc : Word := 0x0060C183
  attn : Option (BitVec 2 × BitVec 5) := none
  agcTime : Word := 0x0000640A
  spate : Word := 0x0000500A
  blankTail : BitVec 8 := 0
  blankCtl : BitVec 3 := 5
  deriving DecidableEq, Repr

/-- The kinds of maintenance activity (R424). -/
inductive ActKind | recal | absolute | selftest | migration
  deriving DecidableEq, Repr

/-- A tone whose level rises at 2 dB/ms from `low` to `high` and falls at that rate from `downPs` on; levels in 0.01 dB (R408, R413, R428). -/
structure RampTone where
  low : Int
  high : Int
  risePs : Nat
  downPs : Option Nat := none
  deriving DecidableEq, Repr

/-- What a point gave (R413): correction and residual in 0.01 dB, signal-to-noise ratio of the tone in 0.5 dB. -/
structure PointResult where
  corr : Int
  residual : Int
  snr : Nat
  deriving DecidableEq, Repr

/-- A calibration point of a set: frequency in kHz, correction in 0.01 dB. -/
structure CalPoint where
  freq : Nat
  corr : Int
  deriving DecidableEq, Repr

/-- A calibration set (chapter 11, "Calibration sets"). -/
structure CalSet where
  points : List CalPoint
  temp : Int
  gen : Nat
  host : Bool := false
  deriving DecidableEq, Repr

/-- A maintenance activity, running or queued, with the QRP commands that asked for it (R425, R543) and its progress. -/
structure Activity where
  kind : ActKind
  cmds : List (BitVec 32) := []
  /-- absolute calibration: point frequencies still to be measured, kHz, and P_c in 0.01 dBm -/
  points : List Nat := []
  level : Int := 0
  /-- blocks kept of the point being measured: power in 0.01 dB and signal-to-noise ratio in 0.5 dB -/
  blocks : List (Int × Nat) := []
  /-- clocks at which the run, the point and its present block began -/
  startedPs : Nat := 0
  pointPs : Nat := 0
  blockPs : Nat := 0
  /-- the point's end, none NOT_MEASURED, while its injection ramps down and until its switch opens (R413, R414) -/
  outcome : Option (Option PointResult) := none
  /-- the borrowed slot of the point being measured, and the clock since which none is free (R413, R415) -/
  slot : Option Nat := none
  noSlotPs : Option Nat := none
  /-- pipelines that had a free slot as a self-test began (R422) -/
  tested : List (Fin 8) := []
  /-- junction temperature at the end of the run (R416) -/
  temp : Int := 0
  measured : List CalPoint := []
  skipped : Nat := 0
  gainErr : Option Int := none
  snr : Nat := 255
  /-- new step table of a recalibration (R408) -/
  table : Option StepTable := none
  /-- results are ready and wait for the commit point (R403) -/
  ready : Bool := false
  deriving DecidableEq, Repr

/-- A host operation on a set that waits for the commit point of its reach (R403, R420, R421). -/
inductive CalOp | apply (node : Fin 5) (set : CalSet) (store : Bool) (cmd : BitVec 32) | rollback (node : Fin 5) (store : Bool) (cmd : BitVec 32)
  deriving DecidableEq, Repr

/-- The front end, chain and maintenance state of one reach (chapters 03, 04, 11, 12). -/
structure Reach where
  st : ReachSt := .disabled
  /-- declared failed and not yet restored (R462) -/
  repair : Bool := false
  pll : Bool := false
  /-- clocks since which the lines PLL_LOCK and FIFO_ALIVE are low, as a proposal on them has found (R436) -/
  pllLowPs : Option Nat := none
  fifoLowPs : Option Nat := none
  adc : Bool := false
  pass : Bool := false
  /-- clock at which the ADC settled and the initial fallow pass began (R76) -/
  passPs : Nat := 0
  /-- clock at which the reach must report ready (R76, R77) -/
  deadlinePs : Option Nat := none
  /-- catchment ranges in kHz (R49, R616) -/
  catch_ : List (Nat × Nat) := []
  /-- SAMP edges fall at this clock phase, 0 to 319 ps, and at every 320 ps from it; index of the next sample to be taken in -/
  gridPs : Nat := 0
  next : Nat := 0
  /-- the multiplier M of the sample being taken in, 9 fractional bits (R107), and what meets the samples not yet taken in -/
  mult : Nat := 256608
  events : List (Nat × FrontEvent) := []
  /-- the AGC, spate and blanking registers as written, and as in force (R79) -/
  regs : FrontRegs := {}
  live : FrontRegs := {}
  lna : BitVec 2 := 0
  attn : BitVec 5 := 30
  gain : Int := -30
  step : Option GainStep := none
  quietPs : Nat := 0
  lastRisePs : Option Nat := none
  oneShot : Bool := false
  clipDone : Bool := false
  discardPeak : Bool := false
  deferred : Option Int := none
  peak : BitVec 8 := 0xFF
  mean : BitVec 8 := 0xFF
  stepTable : StepTable := {}
  ovrWindows : Tally := {}
  ovrThis : Bool := false
  atMin : Latch := {}
  ovrPostPs : Option Nat := none
  blankCount : BitVec 16 := 0
  blank : Blank := .none
  /-- blanked sample instants of intervals that have ended, from and to, which samples not yet taken in may still meet -/
  blankLog : List (Nat × Nat) := []
  satEvents : Tally := {}
  hardChanges : Tally := {}
  syncCount : BitVec 16 := 0
  tribs : Vector Trib 8 := Vector.replicate 8 {}
  deriving DecidableEq, Repr

/-- The fallow rotation of a reach (R111 to R115, R404 to R406, R465). -/
structure Fallow where
  /-- returned sub-ADCs whose new trims wait for the end of a burst (R113) -/
  waiting : List (Fin 17 × TrimError) := []
  index : Fin 17 := 0
  /-- the sub-ADC that serves each of the 16 time slots of the interleave (R111) -/
  slots : Vector (Fin 17) 16 := Vector.ofFn (fun k => ⟨k.val + 1, by omega⟩)
  rotations : BitVec 16 := 0
  periods : Nat := 0
  /-- clock of the last period boundary (R114) -/
  boundPs : Nat := 0
  trims : Vector TrimError 17 := Vector.replicate 17 ⟨0, 0, 0⟩
  /-- the last measurement of R404 and its sub-ADC -/
  lastError : Option (Fin 17 × TrimError) := none
  /-- clocks between which the fallow sub-ADC's input is switched to the replica, of the last sweep (R408, R409) -/
  sweep : Option (Nat × Nat) := none
  retired : Option (Fin 17 × Bool) := none
  deriving DecidableEq, Repr

/-- Warden of a reach (R437, R444). -/
structure Warden where
  failed : Bool := false
  retired : Bool := false
  restarting : Bool := false
  failPs : List Nat := []
  /-- sub-ADC faults of its reach that it reports on SUBADC: index, drift (R436, R438) -/
  subadc : List (Fin 17 × Bool) := []
  /-- watchdog events of the last 10 s that the engines of its reach have reported, newest first: engine and clock (R201, R438) -/
  overruns : List (Fin 8 × Nat) := []
  /-- engines with a watchdog event that no recovery has answered (R436) -/
  wdog : List (Fin 8) := []
  /-- its reach's last self-test found a mismatch (R423, R436) -/
  stest : Bool := false
  /-- ECC_UE: an uncorrectable error was read in the reach's engine memory or reach buffer (R436) -/
  ue : Bool := false
  deriving DecidableEq, Repr

/-- Maintenance and failure bookkeeping of a reach (chapters 11, 12). -/
structure Upkeep where
  running : Option Activity := none
  queue : List Activity := []
  ops : List CalOp := []
  temp : Int := 0
  /-- clock of the last reading (R398) -/
  tempPs : Option Nat := none
  /-- junction temperature at the last completed recalibration (R407) -/
  tempAtRecal : Option Int := none
  tempPostPs : Option Nat := none
  spur : BitVec 16 := 0x8000
  gainErr : BitVec 16 := 0x8000
  /-- sets in force and previous generations at nodes 0 to 4 -/
  sets : Vector (Option CalSet) 5 := Vector.replicate 5 none
  prev : Vector (Option CalSet) 5 := Vector.replicate 5 none
  /-- journal sets that wait for the commit point of R82 -/
  replayed : List (Fin 5 × CalSet × Option CalSet) := []
  onFactory : Bool := false
  failPs : List Nat := []
  /-- the CALIN injection of a closed switch, referred to CALIN in 0.01 dBm; none: the switch is open (R413, R414) -/
  inject : Option RampTone := none
  /-- the last anchor tone, 0.01 dBFS (R408, R410) -/
  anchor : Option RampTone := none
  deriving DecidableEq, Repr

/-- A proposal under vote (R440 to R442). -/
structure Proposal where
  proposer : Option (Fin 4)
  reach : Fin 4
  act : Action
  lines : BitVec 7
  ident : Nat
  drift : Bool
  evidence : Nat
  raisedPs : Nat
  votes : List (Option (Fin 4)) := []
  lapses : Nat := 0
  disputed : Bool := false
  /-- under vote; a lapsed proposal stays for its count of lapses (R441) -/
  live : Bool := true
  deriving DecidableEq, Repr

/-- An engine (R200, R201, R642, Table 17.16). -/
structure Engine where
  restarting : Bool := false
  /-- clock of the decision that restarts it -/
  restartPs : Nat := 0
  lostPage : Bool := false
  /-- an uncorrectable error was read in its runtime area, and no restart has followed (Table 12.3) -/
  ue : Bool := false
  wdog : Tally := {}
  deriving DecidableEq, Repr

/-- The two classes of journal work that are not appends. -/
inductive FlashOp | read (addr : Nat) | program (addr : Nat) (bytes : List Byte) | erase4k (addr : Nat) | erase64k (addr : Nat)
  deriving DecidableEq, Repr

/-- A journal session (R38 to R42): class of Table 1.10 and the work. -/
inductive Job
  | append (cls : Nat) (typ : Nat) (key : Nat) (payload : List Byte)
  | compact (cls : Nat)
  | flash (op : FlashOp)
  deriving DecidableEq, Repr

/-- A journal request with whether the JOURNAL window waits for its outcome (R39). -/
structure Session where
  job : Job
  window : Bool := false
  deriving DecidableEq, Repr

/-- The Fen journal and the JOURNAL block (chapter 13). -/
structure Journal where
  ready : Bool := false
  noJournal : Bool := false
  failed : Bool := false
  running : Option Session := none
  queue : List Session := []
  /-- the arbiter's own compaction waits (R42, R498) -/
  compactDue : Bool := false
  failedCompactions : Nat := 0
  base : Nat := 0
  bank : Fin 2 := 0
  gen : BitVec 32 := 0
  seq : BitVec 32 := 0
  /-- bytes used in the active bank -/
  fill : Nat := 0
  arg : Word := 0
  result : Nat := 0
  rTyp : Nat := 0
  rKey : Nat := 0
  rLen : Nat := 0
  rSeq : BitVec 32 := 0
  rd : List Byte := List.replicate 256 0
  wd : Vector Word 64 := Vector.replicate 64 0
  busy : Bool := false
  deriving DecidableEq, Repr

/-- The configuration image as the part holds it (chapter 13). -/
structure Image where
  accepted : Bool := false
  refused : Bool := false
  cause : Nat := 0
  checkReason : Nat := 0
  format : Nat := 0
  discRetry : Bool := false
  fast : Bool := false
  authOk : Bool := false
  ident : BitVec 32 := 0
  at_ : Nat := 0
  /-- length of the image region, with CRC and tag, and whether the host's writes have changed it since acceptance (R502) -/
  bytes : Nat := 0
  changed : Bool := false
  modules : List (Nat × Nat) := []
  /-- module IDs in the program store with their versions (R611) -/
  versions : List (Nat × Nat) := []
  followSets : List (Fin 256 × List Member) := []
  revertive : Bool := false
  restoreS : Nat := 10
  ref1 : Bool := true
  ref2 : Bool := true
  windows : List (Nat × Nat) := []
  stillOk : Bool := false
  deriving DecidableEq, Repr

/-- OTP store and fuses, and the KEYS block (R484 to R486). -/
structure Keys where
  slots : Vector (Option (BitVec 128)) 8 := Vector.replicate 8 none
  /-- slots with some bit programmed and no usable key (Table 15.5) -/
  spoiled : BitVec 8 := 0
  authBlown : Bool := false
  stillBlown : Bool := false
  authInEffect : Bool := false
  stillInEffect : Bool := false
  data : Vector Word 4 := Vector.replicate 4 0
  dataPs : Option Nat := none
  /-- operation running: 1 program SLOT, 2 AUTH_REQ, 3 STILL_OFF; slot; key -/
  busy : Option (Nat × Fin 8 × BitVec 128) := none
  result : Nat := 0
  deriving DecidableEq, Repr

/-- Bring-up phase (R74, R75): held in reset, released, references classified, Confluence PLL locked. -/
inductive Phase | held | released | classified | locked
  deriving DecidableEq, Repr

/-- Doze state (R53 to R56, R88 to R95). -/
structure Doze where
  requested : Bool := false
  exitRequested : Bool := false
  inDoze : Bool := false
  fabAwake : Bool := true
  lastTwPs : Nat := 0
  scheduleEn : Bool := false
  /-- the host has left the current window (R90) -/
  suppressed : Bool := false
  deriving DecidableEq, Repr

/-- Reference state (R58 to R69, Table 2.8). -/
structure Refs where
  ok1 : Bool := false
  ok2 : Bool := false
  /-- 0 none, 1 REFCLK, 2 REFCLK2 -/
  active : Nat := 0
  freq : BitVec 2 := 0
  holdover : Bool := false
  noRef : Bool := false
  /-- station time at which the last holdover without a reference ended (Table 14.8, HOLDOVER) -/
  noRefEnd : Option Nat := none
  switches : Nat := 0
  restoreFrom : Option Nat := none
  ignore2 : Bool := false
  /-- clock of the last switch, from which the phase error against the new reference counts (R64) -/
  switchPs : Nat := 0
  /-- frequency words of the PLLs of Reaches A to D and of the Confluence, averaged over 100 ms, that they hold in holdover (R62) -/
  words : Vector Nat 5 := Vector.replicate 5 0
  /-- station time of the last good edge, and the code to be posted at the holdover exit, 0 none (Table 2.2) -/
  lastEdge : Nat := 0
  postCode : Nat := 0
  deriving DecidableEq, Repr

/-- A synchronising reset under way (R158 to R166). -/
structure Sync where
  pinEn : Bool := true
  /-- clock of a reference tick, and the ticks in a row at which SYNC_N was found released (R159) -/
  tick0 : Nat := 0
  released : Nat := 0
  /-- requests: requester 0 SYNC_N, 1 GO, 2 QRP, and the sync edge -/
  pending : List (Nat × Nat) := []
  lastEdge : Option Nat := none
  deriving DecidableEq, Repr

/-- The backup domain and RTC block (chapter 16). -/
structure Rtc where
  seconds : Nat := 0
  fracPs : Nat := 0
  timeLost : Bool := true
  oscStopped : Bool := false
  vbatLow : Bool := false
  /-- clock of the last measurement of VBAT (R589) -/
  vbatPs : Option Nat := none
  onVbat : Bool := false
  calWrap : Latch := {}
  summer : Bool := false
  offset : BitVec 8 := 0
  trim : Int := 0
  trimEndNs : Nat := 0
  swValid : Latch := {}
  swStamp : Nat := 0
  swCount : Nat := 0
  returned : Option (Nat × Nat) := none
  lastSwitchNs : Nat := 0
  lostReport : Bool := true
  /-- reports of events in doze or before FAB runs: station time and payload (R606, Table 16.6) -/
  reports : List (Nat × List Byte) := []
  setHi : BitVec 8 := 0
  setLo : Word := 0
  staged : Option (Nat × Nat) := none
  /-- a staged write that CANCEL discarded, with the clock of the CANCEL (Table 16.6) -/
  cancelled : Option (Nat × Nat × Nat) := none
  offsetNext : Option (BitVec 8) := none
  summerNext : Option Bool := none
  /-- RDS CT for autoset: CT time and the station time of its minute edge, and the clock it was confirmed (R599) -/
  autoset : Option (Nat × Nat × Nat) := none
  lastErr : BitVec 16 := 0x8000
  ctrl : Word := 0x0000003C
  winStartNs : Nat := 0
  winState : Nat := 0
  /-- first and last source event of the window: station time in ns and source time in thirds of 1 ns, and their count -/
  srcFirst : Option (Nat × Nat) := none
  srcLast : Option (Nat × Nat) := none
  srcCount : Nat := 0
  mainsLast : Option Nat := none
  holding : List Word := [0, 0, 0, 0, 0, 0]
  deriving DecidableEq, Repr

/-- The CTX window (R205 to R209, Tables 5.9 to 5.15). -/
structure Window where
  ctx : Fin 256 := 0
  pairCtx : Fin 256 := 0
  copy : BitVec 2 := 0
  busyUntil : Nat := 0
  reason : Nat := 0
  resultCtx : Fin 256 := 0
  count : BitVec 8 := 0
  spateFlag : Bool := false
  spateLevel : BitVec 8 := 0xFF
  seq : BitVec 32 := 0
  stage0 : Vector Word 16 := Vector.replicate 16 0
  stage1 : Vector Word 16 := Vector.replicate 16 0
  deriving DecidableEq, Repr

/-- The CAL block's registers (Tables 11.5 to 11.12). -/
structure Cal where
  ctrl : Word := 0x84000000
  absLevel : BitVec 16 := 0xF060
  setSel : Word := 0
  winValid : Bool := false
  winHost : Bool := false
  winCount : BitVec 5 := 0
  winTemp : BitVec 8 := 0
  winGen : BitVec 16 := 0
  absF : Vector Word 16 := Vector.replicate 16 0
  setF : Vector Word 16 := Vector.replicate 16 0
  setO : Vector Word 16 := Vector.replicate 16 0
  deriving DecidableEq, Repr

/-- Synthesiser and driver states of Table 10.2. -/
inductive TxSt | off | calibrating | settling | locked | rampUp | onAir | rampDown
  deriving DecidableEq, Repr

/-- Where a transmission came from (Table 10.5): QRP, two-wire, relay from a context with its burst's end. -/
inductive TxSource | qrp (id : BitVec 32) | twoWire | relay (c : Fin 256) (burstEnd : Nat)
  deriving DecidableEq, Repr

/-- An accepted transmission with the burst built at acceptance (R381, R389): header word, payload block, whitened
symbols-worth of coded bits, and its times in clock ps. -/
structure Tx where
  source : TxSource
  tone : Bool
  carrier : Nat
  channel : Bool
  level : Nat
  duration : Nat := 0
  due : Nat
  latest : Option Nat
  txId : Nat := 0
  origin : Nat := 0
  vtype : Nat := 0
  hop : Nat := 0
  format : Nat := 0
  counter : BitVec 32 := 0
  header : BitVec 128 := 0
  bits : List Bool := []
  coex : Bool := false
  order : Nat := 0
  deriving DecidableEq, Repr

/-- The head transmission while BLANK_OUT is asserted for it or it is on air (R372 to R387). -/
structure OnAir where
  tx : Tx
  /-- clocks of the assertion of BLANK_OUT and of the ramp-down start (R372, R386) -/
  blankPs : Nat := 0
  downPs : Nat := 0
  started : Bool := false
  startNs : Nat := 0
  startPs : Nat := 0
  corr : Option Int := none
  /-- REASON of the final response when an abort ends it (R537) -/
  abortReason : Nat := 1
  cxAsked : Nat := 0
  cxOk : Bool := false
  level : Option Int := none
  fallback : Bool := false
  limited : Bool := false
  status : Nat := 0
  down : Bool := false
  deriving DecidableEq, Repr

/-- A relayed transmission whose confirmation is awaited (R393). -/
structure Watch where
  tx : Tx
  status : Nat
  startNs : Nat
  rampEndPs : Nat
  deriving DecidableEq, Repr

/-- The Outfall and the eddy relay (chapter 10). -/
structure Outfall where
  ready : Bool := false
  st : TxSt := .off
  carrier : Nat := 0
  retuneTo : Option Nat := none
  retunePs : Nat := 0
  /-- clock of the last lock (R383) -/
  lockPs : Nat := 0
  calCarrier : Nat := 0
  calTemp : Int := 0
  forceCal : Bool := false
  queue : List Tx := []
  order : Nat := 0
  air : Option OnAir := none
  lastEndPs : Nat := 0
  lastLevel : BitVec 8 := 0x80
  fallback : Latch := {}
  limit : Latch := {}
  /-- stored corrections of the bands 136 to 174, 400 to 470 and 87.5 to 108 MHz, 0.01 dB (R379) -/
  corr : Int × Int × Int := (0, 0, 0)
  ctrl : Word := 0x08000000
  txdet : Word := 0xF06061A8
  timing : Word := 0x00000A05
  rest : Word := 0x081B3200
  toneLevel : BitVec 8 := 0
  toneDur : BitVec 16 := 100
  toneFreq : Word := 0x081B3200
  rCtrl : Word := 0x0000FF00
  rFreq : Word := 0x081B3200
  rTiming : Word := 0x06400019
  rSrc : Word := 0xFFFFFFFF
  rTypes : Word := 0x0000011E
  forwarded : BitVec 16 := 0
  refused : BitVec 16 := 0
  cache : List (Nat × Nat × Nat) := []
  /-- messages queued by the relay in its last FAB cycle: clock, source context and key (Table 10.7) -/
  taken : List (Nat × Fin 256 × Nat × Nat × Nat) := []
  /-- relayed transmissions whose confirmation is awaited, oldest first (R393) -/
  watches : List Watch := []
  /-- relayed transmissions that LBT holds, by their order of acceptance (R392) -/
  lbtHeld : List Nat := []
  /-- clock at which BLANK_OUT was last asserted (R372) -/
  blankPs : Nat := 0
  deriving DecidableEq, Repr

/-- One entry of the replay table of R304: key, highest accepted counter, window, changed since the last journal session. -/
structure ReplayKey where
  origin : Nat
  slot : Nat
  highest : Nat
  window : BitVec 32
  dirty : Bool := true
  deriving DecidableEq, Repr

/-- A QRP command as the session knows it (R536 to R539). -/
structure Cmd where
  id : BitVec 32
  op : Nat
  /-- SESSION under which the command came -/
  session : Nat := 0
  /-- 0 COMPLETED, 1 ABORTED, 2 ACCEPTED, 3 BUSY, 4 REFUSED (Table 14.16) -/
  status : Nat
  reason : Nat
  deriving DecidableEq, Repr

/-- A datagram or frame the part has sent (Table 14.3, R507, R508). -/
inductive Frame
  | records (version dseq : Nat) (recs : List Record)
  | helloAck (to_ : Peer) (version dseq : Nat) (ident imageId : Word) (session now queued : Nat)
  | helloReject (to_ : Peer) (reason lowest highest : Nat)
  | bye (to_ : Peer) (reason : Nat)
  | nakMiss (version dseq : Nat) (entries : List (BitVec 16 × Nat × Nat × BitVec 32))
  | arpReply (to_ : BitVec 32) (mac : BitVec 48)
  | arpRequest (for_ : BitVec 32)
  | gratuitousArp
  | echoReply (to_ : BitVec 32) (mac : BitVec 48) (ident seq : BitVec 16) (payload : List Byte)
  deriving DecidableEq, Repr

/-- A session (R514). -/
structure QSession where
  peer : Peer
  version : Nat
  timeoutS : Nat
  mask : BitVec 128
  lastRxPs : Nat
  deriving DecidableEq, Repr

/-- The host port (chapter 14). -/
structure HPort where
  link : Bool := false
  anDone : Bool := false
  session : Option QSession := none
  sessions : Nat := 0
  dseq : Nat := 0
  lastTxPs : Nat := 0
  /-- next hop: address, resolved MAC and clock of the resolution; requests sent and clock of the last (R507) -/
  nextHop : Option (BitVec 32 × BitVec 48 × Nat) := none
  arpTries : Nat := 0
  arpPs : Nat := 0
  /-- a HELLO_ACK waits for the next hop -/
  ackDue : Bool := false
  byeSent : List (Peer × Nat) := []
  rxDiscards : Tally := {}
  nakMisses : Tally := {}
  recordsLost : Nat := 0
  movedUnsent : Nat := 0
  overflowPs : Option Nat := none
  lostSincePost : Nat := 0
  lostPs : Option Nat := none
  ctrl : Word := 0x280A03E8
  mac : BitVec 48 := 0x02504D000000
  macNext : BitVec 48 := 0x02504D000000
  ip : Word := 0
  mask : Word := 0
  gw : Word := 0
  port : Word := 0x05C05152
  cmds : List Cmd := []
  /-- lifecycle commands of any session not yet ended (R538, R548): CMD_ID and OP -/
  open_ : List Cmd := []
  /-- ABORT commands whose response waits for their target's final one (R546): target, ABORT's CMD_ID, and whether it decides -/
  abortWaits : List (BitVec 32 × BitVec 32 × Bool) := []
  /-- what has been sent, and the Ethernet frames that carried it (R505, R508) -/
  sent : List Frame := []
  wire : List (List Byte) := []
  deriving DecidableEq, Repr

/-- The two-wire target (chapter 15). -/
structure Tw where
  ready : Bool := false
  pins : BitVec 3 := 0
  hostMax : BitVec 8 := 0
  active : Nat := 1
  pec : Bool := false
  ctrl : Word := 0x000A0800
  addr : Word := 0
  attr : Word := 0
  /-- TW_CTRL and TW_ADDR as the addresses answered follow them (R556) -/
  liveCtrl : Word := 0x000A0800
  liveAddr : Word := 0
  sdaReleases : Tally := {}
  pecErrors : Tally := {}
  araLost : Tally := {}
  next : Addr := 0
  ignoring : Bool := false
  acked : List Bool := []
  /-- bytes of the transaction so far, which the PEC covers (R562), and those that the part has sent in it -/
  bus : List Byte := []
  sent : List Byte := []
  araByte : Option Byte := none
  deriving DecidableEq, Repr

/-- Stillwater freeze (R575 to R583): `rtc` is the RTC block of the freeze instant. -/
structure Still where
  frozen : Bool := false
  byCmd : Bool := false
  time : Nat := 0
  region : BitVec 5 := 0
  offset : BitVec 13 := 0
  ue : Bool := false
  rtc : Option Rtc := none
  count : Nat := 0
  deriving DecidableEq, Repr

/-- TMR copies of the control logic (R446 to R448). -/
structure Tmr where
  differs : BitVec 3 := 0
  /-- clock at which a copy came to disagree (R447) -/
  sincePs : Vector Nat 3 := Vector.replicate 3 0
  retired : BitVec 3 := 0
  rewrites : List (Fin 3 × Nat) := []
  deriving DecidableEq, Repr

/-- ECC counters per region (R449). -/
structure Ecc where
  counts : Vector Nat 4 := Vector.replicate 4 0
  postPs : Vector (Option Nat) 4 := Vector.replicate 4 none
  scrubPs : Nat := 0
  badPages : List Nat := []
  deriving DecidableEq, Repr

/-- Supply monitors (R627) and the pins the part drives or senses. -/
structure Pins where
  supplyNow : BitVec 6 := 0
  supplyLatched : Vector Latch 6 := Vector.replicate 6 {}
  supplyPostPs : Vector (Option Nat) 6 := Vector.replicate 6 none
  /-- the 1.8 V class of VDD_IOQ (bit 0) and VDD_IOC (bit 1), taken at power-up (chapter 18, "Operating conditions") -/
  bank18 : BitVec 2 := 0
  /-- the power-on hold of R625, and RESET_N asserted -/
  porHold : Bool := true
  resetN : Bool := false
  blankIn : Bool := false
  blankOut : Bool := false
  cxReq : Bool := false
  cxGnt : Bool := false
  driver : Bool := false
  deriving DecidableEq, Repr

/-- What is fixed at manufacture (R1, R610): variant, grade (1 -I, 2 -E), die serial number. -/
structure Part where
  is8120 : Bool := false
  grade : BitVec 2 := 1
  serial : BitVec 64 := 0
  deriving DecidableEq, Repr

/-- The whole machine. -/
structure State where
  /-- ps since the model's start; a clock of the model, which the manual's cycle counts refer to (log entry 1) -/
  clock : Nat := 0
  pending : List Instr := []
  part : Part := {}
  phase : Phase := .held
  releasedPs : Nat := 0
  cause : BitVec 3 := 1
  mgmtOnly : Bool := false
  doze : Doze := {}
  refs : Refs := {}
  sync : Sync := {}
  rtc : Rtc := {}
  image : Image := {}
  keys : Keys := {}
  flash : List Host.Cell := []
  journal : Journal := {}
  mailbox : Mailbox := {}
  reaches : Vector Reach 4 := Vector.replicate 4 {}
  fallow : Vector Fallow 4 := Vector.replicate 4 {}
  upkeep : Vector Upkeep 4 := Vector.replicate 4 {}
  wardens : Vector Warden 4 := Vector.replicate 4 {}
  engines : Vector Engine 8 := Vector.replicate 8 {}
  ctxs : Vector Ctx 256 := Vector.replicate 256 {}
  proposals : List Proposal := []
  window : Window := {}
  cal : Cal := {}
  selftestPs : Nat := 0
  outfall : Outfall := {}
  replay : List ReplayKey := []
  replayJournalPs : Option Nat := none
  held : List Held := []
  queue : List Record := []
  kept : List Kept := []
  /-- records released under CONTEXT 0xFFFF (R520) -/
  devReleased : Nat := 0
  host : HPort := {}
  tw : Tw := {}
  still : Still := {}
  tmr : Tmr := {}
  ecc : Ecc := {}
  pins : Pins := {}
  scratch : Word := 0
  /-- values returned by the last register read (what the access put on its transport) -/
  readData : List Word := []
  /-- the model's own counter of draws of free values (log entry 9) -/
  draws : Nat := 0
  deriving DecidableEq, Repr

/-- The part right after power-on reset: every field at the value its register table gives, flash blank, OTP blank,
backup domain just powered (log entries 2, 5, 6, 7, 8). -/
def State.reset : State := {}

end Sys2Proof.Machine
end

