-- ==== Sys2Proof/Machine/Operands.lean ====
section
/-! DEFINITION. The operand forms every chapter shares: bit fields of registers and entries, two's complement fields,
convergent rounding, and numbers as bytes, most significant byte first (R471, R509). -/

namespace Sys2Proof.Machine

/-- FIELD[msb:lsb] of a 32-bit word as a number (00_scope, "Numbers and units"). -/
def bits (w : Word) (hi lo : Nat) : Nat := w.toNat / 2 ^ lo % 2 ^ (hi + 1 - lo)

/-- Bit `i` of a word. -/
def bit (w : Word) (i : Nat) : Bool := w.getLsbD i

/-- A word with FIELD[msb:lsb] set to `v`; the other bits are kept. -/
def setBits (w : Word) (hi lo v : Nat) : Word :=
  w &&& ~~~(BitVec.ofNat 32 ((2 ^ (hi + 1 - lo) - 1) * 2 ^ lo)) ||| BitVec.ofNat 32 (v % 2 ^ (hi + 1 - lo) * 2 ^ lo)

/-- A field placed at `lo` in a word under construction. -/
def fieldAt (v lo : Nat) : Word := BitVec.ofNat 32 (v * 2 ^ lo)

/-- A flag placed at `lo`. -/
def flag (b : Bool) (lo : Nat) : Word := if b then BitVec.ofNat 32 (2 ^ lo) else 0

/-- The number that an `n`-bit two's complement field holds. -/
def signed (n v : Nat) : Int := if v % 2 ^ n < 2 ^ (n - 1) then (v % 2 ^ n : Int) else (v % 2 ^ n : Int) - 2 ^ n

/-- The `n`-bit two's complement field of a number. -/
def unsigned (n : Nat) (i : Int) : Nat := (i % 2 ^ n).toNat

/-- The number nearest to `x` within `lo … hi`. -/
def clamp (lo hi x : Int) : Int := if x < lo then lo else if hi < x then hi else x

/-- `a / b` convergently rounded (R7): to nearest, a tie to the even step. -/
def roundDiv (a : Int) (b : Nat) : Int :=
  let q := a / (b : Int)
  let r := a % (b : Int)
  if 2 * r < b then q else if (b : Int) < 2 * r then q + 1 else if q % 2 = 0 then q else q + 1

/-- `n` bytes of a number, most significant byte first. -/
def bytesOf : Nat → Nat → List Byte
  | 0, _ => []
  | n + 1, v => BitVec.ofNat 8 (v / 256 ^ n) :: bytesOf n v

/-- The number that a run of bytes holds, most significant byte first. -/
def natOf (l : List Byte) : Nat := l.foldl (fun a b => a * 256 + b.toNat) 0

/-- `n` bytes from offset `off`; bytes past the end read as 0. -/
def slice (l : List Byte) (off n : Nat) : List Byte :=
  let t := (l.drop off).take n
  t ++ List.replicate (n - t.length) 0

/-- The number in `n` bytes at offset `off`. -/
def natAt (l : List Byte) (off n : Nat) : Nat := natOf (slice l off n)

/-- A list cut or padded with zeros to `n` bytes. -/
def fit (n : Nat) (l : List Byte) : List Byte := slice l 0 n

/-- The number cut to an `w`-bit two's complement word after division by `den` with convergent rounding, and 1 when it had to be clamped to
an extreme code (R7, R138, R139). -/
def narrow (w den : Nat) (x : Int) : Int × Nat :=
  let v := roundDiv x den
  let m : Int := 2 ^ (w - 1)
  if v < -m then (-m, 1) else if m - 1 < v then (m - 1, 1) else (v, 0)

/-- An event adds `k` to a count that saturates at `max`; the increments of a FAB cycle are told from what stood before it (R13). -/
def Tally.add (t : Tally) (max now : Nat) (k : Nat := 1) : Tally :=
  { n := min (t.n + k) max, old := if t.atPs = now then t.old else t.n, new := min ((if t.atPs = now then t.new else 0) + k) max, atPs := now }

/-- The part of a count that a read in the FAB cycle `now` returns: no increment of that cycle belongs to it (R13). -/
def Tally.shown (t : Tally) (now : Nat) : Nat := if t.atPs = now then t.old else t.n

/-- The count after a read has subtracted what it returned: the increments of the read's own FAB cycle stay (R13). -/
def Tally.taken (t : Tally) (now : Nat) : Tally := if t.atPs = now then { t with n := t.new, old := 0 } else {}

/-- An event sets the bit. -/
def Latch.set (_ : Latch) (now : Nat) : Latch := { on := true, atPs := now }

/-- An event that holds sets the bit. -/
def Latch.setIf (l : Latch) (c : Bool) (now : Nat) : Latch := if c then l.set now else l

/-- A written 1 clears the bit, unless an event set it in the same FAB cycle (R13). -/
def Latch.clear (l : Latch) (one : Bool) (now : Nat) : Latch := if one && !(l.on && l.atPs == now) then { l with on := false } else l

/-- A signed byte (two's complement). -/
def byteOfInt (i : Int) : Byte := BitVec.ofNat 8 (unsigned 8 i)

/-- Two signed bytes, most significant first. -/
def bytesOfInt16 (i : Int) : List Byte := bytesOf 2 (unsigned 16 i)

/-- The bits of a byte, most significant first. -/
def bitsOfByte (b : Byte) : List Bool := (List.range 8).map (fun i => b.getLsbD (7 - i))

/-- `n` bits of a number, most significant first. -/
def bitsOf (n v : Nat) : List Bool := (List.range n).map (fun i => Nat.testBit v (n - 1 - i))

/-- The ratio of `a` to `b` is at least that of `k` less a half, in steps of which `m` make a factor of ten. -/
def ratioReaches (m a b : Nat) (k : Int) : Bool :=
  decide (10 ^ (2 * k - 1).toNat * b ^ (2 * m) ≤ a ^ (2 * m) * 10 ^ (1 - 2 * k).toNat)

/-- The last number from `lo` on, and before `hi`, that the ratio reaches. -/
def ratioSearch (m a b : Nat) : Nat → Int → Int → Int
  | 0, lo, _ => lo
  | n + 1, lo, hi =>
    let mid := (lo + hi) / 2
    if hi ≤ lo + 1 then lo else if ratioReaches m a b mid then ratioSearch m a b n mid hi else ratioSearch m a b n lo mid

/-- A ratio of powers in steps of which `m` make a factor of ten, to the nearest, within ±20 such factors: 0.5 dB with 20, 0.1 dB with 100,
0.01 dB with 1,000. -/
def decibels (m a b : Nat) : Int := ratioSearch m a b 20 (-20 * (m : Int)) (20 * (m : Int) + 1)

/-- The power of a symbol that stands at the reach-referred reference level. -/
def refPower : Nat := 4294967296

/-- A mark set in either. -/
def orMarks (a b : Marks) : Marks := ⟨a.blanked || b.blanked, a.overrange || b.overrange⟩

/-- The number that a run of bits holds, most significant first. -/
def natOfBits (l : List Bool) : Nat := l.foldl (fun a b => 2 * a + b.toNat) 0

/-- Whole bytes of a run of bits, most significant first. -/
def bytesOfBits (n : Nat) (l : List Bool) : List Byte := bytesOf n (natOfBits (l.take (8 * n)))

/-- Apply `f` when the condition holds. -/
def State.when (s : State) (c : Bool) (f : State → State) : State := if c then f s else s

/-- Apply `f` to a value that is present. -/
def State.withSome {α : Type} (s : State) (o : Option α) (f : α → State → State) : State :=
  match o with
  | some a => f a s
  | none => s

/-- Apply `f` for each element of a list in order. -/
def State.forEach {α : Type} (s : State) (l : List α) (f : α → State → State) : State := l.foldl (fun t a => f a t) s

/-- Change one reach. -/
def State.modReach (s : State) (r : Fin 4) (f : Reach → Reach) : State := { s with reaches := s.reaches.set r (f s.reaches[r]) }

/-- Change the fallow rotation of one reach. -/
def State.modFallow (s : State) (r : Fin 4) (f : Fallow → Fallow) : State := { s with fallow := s.fallow.set r (f s.fallow[r]) }

/-- Change the upkeep of one reach. -/
def State.modUpkeep (s : State) (r : Fin 4) (f : Upkeep → Upkeep) : State := { s with upkeep := s.upkeep.set r (f s.upkeep[r]) }

/-- Change one warden. -/
def State.modWarden (s : State) (r : Fin 4) (f : Warden → Warden) : State := { s with wardens := s.wardens.set r (f s.wardens[r]) }

/-- Change one engine. -/
def State.modEngine (s : State) (e : Fin 8) (f : Engine → Engine) : State := { s with engines := s.engines.set e (f s.engines[e]) }

/-- Change one context. -/
def State.modCtx (s : State) (c : Fin 256) (f : Ctx → Ctx) : State := { s with ctxs := s.ctxs.set c (f s.ctxs[c]) }

/-- Change one tributary. -/
def State.modTrib (s : State) (r : Fin 4) (n : Fin 8) (f : Trib → Trib) : State :=
  s.modReach r (fun x => { x with tribs := x.tribs.set n (f x.tribs[n]) })

/-- The four reaches in order. -/
def allReaches : List (Fin 4) := [0, 1, 2, 3]

/-- The 256 contexts in order. -/
def allCtxs : List (Fin 256) := List.finRange 256

end Sys2Proof.Machine
end

