-- ==== Sys2Proof/Machine/Codes.lean ====
section
/-! DEFINITION. The codes of the manual: CRC-32 of chapter 13, and AES-128 with its CMAC (R302, R472). -/

namespace Sys2Proof.Machine

/-- One bit step of the reflected CRC-32 register (chapter 13, below Table 13.2). -/
def crc32Bit (r : Word) : Word := if r.getLsbD 0 then (r >>> 1) ^^^ 0xEDB88320 else r >>> 1

/-- One byte of the reflected CRC-32. -/
def crc32Byte (r : Word) (b : Byte) : Word :=
  crc32Bit (crc32Bit (crc32Bit (crc32Bit (crc32Bit (crc32Bit (crc32Bit (crc32Bit (r ^^^ b.setWidth 32))))))))

/-- CRC-32 of IEEE 802.3: register starting at 0xFFFF_FFFF, reflected input and output, final inversion. -/
def crc32 (l : List Byte) : Word := ~~~ l.foldl crc32Byte 0xFFFFFFFF

/-- One byte of the SMBus CRC-8 (R562): polynomial x⁸ + x² + x + 1, no reflection. -/
def crc8Byte (r b : Byte) : Byte :=
  (List.range 8).foldl (fun (x : Byte) _ => if x.getLsbD 7 then (x <<< 1) ^^^ 0x07 else x <<< 1) (r ^^^ b)

/-- The PEC of a run of bytes (R562). -/
def crc8 (l : List Byte) : Byte := l.foldl crc8Byte 0

/-- Doubling in the field of AES (x⁸ + x⁴ + x³ + x + 1). -/
def gfDouble (b : Byte) : Byte := if b.getLsbD 7 then (b <<< 1) ^^^ 0x1B else b <<< 1

/-- Product in the field of AES. -/
def gfMul (a b : Byte) : Byte :=
  ((List.range 8).foldl (fun (p : Byte × Byte) i => (gfDouble p.1, if b.getLsbD i then p.2 ^^^ p.1 else p.2)) (a, 0)).2

/-- Inverse in the field of AES, 0 for 0: the 254th power. -/
def gfInv (a : Byte) : Byte :=
  let p := (List.range 6).foldl (fun (p : Byte × Byte) _ => let q := gfMul p.1 p.1; (q, gfMul p.2 q)) (gfMul a a, gfMul a a)
  p.2

/-- The AES S-box: the inverse followed by the affine map. -/
def sbox (a : Byte) : Byte :=
  let i := gfInv a
  i ^^^ i.rotateLeft 1 ^^^ i.rotateLeft 2 ^^^ i.rotateLeft 3 ^^^ i.rotateLeft 4 ^^^ 0x63

/-- The words of the AES-128 key schedule, four bytes each, latest first. -/
def aesExpand : Nat → Byte → List (List Byte) → List (List Byte)
  | 0, _, w => w
  | n + 1, rc, w =>
    let last := w.headD []
    let t := match last with
      | [a, b, c, d] => [sbox b ^^^ rc, sbox c, sbox d, sbox a]
      | x => x
    let w0 := List.zipWith (· ^^^ ·) (w.getD 3 []) t
    let w1 := List.zipWith (· ^^^ ·) (w.getD 2 []) w0
    let w2 := List.zipWith (· ^^^ ·) (w.getD 1 []) w1
    let w3 := List.zipWith (· ^^^ ·) (w.getD 0 []) w2
    aesExpand n (gfDouble rc) (w3 :: w2 :: w1 :: w0 :: w)

/-- The round keys of AES-128 in order, 16 bytes each. -/
def aesKeys (key : List Byte) : List (List Byte) :=
  let w := (aesExpand 10 1 [slice key 12 4, slice key 8 4, slice key 4 4, slice key 0 4]).reverse.flatten
  (List.range 11).map (fun i => slice w (16 * i) 16)

/-- ShiftRows on 16 bytes held column by column. -/
def shiftRows (b : List Byte) : List Byte := (List.range 16).map (fun i => b.getD ((i + 4 * (i % 4)) % 16) 0)

/-- MixColumns on one column. -/
def mixColumn : List Byte → List Byte
  | [a, b, c, d] =>
    [gfDouble a ^^^ gfDouble b ^^^ b ^^^ c ^^^ d, a ^^^ gfDouble b ^^^ gfDouble c ^^^ c ^^^ d,
     a ^^^ b ^^^ gfDouble c ^^^ gfDouble d ^^^ d, gfDouble a ^^^ a ^^^ b ^^^ c ^^^ gfDouble d]
  | x => x

/-- One AES round; the last has no MixColumns. -/
def aesRound (b key : List Byte) (last : Bool) : List Byte :=
  let t := shiftRows (b.map sbox)
  let m := if last then t else
    mixColumn (slice t 0 4) ++ mixColumn (slice t 4 4) ++ mixColumn (slice t 8 4) ++ mixColumn (slice t 12 4)
  List.zipWith (· ^^^ ·) m key

/-- AES-128 of one 16-byte block under expanded round keys. -/
def aesBlock (keys : List (List Byte)) (b : List Byte) : List Byte :=
  let start := List.zipWith (· ^^^ ·) b (keys.headD [])
  ((keys.drop 1).foldl (fun (p : List Byte × Nat) k => (aesRound p.1 k (p.2 == 9), p.2 + 1)) (start, 0)).1

/-- Doubling in the field of CMAC's subkeys (NIST SP 800-38B). -/
def cmacDouble (b : List Byte) : List Byte :=
  let v := natOf b
  let d := v * 2 % 2 ^ 128
  bytesOf 16 (if 2 ^ 127 ≤ v then d ^^^ 0x87 else d)

/-- The 16-byte blocks of a message but the last, chained; `n` bounds the number of blocks. -/
def cmacChain (keys : List (List Byte)) (k1 k2 : List Byte) : Nat → List Byte → List Byte → List Byte
  | 0, x, _ => x
  | n + 1, x, m =>
    if m.length < 16 then
      aesBlock keys (List.zipWith (· ^^^ ·) x (List.zipWith (· ^^^ ·) k2 (fit 16 (m ++ [0x80]))))
    else if m.length = 16 then aesBlock keys (List.zipWith (· ^^^ ·) x (List.zipWith (· ^^^ ·) k1 m))
    else cmacChain keys k1 k2 n (aesBlock keys (List.zipWith (· ^^^ ·) x (m.take 16))) (m.drop 16)

/-- AES-128 CMAC (NIST SP 800-38B), 16 bytes. -/
def cmac (key : BitVec 128) (m : List Byte) : List Byte :=
  let keys := aesKeys (bytesOf 16 key.toNat)
  let k1 := cmacDouble (aesBlock keys (List.replicate 16 0))
  cmacChain keys k1 (cmacDouble k1) (m.length / 16 + 1) (List.replicate 16 0) m

/-! ### The codes of a burst (chapter 08) -/

/-- One bit of CRC-16 (R290). -/
def crc16Bit (r : BitVec 16) : BitVec 16 := if r.getLsbD 15 then (r <<< 1) ^^^ 0x1021 else r <<< 1

/-- One byte of CRC-16, most significant bit first. -/
def crc16Byte (r : BitVec 16) (b : Byte) : BitVec 16 :=
  crc16Bit (crc16Bit (crc16Bit (crc16Bit (crc16Bit (crc16Bit (crc16Bit (crc16Bit (r ^^^ (b.setWidth 16 <<< 8)))))))))

/-- CRC-16 of R290: polynomial 0x1021, register from 0xFFFF, neither reflected nor inverted. -/
def crc16 (l : List Byte) : BitVec 16 := l.foldl crc16Byte 0xFFFF

/-- `n` bits of the whitening sequence whose register of nine bits, oldest first, is `reg` (R301). -/
def whitenRun : Nat → List Bool → List Bool
  | 0, _ => []
  | n + 1, reg => reg.headD false :: whitenRun n (reg.drop 1 ++ [xor (reg.getD 5 false) (reg.headD false)])

/-- The first `n` bits of w for a seed (R301). -/
def whiten (n seed : Nat) : List Bool := whitenRun n ((List.range 9).map (fun k => seed.testBit k))

/-- The payload's seed from TX_ID (R301). -/
def payloadSeed (txId : Nat) : Nat :=
  let x := (txId % 512) ^^^ (txId / 512 % 8 * 73)
  if x = 0 then 0x1FF else x

/-- Bitwise sum of two runs. -/
def xorBits (a b : List Bool) : List Bool := List.zipWith xor a b

/-- rot(x, s)[t] = x[(t + s) mod Z] (below R298). -/
def rot (x : List Bool) (s : Nat) : List Bool := x.drop s ++ x.take s

/-- A row's sum over its information blocks: pairs of column and shift. -/
def ldpcRow (u : List (List Bool)) (z : Nat) (row : List (Nat × Nat)) : List Bool :=
  row.foldl (fun acc e => xorBits acc (rot (u.getD e.1 []) e.2)) (List.replicate z false)

/-- The information columns of Table 8.8. -/
def headerRows : List (List (Nat × Nat)) :=
  [[(0, 3), (1, 11), (3, 7)], [(1, 5), (2, 14), (4, 0)], [(2, 9), (3, 2), (5, 12)], [(3, 13), (4, 6), (6, 1)],
   [(4, 10), (5, 4), (7, 15)], [(0, 6), (5, 8), (6, 11)], [(1, 13), (6, 2), (7, 7)], [(0, 9), (2, 4), (7, 12)]]

/-- Table 8.9. -/
def payloadRows : List (List (Nat × Nat)) :=
  [[(0, 7), (1, 19), (2, 2), (3, 28), (4, 13), (5, 24), (6, 10), (7, 31)],
   [(8, 16), (9, 4), (10, 27), (11, 11), (12, 21), (13, 1), (14, 30), (15, 9)],
   [(0, 22), (2, 14), (4, 5), (6, 18), (8, 3), (10, 26), (12, 12), (14, 29)],
   [(1, 6), (3, 17), (5, 20), (7, 0), (9, 25), (11, 15), (13, 8), (15, 23)],
   [(0, 11), (1, 29), (6, 3)], [(1, 18), (2, 8), (7, 26)], [(2, 30), (3, 12), (8, 5)], [(3, 1), (4, 23), (9, 14)],
   [(4, 17), (5, 9), (10, 28)], [(5, 2), (6, 21), (11, 6)], [(6, 27), (7, 13), (12, 19)], [(7, 10), (8, 31), (13, 4)],
   [(8, 24), (9, 7), (14, 15)], [(9, 20), (10, 0), (15, 11)], [(0, 16), (10, 9), (11, 25)], [(1, 12), (11, 3), (12, 22)]]

/-- Blocks of `z` bits. -/
def blocksOf (z n : Nat) (l : List Bool) : List (List Bool) := (List.range n).map (fun j => (l.drop (z * j)).take z)

/-- Running sums: each of the first `k` after the first adds the one before (the dual diagonal). -/
def dualDiagonal (k : Nat) : List (List Bool) → List (List Bool) → Nat → List (List Bool)
  | [], acc, _ => acc.reverse
  | x :: t, acc, i => dualDiagonal k t ((if i ≠ 0 && decide (i < k) then xorBits x (acc.headD []) else x) :: acc) (i + 1)

/-- The header codeword of R297: 128 information bits and 8 parity blocks. -/
def encodeHeader (info : List Bool) : List Bool :=
  let u := blocksOf 16 8 info
  info ++ (dualDiagonal 8 (headerRows.map (ldpcRow u 16)) [] 0).flatten

/-- A payload codeword of R298: 512 information bits and 16 parity blocks. -/
def encodePayload (info : List Bool) : List Bool :=
  let u := blocksOf 32 16 info
  info ++ (dualDiagonal 4 (payloadRows.map (ldpcRow u 32)) [] 0).flatten

/-- N of a RATE (Table 8.11). -/
def sentBits : Nat → Nat
  | 0 => 1024
  | 1 => 768
  | _ => 640

end Sys2Proof.Machine
end

