-- ==== Sys2Proof/Machine/Ops.lean ====
section
/-! DEFINITION. The operations every chapter uses: time, the flash as memory, journal requests (R38 to R42), posts to the
event mailbox (R33 to R37, R489), and records (R434, R518 to R526). -/

namespace Sys2Proof.Machine

/-! ### Time -/

/-- One FAB cycle, 2.56 ns, in ps (Table 2.4). -/
def fabPs : Nat := 2560
/-- One millisecond in ps: the tick of R28, 390,625 FAB cycles. -/
def msPs : Nat := 1000000000
/-- One second in ps. -/
def secPs : Nat := 1000000000000

/-- `dt` FAB cycles pass. Station time runs with them within the second that RTC_SECOND_BOUNDARY last began (log entry 1). -/
def State.advance (s : State) (dt : Nat) : State :=
  { s with clock := s.clock + dt * fabPs
           rtc := { s.rtc with fracPs := min (s.rtc.fracPs + dt * fabPs) (secPs - 1) } }

/-- The block idles for one FAB cycle (log entry 14). -/
def State.idle (s : State) : State := s.advance 1

/-- Station time, ns (R521, Table 1.9). -/
def State.nowNs (s : State) : Nat := s.rtc.seconds * 1000000000 + s.rtc.fracPs / 1000

/-- A run-out lasts at most 1 s (R348). -/
def RunOut.over (o : RunOut) (now : Nat) : Bool := decide (o.sincePs + secPs ≤ now)

/-- Index of the tick that `ps` falls in (R28). -/
def tickOf (ps : Nat) : Nat := ps / msPs

/-- At least `n` ps have passed since the instant, or there was none. -/
def State.since (s : State) (o : Option Nat) (n : Nat) : Bool :=
  match o with
  | none => true
  | some t => decide (t + n ≤ s.clock)

/-- The outcome of a command or event: time passes, and the effect takes place when its condition holds. -/
def State.occurs (s : State) (dt : Nat) (cond : State → Bool) (f : State → State) : Host.Outcome State Fault Refusal :=
  .next ((s.advance dt).when (cond (s.advance dt)) f)

/-- The Confluence runs: its PLL has locked and neither a freeze nor a stopped FAB holds it (R75, R92, R577). -/
def State.awake (s : State) : Bool := s.phase == .locked && !s.still.frozen && s.doze.fabAwake

/-- The data plane runs: the part is awake and not in doze (R54). -/
def State.serving (s : State) : Bool := s.awake && !s.doze.inDoze

/-- Reach `r` runs and serves contexts. -/
def State.reachUp (s : State) (r : Fin 4) : Bool := s.serving && s.reaches[r].st == .ready

/-! ### The flash (R469): cells in address order, an unlisted address reads as erased, 0xFF -/

/-- The byte at an address. -/
def Memory.read : List Host.Cell → Nat → Byte
  | [], _ => 0xFF
  | (x, v) :: t, a => if a = x then v else Memory.read t a

/-- Write one byte; an erased byte is not listed. -/
def Memory.write : List Host.Cell → Nat → Byte → List Host.Cell
  | [], a, b => if b = 0xFF then [] else [(a, b)]
  | (x, v) :: t, a, b =>
    if a < x then (if b = 0xFF then (x, v) :: t else (a, b) :: (x, v) :: t)
    else if a = x then (if b = 0xFF then t else (a, b) :: t)
    else (x, v) :: Memory.write t a b

/-- The canonical form: addresses strictly rising, no entry erased. -/
def Memory.wf : List Host.Cell → Bool
  | [] => true
  | [(_, v)] => v != 0xFF
  | (x, v) :: (y, w) :: t => v != 0xFF && decide (x < y) && Memory.wf ((y, w) :: t)

/-- `n` bytes from an address. -/
def Memory.readMany (m : List Host.Cell) (a n : Nat) : List Byte := (List.range n).map (fun i => Memory.read m (a + i))

/-- Program bytes: bits change from 1 to 0 only (Table 13.1). -/
def Memory.program : List Host.Cell → Nat → List Byte → List Host.Cell
  | m, _, [] => m
  | m, a, b :: t => Memory.program (Memory.write m a (Memory.read m a &&& b)) (a + 1) t

/-- Erase `n` bytes from an address. -/
def Memory.erase (m : List Host.Cell) (a n : Nat) : List Host.Cell :=
  m.filter (fun c => decide (c.1 < a ∨ a + n ≤ c.1))

/-! ### Journal requests -/

/-- Class of a session in Table 1.10; flash operations are class 5 (R501). -/
def Job.cls : Job → Nat
  | .append c _ _ _ => c
  | .compact c => c
  | .flash _ => 5

/-- The flash operation's effect (R501, Table 13.1). -/
def FlashOp.apply (m : List Host.Cell) : FlashOp → List Host.Cell
  | .read _ => m
  | .program a b => Memory.program m a b
  | .erase4k a => Memory.erase m (a / 4096 * 4096) 4096
  | .erase64k a => Memory.erase m (a / 65536 * 65536) 65536

/-- A flash operation changes the image's bytes (R502). -/
def FlashOp.hits (m : List Host.Cell) (op : FlashOp) (total : Nat) : Bool :=
  (op.apply m).takeWhile (fun c => decide (c.1 < total)) != m.takeWhile (fun c => decide (c.1 < total))

/-- Bytes of a journal bank and of its header, and the fill at which a compaction is requested (R471, R490, R498). -/
def bankBytes : Nat := 2097152
def bankHead : Nat := 32
def compactAt : Nat := 1572864

/-- Bytes that an append takes in its bank: header and payload up to a multiple of 16. -/
def Job.size : Job → Nat
  | .append _ _ _ p => 16 + (p.length + 15) / 16 * 16
  | _ => 0

/-- An append can run: it neither passes the end of the bank (R492) nor needs a SEQ beyond 0xFFFF_FFFF (R499). -/
def Journal.fits (j : Journal) (x : Job) : Bool :=
  match x with
  | .append .. => decide (j.fill + x.size ≤ bankBytes) && j.seq != 0xFFFFFFFF
  | _ => true

/-- A granted session starts; an append that needs a compaction first waits behind it (R492, R499). A flash operation is one
indivisible step here; an append and a compaction run until JOURNAL_APPEND and JOURNAL_COMPACTION end them. -/
def State.journalStart (s : State) (j : Session) : State :=
  match j.job with
  | .flash (.read a) =>
    { s with journal := { s.journal with busy := s.journal.busy && !j.window, result := 0
                                         rd := (List.range 256).map (fun i => Memory.read s.flash (a + i)) } }
  | .flash op =>
    { s with flash := op.apply s.flash
             image := { s.image with changed := s.image.changed || op.hits s.flash s.image.bytes }
             journal := { s.journal with busy := s.journal.busy && !j.window
                                         result := if j.window then 0 else s.journal.result } }
  | x => if s.journal.fits x then { s with journal := { s.journal with running := some j } }
    else { s with journal := { s.journal with running := some ⟨.compact 1, false⟩, queue := j :: s.journal.queue } }

/-- A session that the part without a journal still runs: a flash operation in management-only mode (R482). -/
def State.bareFlash (s : State) (j : Job) : Bool :=
  s.mgmtOnly && (match j with | .flash _ => true | _ => false)

/-- A session would start at once; while doze entry waits, requests are queued (Table 1.12). -/
def State.journalFree (s : State) : Bool :=
  s.journal.ready && s.journal.running.isNone && s.journal.queue.isEmpty && !s.journal.compactDue && !s.doze.requested

/-- What refuses a session before it is queued, as a RESULT of Table 13.17; 0 nothing (R40, R491, R497, Table 1.12). Each rule names its
own reason and none an order: that doze comes first, then the missing journal, then the failed one, is the model's choice (log entry 73). -/
def State.journalRefusal (s : State) (j : Job) : Nat :=
  if s.doze.inDoze then 4
  else if s.journal.noJournal && !s.bareFlash j then 6
  else if s.journal.failed then 9
  else if s.journalFree then 0
  else if 16 ≤ s.journal.queue.length then 3
  else 0

/-- A session request (R38 to R41): it starts when none runs, else it is queued. Answers 0 started, 1 queued, else the
refusal. -/
def State.journalRequest (s : State) (j : Session) : State × Nat :=
  if s.journalRefusal j.job ≠ 0 then (s, s.journalRefusal j.job)
  else if s.journalFree then (s.journalStart j, if s.journal.fits j.job then 0 else 1)
  else ({ s with journal := { s.journal with queue := s.journal.queue ++ [j] } }, 1)

/-- The arbiter's own compaction (R42, R498): it waits for the running session only. -/
def State.compactionDue (s : State) : State :=
  if s.journal.failed || s.journal.noJournal then s
  else if s.journal.ready && s.journal.running.isNone && !s.doze.inDoze && !s.doze.requested then s.journalStart ⟨.compact 1, false⟩
  else { s with journal := { s.journal with compactDue := true } }

/-! ### The event mailbox -/

/-- The 32 bytes of an entry (Table 1.9). -/
def MboxEntry.bytes (e : MboxEntry) : List Byte :=
  bytesOf 8 e.stamp ++ bytesOf 1 e.source ++ bytesOf 1 e.reach ++ bytesOf 2 e.ctx ++ bytesOf 2 e.code ++
    bytesOf 1 e.severity ++ [if e.alert then 1 else 0] ++ fit 16 e.data

/-- Posts of one FAB cycle stand in ascending order of SOURCE (R34). -/
def insertPost (l : List MboxEntry) (e : MboxEntry) : List MboxEntry :=
  let k := (l.reverse.takeWhile (fun x => x.atPs == e.atPs && decide (e.source < x.source))).length
  l.take (l.length - k) ++ e :: l.drop (l.length - k)

/-- A post as the mailbox takes it (R33 to R37): a full ring skips its oldest entry and requests the alert line; an entry
at or above the threshold carries ALERT. -/
def Mailbox.post (m : Mailbox) (e : MboxEntry) : Mailbox :=
  let full := decide (1024 ≤ m.pending.length)
  { m with
    toConsume := insertPost m.toConsume e
    pending := insertPost (if full then m.pending.drop 1 else m.pending) e
    rdPtr := if full then (m.rdPtr + 1) % 1024 else m.rdPtr
    lost := if full then m.lost.add (2 ^ 32 - 1) e.atPs else m.lost
    alertSkip := m.alertSkip || full
    alertPs := if full || e.alert then e.atPs else m.alertPs
    alertPending := m.alertPending || full || e.alert
    alertSev := if m.alertPending then max m.alertSev (if e.alert then e.severity else 0)
                else if e.alert then e.severity else 0 }

/-- A post at the present instant: SOURCE, REACH, CONTEXT, CODE, SEVERITY and DATA. -/
def State.entryNow (s : State) (src reach ctx code sev : Nat) (data : List Byte) : MboxEntry :=
  { atPs := s.clock, stamp := s.nowNs, source := src, reach := reach, ctx := ctx, code := code, severity := sev
    alert := decide (s.mailbox.alertThreshold.toNat ≤ sev), data := fit 16 data }

/-- An entry of SEVERITY 2 or 3 is journalled as a FAULT record of class 2, at most one per CODE per second (R489). -/
def State.faultRecord (s : State) (e : MboxEntry) : State :=
  if e.severity < 2 || (s.mailbox.faultPs.any (fun p => p.1 == e.code && decide (s.clock < p.2 + secPs))) then s
  else
    let t := { s with mailbox := { s.mailbox with
      faultPs := (e.code, s.clock) :: s.mailbox.faultPs.filter (fun p => p.1 != e.code) } }
    (t.journalRequest ⟨.append 2 5 e.code e.bytes, false⟩).1

/-- Post to the event mailbox (R33 to R37, R489). -/
def State.post (s : State) (src reach ctx code sev : Nat) (data : List Byte) : State :=
  let e := s.entryNow src reach ctx code sev data
  ({ s with mailbox := s.mailbox.post e }).faultRecord e

/-- SOURCE of Table 1.9 for the data plane of a reach. -/
def srcOf (r : Fin 4) : Nat := 0x10 + r.val

/-- WRITE_IGNORED (0x0070, SEVERITY 0) from the management plane, with the register's address (Table 12.7). -/
def State.writeIgnored (s : State) (addr : Addr) : State := s.post 7 0xFF 0xFFFF 0x70 0 (bytesOf 2 addr.toNat)

/-! ### Records -/

/-- Bytes of a record on the wire, header included (R518). -/
def Record.size (r : Record) : Nat := 24 + r.payload.length

/-- Sizes of the record queues and of the replay window (Table 1.5). -/
def queueMax : Nat := 1572864
def windowMax : Nat := 2097152

def queueBytes (l : List Record) : Nat := l.foldl (fun n r => n + r.size) 0
def keptBytes (l : List Kept) : Nat := l.foldl (fun n k => n + k.record.size) 0

/-- The record that R526 evicts next and the window without it: the oldest whose CONTEXT value holds more than 64. -/
def evictOne (l : List Kept) : Option (Kept × List Kept) :=
  match l.findIdx? (fun k => decide (64 < (l.filter (fun x => x.record.ctx == k.record.ctx)).length)) with
  | some i => (l[i]?).map (fun k => (k, l.eraseIdx i))
  | none => match l with
    | [] => none
    | k :: t => some (k, t)

/-- Evict until `need` bytes fit; answers the window and how many never-sent records left it. -/
def evictFor : Nat → Nat → List Kept → Nat → List Kept × Nat
  | 0, _, l, lost => (l, lost)
  | n + 1, need, l, lost =>
    if keptBytes l + need ≤ windowMax then (l, lost)
    else match evictOne l with
      | none => (l, lost)
      | some (k, t) => evictFor n need t (if k.sent then lost else lost + 1)

/-- Put a record into the replay window, evicting as R526 gives; lost records are counted and posted at most once per
second. -/
def State.keep (s : State) (k : Kept) : State :=
  let (l, lost) := evictFor s.kept.length k.record.size s.kept 0
  let t := { s with kept := l ++ [k], host := { s.host with recordsLost := min (s.host.recordsLost + lost) (2 ^ 32 - 1)
                                                            lostSincePost := s.host.lostSincePost + lost } }
  if 0 < lost && s.since s.host.lostPs secPs then
    ({ t with host := { t.host with lostSincePost := 0, lostPs := some s.clock } }).post 7 0xFF 0xFFFF 0xA5 0
      (bytesOf 4 t.host.lostSincePost)
  else t

/-- The oldest records that must leave the queues for `need` bytes to fit (R525), and the rest. -/
def overflowSplit (need : Nat) : List Record → List Record × List Record
  | [] => ([], [])
  | r :: t =>
    if queueBytes (r :: t) + need ≤ queueMax then ([], r :: t)
    else let (a, b) := overflowSplit need t; (r :: a, b)

/-- A released record enters the record queues; when they are full, the oldest moves into the replay window unsent (R525). -/
def State.enqueue (s : State) (r : Record) : State :=
  let (out, rest) := overflowSplit r.size s.queue
  let t := out.foldl (fun t x => t.keep ⟨x, false⟩) { s with queue := rest ++ [r] }
  if out.isEmpty then t
  else
    let n := t.host.movedUnsent + out.length
    if s.since s.host.overflowPs secPs then
      ({ t with host := { t.host with movedUnsent := 0, overflowPs := some s.clock } }).post 7 0xFF 0xFFFF 0xA4 0 (bytesOf 4 n)
    else { t with host := { t.host with movedUnsent := n } }

/-- Records released so far under a CONTEXT value (R520). -/
def State.releasedOf (s : State) (ctx : Nat) : Nat :=
  if h : ctx < 256 then s.ctxs[ctx].released else s.devReleased

def State.bumpReleased (s : State) (ctx : Nat) : State :=
  if h : ctx < 256 then s.modCtx ⟨ctx, h⟩ (fun c => { c with released := c.released + 1 })
  else { s with devReleased := s.devReleased + 1 }

/-- The flags that are judged at release: TIME_LOST and HOLDOVER (Table 14.8). -/
def State.releaseFlags (s : State) (stamp : Nat) : BitVec 16 :=
  (if s.rtc.timeLost then 0x40 else 0) |||
  (if s.refs.noRef || (match s.refs.noRefEnd with | some t => decide (stamp ≤ t) | none => false) then 0x80 else 0)

/-- Release of a record (R434, R520): its sequence number, its flags of the instant, and the record queues. -/
def State.release (s : State) (r : Record) : State :=
  ((s.bumpReleased r.ctx).enqueue { r with seq := BitVec.ofNat 32 (s.releasedOf r.ctx)
                                           relPs := s.clock
                                           flags := r.flags ||| s.releaseFlags r.stamp })

/-- A reach uses factory calibration (R83): the factory sets of R82, or no set held (R402). The journal's sets are held from the
commit point of R82 on; a set applied before it is in force at once (Table 11.3). -/
def State.onFactoryCal (s : State) (r : Fin 4) : Bool := s.upkeep[r].sets.toList.all Option.isNone

/-- A reach hands a record over to record assembly, which holds it 50 µs (R451). BLANKED, OVERRANGE, FACTORY_CAL,
COMBINED and DISCONT are judged here (Table 14.8, R83, R460). -/
def State.handOver (s : State) (c : Fin 256) (r : Fin 4) (typ : Nat) (stamp : Nat) (payload : List Byte) (m : Marks)
    (combined discont : Bool) (to_ : Fin 256) : State :=
  let first := s.ctxs[c].discont.contains typ
  let flags : BitVec 16 := (if m.blanked then 1 else 0) ||| (if m.overrange then 2 else 0) |||
    (if s.onFactoryCal r then 4 else 0) ||| (if combined then 8 else 0) ||| (if discont || first then 16 else 0)
  let t := s.modCtx c (fun x => { x with discont := x.discont.filter (· != typ) })
  { t with held := t.held ++ [⟨{ typ := typ, flags := flags, ctx := to_.val, reach := r.val, stamp := stamp, payload := payload },
                               r, s.clock⟩] }

/-- A record that the Confluence builds is released at once; a REACH adds FACTORY_CAL by R83. -/
def State.emit (s : State) (typ ctx : Nat) (reach : Option (Fin 4)) (stamp : Nat) (payload : List Byte) : State :=
  s.release { typ := typ, ctx := ctx, reach := (reach.map Fin.val).getD 0xFF, stamp := stamp, payload := payload
              flags := match reach with | some r => if s.onFactoryCal r then 4 else 0 | none => 0 }

/-- The record types whose first record after a coverage gap carries DISCONT (R460, R642). -/
def gapTypes : List Nat := [0x01, 0x02, 0x03, 0x04, 0x10, 0x11, 0x12, 0x13, 0x20, 0x21, 0x60]

/-! ### Command responses (R536, Table 14.16) -/

/-- STATUS codes of Table 14.16. -/
def stCompleted : Nat := 0
def stAborted : Nat := 1
def stAccepted : Nat := 2
def stBusy : Nat := 3
def stRefused : Nat := 4

/-- A command response record. -/
def State.response (s : State) (id : BitVec 32) (op status reason : Nat) (rep : Bool) (result : List Byte) : State :=
  s.emit 0x70 0xFFFF none s.nowNs
    (bytesOf 4 id.toNat ++ bytesOf 2 op ++ bytesOf 1 status ++ bytesOf 1 reason ++ [if rep then 1 else 0] ++ [0] ++
      bytesOf 2 result.length ++ result)

/-- A response that moves the command on: its status in the session's table, and its end in the table of unended ones. -/
def State.respondOne (s : State) (id : BitVec 32) (op status reason : Nat) (result : List Byte) : State :=
  let upd := fun (c : Cmd) => if c.id == id then { c with status := status, reason := reason } else c
  let t := { s with host := { s.host with
    cmds := s.host.cmds.map upd
    open_ := if status ≤ 1 then s.host.open_.filter (fun c => c.id != id) else s.host.open_.map upd } }
  t.response id op status reason false result

/-- A response, and after a final one those of the ABORT commands that wait for it (R546). -/
def State.respond (s : State) (id : BitVec 32) (op status reason : Nat) (result : List Byte) : State :=
  let t := s.respondOne id op status reason result
  if 1 < status then t
  else
    let w := t.host.abortWaits.filter (fun p => p.1 == id)
    let u := { t with host := { t.host with abortWaits := t.host.abortWaits.filter (fun p => p.1 != id) } }
    w.foldl (fun u p => u.respondOne p.2.1 0xF0 stCompleted (if status = stAborted ∧ p.2.2 then 0 else 0x89) []) u

end Sys2Proof.Machine
end

