-- ==== Sys2Proof/Machine/Levels.lean ====
section
/-! DEFINITION. The correction C(f, T) of a reach's calibration, and what it refers to RFIN (R399 to R402, R322). -/

namespace Sys2Proof.Machine

/-- Node temperatures (Table of "Calibration sets"): −25, 5, 35, 65 and 95 °C. -/
def nodeTemp (n : Fin 5) : Int := 30 * (n.val : Int) - 25

/-- The node nearest a temperature, the lower one halfway between two (R400). -/
def nodeOf (t : Int) : Fin 5 :=
  if t ≤ -10 then 0 else if t ≤ 20 then 1 else if t ≤ 50 then 2 else if t ≤ 80 then 3 else 4

/-- Insert a point in ascending order of frequency. -/
def insertPoint (p : CalPoint) : List CalPoint → List CalPoint
  | [] => [p]
  | q :: t => if p.freq ≤ q.freq then p :: q :: t else q :: insertPoint p t

/-- The points of a set in ascending order of frequency. -/
def sortPoints (l : List CalPoint) : List CalPoint := l.foldr insertPoint []

/-- Linear interpolation between two points with distinct abscissas. -/
def between (x x0 y0 x1 y1 : Rat) : Rat := if x1 = x0 then y0 else y0 + (y1 - y0) * (x - x0) / (x1 - x0)

/-- Piecewise linear through ascending points, the nearest point's value outside them. -/
def interp (x : Rat) : List (Rat × Rat) → Rat
  | [] => 0
  | [p] => p.2
  | p :: q :: t => if x ≤ p.1 then p.2 else if x ≤ q.1 then between x p.1 p.2 q.1 q.2 else interp x (q :: t)

/-- Correction of one set at `f` kHz, 0.01 dB (R401, step 1). -/
def CalSet.at_ (c : CalSet) (f : Rat) : Rat := interp f (c.points.map (fun p => ((p.freq : Rat), (p.corr : Rat))))

/-- Insert a held set in ascending order of recorded temperature. -/
def insertSet (c : CalSet) : List CalSet → List CalSet
  | [] => [c]
  | q :: t => if c.temp ≤ q.temp then c :: q :: t else q :: insertSet c t

/-- The sets that a reach holds, by ascending recorded temperature. -/
def Upkeep.held (u : Upkeep) : List CalSet := (u.sets.toList.filterMap id).foldr insertSet []

/-- C(f, T) of a reach in 0.01 dB, `f` in Hz (R401, R402). -/
def State.correction (s : State) (r : Fin 4) (f : Nat) (t : Rat) : Rat :=
  let l := s.upkeep[r].held
  if l.isEmpty then (Config.factoryCurve f : Rat) else interp t (l.map (fun c => ((c.temp : Rat), c.at_ ((f : Rat) / 1000))))

/-- A reported level L in 0.01 dB referred to dBm at RFIN, 0.01 dBm (R399). -/
def State.rfinLevel (s : State) (r : Fin 4) (l : Rat) (f : Nat) (t : Rat) : Rat := l - 4000 + s.correction r f t

/-- Equivalent noise bandwidth of an EAB response in 0.01 dB above 1 Hz: 13.4 kHz or 22.9 kHz (R312, R322), to the nearest 0.01 dB. -/
def noiseBandwidth (channel : Bool) : Int := if channel then 4127 else 4360

/-- A reach-referred power, as a symbol's, as a density at RFIN in 0.1 dBm/Hz (R322, R399); `freq` in Hz. -/
def State.densityAt (s : State) (r : Fin 4) (power : Nat) (channel : Bool) (freq : Nat) : Int :=
  let d := s.rfinLevel r (decibels 1000 power refPower - noiseBandwidth channel : Int) freq (s.upkeep[r].temp : Rat)
  roundDiv (d.num) (10 * d.den)

end Sys2Proof.Machine
end

