-- ==== Sys2Proof/Machine/Entry.lean ====
section
/-! DEFINITION. Fields of a context entry (Table 5.2 and the standard parameters), the response ROM (Tables 4.3 and 4.4),
band edges (R50, R641), tributary geometry (R45, R129, R131) and what an entry costs (R199, Table 1.11, Table 14.11). -/

namespace Sys2Proof.Machine

/-! ### Entry fields -/

/-- REQ_STATE: 0 idle, 1 run, 2 hold (0b11 treated as hold). -/
def Entry.req (e : Entry) : Nat := min (bits e[0] 31 30) 2
def Entry.std (e : Entry) : Nat := bits e[0] 27 24
/-- SERVICE_ID; a DAB entry constrains its low half only (R253). -/
def Entry.service (e : Entry) : Nat := e[1].toNat
def Entry.centre (e : Entry) : Nat := e[2].toNat
def Entry.reach (e : Entry) : Fin 4 := Fin.ofNat 4 (bits e[3] 31 30)
def Entry.trib (e : Entry) : Fin 8 := Fin.ofNat 8 (bits e[3] 29 27)
def Entry.slotReq (e : Entry) : Nat := bits e[3] 23 16
def Entry.engineReq (e : Entry) : Nat := bits e[3] 15 8
def Entry.response (e : Entry) : Nat := bits e[4] 31 26
/-- PRESET: 0 Torrent, 1 Current, 2 Pool (0b11 treated as Current). -/
def Entry.preset (e : Entry) : Nat := if bits e[4] 25 24 = 3 then 1 else bits e[4] 25 24
def Entry.resamp (e : Entry) : Bool := bit e[4] 23
def Entry.corner (e : Entry) : Nat := bits e[4] 19 16
/-- Oxbow MODE: 0 OFF, 1 TRACK, 2 FROZEN (0b11 treated as TRACK, R149). -/
def Entry.oxMode (e : Entry) : Nat := if bits e[4] 15 14 = 3 then 1 else bits e[4] 15 14
def Entry.rate (e : Entry) : Nat := e[5].toNat
def Entry.cagcMode (e : Entry) : Nat := bits e[6] 31 30
def Entry.honour (e : Entry) : Bool := bit e[6] 29
/-- CAGC_TARGET, values above 60 treated as 60 (R181). -/
def Entry.cagcTarget (e : Entry) : Nat := min (bits e[6] 15 8) 60
/-- CAGC_GAIN in dB, values above 96 treated as 96 (R181). -/
def Entry.cagcGain (e : Entry) : Nat := min (bits e[6] 7 0) 96
def Entry.prot (e : Entry) : Nat := bits e[7] 31 30
def Entry.partner (e : Entry) : Fin 256 := Fin.ofNat 256 (bits e[7] 23 16)
def Entry.priority (e : Entry) : Nat := bits e[7] 10 8
def Entry.scout (e : Entry) : Bool := bit e[8] 31
def Entry.group (e : Entry) : Nat := bits e[8] 30 28
/-- AF_MODE: 0 off, 1 same standard, 2 across standards (0b11 treated as 0b10). -/
def Entry.afMode (e : Entry) : Nat := min (bits e[8] 15 14) 2
def Entry.afGroup (e : Entry) : Nat := bits e[8] 13 11
def Entry.afImage (e : Entry) : Bool := bit e[8] 8
def Entry.afSide (e : Entry) : Bool := bit e[8] 9
def Entry.afLearned (e : Entry) : Bool := bit e[8] 10
/-- AF_MARGIN in 0.5 dB units. -/
def Entry.afMargin (e : Entry) : Nat := bits e[8] 7 0
def Entry.outRec (e : Entry) : Bool := bit e[9] 31
def Entry.outPcm (e : Entry) : Bool := bit e[9] 30
def Entry.outIq (e : Entry) : Bool := bit e[9] 29
def Entry.iqWide (e : Entry) : Bool := bit e[9] 28
def Entry.pcmMode (e : Entry) : Nat := bits e[9] 27 24
def Entry.iqCount (e : Entry) : Nat := 64 * (bits e[9] 21 16 + 1)

def stdNone : Nat := 0
def stdFm : Nat := 1
def stdAm : Nat := 2
def stdDab : Nat := 3
def stdEab : Nat := 4
def stdIq : Nat := 5

/-- PROT codes: twin and N+1 reserve. -/
def Entry.isTwin (e : Entry) : Bool := e.prot == 1
def Entry.isReserve (e : Entry) : Bool := e.prot == 2
def Entry.idle (e : Entry) : Bool := e.req == 0

/-! ### Standard parameters (Tables 6.1, 6.2, 7.1, 8.14) -/

/-- STEREO_MODE auto: 0b00, and 0b10 and 0b11 treated as auto. -/
def Entry.stereoAuto (e : Entry) : Bool := bits e[10] 29 28 != 1
def Entry.rbds (e : Entry) : Bool := bit e[10] 27
def Entry.rdsEn (e : Entry) : Bool := bit e[10] 26
/-- GROUP_FILTER, 0b11 treated as 0b00. -/
def Entry.groupFilter (e : Entry) : Nat := if bits e[10] 25 24 = 3 then 0 else bits e[10] 25 24
/-- LOCK_CNR in 0.5 dB units, 0 treated as 20. -/
def Entry.lockCnr (e : Entry) : Nat := if bits e[10] 23 16 = 0 then 20 else bits e[10] 23 16
/-- Item code `n` is enabled by ITEM_MASK bit n − 1. -/
def Entry.itemOn (e : Entry) (code : Nat) : Bool := decide (1 ≤ code ∧ code ≤ 9) && bit e[10] (7 + code - 1)
/-- The AIDs of W11 and W12; 0x0000 is no entry. -/
def Entry.aids (e : Entry) : List (BitVec 16) :=
  ([bits e[11] 31 16, bits e[11] 15 0, bits e[12] 31 16, bits e[12] 15 0].map (BitVec.ofNat 16)).filter (· != 0)
def Entry.aid0 (e : Entry) : BitVec 16 := BitVec.ofNat 16 (bits e[11] 31 16)
def Entry.presetGt (e : Entry) : Option (BitVec 5) :=
  if bit e[13] 26 then some (BitVec.ofNat 5 (bits e[13] 31 27)) else none
/-- DETECT: 0 envelope, 1 synchronous, 2 with fall-back (0b11 treated as 0b01). -/
def Entry.detect (e : Entry) : Nat := if bits e[10] 31 30 = 3 then 1 else bits e[10] 31 30
/-- FIG_FILTER, 0b11 treated as 0b01. -/
def Entry.figFilter (e : Entry) : Nat := if bits e[10] 31 30 = 3 then 1 else bits e[10] 31 30
def Entry.padEn (e : Entry) : Bool := bit e[10] 29
def Entry.pktRaw (e : Entry) : Bool := bit e[10] 28
def Entry.addrEn (e : Entry) : Bool := bit e[10] 27
def Entry.addrs (e : Entry) : List (BitVec 10) :=
  ([bits e[13] 31 22, bits e[13] 21 12, bits e[13] 11 2].map (BitVec.ofNat 10)).filter (· != 0)
/-- The DAB subchannels selected, in ascending order (Table 7.1). -/
def Entry.subs (e : Entry) : List (Fin 64) :=
  (List.finRange 64).filter (fun n => if n.val < 32 then bit e[12] n.val else bit e[11] (n.val - 32))
def Entry.eabChannel (e : Entry) : Bool := bit e[10] 31
/-- AUTH, 0b11 treated as 0b01. -/
def Entry.auth (e : Entry) : Nat := if bits e[10] 30 29 = 3 then 1 else bits e[10] 30 29
/-- BURST_REP, 0b11 treated as 0b10. -/
def Entry.burstRep (e : Entry) : Nat := min (bits e[10] 28 27) 2
/-- ITER_MAX, 0 treated as 10 and above 20 as 20. -/
def Entry.iterMax (e : Entry) : Nat := if bits e[10] 26 22 = 0 then 10 else min (bits e[10] 26 22) 20
/-- DET_SNR in 0.5 dB units, 0 treated as 12. -/
def Entry.detSnr (e : Entry) : Nat := if bits e[10] 21 16 = 0 then 12 else bits e[10] 21 16
def Entry.keyAllowed (e : Entry) (slot : Nat) : Bool := bit e[10] (8 + slot)
def Entry.nfPeriod (e : Entry) : Nat := bits e[10] 7 0
def Entry.verAllowed (e : Entry) (v : Nat) : Bool :=
  if bits e[11] 1 0 = 0 then v == 1 || v == 2 else (v == 1 && bit e[11] 0) || (v == 2 && bit e[11] 1)

/-- What the part stores of a committed entry: reserved bits are ignored (R14) and CTX_NUM is the context's own. -/
def Entry.stored (e : Entry) (c : Fin 256) : Entry :=
  let m : List Word := match e.std with
    | 1 => [0xFFFFFF80, 0xFFFFFFFF, 0xFFFFFFFF, 0xFC000000]
    | 2 => [0xC0FF0000, 0, 0, 0]
    | 3 => [0xF8000000, 0xFFFFFFFF, 0xFFFFFFFF, 0xFFFFFFFC]
    | 4 => [0xFFFFFFFF, 0x00000003, 0, 0]
    | _ => [0, 0, 0, 0]
  let id : Word := match e.std with
    | 3 => 0x0000FFFF
    | _ => 0xFFFFFFFF
  #v[(e[0] &&& 0xCF000000) ||| fieldAt c.val 0, e[1] &&& id, e[2], e[3] &&& 0xF8FFFF00, e[4] &&& 0xFF8FC000, e[5],
     e[6] &&& 0xE000FFFF, e[7] &&& 0xC0FF0700, e[8] &&& 0xF000FFFF, e[9] &&& 0xFF3F0000,
     e[10] &&& m.getD 0 0, e[11] &&& m.getD 1 0, e[12] &&& m.getD 2 0, e[13] &&& m.getD 3 0, 0, e[15] &&& 0x0000FFFF]

/-- The fields that the sequencer owns in a scout, taken from `old` (R178). -/
def Entry.keepScout (e old : Entry) : Entry :=
  let w0 := setBits e[0] 27 24 old.std
  let w3 := setBits e[3] 29 27 old.trib.val
  let w4 := setBits (setBits (setBits e[4] 31 26 old.response) 25 24 (bits old[4] 25 24)) 23 23 (bits old[4] 23 23)
  (((((((e.set 0 w0).set 2 old[2]).set 3 w3).set 4 w4).set 10 old[10]).set 11 old[11]).set 12 old[12]).set 13 old[13]

/-- REACH and TRIB of an entry replaced (R344, R454, R457). -/
def Entry.moveTo (e : Entry) (r : Fin 4) (t : Fin 8) : Entry := e.set 3 (setBits (setBits e[3] 31 30 r.val) 29 27 t.val)

/-- SLOT_REQ and ENGINE_REQ taken as any (R344, R454). -/
def Entry.anyPlace (e : Entry) : Entry := e.set 3 (setBits e[3] 23 8 0xFFFF)

/-! ### The response ROM -/

/-- One response: FIR taps, CIC c, half-bands h, FIR decimation d, pass and stop edge in Hz (0 for an F-IQ response, whose edges
follow R641), and the divisions it allows. -/
structure Response where
  taps : Nat
  c : Nat
  h : Nat
  d : Nat
  pass : Nat
  stop : Nat
  divs : List Nat
  deriving DecidableEq, Repr

/-- Tables 4.3 and 4.4; any other ID is unassigned (R141). -/
def responseOf : Nat → Option Response
  | 0x00 => some ⟨87, 25, 1, 1, 100000, 150000, [16, 32, 64]⟩
  | 0x01 => some ⟨119, 25, 1, 1, 75000, 110000, [16, 32, 64]⟩
  | 0x02 => some ⟨135, 25, 1, 1, 55000, 85000, [16, 32, 64]⟩
  | 0x03 => some ⟨163, 25, 1, 1, 40000, 65000, [16, 32, 64]⟩
  | 0x08 => some ⟨103, 250, 2, 1, 5000, 7000, [64]⟩
  | 0x09 => some ⟨135, 250, 2, 2, 3000, 4500, [64]⟩
  | 0x0A => some ⟨199, 250, 2, 2, 1500, 2500, [64]⟩
  | 0x10 => some ⟨63, 8, 1, 1, 770000, 1000000, [16, 32, 64]⟩
  | 0x18 => some ⟨79, 125, 2, 1, 10500, 16000, [32, 64]⟩
  | 0x19 => some ⟨199, 125, 2, 2, 6200, 8250, [32, 64]⟩
  | 0x20 => some ⟨31, 8, 0, 1, 0, 0, [16, 32, 64]⟩
  | 0x21 => some ⟨31, 10, 0, 1, 0, 0, [16, 32, 64]⟩
  | 0x22 => some ⟨31, 8, 1, 1, 0, 0, [16, 32, 64]⟩
  | 0x23 => some ⟨31, 10, 1, 1, 0, 0, [16, 32, 64]⟩
  | 0x24 => some ⟨31, 8, 2, 1, 0, 0, [16, 32, 64]⟩
  | 0x25 => some ⟨31, 10, 2, 1, 0, 0, [16, 32, 64]⟩
  | 0x26 => some ⟨31, 16, 2, 1, 0, 0, [16, 32, 64]⟩
  | 0x27 => some ⟨31, 20, 2, 1, 0, 0, [16, 32, 64]⟩
  | 0x28 => some ⟨31, 32, 2, 1, 0, 0, [16, 32, 64]⟩
  | 0x29 => some ⟨31, 40, 2, 1, 0, 0, [16, 32, 64]⟩
  | 0x2A => some ⟨31, 64, 2, 1, 0, 0, [16, 32, 64]⟩
  | 0x2B => some ⟨31, 80, 2, 1, 0, 0, [32, 64]⟩
  | 0x2C => some ⟨31, 128, 2, 1, 0, 0, [32, 64]⟩
  | 0x2D => some ⟨31, 160, 2, 1, 0, 0, [64]⟩
  | 0x2E => some ⟨31, 256, 2, 1, 0, 0, [64]⟩
  | 0x2F => some ⟨31, 256, 2, 2, 0, 0, [64]⟩
  | _ => none

/-- A fraction of hertz: numerator and denominator. -/
abbrev Hz := Nat × Nat

def Hz.le (a b : Hz) : Bool := decide (a.1 * b.2 ≤ b.1 * a.2)
def Hz.min (a b : Hz) : Hz := if Hz.le a b then a else b

/-- The channel rate f_ch = 48,828,125 / (c · 2^h · d) (R135). -/
def Response.fch (r : Response) : Hz := (48828125, r.c * 2 ^ r.h * r.d)

/-- The resampler step Δ = f_ch / f_r in 36 fractional bits, convergently rounded (R146). -/
def resampStep (r : Response) (fr : Nat) : Nat := (roundDiv (48828125 * 2 ^ 36) (r.c * 2 ^ r.h * r.d * fr)).toNat

/-- The context's output rate: f_ch / 2 with the rate stage, the realised f_r with the resampler (R135, R146). -/
def Response.fout (r : Response) (e : Entry) : Hz :=
  if e.resamp then (48828125 * 2 ^ 36, r.c * 2 ^ r.h * r.d * resampStep r e.rate)
  else (48828125, 2 * (r.c * 2 ^ r.h * r.d))

/-- `a / b` of a frequency. -/
def Hz.scale (f : Hz) (a b : Nat) : Hz := (f.1 * a, f.2 * b)

/-- Pass edge of the entry's response (Table 4.3, R641). -/
def Entry.passEdge (e : Entry) : Hz :=
  match responseOf e.response with
  | none => (0, 1)
  | some r => if r.pass ≠ 0 then (r.pass, 1)
    else Hz.min ((r.fout e).scale 4 10) (r.fch.scale 2 10)

/-- Stop edge of the entry's response, half the bandwidth of R50. -/
def Entry.stopEdge (e : Entry) : Hz :=
  match responseOf e.response with
  | none => (0, 1)
  | some r => if r.pass ≠ 0 then (r.stop, 1)
    else Hz.min ((r.fout e).scale 6 10) (r.fch.scale 3 10)

/-- The distance between two centres exceeds `a / b` of an edge. -/
def movedBeyond (f g : Nat) (edge : Hz) (a b : Nat) : Bool :=
  decide (edge.1 * a < (max f g - min f g) * edge.2 * b)

/-- The occupied band, CENTRE ± stop edge, lies within `lo … hi` (each in Hz as a fraction) (R50). -/
def Entry.bandIn (e : Entry) (lo hi : Hz) : Bool :=
  let s := e.stopEdge
  Hz.le ((lo.1 * s.2 + s.1 * lo.2, lo.2 * s.2)) (e.centre, 1) && Hz.le (e.centre * s.2 + s.1, s.2) hi

/-! ### Tributaries -/

/-- Division of a tributary register, 0 when off (Table 4.13). -/
def tribDiv (w : Word) : Nat :=
  match bits w 31 30 with
  | 1 => 16
  | 2 => 32
  | 3 => 64
  | _ => 0

/-- Half of the usable bandwidth in Hz (R45). -/
def halfUsable : Nat → Nat
  | 16 => 78000000
  | 32 => 39000000
  | 64 => 19500000
  | _ => 0

/-- The tributary NCO word (R129). -/
def tribWord (w : Word) : Nat := (roundDiv (bits w 20 0 * 1000 * 2 ^ 32) 3125000000).toNat

/-- The realised centre, word × 3.125 GHz / 2³² (R129). -/
def tribCentre (w : Word) : Hz := (tribWord w * 3125000000, 2 ^ 32)

/-- The tributary's usable bandwidth lies within 0 to 1,562.5 MHz (R131). With DIV off there is no band to test, and any CENTRE is taken: the
model's choice (log entry 65). -/
def tribInRange (w : Word) : Bool :=
  tribDiv w == 0 ||
    (let f := tribCentre w
     let u := halfUsable (tribDiv w)
     decide (u * f.2 ≤ f.1) && decide (f.1 + u * f.2 ≤ 1562500000 * f.2))

/-- Slots a context takes on a division (R134). -/
def slotsOn (div : Nat) : Nat := if div = 16 then 2 else 1

/-- c_eff = c × 64 / D (R135). -/
def cEff (r : Response) (div : Nat) : Nat := r.c * 64 / div

/-- A tributary carries an entry: on, band inside, response allowed on its division, c_eff at most 256 (Table 5.3, check 5). -/
def tribCarries (w : Word) (e : Entry) : Bool :=
  match responseOf e.response with
  | none => false
  | some r =>
    let f := tribCentre w
    let u := halfUsable (tribDiv w)
    tribDiv w != 0 && r.divs.contains (tribDiv w) && decide (cEff r (tribDiv w) ≤ 256) &&
      decide (u * f.2 ≤ f.1) && e.bandIn (f.1 - u * f.2, f.2) (f.1 + u * f.2, f.2)

/-- The entry lies within a catchment of ranges in kHz (R50). -/
def inCatchment (l : List (Nat × Nat)) (e : Entry) : Bool :=
  l.any (fun p => e.bandIn (p.1 * 1000, 1) (p.2 * 1000, 1))

/-! ### Costs -/

/-- Load units without those of decoded DAB subchannels (Table 5.7, R216, R254, R308). -/
def Entry.mainLoad (e : Entry) : Nat :=
  if e.idle then 0
  else if e.scout then 15
  else
    let iq := if e.outIq then 4 else 0
    match e.std with
    | 1 => (if e.stereoAuto then 30 else 22) + iq
    | 2 => 8 + iq
    | 3 => 240 + iq
    | 4 => 12 + iq
    | 5 => 4
    | _ => 0

/-- The subchannels whose decoding costs load units; a scout decodes none (R339). -/
def Entry.loadSubs (e : Entry) : List (Fin 64) := if e.std == stdDab && !e.scout && !e.idle then e.subs else []

/-- All load units of an entry (R199). -/
def Entry.load (e : Entry) : Nat := e.mainLoad + 20 * e.loadSubs.length

/-- Reach buffer of an entry beside its slots' rings, KiB (Table 1.11). -/
def Entry.deinterleave (e : Entry) : Nat := if e.std == stdDab && !e.scout && !e.idle then 108 else 0

/-- Frames per record and bytes per sample of a PCM mode (Table 6.3). -/
def pcmFormat : Nat → Nat × Nat
  | 0 => (48, 3)
  | 1 => (48, 2)
  | 2 => (32, 3)
  | 3 => (32, 2)
  | 4 => (24, 2)
  | 5 => (16, 2)
  | 6 => (8, 2)
  | _ => (0, 0)

/-- Channels of a context's PCM (R226). -/
def Entry.channels (e : Entry) : Nat := if e.std == stdFm && e.stereoAuto then 2 else 1

/-- Size of the context's full PCM record (R244, Table 6.12). -/
def Entry.pcmSize (e : Entry) : Nat :=
  let p := pcmFormat e.pcmMode
  32 + p.1 * p.2 * e.channels

/-- Size of the context's full I/Q block (Table 14.10). -/
def Entry.iqSize (e : Entry) : Nat := 32 + e.iqCount * 2 * (if e.iqWide then 3 else 2)

/-- The higher member of a twin pair sends no data records (R354). -/
def Entry.higherOf (e : Entry) (c : Fin 256) : Bool := e.isTwin && decide (e.partner < c)

/-- Largest record of Table 14.11 for a context that is not idle. -/
def Entry.largestRecord (e : Entry) (c : Fin 256) : Nat :=
  if e.scout || e.higherOf c then 48
  else
    let base := match e.std with
      | 1 => if e.outPcm then max 98 e.pcmSize else 98
      | 2 => if e.outPcm then max 98 e.pcmSize else 98
      | 3 => if e.subs.isEmpty then 62 else 8952
      | 4 => 560
      | _ => 0
    if e.outIq || e.std == stdIq then max base e.iqSize else base

def Hz.add (a b : Hz) : Hz := (a.1 * b.2 + b.1 * a.2, a.2 * b.2)

/-- Host payload of an entry's PCM records, 1,000 in a second (Table 6.12). -/
def Entry.pcmPayloadRate (e : Entry) : Hz := if (e.std == stdFm || e.std == stdAm) && e.outPcm then (8000 * e.pcmSize, 1) else (0, 1)

/-- Host payload of its I/Q blocks (Table 14.10). -/
def Entry.iqPayloadRate (e : Entry) : Hz :=
  match responseOf e.response with
  | some r => if e.outIq then ((r.fout e).1 * e.iqSize * 8, (r.fout e).2 * e.iqCount) else (0, 1)
  | none => (0, 1)

/-- Host payload of its noise-floor reports, 44 bytes in each NF_PERIOD (R323, Table 8.21). -/
def Entry.nfPayloadRate (e : Entry) : Hz :=
  if e.std == stdEab && e.outRec && e.nfPeriod != 0 then (352, e.nfPeriod) else (0, 1)

/-- Host payload in bit/s: the records whose rates the entry configures (Table 1.11; log entry 15). -/
def Entry.payload (e : Entry) (c : Fin 256) : Hz :=
  if e.idle || e.scout || e.higherOf c then (0, 1)
  else (e.pcmPayloadRate.add e.iqPayloadRate).add e.nfPayloadRate

end Sys2Proof.Machine
end

