-- ==== Sys2Proof/Machine/Burst.lean ====
section
/-! DEFINITION. The symbols of an EAB burst (R285 to R288, R299), and how a receiver finds preamble end and SYNC in them (R311, R312,
R314). -/

namespace Sys2Proof.Machine

/-! ### What a transmitter sends -/

/-- The symbol of two coded bits (Table 8.2). -/
def quadOf (first second : Bool) : Quad :=
  match first, second with
  | false, true => .p3
  | false, false => .p1
  | true, false => .m1
  | true, true => .m3

/-- The number that a symbol stands for. -/
def quadValue : Quad → Int
  | .p3 => 3
  | .p1 => 1
  | .m1 => -1
  | .m3 => -3

/-- Symbol m of a field is formed of its coded bits 2m and 2m + 1 (R286). -/
def quadsOf : List Bool → List Quad
  | a :: b :: t => quadOf a b :: quadsOf t
  | _ => []

/-- The alternation of ramps and preamble, starting +3 (Table 8.3). -/
def alternation (n : Nat) : List Quad := (List.range n).map (fun i => if i % 2 = 0 then .p3 else .m3)

/-- SYNC (R288). -/
def syncWord : BitVec 24 := 0x1AC90E

/-- SYNC from bit 23 to bit 0, a 1 as +3 and a 0 as −3 (R288). -/
def syncQuads : List Quad := (List.range 24).map (fun i => if syncWord.getLsbD (23 - i) then .p3 else .m3)

/-- All symbols of a burst in the order of Table 8.3, from the whitened bits of header and payload. -/
def burstQuads (coded : List Bool) : List Quad :=
  alternation 8 ++ alternation 48 ++ syncQuads ++ quadsOf coded ++ alternation 8

/-- S, the symbols of a payload codeword (Table 8.11). -/
def codewordSymbols (rate : Nat) : Nat := sentBits rate / 2

/-- Symbols of a burst, ramps included (R288). -/
def burstSymbols (cw rate : Nat) : Nat := 216 + cw * codewordSymbols rate

/-- Symbols from the start of SYNC to the end of the burst: SYNC, header and payload (R288). -/
def syncToEnd (cw rate : Nat) : Nat := 24 + 128 + cw * codewordSymbols rate

/-- Deviation of a symbol in Hz (Table 8.1). -/
def deviationOf (channel : Bool) (q : Quad) : Int := quadValue q * (if channel then 600 else 1200)

/-- Symbol period of a channel plan in ps (Table 8.1). -/
def symbolPs (channel : Bool) : Nat := if channel then 208333333 else 104166667

/-- `n` symbol periods in ns, to the nearest: 1/9,600 s or 1/4,800 s each (Table 8.1). -/
def symbolsNs (channel : Bool) (n : Nat) : Nat := (roundDiv (n * 1000000000) (if channel then 4800 else 9600)).toNat

/-- `n` symbol periods in ps, to the nearest (Table 8.1). -/
def symbolsPs (channel : Bool) (n : Nat) : Nat := (roundDiv (n * 1000000000000) (if channel then 4800 else 9600)).toNat

/-! ### What a receiver sees: decisions, an erased symbol without one -/

/-- A decision of +3 or −3 opposite to another. -/
def opposite (a b : Option Quad) : Bool := (a == some .p3 && b == some .m3) || (a == some .m3 && b == some .p3)

/-- Decisions that alternate between +3 and −3 (R312). -/
def alternates : List (Option Quad) → Bool
  | a :: b :: t => opposite a b && alternates (b :: t)
  | _ => true

/-- The decision at `i` breaks the alternation; an erased symbol has no decision to break it with (log entry 69). -/
def breaksAt (l : List (Option Quad)) (i : Nat) : Bool :=
  match l[i - 1]?, l[i]? with
  | some (some a), some (some b) => !opposite (some a) (some b)
  | _, _ => false

/-- Symbols of a detection, and the symbols after it within which the alternation must end (R312, Table 8.15). -/
def detectSymbols : Nat := 16
def preambleMax : Nat := 64

/-- The preamble end: the first symbol boundary after which two consecutive decisions break the alternation (R314), as an index into the
symbols of a reception, within the 64 symbols of Table 8.15. -/
def preambleEnd (l : List (Option Quad)) : Option Nat :=
  ((List.range (preambleMax - 1)).map (· + detectSymbols)).find? (fun i => breaksAt l i && breaksAt l (i + 1))

/-- The sign decision of a symbol is that of a SYNC symbol; an erased one disagrees (R314). -/
def signAgrees (a : Option Quad) (b : Quad) : Bool :=
  match a with
  | some q => decide (0 < quadValue q) == decide (0 < quadValue b)
  | none => false

/-- Disagreements with SYNC at a position (R314). -/
def syncErrors (l : List (Option Quad)) (p : Nat) : Nat :=
  ((List.range 24).filter (fun i => !signAgrees (l.getD (p + i) none) (syncQuads.getD i .m3))).length

/-- SYNC: the first position, from 4 symbols before the preamble end to the one that completes 32 symbols after it, with at most 3
disagreements (R314). -/
def syncAt (l : List (Option Quad)) (pre : Nat) : Option Nat :=
  ((List.range 13).map (· + (pre - 4))).find? (fun p => decide (p + 24 ≤ l.length ∧ syncErrors l p ≤ 3))

/-- Position of SYNC in the symbols of a reception. -/
def syncStart (l : List (Option Quad)) : Option Nat := (preambleEnd l).bind (syncAt l)

/-- How far a reception's symbols have carried it (Table 8.15): none when it has failed R314. -/
def stageOf (l : List (Option Quad)) : Option RxSt :=
  match preambleEnd l with
  | none => if detectSymbols + preambleMax ≤ l.length then none else some .preamble
  | some pre => match syncAt l pre with
    | some _ => some .header
    | none => if pre + 32 ≤ l.length then none else some .syncWait

/-- A symbol of a context: erased when a sample of it is invalid, or blanked in a context that honours blanking (R320). -/
def decisionOf (honour : Bool) (y : EabSym) : Option Quad := if y.invalid || (y.marks.blanked && honour) then none else some y.value

/-- A symbol as a reception keeps it: an erased one is invalid, and its soft bits are erasures (R320). -/
def erasedSym (honour gone : Bool) (y : EabSym) : EabSym :=
  if gone || (decisionOf honour y).isNone then { y with invalid := true, soft := (0, 0) } else y

/-- Mean signal power over the symbols that are not erased, as a sum and a number of them. -/
def signalPower (l : List EabSym) : Nat × Nat :=
  let q := l.filter (fun y => !y.invalid)
  ((q.map (fun y => y.power)).sum, q.length)

/-- Signal-to-noise ratio over symbols, as two numbers (R312). -/
def snrRatio (l : List EabSym) (noise : Nat) : Nat × Nat := ((signalPower l).1, (signalPower l).2 * noise)

/-- A signal-to-noise ratio in 0.5 dB, as a byte carries it. -/
def halfDecibels (q : Nat × Nat) : Nat := min (decibels 20 q.1 q.2).toNat 255

/-- Signal-to-noise ratio over symbols in 0.5 dB (R312). -/
def snrOver (l : List EabSym) (noise : Nat) : Nat := halfDecibels (snrRatio l noise)

/-- Level of a run of symbols in 0.1 dB against the reach-referred reference level. -/
def levelOver (l : List EabSym) : Int := decibels 100 (signalPower l).1 ((signalPower l).2 * refPower)

/-- Marks of a run of symbols. -/
def symbolMarks (l : List EabSym) : Marks := ⟨l.any (fun y => y.marks.blanked), l.any (fun y => y.marks.overrange)⟩

end Sys2Proof.Machine
end

