-- ==== Sys2Proof/Machine/DabCodes.lean ====
section
/-! DEFINITION. What the DAB engine computes on bits (R262, R264 to R274): CRCs, FIGs, protection profiles, time de-interleaving, energy
dispersal, re-encoding, packets and superframe headers. The layouts and tables are those of EN 300 401 and TS 102 563, which the manual
follows and does not restate (log entry 68). -/

namespace Sys2Proof.Machine

/-- Part of a byte: `n` bits from bit `k` up. -/
def part (b : Byte) (k n : Nat) : Nat := b.toNat / 2 ^ k % 2 ^ n

/-- A CRC-16 of DAB stands, complemented, in the last two bytes. -/
def dabCrcOk (l : List Byte) : Bool :=
  decide (3 ≤ l.length) && bytesOf 2 ((crc16 (l.take (l.length - 2))) ^^^ 0xFFFF).toNat == l.drop (l.length - 2)

/-! ### FIBs and FIGs (R262 to R264) -/

/-- A FIB passes its CRC. -/
def fibOk (f : Fib) : Bool := f.bytes.length == 32 && dabCrcOk f.bytes

/-- The FIGs of a FIB's data, each with its place and its header byte, up to the end marker or padding. -/
def figsFrom : Nat → Nat → List Byte → List (Nat × List Byte)
  | 0, _, _ => []
  | _ + 1, _, [] => []
  | n + 1, k, b :: t =>
    if b == 0xFF || part b 0 5 = 0 || t.length < part b 0 5 then []
    else (k, b :: t.take (part b 0 5)) :: figsFrom n (k + 1 + part b 0 5) (t.drop (part b 0 5))

def fibFigsAt (f : Fib) : List (Nat × List Byte) := figsFrom 30 0 (f.bytes.take 30)
def fibFigs (f : Fib) : List (List Byte) := (fibFigsAt f).map (fun p => p.2)

/-- A FIG of type 0 with its extension: flags C/N, OE and P/D, and its field; FIGs that speak of other ensembles have OE set. -/
def fig0 (ext : Nat) (fig : List Byte) : Option ((Bool × Bool × Bool) × List Byte) :=
  match fig with
  | h :: b :: t => if part h 5 3 = 0 && part b 0 5 == ext then some ((b.getLsbD 7, b.getLsbD 6, b.getLsbD 5), t) else none
  | _ => none

/-- FIG 0/0: EId, CIF count, and the lower part of the count at which a signalled change takes place. -/
def fig00 (fig : List Byte) : Option (Nat × Nat × Option Nat) :=
  match fig0 0 fig with
  | some (_, a :: b :: c :: d :: t) =>
    some (a.toNat * 256 + b.toNat, part c 0 5 * 250 + d.toNat, if part c 6 2 = 0 then none else t.head?.map BitVec.toNat)
  | _ => none

/-- Sizes in capacity units of the 64 short-form profiles. -/
def uepSizes : List Nat :=
  [16, 21, 24, 29, 35, 24, 29, 35, 42, 52, 29, 35, 42, 52, 32, 42, 48, 58, 70, 40, 52, 58, 70, 84, 48, 58, 70, 84, 104, 58, 70, 84] ++
  [104, 64, 84, 96, 116, 140, 80, 104, 116, 140, 168, 96, 116, 140, 168, 208, 116, 140, 168, 208, 232, 128, 168, 192, 232, 280, 160, 208,
   280, 192, 280, 416]

/-- Capacity units of a long-form profile come in multiples of this: option A levels 1 to 4, then option B. -/
def eepUnit (k : Nat) : Nat := ([12, 8, 6, 4, 27, 21, 18, 15] : List Nat).getD k 0

/-- FIG 0/1 entries. -/
def fig01 : Nat → List Byte → List SubOrg
  | 0, _ => []
  | n + 1, a :: b :: c :: t =>
    let sub : Fin 64 := Fin.ofNat 64 (part a 2 6)
    let start := part a 0 2 * 256 + b.toNat
    if part c 7 1 = 0 then
      ⟨sub, start, uepSizes.getD (part c 0 6) 0, part c 0 6, part c 6 1 == 0⟩ :: fig01 n t
    else
      match t with
      | d :: u =>
        let size := part c 0 2 * 256 + d.toNat
        let k := 4 * part c 4 3 + part c 2 2
        ⟨sub, start, size, 64 + k, decide (k < 8 ∧ size ≠ 0 ∧ size ≤ 864 ∧ size % eepUnit k = 0)⟩ :: fig01 n u
      | [] => []
  | _ + 1, _ => []

/-- Components of a service: pairs of bytes with TMId and type, and subchannel. TMId 00 with a type other than 63 and 0 is taken as stream
data (log entry 68). -/
def components : Nat → List Byte → List (Fin 64 × SubClass)
  | 0, _ => []
  | n + 1, a :: b :: t =>
    let sub : Fin 64 := Fin.ofNat 64 (part b 2 6)
    match part a 6 2 with
    | 0 => (sub, if part a 0 6 = 63 then .dabPlus else if part a 0 6 = 0 then .layer2 else .stream) :: components n t
    | 1 => (sub, .stream) :: components n t
    | _ => components n t
  | _ + 1, _ => []

/-- FIG 0/2: subchannels that service components name (R268). -/
def fig02 (long : Bool) : Nat → List Byte → List (Fin 64 × SubClass)
  | 0, _ => []
  | n + 1, l =>
    match l.drop (if long then 4 else 2) with
    | a :: t => components (part a 0 4) t ++ fig02 long n (t.drop (2 * part a 0 4))
    | [] => []

/-- FIG 0/3: subchannels of packet-mode components. -/
def fig03 : Nat → List Byte → List (Fin 64 × SubClass)
  | 0, _ => []
  | n + 1, _ :: b :: _ :: d :: _ :: t => (Fin.ofNat 64 (part d 2 6), .packet) :: fig03 n (if b.getLsbD 0 then t.drop 2 else t)
  | _ + 1, _ => []

/-- FIG 0/10 in its long form, as station time: ns from 2000-01-01, MJD 51544. -/
def fig10 (fig : List Byte) : Option Nat :=
  match fig0 10 fig with
  | some (_, a :: b :: c :: d :: e :: f :: _) =>
    let v := a.toNat * 16777216 + b.toNat * 65536 + c.toNat * 256 + d.toNat
    if v / 2048 % 2 = 0 then none
    else some ((((v / 16384 % 131072 - 51544) * 86400 + v / 64 % 32 * 3600 + v % 64 * 60 + part e 2 6) * 1000 + part e 0 2 * 256 + f.toNat) *
      1000000)
  | _ => none

/-- Frequencies in Hz of one entry of FIG 0/21: of ensembles (R&M 0000) and of FM with RDS (R&M 1000). -/
def fig21Freqs (rm : Nat) : Nat → List Byte → List Nat
  | 0, _ => []
  | n + 1, l =>
    match rm, l with
    | 0, a :: b :: c :: t => (part a 0 3 * 65536 + b.toNat * 256 + c.toNat) * 16000 :: fig21Freqs rm n t
    | 8, a :: t => (87500000 + 100000 * a.toNat) :: fig21Freqs rm n t
    | _, _ => []

/-- Frequency lists of FIG 0/21: identity, range and modulation, frequencies. -/
def fig21Lists : Nat → List Byte → List (Nat × Nat × List Nat)
  | 0, _ => []
  | n + 1, a :: b :: c :: t =>
    (a.toNat * 256 + b.toNat, part c 4 4, fig21Freqs (part c 4 4) 7 (t.take (part c 0 3))) :: fig21Lists n (t.drop (part c 0 3))
  | _ + 1, _ => []

/-- FIG 0/21: its blocks, each with a region and the length of its lists. -/
def fig21 : Nat → List Byte → List (Nat × Nat × List Nat)
  | 0, _ => []
  | n + 1, _ :: b :: t => fig21Lists 10 (t.take (part b 0 5)) ++ fig21 n (t.drop (part b 0 5))
  | _ + 1, _ => []

/-- Candidates that FIG 0/21 gives (Table 9.1): frequencies of the own ensemble with its EId, and FM frequencies of a PI that the follow set
names. -/
def fig21Carriers (eid : Option Nat) (pis : List Nat) (l : List (Nat × Nat × List Nat)) : List Carrier :=
  l.flatMap (fun p =>
    if p.2.1 = 0 && eid == some p.1 then p.2.2.map (fun f => ⟨3, false, f, p.1⟩)
    else if p.2.1 = 8 && pis.contains p.1 then p.2.2.map (fun f => ⟨1, false, f, p.1⟩)
    else [])

/-! ### Protection profiles (R265, R269) -/

/-- An unequal-error protection profile: four runs of 128-bit blocks with their puncturing indices, and padding bits. -/
structure Uep where
  runs : List (Nat × Nat)
  pad : Nat

def uepRows0 : List Uep :=
  [⟨[(3, 5), (4, 3), (17, 2), (0, 0)], 0⟩, ⟨[(3, 11), (3, 6), (18, 5), (0, 0)], 0⟩, ⟨[(3, 15), (4, 9), (14, 6), (3, 8)], 0⟩,
   ⟨[(3, 22), (4, 13), (14, 8), (3, 13)], 0⟩, ⟨[(3, 24), (5, 17), (13, 12), (3, 17)], 4⟩, ⟨[(4, 5), (3, 4), (26, 2), (3, 3)], 0⟩,
   ⟨[(3, 9), (4, 6), (26, 4), (3, 6)], 0⟩, ⟨[(3, 15), (4, 10), (26, 6), (3, 9)], 4⟩, ⟨[(3, 24), (4, 14), (26, 8), (3, 15)], 0⟩,
   ⟨[(3, 24), (5, 18), (25, 13), (3, 18)], 0⟩, ⟨[(6, 5), (10, 4), (23, 2), (3, 3)], 0⟩, ⟨[(6, 9), (10, 6), (23, 4), (3, 5)], 0⟩,
   ⟨[(6, 16), (12, 7), (21, 6), (3, 9)], 0⟩, ⟨[(6, 23), (10, 13), (23, 8), (3, 13)], 8⟩, ⟨[(6, 5), (9, 3), (31, 2), (2, 3)], 0⟩,
   ⟨[(6, 11), (9, 6), (33, 5), (0, 0)], 0⟩]
def uepRows1 : List Uep :=
  [⟨[(6, 16), (12, 8), (27, 6), (3, 9)], 0⟩, ⟨[(6, 23), (10, 13), (29, 8), (3, 13)], 8⟩, ⟨[(6, 24), (11, 18), (28, 12), (3, 18)], 4⟩,
   ⟨[(6, 6), (10, 3), (41, 2), (3, 3)], 0⟩, ⟨[(6, 11), (10, 6), (41, 5), (3, 6)], 0⟩, ⟨[(6, 16), (11, 8), (40, 6), (3, 7)], 0⟩,
   ⟨[(6, 23), (10, 13), (41, 8), (3, 13)], 8⟩, ⟨[(6, 24), (10, 17), (41, 12), (3, 18)], 4⟩, ⟨[(7, 5), (9, 4), (53, 2), (3, 4)], 0⟩,
   ⟨[(7, 9), (10, 6), (52, 4), (3, 6)], 0⟩, ⟨[(6, 16), (12, 9), (51, 6), (3, 10)], 4⟩, ⟨[(6, 22), (10, 12), (53, 9), (3, 12)], 0⟩,
   ⟨[(6, 24), (13, 18), (50, 13), (3, 19)], 0⟩, ⟨[(14, 5), (17, 4), (50, 2), (3, 5)], 0⟩, ⟨[(11, 9), (21, 6), (49, 4), (3, 8)], 0⟩,
   ⟨[(11, 16), (23, 8), (47, 6), (3, 9)], 0⟩]
def uepRows2 : List Uep :=
  [⟨[(11, 23), (21, 12), (49, 9), (3, 14)], 4⟩, ⟨[(12, 5), (19, 3), (62, 2), (3, 4)], 0⟩, ⟨[(11, 11), (21, 6), (61, 5), (3, 7)], 0⟩,
   ⟨[(11, 16), (22, 9), (60, 6), (3, 10)], 4⟩, ⟨[(11, 22), (21, 12), (61, 9), (3, 14)], 0⟩, ⟨[(11, 24), (20, 17), (62, 13), (3, 19)], 8⟩,
   ⟨[(11, 5), (19, 4), (87, 2), (3, 4)], 0⟩, ⟨[(11, 11), (23, 6), (83, 5), (3, 9)], 0⟩, ⟨[(11, 16), (24, 8), (82, 6), (3, 11)], 0⟩,
   ⟨[(11, 22), (21, 11), (85, 9), (3, 13)], 0⟩, ⟨[(11, 24), (22, 18), (84, 12), (3, 19)], 0⟩, ⟨[(11, 6), (20, 4), (110, 2), (3, 5)], 0⟩,
   ⟨[(11, 10), (22, 6), (108, 4), (3, 9)], 0⟩, ⟨[(11, 16), (24, 10), (106, 6), (3, 11)], 0⟩, ⟨[(11, 22), (20, 13), (110, 9), (3, 13)], 8⟩,
   ⟨[(11, 24), (21, 20), (109, 13), (3, 24)], 0⟩]
def uepRows3 : List Uep :=
  [⟨[(12, 8), (22, 6), (131, 2), (3, 6)], 4⟩, ⟨[(12, 12), (26, 8), (127, 4), (3, 11)], 0⟩, ⟨[(11, 16), (20, 10), (134, 7), (3, 9)], 0⟩,
   ⟨[(11, 24), (22, 16), (132, 10), (3, 15)], 0⟩, ⟨[(11, 24), (24, 20), (130, 12), (3, 20)], 4⟩, ⟨[(11, 6), (24, 5), (154, 2), (3, 5)], 0⟩,
   ⟨[(11, 12), (24, 9), (154, 5), (3, 10)], 4⟩, ⟨[(11, 16), (27, 10), (151, 7), (3, 10)], 0⟩, ⟨[(11, 24), (22, 14), (156, 10), (3, 13)], 8⟩,
   ⟨[(11, 24), (26, 19), (152, 14), (3, 18)], 4⟩, ⟨[(11, 8), (26, 5), (200, 2), (3, 6)], 4⟩, ⟨[(11, 13), (25, 9), (201, 5), (3, 10)], 8⟩,
   ⟨[(11, 24), (26, 17), (200, 9), (3, 17)], 0⟩, ⟨[(11, 8), (27, 6), (247, 2), (3, 7)], 0⟩, ⟨[(11, 16), (24, 9), (250, 7), (3, 10)], 4⟩,
   ⟨[(12, 24), (28, 20), (245, 14), (3, 23)], 8⟩]
def uepRows : List Uep := uepRows0 ++ uepRows1 ++ uepRows2 ++ uepRows3

/-- The runs of an equal-error protection profile of `size` capacity units. -/
def eepRuns (k size : Nat) : List (Nat × Nat) :=
  let n := size / eepUnit k
  match k with
  | 0 => [(6 * n - 3, 24), (3, 23)]
  | 1 => if n = 1 then [(5, 13), (1, 12)] else [(2 * n - 3, 14), (4 * n + 3, 13)]
  | 2 => [(6 * n - 3, 8), (3, 7)]
  | 3 => [(4 * n - 3, 3), (2 * n + 3, 2)]
  | 4 => [(24 * n - 3, 10), (3, 9)]
  | 5 => [(24 * n - 3, 6), (3, 5)]
  | 6 => [(24 * n - 3, 4), (3, 3)]
  | 7 => [(24 * n - 3, 2), (3, 1)]
  | _ => []

def SubOrg.runs (o : SubOrg) : List (Nat × Nat) :=
  if o.profile < 64 then (match uepRows[o.profile]? with | some u => u.runs | none => []) else eepRuns (o.profile - 64) o.size

/-- Which bits of 32 of the mother code puncturing index `p` sends: of the eight groups of four, taken in the order 0, 4, 2, 6, 1, 5, 3, 7,
group k sends one bit and one more for each time that index has gone past it. -/
def puncture (p : Nat) : List Bool :=
  ([0, 4, 2, 6, 1, 5, 3, 7] : List Nat).flatMap (fun rank => (List.range 4).map (fun b => decide (b < 1 + (p + 7 - rank) / 8)))

/-- The transmitted bits of a logical frame's mother codeword: its runs, then 12 of the 24 bits of the tail. -/
def SubOrg.mask (o : SubOrg) : List Bool :=
  o.runs.flatMap (fun r => (List.range (4 * r.1)).flatMap (fun _ => puncture r.2)) ++
    (List.range 6).flatMap (fun _ => [true, true, false, false])

/-- Bits of a logical frame before coding. -/
def SubOrg.dataBits (o : SubOrg) : Nat := 32 * ((o.runs.map Prod.fst).sum)

/-- The transmitted bits of the FIC's mother codeword, 2,304 of 3,096 in a CIF. -/
def ficMask : List Bool :=
  ([(21, 16), (3, 15)] : List (Nat × Nat)).flatMap (fun r => (List.range (4 * r.1)).flatMap (fun _ => puncture r.2)) ++
    (List.range 6).flatMap (fun _ => [true, true, false, false])

/-- Transmitted values in their places in the mother codeword, `gap` in those of the punctured bits. -/
def depuncture {α : Type} (gap : α) : List Bool → List α → List α
  | [], _ => []
  | true :: m, v :: l => v :: depuncture gap m l
  | true :: m, [] => gap :: depuncture gap m []
  | false :: m, l => gap :: depuncture gap m l

/-! ### Time de-interleaving and the channel's bit errors (R266, R269, R279, R359) -/

/-- A number of four bits in reverse order: the CIFs by which bit i of a logical frame is delayed. -/
def reverse4 (i : Nat) : Nat := i % 2 * 8 + i / 2 % 2 * 4 + i / 4 % 2 * 2 + i / 8 % 2

/-- A soft bit drawn from the symbol is an erasure: samples that R156 makes invalid, and blanked ones in a context that honours blanking
(R279, Table 7.9). -/
def symErases (honour : Bool) (s : DabSym) : Bool := s.invalid || (honour && s.marks.blanked)

/-- The symbols that a soft bit is drawn from: its own and, by differential demodulation, the one before. -/
def mscDrawn (c : MscCif) (n : Nat) : List DabSym := ((c.before :: c.symbols).drop (n / 3072)).take 2

/-- A soft bit of a stored CIF. -/
def StoredCif.at (c : StoredCif) (honour : Bool) (n : Nat) : Soft :=
  if (mscDrawn c.msc n).any (symErases honour) then .erased else c.msc.soft.getD n .erased

/-- The symbols that a soft bit of a CIF's FIC is drawn from, of the PRS and the three FIC symbols. -/
def ficDrawn (symbols : List DabSym) (cif : Fin 4) (n : Nat) : List DabSym := (symbols.drop ((2304 * cif.val + n) / 3072)).take 2

/-- The soft bits of a CIF's FIC with their erasures (R279). -/
def ficSoftBits (f : Fic) (symbols : List DabSym) (honour : Bool) : List Soft :=
  f.soft.zipIdx.map (fun p => if (ficDrawn symbols f.cif p.2).any (symErases honour) then .erased else p.1)

/-- The logical frame that the newest CIF completes, of a run of capacity units. -/
def deinterleave (lines : List StoredCif) (honour : Bool) (o : SubOrg) : List Soft :=
  (List.range (64 * o.size)).map (fun i => match lines[15 - reverse4 (i % 16)]? with
    | some c => c.at honour (64 * o.start + i)
    | none => .erased)

/-- Two soft bits added: one that is erased adds nothing. -/
def Soft.add : Soft → Soft → Soft
  | .erased, b => b
  | a, .erased => a
  | a, b => if a = b then a else .erased

/-- The de-interleaver of the partner from the CIF with the same count on (R359). -/
def alignLines (lines partner : List StoredCif) : List StoredCif :=
  match lines with
  | c :: _ => if c.count.isSome then partner.dropWhile (fun x => x.count != c.count) else []
  | [] => []

/-- The marks of all samples of some symbols. -/
def symMarks (l : List DabSym) : Marks := l.foldl (fun m x => orMarks m x.marks) {}

/-- The marks of the samples that each transmitted bit of a logical frame was drawn from. -/
def bitMarks (lines : List StoredCif) (o : SubOrg) : List Marks :=
  (List.range (64 * o.size)).map (fun i => match lines[15 - reverse4 (i % 16)]? with
    | some c => symMarks (mscDrawn c.msc (64 * o.start + i))
    | none => {})

/-- The marks of the samples that bore each of `n` data bytes of a codeword, of which `mask` was transmitted (R278): a data bit acts on the
code bits of its own step and of the six after it (log entry 68). -/
def byteMarks (mask : List Bool) (bits : List Marks) (n : Nat) : List Marks :=
  let m := depuncture {} mask bits
  (List.range n).map (fun j => ((m.drop (32 * j)).take 56).foldl orMarks {})

/-- The marks of a run of bytes. -/
def marksOver (l : List Marks) (a n : Nat) : Marks := ((l.drop a).take n).foldl orMarks {}

/-- A logical frame as far as it carried `n` of its bytes from byte `a` on. -/
def FrameInfo.over (f : FrameInfo) (a n : Nat) : FrameInfo := { f with marks := marksOver f.byteMarks a n }

/-- The four bits of the mother code for an input bit after six others, newest first: polynomials 133, 171, 145 and 133 octal. -/
def codeBits (b : Bool) (h : List Bool) : List Bool :=
  let a := fun n => h.getD (n - 1) false
  let x0 := xor (xor b (a 2)) (xor (a 3) (xor (a 5) (a 6)))
  let x1 := xor (xor b (a 1)) (xor (a 2) (xor (a 3) (a 6)))
  let x2 := xor (xor b (a 1)) (xor (a 4) (a 6))
  [x0, x1, x2, x0]

/-- The mother codeword of a run of bits, tail included. -/
def motherCode (h : List Bool) : List Bool → List Bool
  | [] => []
  | b :: t => codeBits b h ++ motherCode ((b :: h).take 6) t

/-- Hard decisions that differ from the re-encoded bits, and those compared; an erasure has no decision. -/
def compareBits : List Bool → List Soft → Nat × Nat
  | b :: bs, s :: t =>
    let q := compareBits bs t
    match s with
    | .erased => q
    | .one => (q.1 + (!b).toNat, q.2 + 1)
    | .zero => (q.1 + b.toNat, q.2 + 1)
  | _, _ => (0, 0)

/-- The mother codeword that a run of decoded bits gives, with its tail, against soft bits. -/
def reencode (bits : List Bool) (soft : List Soft) : Nat × Nat := compareBits (motherCode [] (bits ++ List.replicate 6 false)) soft

/-- One step of the trellis: the least numbers of differences on a path to each of the 64 contents of the register, newest bit lowest, after
the soft bits of another step. -/
def trellisStep (sym : List Soft) (m : List Nat) : List Nat :=
  (List.range 64).map (fun t =>
    let to_ := fun (p : Nat) => m.getD p 0 + (compareBits (codeBits (t.testBit 0) ((List.range 6).map p.testBit)) sym).1
    min (to_ (t / 2)) (to_ (t / 2 + 32)))

/-- The least number of differences of any codeword of `n` steps from soft bits, from the distances `m` on: the register begins and ends
empty. -/
def leastDistance : Nat → List Soft → List Nat → Nat
  | 0, _, m => m.headD 0
  | n + 1, l, m => leastDistance n (l.drop 4) (trellisStep (l.take 4) m)

/-- The Viterbi decoder returns `n` bits of a codeword that is as near to the depunctured soft bits as any (R269); of equally near ones it
may return each (log entry 68). -/
def viterbiReturns (n : Nat) (mask : List Bool) (soft : List Soft) (bits : List Bool) : Bool :=
  let d := depuncture .erased mask soft
  bits.length == n && (reencode bits d).1 == leastDistance (n + 6) d (0 :: List.replicate 63 1000000)

/-- The energy dispersal sequence, x^9 + x^5 + 1 from a register of ones, oldest bit first. -/
def dispersal : Nat → List Bool → List Bool
  | 0, _ => []
  | n + 1, r => let b := xor (r.getD 0 false) (r.getD 4 false); b :: dispersal n (r.drop 1 ++ [b])

/-- Whole bytes of a run of bits. -/
def packBytes : Nat → List Bool → List Byte
  | 0, _ => []
  | n + 1, l => BitVec.ofNat 8 (natOfBits (l.take 8)) :: packBytes n (l.drop 8)

/-- The Viterbi decoder's bits with energy dispersal removed. -/
def undisperse (l : List Bool) : List Byte := packBytes (l.length / 8) (xorBits l (dispersal l.length (List.replicate 9 true)))

/-! ### Packets (R273) -/

/-- A packet as its header tells: its place in the logical frame, continuity, first and last flags, address, useful data, all its bytes. -/
structure Packet where
  offset : Nat
  continuity : Fin 4
  first : Bool
  last : Bool
  addr : BitVec 10
  useful : List Byte
  bytes : List Byte

/-- The packets of a logical frame, of 24, 48, 72 or 96 bytes. -/
def packetsOf : Nat → Nat → List Byte → List Packet
  | 0, _, _ => []
  | n + 1, k, l =>
    match l with
    | a :: b :: c :: _ =>
      let len := 24 * (part a 6 2 + 1)
      if l.length < len then []
      else ⟨k, Fin.ofNat 4 (part a 4 2), a.getLsbD 3, a.getLsbD 2, BitVec.ofNat 10 (part a 0 2 * 256 + b.toNat),
            ((l.take (len - 2)).drop 3).take (part c 0 7), l.take len⟩ :: packetsOf n (k + len) (l.drop len)
    | _ => []

/-- CRC result of a data group, none where its header says that it carries none. -/
def groupCrc (l : List Byte) : Option Bool :=
  match l with
  | h :: _ => if h.getLsbD 6 then some (dabCrcOk l) else none
  | [] => none

/-! ### Superframes (R270) -/

/-- One bit of the fire code, x^16 + x^14 + x^13 + x^12 + x^11 + x^5 + x^3 + x^2 + x + 1. -/
def fireBit (r : BitVec 16) : BitVec 16 := if r.getLsbD 15 then (r <<< 1) ^^^ 0x782F else r <<< 1
def fireByte (r : BitVec 16) (b : Byte) : BitVec 16 :=
  fireBit (fireBit (fireBit (fireBit (fireBit (fireBit (fireBit (fireBit (r ^^^ (b.setWidth 16 <<< 8)))))))))

/-- The fire code of a superframe, its first two bytes, covers the nine after them. -/
def fireOk (l : List Byte) : Bool := bytesOf 2 (((l.drop 2).take 9).foldl fireByte 0).toNat == l.take 2

/-- Starts of the access units: a number of them that dac_rate and sbr_flag give, the first after the header, the others in 12 bits each. -/
def unitStarts (l : List Byte) : List Nat :=
  let b := l.getD 2 0
  let n : Nat × Nat := if b.getLsbD 6 then (if b.getLsbD 5 then (3, 6) else (6, 11)) else (if b.getLsbD 5 then (2, 5) else (4, 8))
  n.2 :: (List.range (n.1 - 1)).map (fun k => natOfBits (((l.drop 3).flatMap bitsOfByte).drop (12 * k) |>.take 12))

/-- The access units with their first and last byte offsets; the last ends before the Reed-Solomon parity, 10 of every 120 bytes. -/
def unitsOf (l : List Byte) : List (Nat × List Byte) :=
  let data := l.take (l.length / 120 * 110)
  let s := unitStarts l
  (s.zip (s.drop 1 ++ [data.length])).map (fun p => (p.1, (data.take p.2).drop p.1))

/-! ### Reed-Solomon decoding (R270): RS(120, 110) over x^8 + x^4 + x^3 + x^2 + 1 -/

def rsDouble (r : Byte) : Byte := if r.getLsbD 7 then (r <<< 1) ^^^ 0x1D else r <<< 1

def rsMul (a b : Byte) : Byte :=
  ([7, 6, 5, 4, 3, 2, 1, 0] : List Nat).foldl (fun r k => rsDouble r ^^^ (if b.getLsbD k then a else 0)) 0

def rsPow (a : Byte) : Nat → Byte
  | 0 => 1
  | n + 1 => rsMul a (rsPow a n)

/-- A polynomial, highest power first, at a point. -/
def rsEval (p : List Byte) (x : Byte) : Byte := p.foldl (fun r b => rsMul r x ^^^ b) 0

/-- The ten syndromes of a codeword. -/
def syndromes (w : List Byte) : List Byte := (List.range 10).map (fun k => rsEval w (rsPow 2 k))

/-- The search for the shortest error locator (Berlekamp and Massey): locator, the one before its last change, lowest power first, its
length, the steps since that change, and the discrepancy there. -/
structure Locator where
  now : List Byte := [1]
  old : List Byte := [1]
  len : Nat := 0
  gap : Nat := 1
  disc : Byte := 1

def Locator.next (s : List Byte) (q : Locator) (n : Nat) : Locator :=
  let d := (List.range (q.len + 1)).foldl (fun r i => r ^^^ rsMul (q.now.getD i 0) (s.getD (n - i) 0)) 0
  if d == 0 then { q with gap := q.gap + 1 }
  else
    let f := rsMul d (rsPow q.disc 254)
    let t := (List.range 11).map (fun i => q.now.getD i 0 ^^^ (if i < q.gap then 0 else rsMul f (q.old.getD (i - q.gap) 0)))
    if 2 * q.len ≤ n then { now := t, old := q.now, len := n + 1 - q.len, gap := 1, disc := d } else { q with now := t, gap := q.gap + 1 }

/-- Some codeword differs from the received one in at most 5 of its 120 bytes: the locator has as many roots there as its length. -/
def correctable (w : List Byte) : Bool :=
  let q := (List.range 10).foldl (Locator.next (syndromes w)) {}
  decide (q.len ≤ 5) && ((List.range 120).filter (fun j => rsEval q.now.reverse (rsPow 2 (255 - j)) == 0)).length == q.len

/-- Codeword `j` of the `n` interleaved ones of a superframe. -/
def codeword (l : List Byte) (n j : Nat) : List Byte := (List.range 120).map (fun i => l.getD (i * n + j) 0)

/-- Bytes that differ. -/
def bytesChanged (a b : List Byte) : Nat := ((a.zip b).filter (fun p => p.1 != p.2)).length

/-- What the Reed-Solomon decoder returns for a superframe: each codeword corrected in at most 5 bytes, or, if none is so near, as it was
received and named in `failed`. -/
def rsReturns (raw corrected : List Byte) (failed : List Nat) : Bool :=
  let n := raw.length / 120
  corrected.length == raw.length && (List.range n).all (fun j =>
    let a := codeword raw n j
    let b := codeword corrected n j
    if failed.contains j then a == b && !correctable a else (syndromes b).all (· == 0) && decide (bytesChanged a b ≤ 5))

/-! ### PAD (R274) -/

/-- The PAD of an access unit or a Layer II frame: where its bytes stand, how many, F-PAD, and X-PAD in its position there. -/
structure PadAt where
  offset : Nat
  length : Nat
  fPad : List Byte
  xPad : List Byte

/-- The PAD of a DAB+ access unit, in the data stream element that begins it (log entry 68). -/
def unitPad (u : List Byte) : Option PadAt :=
  match u with
  | a :: b :: t =>
    let from_ := if b == 0xFF then 3 else 2
    let n := b.toNat + (if b == 0xFF then (t.headD 0).toNat else 0)
    if part a 5 3 ≠ 4 || n < 2 || u.length < from_ + n then none
    else some ⟨from_, n, ((u.drop (from_ + n - 2)).take 2), (u.drop from_).take (n - 2)⟩
  | _ => none

/-- Contents indicators in reading order, up to four: how many bytes they take and how many the contents. -/
def contents : Nat → List Byte → Nat × Nat
  | 0, _ => (0, 0)
  | _, [] => (0, 0)
  | n + 1, b :: t =>
    if part b 0 5 = 0 then (1, 0)
    else
      let q := contents n t
      (q.1 + 1, q.2 + ([4, 6, 8, 12, 16, 24, 32, 48] : List Nat).getD (part b 5 3) 0)

/-- Bit rates of MPEG-1 Layer II, kb/s, by their index. -/
def layer2Rates : List Nat := [0, 32, 48, 56, 64, 80, 96, 112, 128, 160, 192, 224, 256, 320, 384]

/-- Bytes of scale-factor CRC of a Layer II frame, by its header: four from 56 kb/s in a channel on, and at 24 kHz. -/
def scaleCrc (l : List Byte) : Nat :=
  let rate := layer2Rates.getD (part (l.getD 2 0) 4 4) 0
  if part (l.getD 1 0) 3 1 = 0 || 56 ≤ (if part (l.getD 3 0) 6 2 = 3 then rate else rate / 2) then 4 else 2

/-- The PAD of a Layer II frame, at its end, and the length that an X-PAD of variable size without contents indicators then has (log entry
68). `last` is that length before. -/
def layer2Pad (l : List Byte) (last : Nat) : Option (PadAt × Nat) :=
  if l.length < 8 then none
  else
    let f := l.drop (l.length - 2)
    let before := l.take (l.length - 2 - scaleCrc l)
    let c := contents 4 before.reverse
    let n : Nat × Nat := match part (f.headD 0) 6 2, part (f.headD 0) 4 2 with
      | 0, 1 => (4, last)
      | 0, 2 => if (f.getD 1 0).getLsbD 1 then (c.1 + c.2, c.1 + c.2) else (last, last)
      | _, _ => (0, last)
    let x := before.drop (before.length - n.1)
    some (⟨before.length - x.length, l.length - (before.length - x.length), f, x⟩, n.2)

end Sys2Proof.Machine
end

