-- ==== Sys2Proof/Machine/Stages.lean ====
section
/-! DEFINITION. The arithmetic of the chain, sample by sample (chapter 04): the mixers, half-bands, CIC, FIR, Oxbow, rate stage and
resampler with the widths and rounding points P1 to P13 of Table 4.2, spans, marks and sample times (R127 to R156). A function here
answers its result and the number of words that it clamped (R139). Coefficients that the manual bounds but does not name are free values
(log entry 49). -/

namespace Sys2Proof.Machine

/-! ### Sine and cosine -/

/-- Terms of the Taylor series of cosine (from k = 0) or sine (from k = 1), with 80 fractional bits. -/
def trigTerms (x2 : Int) : Nat → Nat → Int → Int → Int
  | 0, _, _, sum => sum
  | n + 1, k, t, sum => trigTerms x2 n (k + 2) (-(t * x2) / (2 ^ 80 * ((k + 1) * (k + 2) : Nat))) (sum + t)

/-- Cosine and sine of π/2 · r / 2^30 for r up to 2^29, 80 fractional bits. -/
def trigSmall (r : Nat) : Int × Int :=
  let x : Int := (r * 3797952473636338580787994 / 2 ^ 31 : Nat)
  let x2 := x * x / 2 ^ 80
  (trigTerms x2 16 0 (2 ^ 80) 0, trigTerms x2 16 1 x 0)

/-- Cosine and sine of the first quadrant. -/
def trigQuarter (r : Nat) : Int × Int :=
  if r ≤ 2 ^ 29 then trigSmall r else ((trigSmall (2 ^ 30 - r)).2, (trigSmall (2 ^ 30 - r)).1)

/-- Coefficients cos and sin of a phase, 18 bits with 17 fractional bits; 2·cos and 2·sin with 16 fractional bits are the same words
(Table 4.2). That they are formed from all 32 bits of the phase, convergently rounded and clamped, is the model's choice (log entry 75). -/
def cosSin (phase : BitVec 32) : Int × Int :=
  let q := trigQuarter (phase.toNat % 2 ^ 30)
  let word := fun (v : Int) => (narrow 18 (2 ^ 63) v).1
  match phase.toNat / 2 ^ 30 with
  | 0 => (word q.1, word q.2)
  | 1 => (word (-q.2), word q.1)
  | 2 => (word (-q.1), word (-q.2))
  | _ => (word q.2, word (-q.1))

/-! ### Samples and filters -/

/-- Halving search for the number of half-steps below |v| × 10^(g/80) / 256. -/
def gainSearch (v g : Nat) : Nat → Nat → Nat → Nat
  | 0, lo, _ => lo
  | n + 1, lo, hi =>
    let mid := (lo + hi) / 2
    if hi ≤ lo + 1 then lo
    else if (256 * (2 * mid - 1)) ^ 80 ≤ (2 * v) ^ 80 * 10 ^ g then gainSearch v g n mid hi else gainSearch v g n lo mid

/-- A complex value reduced at a rounding point. That a sample whose two words both exceed counts twice in SAT_EVENTS is the model's choice
(log entry 75). -/
def narrowTwo (w den : Nat) (i q : Int) : (Int × Int) × Nat :=
  let a := narrow w den i
  let b := narrow w den q
  ((a.1, b.1), a.2 + b.2)

/-- A delay line with a sample more, cut to its length. -/
def push (taps : Nat) (s : Sample) (l : List Sample) : List Sample := (s :: l).take taps

/-- The output of a filter over its delay line (R138): products with the coefficients, reduced once; its marks are those of the samples in
the line, and its newest input is the line's first (R153, R155). -/
def filterOut (tap : Nat → Int) (w den : Nat) (line : List Sample) : Sample × Nat :=
  let sum := line.zipIdx.foldl (fun (a : Int × Int) p => (a.1 + tap p.2 * p.1.i, a.2 + tap p.2 * p.1.q)) (0, 0)
  let v := narrowTwo w den sum.1 sum.2
  ({ i := v.1.1, q := v.1.2, invalid := line.any (fun x => x.invalid), marks := line.foldl (fun m x => orMarks m x.marks) {}
     atPs := match line with | x :: _ => x.atPs | [] => 0 }, v.2)

/-- Distance of a tap from the centre of a symmetric filter with an odd number of taps. -/
def fromCentre (taps i : Nat) : Nat := max i ((taps - 1) / 2) - min i ((taps - 1) / 2)

/-- Coefficient of a half-band: one half at the centre, none at even distances, the ROM's at odd ones. -/
def halfBand (rom : Nat → Int) (taps i : Nat) : Int :=
  let k := fromCentre taps i
  if k = 0 then 65536 else if k % 2 = 0 then 0 else rom k

/-! ### Tributaries (R127 to R130) -/

/-- Half-band stages of a division, taps in order (Table 4.1). -/
def tribStages : Nat → List Nat
  | 16 => [7, 7, 15, 47]
  | 32 => [7, 7, 7, 15, 47]
  | 64 => [7, 7, 7, 7, 15, 47]
  | _ => []

/-- S_T in SAMP periods. -/
def tribSpan : Nat → Nat
  | 16 => 442
  | 32 => 890
  | 64 => 1786
  | _ => 0

/-- The tributary mixer: the real sample times 2·exp(−jφ), rounded at P1 (R130). -/
def tribMix (phase : BitVec 32) (x : Sample) : Sample × Nat :=
  let c := cosSin phase
  let v := narrowTwo 26 16384 (x.i * c.1) (-(x.i * c.2))
  ({ x with i := v.1.1, q := v.1.2 }, v.2)

/-- A sample through the half-band stages from stage `k` on. Stage k takes the sample in when the stages before it deliver one, and
delivers one for every second of its own, the first included. Answers the delay lines, the output if any, and the clamps. -/
def tribHalves (div pos : Nat) : List Nat → List (List Sample) → Nat → Sample → List (List Sample) × Option Sample × Nat
  | [], ls, _, x => (ls, some x, 0)
  | n :: ns, ls, k, x =>
    let line := push n x (ls.headD [])
    if pos / 2 ^ k % 2 ≠ 0 then (line :: ls.tail, none, 0)
    else
      let last := ns.isEmpty
      let y := filterOut (halfBand (fun i => (Config.tribTap div k i).toInt) n) (if last then 24 else 26) (if last then 524288 else 131072) line
      let r := tribHalves div pos ns ls.tail (k + 1) y.1
      (line :: r.1, r.2.1, y.2 + r.2.2)

/-- A tributary takes one reach-referred sample (R127, R129, R130); its first 28 outputs after a reset or a write are invalid (R133). -/
def Trib.take (t : Trib) (x : Sample) : Trib × Option Sample × Nat :=
  let div := tribDiv t.reg
  if div = 0 then (t, none, 0)
  else
    let m := tribMix t.nco x
    let h := tribHalves div t.pos (tribStages div) t.lines 0 m.1
    ({ t with nco := t.nco + BitVec.ofNat 32 (tribWord t.reg), pos := (t.pos + 1) % div, lines := h.1
              left := if h.2.1.isSome then t.left - 1 else t.left },
     h.2.1.map (fun y => { y with invalid := y.invalid || t.left != 0 }), m.2 + h.2.2)

/-- The tributary restarted (R133, R163): NCO at phase 0, delay lines and decimation counters cleared. -/
def Trib.restart (t : Trib) : Trib := { t with nco := 0, pos := 0, lines := [], left := 28 }

/-! ### A context chain's plan (R135) -/

/-- The chain's response; an unassigned ID is refused at the commit (R141). -/
def Chain.response (k : Chain) : Response := (responseOf k.entry.response).getD ⟨1, 1, 0, 1, 0, 0, []⟩

/-- c_eff on its tributary. -/
def Chain.ceff (k : Chain) : Nat := cEff k.response k.div

/-- Taps of the rate stage and of a phase of the resampler, by preset (Table 4.5). -/
def rateTaps : Nat → Nat
  | 0 => 27
  | 1 => 39
  | _ => 47
def phaseTaps : Nat → Nat
  | 0 => 16
  | 1 => 24
  | _ => 32

/-- Taps of the context half-bands in order: 7 before 11 when there are two (Table 4.2). -/
def ctxHalves : Nat → List Nat
  | 0 => []
  | 1 => [11]
  | _ => [7, 11]

/-- Tributary samples for each sample out of the CIC, out of the half-bands, out of the FIR. -/
def Chain.perHalf (k : Chain) : Nat := k.ceff * 2 ^ k.response.h
def Chain.perFir (k : Chain) : Nat := k.perHalf * k.response.d

/-- Tributary samples after which every decimation counter stands at its start again. -/
def Chain.cycle (k : Chain) : Nat := if k.entry.resamp then k.perFir else 2 * k.perFir

/-- S_C in tributary samples: (taps − 1) of each stage at the stage's input spacing, the CIC's 5 (c_eff − 1), none for the Oxbow. -/
def Chain.spanTrib (k : Chain) : Nat :=
  let halves := match k.response.h with
    | 0 => 0
    | 1 => 10 * k.ceff
    | _ => 6 * k.ceff + 10 * (2 * k.ceff)
  5 * (k.ceff - 1) + halves + (k.response.taps - 1) * k.perHalf +
    ((if k.entry.resamp then phaseTaps k.entry.preset else rateTaps k.entry.preset) - 1) * k.perFir

/-- S_C in SAMP periods. -/
def Chain.span (k : Chain) : Nat := k.spanTrib * k.div

/-- ⌈span × f_out⌉ for a span in SAMP periods of 320 ps. -/
def Chain.outputsIn (k : Chain) (span : Nat) : Nat :=
  let f := k.response.fout k.entry
  (span * 320 * f.1 + f.2 * 10 ^ 12 - 1) / (f.2 * 10 ^ 12)

/-- V_C of R169 and V of R156. -/
def Chain.vc (k : Chain) : Nat := k.outputsIn k.span
def Chain.v (k : Chain) : Nat := k.outputsIn (tribSpan k.div + k.span)

/-- The time that `n` output periods take, ps. -/
def Chain.outputsPs (k : Chain) (n : Nat) : Nat :=
  let f := k.response.fout k.entry
  n * f.2 * 10 ^ 12 / f.1

/-- The group delay (S_T + S_C) / 2 in ps, half of 320 ps for each SAMP period (R153). -/
def Chain.delayPs (k : Chain) : Nat := 160 * (tribSpan k.div + k.span)

/-- The context NCO word (R137): (F − F_T) × 2³² / f_trib, with F_T the tributary word × 3.125 GHz / 2³². -/
def ncoWord (centre : Nat) (trib : Word) : BitVec 32 :=
  BitVec.ofInt 32 (roundDiv (((centre : Int) * 2 ^ 32 - (tribWord trib : Int) * 3125000000) * tribDiv trib) 3125000000)

/-- A chain from cleared state (R166, R169): its first V_C outputs are invalid. -/
def Chain.fresh (e : Entry) (trib : Word) (fromPs : Nat) : Chain :=
  let k : Chain := { entry := e, div := tribDiv trib, word := ncoWord e.centre trib, fromPs := fromPs }
  { k with left := k.vc }

/-- The chain at a reset sample (R156, R163): everything cleared but the Oxbow's estimate; R169's count goes on beside R156's. -/
def Chain.resync (k : Chain) : Chain :=
  { k with phase := 0, pos := 0, acc := Vector.replicate 5 (0, 0), comb := Vector.replicate 5 (0, 0), cicInvalid := 0, cicBlanked := 0
           cicOverrange := 0, half1 := [], half2 := [], fir := [], rate := [], frac := 0, leftSync := k.v }

/-! ### Mixer and CIC -/

/-- The context mixer: times exp(−jφ), rounded at P4. -/
def ctxMix (phase : BitVec 32) (x : Sample) : Sample × Nat :=
  let c := cosSin phase
  let v := narrowTwo 26 32768 (x.i * c.1 + x.q * c.2) (x.q * c.1 - x.i * c.2)
  ({ x with i := v.1.1, q := v.1.2 }, v.2)

def addPair (a b : BitVec 66 × BitVec 66) : BitVec 66 × BitVec 66 := (a.1 + b.1, a.2 + b.2)
def subPair (a b : BitVec 66 × BitVec 66) : BitVec 66 × BitVec 66 := (a.1 - b.1, a.2 - b.2)

/-- Five integrators, each adding what the one before it holds now, modulo 2^66. -/
def integrate (a : Vector (BitVec 66 × BitVec 66) 5) (x : BitVec 66 × BitVec 66) : Vector (BitVec 66 × BitVec 66) 5 :=
  let s0 := addPair a[0] x
  let s1 := addPair a[1] s0
  let s2 := addPair a[2] s1
  let s3 := addPair a[3] s2
  #v[s0, s1, s2, s3, addPair a[4] s3]

/-- Five combs at the CIC's output rate: each subtracts its last input. Answers the output and the registers. -/
def combStep (m : Vector (BitVec 66 × BitVec 66) 5) (x : BitVec 66 × BitVec 66) : (BitVec 66 × BitVec 66) × Vector (BitVec 66 × BitVec 66) 5 :=
  let y0 := subPair x m[0]
  let y1 := subPair y0 m[1]
  let y2 := subPair y1 m[2]
  let y3 := subPair y2 m[3]
  (subPair y3 m[4], #v[x, y0, y1, y2, y3])

/-- B = ⌈5 log₂ c⌉. -/
def cicShift (c : Nat) : Nat := ((List.range 41).find? (fun b => decide (c ^ 5 ≤ 2 ^ b))).getD 40

/-- g = 2^B / c⁵, 17 fractional bits, convergently rounded. -/
def cicGain (c : Nat) : Nat := (roundDiv (2 ^ (cicShift c + 17)) (c ^ 5)).toNat

/-- The gain correction, rounded at P5. -/
def cicScale (c : Nat) (v : BitVec 66 × BitVec 66) : (Int × Int) × Nat :=
  narrowTwo 26 (2 ^ (cicShift c + 17)) (v.1.toInt * cicGain c) (v.2.toInt * cicGain c)

/-- How long a mark lies in the CIC's span: renewed by a marked sample, else one sample less. -/
def markLeft (span left : Nat) (marked : Bool) : Nat := if marked then span else left - 1

/-- The CIC takes a mixed sample; it delivers one for every `ceff`, the first included. -/
def Chain.cic (k : Chain) (x : Sample) : Chain × Option Sample × Nat :=
  let span := 5 * (k.ceff - 1) + 1
  let acc := integrate k.acc (BitVec.ofInt 66 x.i, BitVec.ofInt 66 x.q)
  let y := { k with acc := acc, cicInvalid := markLeft span k.cicInvalid x.invalid, cicBlanked := markLeft span k.cicBlanked x.marks.blanked
                    cicOverrange := markLeft span k.cicOverrange x.marks.overrange }
  if k.pos % k.ceff ≠ 0 then (y, none, 0)
  else
    let o := combStep k.comb acc[4]
    let v := cicScale k.ceff o.1
    ({ y with comb := o.2 },
     some { i := v.1.1, q := v.1.2, invalid := y.cicInvalid != 0, marks := ⟨y.cicBlanked != 0, y.cicOverrange != 0⟩, atPs := x.atPs }, v.2)

/-! ### Half-bands and FIR -/

/-- A context half-band takes a sample and delivers one for every second, rounded at P6. `n` counts its input samples before this one. -/
def ctxHalf (taps n : Nat) (line : List Sample) (x : Sample) : List Sample × Option Sample × Nat :=
  let l := push taps x line
  if n % 2 ≠ 0 then (l, none, 0)
  else
    let y := filterOut (halfBand (fun i => (Config.halfTap taps i).toInt) taps) 26 131072 l
    (l, some y.1, y.2)

/-- The half-bands of the response in turn. -/
def Chain.halves (k : Chain) (x : Sample) : Chain × Option Sample × Nat :=
  match ctxHalves k.response.h with
  | [] => (k, some x, 0)
  | [a] =>
    let r := ctxHalf a (k.pos / k.ceff) k.half1 x
    ({ k with half1 := r.1 }, r.2.1, r.2.2)
  | a :: b :: _ =>
    let r := ctxHalf a (k.pos / k.ceff) k.half1 x
    match r.2.1 with
    | none => ({ k with half1 := r.1 }, none, r.2.2)
    | some y =>
      let q := ctxHalf b (k.pos / (2 * k.ceff)) k.half2 y
      ({ k with half1 := r.1, half2 := q.1 }, q.2.1, r.2.2 + q.2.2)

/-- The channel FIR, decimating by d, rounded at P7. -/
def Chain.channel (k : Chain) (x : Sample) : Chain × Option Sample × Nat :=
  let r := k.response
  let l := push r.taps x k.fir
  if k.pos / k.perHalf % r.d ≠ 0 then ({ k with fir := l }, none, 0)
  else
    let y := filterOut (fun i => (Config.firTap k.entry.response (fromCentre r.taps i)).toInt) 26 131072 l
    ({ k with fir := l }, some y.1, y.2)

/-! ### The Oxbow (R149 to R152) -/

/-- y: the FIR output (2 f) less the estimate (22 f), rounded and clamped to 26 bits (P9); MODE OFF passes x. -/
def oxbowOut (mode : Nat) (e x : Int) : Int × Nat := if mode = 0 then (x, 0) else narrow 26 1048576 (x * 1048576 - e)

/-- The increment of e, rounded at P8, and e after it in 48 bits. -/
def oxbowNext (k : Nat) (e x : Int) : Int × Nat := narrow 48 1 (e + roundDiv (x * 1048576 - e) (2 ^ k))

/-- The Oxbow takes a FIR output sample: e holds for one marked invalid, for one marked blanked in a context that honours blanking, and
where `burst` freezes it (R150 to R152). That the V_C outputs of a hard change are marked at the chain's output, so that e updates on the
FIR samples of that time, is the model's choice (log entry 75). -/
def Chain.oxbowStep (k : Chain) (burst : Bool) (x : Sample) : Chain × Sample × Nat :=
  let m := k.entry.oxMode
  let i := oxbowOut m k.oxbow.1 x.i
  let q := oxbowOut m k.oxbow.2 x.q
  let y : Sample := { x with i := i.1, q := q.1 }
  if m != 1 || x.invalid || (x.marks.blanked && k.entry.honour) || burst then (k, y, i.2 + q.2)
  else
    let a := oxbowNext (k.entry.corner + 5) k.oxbow.1 x.i
    let b := oxbowNext (k.entry.corner + 5) k.oxbow.2 x.q
    ({ k with oxbow := (a.1, b.1) }, y, i.2 + q.2 + a.2 + b.2)

/-! ### Rate stage and resampler (R144 to R148) -/

/-- The preset rate stage, ÷2, rounded at P10. -/
def Chain.rateStage (k : Chain) (x : Sample) : Chain × Option Sample × Nat :=
  let n := rateTaps k.entry.preset
  let l := push n x k.rate
  if k.pos / k.perFir % 2 ≠ 0 then ({ k with rate := l }, none, 0)
  else
    let y := filterOut (halfBand (fun i => (Config.rateTap k.entry.preset i).toInt) n) 24 524288 l
    ({ k with rate := l }, some y.1, y.2)

/-- Coefficient of the resampler's prototype, symmetric about its middle. -/
def protoAt (preset n : Nat) : Int := (Config.protoTap preset (fromCentre (phaseTaps preset * 1024 + 1) n)).toInt

/-- Coefficient of tap `i` at a fractional position: the top 10 bits choose a phase, the next 8 interpolate to the next one (P11). -/
def resampTap (preset frac i : Nat) : Int × Nat :=
  let n := i * 1024 + frac / 2 ^ 26
  let f : Int := (frac / 2 ^ 18 % 256 : Nat)
  narrow 18 256 (protoAt preset n * 256 + (protoAt preset (n + 1) - protoAt preset n) * f)

/-- The resampler (R146, R148): an output when the next position lies before the next input sample, rounded at P12. -/
def Chain.resample (k : Chain) (x : Sample) : Chain × Option Sample × Nat :=
  let p := k.entry.preset
  let l := push (phaseTaps p) x k.rate
  if 2 ^ 36 ≤ k.frac then ({ k with rate := l, frac := k.frac - 2 ^ 36 }, none, 0)
  else
    let y := filterOut (fun i => (resampTap p k.frac i).1) 24 524288 l
    let n := (List.range (phaseTaps p)).foldl (fun n i => n + (resampTap p k.frac i).2) 0
    ({ k with rate := l, frac := k.frac + resampStep k.response k.entry.rate - 2 ^ 36 }, some y.1, y.2 + n)

/-! ### A chain takes one tributary sample (R135) -/

/-- Feed a stage with what the stage before it delivered. -/
def Chain.stage (r : Chain × Option Sample × Nat) (f : Chain → Sample → Chain × Option Sample × Nat) : Chain × Option Sample × Nat :=
  match r.2.1 with
  | none => r
  | some x => let q := f r.1 x; (q.1, q.2.1, r.2.2 + q.2.2)

/-- The chain takes a tributary sample: its stages in the order of R135, the invalid count of R156 and R169 on its output. -/
def Chain.take (k : Chain) (burst : Bool) (x : Sample) : Chain × Option Sample × Nat :=
  let m := ctxMix k.phase x
  let a := Chain.stage (k, some m.1, m.2) Chain.cic
  let b := Chain.stage (Chain.stage a Chain.halves) Chain.channel
  let c := Chain.stage b (fun q y => let o := q.oxbowStep burst y; (o.1, some o.2.1, o.2.2))
  let d := Chain.stage c (if k.entry.resamp then Chain.resample else Chain.rateStage)
  let n := d.2.1.toList.length
  ({ d.1 with phase := k.phase + k.word, pos := (k.pos + 1) % k.cycle, left := k.left - n, leftSync := k.leftSync - n },
   d.2.1.map (fun y => { y with invalid := y.invalid || k.left != 0 || k.leftSync != 0 }), d.2.2)

/-! ### Cross-fades (R171) -/

/-- Tributary samples from the next one to that with which the chain forms output `n` of those formed from sample `m` on. -/
def Chain.outputAt (k : Chain) (m n : Nat) : Nat :=
  if k.entry.resamp then
    let p := k.perFir
    let gone := ((k.pos + m + p - 1) / p - (k.pos + p - 1) / p) * 2 ^ 36
    let step := resampStep k.response k.entry.rate
    let f := if gone ≤ k.frac then k.frac - gone else (step - (gone - k.frac) % step) % step
    m + (p - (k.pos + m) % p) % p + p * ((f + n * step) / 2 ^ 36)
  else m + (k.cycle - (k.pos + m) % k.cycle) % k.cycle + n * k.cycle

/-- Tributary samples, in 36 fractional bits, from the next tributary sample to the one with the chain's next output: the FIR outputs still
to pass without an output, and what is left of the decimation cycle. -/
def Chain.toOutput (k : Chain) : Nat :=
  let toFir := (k.perFir - k.pos % k.perFir) % k.perFir
  if k.entry.resamp then toFir * 2 ^ 36 + k.frac * k.perFir
  else (k.cycle - k.pos) % k.cycle * 2 ^ 36

/-- The new chain of a fade: history cleared, the Oxbow and NCO phase of the old one, and its decimation set for output instants that
coincide with the old chain's. -/
def Chain.beside (old : Chain) (e : Entry) (trib : Word) (fromPs : Nat) : Chain :=
  let k := Chain.fresh e trib fromPs
  let t := old.toOutput / 2 ^ 36
  { k with phase := old.phase, oxbow := old.oxbow, leftSync := old.leftSync, pos := (k.cycle - t % k.cycle) % k.cycle
           frac := if e.resamp then t / k.perFir * 2 ^ 36 + (roundDiv (old.toOutput % 2 ^ 36) k.perFir).toNat else 0 }

/-- A change reaches the chain (R167 to R169): a retune takes the new word and goes on from the accumulated phase; else the stages are
cleared, and the Oxbow's estimate stays where f_ch does. -/
def Chain.changed (k : Chain) (d : ChainDue) (trib : Word) : Chain :=
  match d.step with
  | .retune => { k with entry := d.entry, word := ncoWord d.entry.centre trib }
  | .restart => Chain.fresh d.entry trib d.fromPs
  | _ =>
    let n := Chain.fresh d.entry trib d.fromPs
    { n with oxbow := if n.response.fch == k.response.fch then k.oxbow else (0, 0), leftSync := k.leftSync }

/-- Output s0 + V_C + j of a fade: (1 − w) old + w new with w = (2j + 1) / 128, rounded at P13. -/
def fadeMix (j : Nat) (a b : Sample) : Sample × Nat :=
  let w : Int := (2 * j + 1 : Nat)
  let v := narrowTwo 24 128 ((128 - w) * a.i + w * b.i) ((128 - w) * a.q + w * b.q)
  ({ a with i := v.1.1, q := v.1.2, invalid := a.invalid || b.invalid, marks := orMarks a.marks b.marks }, v.2)

end Sys2Proof.Machine
end

