-- ==== Sys2Proof/Machine/Audio.lean ====
section
/-! DEFINITION. The audio path of FM and AM contexts (R218 to R220, R224, R226, R227, R244): demodulation, rate conversion, stereo
matrix, de-emphasis and scaling, sample by sample. What the manual does not fix (filters, loops, the course of a stereo transition) is a
free value (log entries 49, 66). -/

namespace Sys2Proof.Machine

/-! ### Detectors -/

/-- Phase within the first quadrant of a vector, in 2^-32 turns: the largest whose cosine and sine do not lie past it. -/
def quadAngle (a b : Int) : Nat :=
  (List.range 30).foldl (fun r k =>
    let m := r + 2 ^ (29 - k)
    if a * (trigQuarter m).2 ≤ b * (trigQuarter m).1 then m else r) 0

/-- Phase of a vector in 2^-32 turns. -/
def angleOf (i q : Int) : BitVec 32 :=
  if 0 < i && 0 ≤ q then BitVec.ofNat 32 (quadAngle i q)
  else if i ≤ 0 && 0 < q then BitVec.ofNat 32 (2 ^ 30 + quadAngle q (-i))
  else if i < 0 && q ≤ 0 then BitVec.ofNat 32 (2 ^ 31 + quadAngle (-i) (-q))
  else if 0 ≤ i && q < 0 then BitVec.ofNat 32 (3 * 2 ^ 30 + quadAngle (-q) i)
  else 0

/-- The phase discriminator: the step of phase from the sample before, in 2^-32 turns. -/
def discriminate (last now : Int × Int) : Int :=
  (angleOf (now.1 * last.1 + now.2 * last.2) (now.2 * last.1 - now.1 * last.2)).toInt

/-- Magnitude of a sample, to the unit below. -/
def magnitude (i q : Int) : Nat :=
  (List.range 17).foldl (fun r k => let m := r + 2 ^ (16 - k); if m * m ≤ i.natAbs ^ 2 + q.natAbs ^ 2 then m else r) 0

/-- FM: the multiplex, and the difference signal around 38 kHz brought down by twice the pilot's phase; 16 fractional bits of 2^-32
turns. -/
def fmDetect (last : Int × Int) (y : AudioIn) : Int × Int :=
  let d := discriminate last (y.i, y.q)
  (d * 65536, d * (cosSin (y.ref + y.ref)).2)

/-- The clock since which a detector blends in for 10 ms: what part of it is in use at a sample time, of 10 ms (R228). -/
def blendPart (o : Option Nat) (t : Nat) : Nat := match o with | some p => min (t - p) (10 * msPs) | none => 10 * msPs

/-- AM: magnitude less its mean, and the in-phase component, 17 fractional bits; with the blend between them (R227, R228). Answers the
audio and the mean. -/
def amDetect (a : Am) (mean : Int) (y : AudioIn) : Int × Int :=
  let mag : Int := (magnitude y.i y.q * 131072 : Nat)
  let m := mean + (mag - mean) * Config.amMean / 131072
  let c := cosSin y.ref
  let env := mag - m
  let inPhase := y.i * c.1 + y.q * c.2
  let p := blendPart a.blendPs y.atPs
  (if a.syncDet then (inPhase * p + env * (10 * msPs - p : Nat)) / (10 * msPs : Nat)
   else (env * p + inPhase * (10 * msPs - p : Nat)) / (10 * msPs : Nat), m)

/-! ### Rate conversion (R218) -/

/-- PCM rate of a mode in Hz (Table 6.3). -/
def pcmRate : Nat → Nat
  | 0 => 48000
  | 1 => 48000
  | 2 => 32000
  | 3 => 32000
  | 4 => 24000
  | 5 => 16000
  | _ => 8000

/-- The ratio of the PCM rate to the context's rate: 3,072 / 31,250 for FM at 48 kHz. -/
def Entry.pcmRatio (e : Entry) : Nat × Nat :=
  match responseOf e.response with
  | some r => (pcmRate e.pcmMode * (r.fout e).2, (r.fout e).1)
  | none => (1, 1)

/-- The audio band limit in Hz: 15 kHz, or 0.45 of the PCM rate where that is lower. -/
def Entry.audioLimit (e : Entry) : Nat := min 15000 (45 * pcmRate e.pcmMode / 100)

/-- The converter's output `phase` / `num` of a sample period after its newest sample. -/
def Entry.convert (e : Entry) (phase : Nat) (line : List (Int × Int)) : Int × Int :=
  let r := e.pcmRatio
  line.zipIdx.foldl (fun a p =>
    let h := Config.audioTap e.audioLimit r.1 r.2 (phase + r.1 * p.2)
    (a.1 + h * p.1.1, a.2 + h * p.1.2)) (0, 0)

/-- The positions of the outputs that a new sample brings, and that of the next: the ratio is at most 4. -/
def convertSteps (num den : Nat) : Nat → Nat → List Nat × Nat
  | 0, p => ([], p)
  | n + 1, p => if num ≤ p then ([], p) else let q := convertSteps num den n (p + den); (p :: q.1, q.2)

/-! ### Stereo, de-emphasis and scaling -/

/-- The blend law (R224): 0 at 20 dB to 255 at 35 dB; ratios in 0.5 dB. -/
def blendWeight (cnr : Nat) : Nat := (roundDiv (255 * ((min cnr 70 : Nat) - (40 : Nat))) 30).toNat

/-- Weight of the difference signal at a sample time (R224): the law in stereo, 0 in mono; free within the 20 ms of a transition. -/
def Fm.weightAt (f : Fm) (t : Nat) : Nat :=
  let now := if f.stereo then blendWeight f.cnr else 0
  match f.rampPs with
  | some p => if t < p then (if f.stereo then 0 else blendWeight f.cnr)
      else if t < p + 20 * msPs then Config.stereoRamp t % 256 else now
  | none => now

/-- Time constant in µs that DEEMPH names, 0 for none; 0b11 is treated as 50 µs (Table 6.1). -/
def Entry.deemphUs (e : Entry) : Nat :=
  match bits e[10] 31 30 with
  | 1 => 75
  | 2 => 0
  | _ => 50

/-- A de-emphasis section with state `y` takes `x` (R220). -/
def deemphStep (us rate : Nat) (y x : Int) : Int := if us = 0 then x else y + (x - y) * Config.deemph us rate / 131072

/-- 10^(−0.3), −6 dBFS as a part of full scale, in 10^-12. -/
def minusSix : Nat := 501187233627

/-- An FM sample on an output channel (R219): `v` in 255 × 2^33 of a phase step; ±75 kHz gives −6 dBFS of `w` bits; the clamps. -/
def fmScale (w : Nat) (fout : Hz) (v : Int) : Int × Nat :=
  narrow w (255 * 2 ^ 65 * fout.2 * 75000 * 10 ^ 12) (v * (fout.1 * minusSix * 2 ^ (w - 1) : Nat))

/-- An AM sample (R227): the mean amplitude is that of the carrier, and 100% modulation gives −6 dBFS. -/
def amScale (w : Nat) (mean v : Int) : Int × Nat :=
  narrow w (131072 * 10 ^ 12 * max mean.toNat 1) (v * (minusSix * 2 ^ (w - 1) : Nat))

/-- Bits of a PCM sample. -/
def Entry.pcmBits (e : Entry) : Nat := 8 * (pcmFormat e.pcmMode).2

/-- One PCM frame from the converter's output: the stereo matrix with weight `w`, de-emphasis and scaling for FM (R219, R220, R226), scaling
for AM. Without a difference signal one section serves both channels, which are equal (R226). Answers the de-emphasis sections and the
frame. -/
def Entry.frame (e : Entry) (a : Audio) (w : Nat) (v : Int × Int) (m : Marks) (t : Nat) : (Int × Int) × PcmFrame :=
  if e.std == stdFm then
    let f := match responseOf e.response with | some r => r.fout e | none => (1, 1)
    let y := (deemphStep e.deemphUs (pcmRate e.pcmMode) a.deemph.1 (255 * v.1 + w * v.2),
              deemphStep e.deemphUs (pcmRate e.pcmMode) (if w = 0 then a.deemph.1 else a.deemph.2) (255 * v.1 - w * v.2))
    let l := fmScale e.pcmBits f y.1
    let r := fmScale e.pcmBits f y.2
    (y, { left := l.1, right := r.1, clip := l.2 != 0 || (e.stereoAuto && r.2 != 0), weight := w, marks := m, atPs := t })
  else
    let l := amScale e.pcmBits a.mean v.1
    (a.deemph, { left := l.1, right := l.1, clip := l.2 != 0, weight := 0, marks := m, atPs := t })

/-- Sample period of the context's output in ps, and the time of an output `p` / `num` of it after an instant (R241). -/
def Entry.frameAt (e : Entry) (t p : Nat) : Nat :=
  match responseOf e.response with
  | some r => t + p * (r.fout e).2 * 10 ^ 12 / (e.pcmRatio.1 * (r.fout e).1) - Config.audioDelay
  | none => t

/-- The audio path takes a sample of the demodulator's input; `keep` says that its frames are to be sent. -/
def Ctx.hear (x : Ctx) (keep : Bool) (y : AudioIn) : Ctx :=
  let e := x.active
  let a := x.fm.audio
  let v := if e.std == stdFm then (match a.last with | some l => (fmDetect l y, a.mean) | none => ((0, 0), a.mean))
    else let d := amDetect x.am a.mean y; ((d.1, 0), d.2)
  let line := (v.1 :: a.line).take Config.audioLength
  let r := e.pcmRatio
  let steps := convertSteps r.1 r.2 5 (match a.phase with | some p => p - r.1 | none => 0)
  let out := steps.1.foldl (fun (q : Audio) p =>
      let t := e.frameAt y.atPs p
      let w := if e.std == stdFm && e.stereoAuto then x.fm.weightAt t else 0
      let g := e.frame q w (e.convert p line) y.marks t
      { q with deemph := g.1, frames := if keep then q.frames ++ [g.2] else q.frames
               mono := if x.follow.landing.isSome then q.mono.filter (fun m => decide (t ≤ m.1 + 100 * msPs)) ++ [(t, g.2.left + g.2.right)]
                 else [] })
    { a with last := some (y.i, y.q), line := line, mean := v.2, phase := some steps.2 }
  { x with fm := { x.fm with audio := out } }

/-- A gap in the samples: the discriminator starts again. -/
def Ctx.deafen (x : Ctx) : Ctx := { x with fm := { x.fm with audio := { x.fm.audio with last := none } } }

/-! ### The offset between two audio signals (R351) -/

/-- A value held at an instant: the last one not after it. -/
def monoAt (l : List (Nat × Int)) (t : Nat) : Int := match (l.takeWhile (fun m => decide (m.1 ≤ t))).getLast? with | some m => m.2 | none => 0

/-- The last 100 ms before an instant, in steps of 0.1 ms. -/
def monoBefore (l : List (Nat × Int)) (s : Nat) : List Int := (List.range 1000).map (fun k => monoAt l (s - 100 * msPs + k * 100000000))

/-- The correlation of two signals at a lag of the second, and the energies of what overlaps. -/
def correlate (a b : List Int) (lag : Int) : Int × Int × Int :=
  (List.zip (a.drop (-lag).toNat) (b.drop lag.toNat)).foldl (fun q p => (q.1 + p.1 * p.2, q.2.1 + p.1 * p.1, q.2.2 + p.2 * p.2)) (0, 0, 0)

/-- One positive correlation lies nearer to full correlation than another. -/
def nearer (p q : Int × Int × Int) : Bool := decide (0 < p.1) && (decide (q.1 ≤ 0) || decide (q.1 ^ 2 * (p.2.1 * p.2.2) < p.1 ^ 2 * (q.2.1 * q.2.2)))

/-- DELAY (R351): the lag within ±50 ms, in 0.1 ms, at which the old and the landing's mono audio of the last 100 ms correlate best, when that
exceeds half of full correlation (log entry 70). -/
def audioOffset (old landing : List (Nat × Int)) (s : Nat) : Option Int :=
  let a := monoBefore old s
  let b := monoBefore landing s
  let best := (List.range 1001).foldl (fun (r : Int × Int × Int × Int) k =>
    let lag : Int := (k : Int) - 500
    let q := correlate a b lag
    if nearer q r.2 then (lag, q) else r) (0, 0, 0, 0)
  if 0 < best.2.1 ∧ best.2.2.1 * best.2.2.2 < 4 * best.2.1 ^ 2 then some best.1 else none

/-! ### PCM records (Tables 6.10, 6.11) -/

/-- AFLAGS of a record. -/
def Ctx.aflags (x : Ctx) (l : List PcmFrame) (disc : Bool) : Nat :=
  let weight := match l.getLast? with | some f => f.weight | none => 0
  let stereo := x.active.std == stdFm && x.active.stereoAuto && l.any (fun f => f.weight != 0)
  let change := x.fm.audio.swaps.any (fun w => l.any (fun f => decide (f.atPs < w)) && l.any (fun f => decide (w ≤ f.atPs)))
  stereo.toNat + 2 * (stereo && weight != 255).toNat + 4 * (l.any (fun f => f.clip)).toNat + 8 * disc.toNat + 16 * change.toNat +
    32 * (x.active.std == stdAm && x.am.syncDet).toNat

/-- Bytes of a frame: channels in order, two's complement (R244). -/
def Entry.frameBytes (e : Entry) (f : PcmFrame) : List Byte :=
  let n := (pcmFormat e.pcmMode).2
  let b := fun (v : Int) => bytesOf n (unsigned (8 * n) v)
  b f.left ++ (if e.channels = 2 then b f.right else [])

/-- Payload of a PCM record. -/
def Ctx.pcmPayload (x : Ctx) (l : List PcmFrame) (disc : Bool) : List Byte :=
  bytesOf 1 x.active.pcmMode ++ bytesOf 1 x.active.channels ++ bytesOf 2 l.length ++ bytesOf 1 (x.aflags l disc) ++
    bytesOf 1 (match l.getLast? with | some f => f.weight | none => 0) ++ [0, 0] ++ l.flatMap x.active.frameBytes

end Sys2Proof.Machine
end

