-- ==== Sys2Proof/Machine/Room.lean ====
section
/-! DEFINITION. What contexts hold: seats, slots, load units and reach buffer (R187, R190, R191, Table 1.11). -/

namespace Sys2Proof.Machine

/-- Something that holds slots, load units, reach buffer and payload: an entry at a place; `main` for the counted entry of its context,
not for a landing or a run-out beside it. -/
structure Seat where
  ctx : Fin 256
  entry : Entry
  place : Place
  main : Bool := true
  deriving DecidableEq, Repr

/-- What is held when an entry is checked: the seats that count, and every slot in use with its context. -/
structure Room where
  seats : List Seat
  taken : List (Fin 4 × Nat × Fin 256)
  deriving DecidableEq, Repr

/-- The slots of a place, with their holder. -/
def Place.slotsFor (p : Place) (c : Fin 256) : List (Fin 4 × Nat × Fin 256) :=
  (List.range p.slots).map (fun i => (p.reach, p.slot + i, c))

/-! ### What is held -/

/-- The entry that counts for a context, its pending entry as if swapped (R187) and a held one as pending (R211), and whether the context
then is not IDLE. -/
def Ctx.counted (x : Ctx) : Entry × Bool :=
  match x.pending with
  | some p => (p.entry, !p.entry.idle)
  | none => match x.held with
    | some h => (h, !h.idle)
    | none => (x.active, x.st != .idle)

/-- The seats of one context beside a held entry's: the counted entry, a landing, a run-out (R187, R345, R346, R348). -/
def Ctx.seats (x : Ctx) (c : Fin 256) : List Seat :=
  (match x.pending with
    | some p => if p.entry.idle then [] else [⟨c, p.entry, p.place, true⟩]
    | none => match x.place with
      | some p => if x.st == .idle then [] else [⟨c, x.active, p, true⟩]
      | none => []) ++
  (match x.follow.landing with
    | some l => [⟨c, l.entry, l.place, false⟩]
    | none => []) ++
  (match x.follow.runOut with
    | some o => [⟨c, o.entry, o.place, false⟩]
    | none => [])

/-- Every slot a context uses: held, given to its pending entry, the spare of a fade, landing and run-out. -/
def Ctx.slotsUsed (x : Ctx) (c : Fin 256) : List (Fin 4 × Nat × Fin 256) :=
  (match x.place with | some p => if x.st == .idle then [] else p.slotsFor c | none => []) ++
  (match x.pending with | some p => if p.entry.idle then [] else p.place.slotsFor c | none => []) ++
  (match x.fade with | some f => f.spare.slotsFor c | none => []) ++
  (match x.follow.landing with | some l => l.place.slotsFor c | none => []) ++
  (match x.follow.runOut with | some o => o.place.slotsFor c | none => [])

/-- The context without a run-out that has lasted 1 s: its resources are free (R348). -/
def Ctx.settled (x : Ctx) (now : Nat) : Ctx :=
  match x.follow.runOut with
  | some o => if o.over now then { x with follow := { x.follow with runOut := none } } else x
  | none => x

/-- A room with one more seat. -/
def Room.add (m : Room) (c : Fin 256) (e : Entry) (p : Place) : Room :=
  { seats := m.seats ++ [⟨c, e, p, true⟩], taken := m.taken ++ p.slotsFor c }

/-- Load units committed on an engine of a reach. -/
def Room.used (m : Room) (r : Fin 4) (g : Fin 2) : Nat :=
  m.seats.foldl (fun n x => if x.place.reach == r then
    n + (if x.place.engine == g then x.entry.mainLoad else 0) + 20 * (x.place.subs.filter (fun q => q.2 == g)).length else n) 0

/-- Reach buffer committed, KiB (Table 1.11). -/
def Room.buffer (m : Room) (r : Fin 4) : Nat :=
  m.seats.foldl (fun n x => if x.place.reach == r then n + 16 * x.place.slots + x.entry.deinterleave else n) 256

/-- Contexts in a reach. -/
def Room.count (m : Room) (r : Fin 4) : Nat :=
  ((m.seats.filter (fun x => x.place.reach == r)).map (fun x => x.ctx)).dedup.length

/-! ### Slots (R190, R191) -/

/-- A slot fits: free to the context, aligned and free with its neighbour on ÷16, privileged with the resampler. -/
def Room.slotFits (m : Room) (r : Fin 4) (c : Fin 256) (own : Bool) (n : Nat) (resamp : Bool) (k : Nat) : Bool :=
  let free := fun (j : Nat) => !(m.taken.any (fun t => t.1 == r && t.2.1 == j && !(own && t.2.2 == c)))
  decide (k + n ≤ 64) && (n == 1 || k % 2 == 0) && (!resamp || decide (k + n ≤ 16)) && (List.range n).all (fun i => free (k + i))

/-- The slot given, by R190, with the held slot kept under R191. -/
def Room.chooseSlot (m : Room) (r : Fin 4) (c : Fin 256) (own : Bool) (n : Nat) (e : Entry) (heldSlot : Option Nat) : Option Nat :=
  let fits := m.slotFits r c own n e.resamp
  if e.slotReq ≠ 0xFF then (if fits e.slotReq then some e.slotReq else none)
  else match heldSlot.filter fits with
    | some k => some k
    | none =>
      if e.resamp then (List.range 16).find? fits
      else match ((List.range 48).map (· + 16)).find? fits with
        | some k => some k
        | none => (List.range 16).reverse.find? fits

/-! ### A place (checks 8 to 11 of Table 5.3) -/

/-- The end of a check: refused with a reason code of Table 5.3, or the place given. -/
inductive Verdict | refused (reason : Nat) | given (p : Place)
  deriving DecidableEq, Repr

def Verdict.reason : Verdict → Nat
  | .refused n => n
  | .given _ => 0

def Verdict.place? : Verdict → Option Place
  | .refused _ => none
  | .given p => some p

/-! ### Engines (R19, R202) -/

/-- The engine with more free units, the first when both are equal. -/
def roomier (u0 u1 : Nat) : Fin 2 := if u0 ≤ u1 then 0 else 1

/-- Place subchannels one by one on the engines' units in use. -/
def placeSubs (named : Option (Fin 2)) : List (Fin 64) → Nat → Nat → Option (List (Fin 64 × Fin 2))
  | [], _, _ => some []
  | q :: t, u0, u1 =>
    let want : Fin 2 := match named with
      | some 0 => if u0 + 20 ≤ 1000 then 0 else 1
      | some _ => if u1 + 20 ≤ 1000 then 1 else 0
      | none => roomier u0 u1
    if want = 0 then
      if u0 + 20 ≤ 1000 then (placeSubs named t (u0 + 20) u1).map ((q, 0) :: ·) else none
    else
      if u1 + 20 ≤ 1000 then (placeSubs named t u0 (u1 + 20)).map ((q, 1) :: ·) else none

/-- Engine and subchannel engines of an entry in a reach; `keep` is the place held by a change that keeps the context in its
reach and out of ACQUIRE. -/
def Room.chooseEngine (m : Room) (r : Fin 4) (e : Entry) (keep : Option Place) : Option (Fin 2 × List (Fin 64 × Fin 2)) :=
  let kept := match keep with
    | some p => p.subs.filter (fun q => e.loadSubs.contains q.1)
    | none => []
  let u0 := m.used r 0 + 20 * (kept.filter (fun q => q.2 == 0)).length
  let u1 := m.used r 1 + 20 * (kept.filter (fun q => q.2 == 1)).length
  let fits := fun (g : Fin 2) => decide ((if g = 0 then u0 else u1) + e.mainLoad ≤ 1000)
  let named : Option (Fin 2) := if e.engineReq = 0 then some 0 else if e.engineReq = 1 then some 1 else none
  let want : Fin 2 := match named, keep with
    | some g, _ => g
    | none, some p => if fits p.engine then p.engine else roomier u0 u1
    | none, none => roomier u0 u1
  if fits want then
    let v0 := if want = 0 then u0 + e.mainLoad else u0
    let v1 := if want = 0 then u1 else u1 + e.mainLoad
    (placeSubs named (e.loadSubs.filter (fun q => !(kept.map (fun k => k.1)).contains q)) v0 v1).map (fun l => (want, kept ++ l))
  else none

/-- Place an entry in a reach on a tributary division: checks 8 to 11 of Table 5.3, with R255. -/
def Room.place (m : Room) (r : Fin 4) (div : Nat) (c : Fin 256) (own : Bool) (e : Entry) (old : Option Place) (keepEngine : Bool) :
    Verdict :=
  let n := slotsOn div
  let here := old.filter (fun p => p.reach == r)
  let others := m.seats.filter (fun x => x.place.reach == r && x.ctx != c)
  if 64 < ((others.map (fun x => x.ctx)).dedup.length + 1) then .refused 0x03
  else match m.chooseSlot r c own n e (here.map (fun p => p.slot)) with
    | none => .refused 0x0C
    | some k =>
      let dabs := (m.seats.filter (fun x => x.place.reach == r && !x.entry.loadSubs.isEmpty)).length
      if !e.loadSubs.isEmpty && decide (6 ≤ dabs) then .refused 0x04
      else match m.chooseEngine r e (if keepEngine then here else none) with
        | none => .refused 0x04
        | some (g, subs) =>
          let p : Place := { reach := r, slot := k, slots := n, engine := g, subs := subs }
          if 2048 < (m.add c e p).buffer r then .refused 0x05 else .given p

/-! ### The room of a state -/

/-- The contexts whose pending entry a commit to `cs` discards: themselves, and the partners of pair commits still whole (R207). -/
def State.unpended (s : State) (cs : List (Fin 256)) : List (Fin 256) :=
  cs ++ cs.filterMap (fun c => (s.ctxs[c].pending.bind (fun p => p.pair)).filter
    (fun q => (s.ctxs[q].pending.bind (fun p => p.pair)) == some c))

/-- The held entries of contexts other than `cs`, counted as pending at the places that their commits will give (R211). -/
def State.addHeld (s : State) (cs : List (Fin 256)) (m : Room) : Room :=
  (allCtxs.filter (fun c => s.ctxs[c].held.isSome && !cs.contains c)).foldl (fun m c => match s.ctxs[c].held with
    | some e =>
      if e.idle then m else match m.place e.reach (tribDiv s.reaches[e.reach].tribs[e.trib].reg) c false e none false with
        | .given p => m.add c e p
        | .refused _ => m
    | none => m) m

/-- All that is held now. -/
def State.room (s : State) : Room :=
  s.addHeld [] { seats := allCtxs.flatMap (fun c => (s.ctxs[c].settled s.clock).seats c)
                 taken := allCtxs.flatMap (fun c => (s.ctxs[c].settled s.clock).slotsUsed c) }

/-- The room without the counted seats of `cs`, whose entries are judged anew, without the pending entries of `gone`, and without held
entries: the room in which an image entry is entered, before those of higher contexts that are given their places after it (R190, R211). -/
def State.roomBare (s : State) (cs gone : List (Fin 256)) : Room :=
  let strip := fun (c : Fin 256) => let x := s.ctxs[c].settled s.clock; if gone.contains c then { x with pending := none } else x
  { seats := allCtxs.flatMap (fun c => (if cs.contains c then { strip c with place := none } else strip c).seats c)
    taken := allCtxs.flatMap (fun c => (strip c).slotsUsed c) }

/-- The room without the counted seats of `cs`, whose entries are judged anew, and without the pending entries of `gone`. -/
def State.roomBut (s : State) (cs gone : List (Fin 256)) : Room := s.addHeld cs (s.roomBare cs gone)

/-- The room for a commit to `cs`. -/
def State.roomFor (s : State) (cs : List (Fin 256)) : Room := s.roomBut cs (s.unpended cs)

end Sys2Proof.Machine
end

