-- ==== Sys2Proof/Machine/CalRun.lean ====
section
/-! DEFINITION. Calibration reports (R430) and the points of an absolute run (R412 to R416), which a commit may end (Table 11.3). -/

namespace Sys2Proof.Machine

/-! ### Reports (Table 11.4) -/

/-- The fields of a report that its kind does not leave at none. -/
structure CalReport where
  kind : Nat
  status : Nat := 0
  reason : Nat := 0
  node : Option (Fin 5) := none
  notStored : Bool := false
  factory : Bool := false
  host : Bool := false
  mismatch : Bool := false
  gainErr : Option Int := none
  points : Nat := 0
  skipped : Nat := 0
  snr : Nat := 255
  delta : Option Int := none
  cmd : BitVec 32 := 0
  /-- clock of the instant that stamps it, where that is past -/
  at_ : Option Nat := none
  deriving DecidableEq, Repr

/-- No value, in a 16-bit field. -/
def orNone (o : Option Int) : List Byte := match o with | some i => bytesOfInt16 i | none => bytesOf 2 0x8000

/-- Send a calibration report (R430). -/
def State.calReport (s : State) (r : Fin 4) (q : CalReport) : State :=
  let u := s.upkeep[r]
  let gen := match q.node with
    | some n => match u.sets[n] with | some c => c.gen | none => 0
    | none => 0
  s.emit 0x41 0xFFFF (some r) (s.nowNs - (s.clock - q.at_.getD s.clock) / 1000)
    (bytesOf 1 q.kind ++ bytesOf 1 q.status ++ bytesOf 1 q.reason ++ bytesOf 1 (match q.node with | some n => n.val | none => 0xFF) ++
      bytesOf 2 gen ++ [byteOfInt u.temp] ++
      bytesOf 1 (q.notStored.toNat + 2 * q.factory.toNat + 4 * q.host.toNat + 8 * q.mismatch.toNat) ++
      bytesOf 2 u.spur.toNat ++ orNone q.gainErr ++ bytesOf 1 q.points ++ bytesOf 1 q.skipped ++ bytesOf 1 (min q.snr 255) ++ [0] ++
      orNone q.delta ++ bytesOf 2 0 ++ bytesOf 4 q.cmd.toNat)

/-- KIND of Table 11.4, and the activity's code in CAL_STATUS. -/
def ActKind.report : ActKind → Nat
  | .recal => 2
  | .absolute => 3
  | _ => 4

/-- The activity running in a reach, of a kind. -/
def State.runOf (s : State) (r : Fin 4) (k : ActKind) : Option Activity := s.upkeep[r].running.filter (fun a => a.kind == k)

/-! ### Points -/

/-- The lowest-numbered tributary whose usable bandwidth contains a point in kHz (R413). -/
def State.pointTrib (s : State) (r : Fin 4) (f : Nat) : Option (Fin 8) :=
  (List.finRange 8).find? (fun n =>
    let w := s.reaches[r].tribs[n].reg
    let c := tribCentre w
    tribDiv w != 0 && decide (c.1 ≤ (f * 1000 + halfUsable (tribDiv w)) * c.2 ∧ f * 1000 * c.2 ≤ c.1 + halfUsable (tribDiv w) * c.2))

/-- A slot of the reach is free for the point's measurement (R413, R415). -/
def State.pointFits (s : State) (r : Fin 4) (f k : Nat) : Bool :=
  match s.pointTrib r f with
  | none => false
  | some n => s.room.slotFits r 0 false (slotsOn (tribDiv s.reaches[r].tribs[n].reg)) false k

/-- The measurement stays in its slot while that is free, moves at `now` to the lowest other one (log entry 71) and repeats its
block, or waits for one (R415). -/
def State.holdSlot (s : State) (r : Fin 4) (f now : Nat) (a : Activity) : Activity :=
  match a.slot.filter (s.pointFits r f) with
  | some _ => a
  | none => match (List.range 64).find? (s.pointFits r f) with
    | some k => { a with slot := some k, noSlotPs := none, blockPs := max a.blockPs now }
    | none => { a with slot := none, noSlotPs := some (a.noSlotPs.getD now) }

/-! ### Ramps and the injection switch (R408, R413, R414, R428) -/

/-- Picoseconds per 0.01 dB at 2 dB/ms. -/
def rampStepPs : Nat := msPs / 200

/-- The level of a tone on its ramps. -/
def RampTone.levelAt (t : RampTone) (now : Nat) : Int :=
  let up := min t.high (t.low + (((min now (t.downPs.getD now)) - t.risePs) / rampStepPs : Nat))
  up - ((now - t.downPs.getD now) / rampStepPs : Nat)

/-- It ramps down from now, or goes on doing so. -/
def RampTone.lower (t : RampTone) (now : Nat) : RampTone := { t with downPs := some (min now (t.downPs.getD now)) }

/-- The end of its ramp down. -/
def RampTone.overPs (t : RampTone) : Option Nat := t.downPs.map (fun d => d + (t.levelAt d - t.low).toNat * rampStepPs)

/-- The reach that holds a context: its place's, else the entry's. -/
def Ctx.reachOf (x : Ctx) : Fin 4 := match x.place with | some p => p.reach | none => x.active.reach

/-- A burst is being received (chapter 08, "Reception states"). -/
def Eab.receiving (e : Eab) : Bool := e.st != .off && e.st != .armed

/-- An EAB context of the reach is receiving a burst (R104, R113, R403). -/
def State.burstIn (s : State) (r : Fin 4) : Bool :=
  allCtxs.any (fun c =>
    let x := s.ctxs[c]
    x.eab.receiving && x.st != .idle && x.active.std == stdEab && x.reachOf == r)

/-- The end of the last burst that an EAB context of the reach received. -/
def State.burstEndPs (s : State) (r : Fin 4) : Nat :=
  (allCtxs.map (fun c =>
    let x := s.ctxs[c]
    if x.st != .idle && x.active.std == stdEab && x.reachOf == r then x.eab.endPs.getD 0 else 0)).foldl max 0

/-- End a run or request: its report, and a response to each of its commands; `qrp` is the REASON of the commands (R428, R543). -/
def State.endActivity (s : State) (r : Fin 4) (a : Activity) (q : CalReport) (qrp : Nat) : State :=
  let t := s.calReport r { q with kind := a.kind.report, cmd := a.cmds.headD 0 }
  t.forEach a.cmds (fun id u => u.respond id 0x0030 (if q.status = 0 then stCompleted else stAborted) qrp [])

/-- Points that no tributary contains are NOT_MEASURED at once (R414); answers the points left and how many were skipped. -/
def State.skipPoints (s : State) (r : Fin 4) : List Nat → List Nat × Nat
  | [] => ([], 0)
  | f :: t => if (s.pointTrib r f).isSome then (f :: t, 0) else let (l, n) := s.skipPoints r t; (l, n + 1)

/-- The first point left begins at `start` and borrows its slot, or the run is over there: it waits for its commit point with the
temperature of its end, or without any measured point it ends (R413 to R416). -/
def State.startPoint (s : State) (r : Fin 4) (a : Activity) (start : Nat) : State :=
  let (l, n) := s.skipPoints r a.points
  let b : Activity := { a with points := l, skipped := a.skipped + n, blocks := [], outcome := none, pointPs := start, blockPs := start, slot := none, noSlotPs := none }
  match l with
  | f :: _ => s.modUpkeep r (fun u => { u with running := some (s.holdSlot r f start b) })
  | [] =>
    if b.measured.isEmpty then (s.modUpkeep r (fun u => { u with running := none })).endActivity r b
      { kind := 3, skipped := b.skipped, factory := s.onFactoryCal r, at_ := some start } 0
    else s.modUpkeep r (fun u => { u with running := some { b with ready := true, temp := u.temp } })

/-- The larger in magnitude of two residuals. -/
def largerOf (o : Option Int) (v : Int) : Int := match o with | some w => if w.natAbs < v.natAbs then v else w | none => v

/-- The present point joins those measured, or is counted NOT_MEASURED (R414). -/
def Activity.finish (a : Activity) (o : Option PointResult) : Activity :=
  match a.points, o with
  | f :: t, some p => { a with points := t, measured := a.measured ++ [⟨f, p.corr⟩], gainErr := some (largerOf a.gainErr p.residual), snr := min a.snr p.snr }
  | _ :: t, none => { a with points := t, skipped := a.skipped + 1 }
  | [], _ => a

/-- The switch opens when the injection has ramped down and no burst is being received; the next point begins then (R413, R414). -/
def State.openSwitch (s : State) (r : Fin 4) : State :=
  match (s.upkeep[r].inject.bind RampTone.overPs).map (max (s.burstEndPs r)) with
  | none => s
  | some t =>
    if s.burstIn r || decide (s.clock < t) then s
    else (s.modUpkeep r (fun u => { u with inject := none })).withSome (s.runOf r .absolute) (fun a w =>
      w.startPoint r (match a.outcome with | some o => a.finish o | none => a) t)

/-- The switch of a point with a slot closes once no burst is being received, and the injection rises for 20 ms (R413, R414). -/
def State.closeSwitch (s : State) (r : Fin 4) : State :=
  s.withSome ((s.runOf r .absolute).filter (fun a => a.slot.isSome && !a.ready && a.outcome.isNone && s.upkeep[r].inject.isNone && !s.burstIn r))
    (fun a w =>
      let t := max a.blockPs (s.burstEndPs r)
      w.modUpkeep r (fun u => { u with inject := some { low := a.level - 4000, high := a.level, risePs := t }
                                       running := some { a with blockPs := t + 20 * msPs } }))

/-- A point that waits takes a slot that has come free (R415). -/
def State.retrySlot (s : State) (r : Fin 4) : State :=
  s.withSome ((s.runOf r .absolute).filter (fun a => a.noSlotPs.isSome && a.outcome.isNone)) (fun a t => match a.points with
    | f :: _ => t.modUpkeep r (fun u => { u with running := some (t.holdSlot r f t.clock a) })
    | [] => t)

/-- What the injection switch and the borrowed slot of a reach have done up to now. -/
def State.calSettle (s : State) (r : Fin 4) : State := ((s.openSwitch r).retrySlot r).closeSwitch r

/-- The present point ends: its injection ramps down, or, where its switch is open, the next point begins (R413, R414). -/
def State.endPoint (s : State) (r : Fin 4) (a : Activity) (o : Option PointResult) : State :=
  if s.upkeep[r].inject.isSome then
    s.modUpkeep r (fun u => { u with inject := u.inject.map (fun t => t.lower s.clock), running := some { a with outcome := some o } })
  else (s.startPoint r (a.finish o) s.clock).closeSwitch r

/-- A commit that passed its checks places an entry's stop-edge band over the present point, whose injection may be ramping down: the
switch opens at once and the point is NOT_MEASURED (Table 11.3). -/
def State.pointOverlaid (s : State) (e : Entry) : State :=
  let r := e.reach
  let u := s.calSettle r
  u.withSome (u.runOf r .absolute) (fun a t =>
    match a.points with
    | f :: _ =>
      let w := e.stopEdge
      if !e.idle && decide ((max (f * 1000) e.centre - min (f * 1000) e.centre) * w.2 ≤ w.1) then
        (t.modUpkeep r (fun x => { x with inject := none })).endPoint r a none
      else t
    | [] => t)

end Sys2Proof.Machine
end

