-- ==== Sys2Proof/Machine/Commit.lean ====
section
/-! DEFINITION. The checks of Table 5.3 (R26, R44 to R51, R187), the placement rules (R19, R190, R191, R202, R454) and what a
commit does to the pending entry and to those it supersedes (R32, R206 to R210). -/

namespace Sys2Proof.Machine

/-! ### The single checks of Table 5.3 -/

/-- The part has the reach and the image enables it (R1, R475). -/
def State.reachExists (s : State) (r : Fin 4) : Bool := !(s.part.is8120 && decide (2 ≤ r.val))
def State.reachEnabled (s : State) (r : Fin 4) : Bool := s.reachExists r && s.reaches[r].st != .disabled

/-- CENTRE lies in the bands of the standard (R213, R248, R283, Table 5.2). -/
def centreAllowed (std f : Nat) : Bool :=
  match std with
  | 1 => decide (64000000 ≤ f ∧ f ≤ 108000000)
  | 2 => decide (150000 ≤ f ∧ f ≤ 30000000)
  | 3 => decide ((174000000 ≤ f ∧ f ≤ 240000000) ∨ (1452000000 ≤ f ∧ f ≤ 1492000000))
  | 4 => decide ((136000000 ≤ f ∧ f ≤ 174000000) ∨ (400000000 ≤ f ∧ f ≤ 470000000))
  | 5 => decide (150000 ≤ f ∧ f ≤ 1560000000)
  | _ => true

/-- Check 3, field validity (R185, R186, R213, R217, R248, R283, Table 5.2); `inReach` is whether the part has and enables
REACH. -/
def fieldsValid (inReach : Bool) (e : Entry) : Bool :=
  decide (e.std ≤ 5) && (e.slotReq == 0xFF || decide (e.slotReq ≤ 63)) && (e.engineReq == 0xFF || decide (e.engineReq ≤ 1)) &&
  e.prot != 3 && (e.std != stdNone || e.idle || e.scout) && centreAllowed e.std e.centre &&
  (!((e.std == stdFm || e.std == stdAm) && e.outPcm) || decide (e.pcmMode ≤ 6)) && (e.idle || inReach)

/-- Module that a standard needs beside the runtime (Table 5.6). -/
def Entry.module (e : Entry) : Nat :=
  if e.scout then 6
  else match e.std with
    | 1 => 2
    | 2 => 2
    | 3 => 3
    | 4 => 4
    | 5 => 5
    | _ => 1

/-- The image carries the runtime and the entry's module (R198). -/
def modulesServe (modules : List (Nat × Nat)) (e : Entry) : Bool :=
  e.idle || (modules.any (fun m => m.1 == 1) && modules.any (fun m => m.1 == e.module))

/-- Check 4, the response (R141, R143, R147, R148, R214, R249, R284). -/
def responseAllowed (e : Entry) : Bool :=
  match responseOf e.response with
  | none => false
  | some r =>
    let rs := e.response
    (rs != 0x10 || e.resamp) &&
    (!e.resamp || (decide (r.fch.1 ≤ 4 * e.rate * r.fch.2 ∧ e.rate * r.fch.2 ≤ r.fch.1) &&
      (let f := r.fout e
       let p := e.passEdge
       let q := e.stopEdge
       Hz.le p (r.fch.scale 3 10) && decide (q.1 * p.2 * f.2 + p.1 * q.2 * f.2 ≤ f.1 * q.2 * p.2)))) &&
    (match e.std with
      | 1 => decide (rs ≤ 3) && !e.resamp
      | 2 => decide (8 ≤ rs ∧ rs ≤ 10) && !e.resamp
      | 3 => rs == 0x10 && e.resamp && e.rate == 2048000
      | 4 => !e.resamp && (rs == if e.eabChannel then 0x19 else 0x18)
      | _ => true)

/-- The fields that the members of a pair have in common (R353). -/
def twinEqual (a b : Entry) : Bool :=
  a.std == b.std && a[1] == b[1] && a[2] == b[2] && a.response == b.response && a.preset == b.preset &&
  a.resamp == b.resamp && a[5] == b[5] && a[10] == b[10] && a[11] == b[11] && a[12] == b[12] && a[13] == b[13] &&
  a[8] == b[8] && a[9] == b[9] && !a.scout && !b.scout && a.group == 0 && b.group == 0

/-- The twin relation an entry states. -/
def Entry.twinOf (e : Entry) : Option (Fin 256) := if e.isTwin then some e.partner else none

/-- Check 7 (R48, R353): the relation is symmetric in `view`, which holds the entries as they would be. -/
def twinsValid (view : Fin 256 → Entry) (c : Fin 256) : Bool :=
  let e := view c
  (match e.twinOf with
    | some p => p != c && (view p).twinOf == some c && e.reach != (view p).reach && twinEqual e (view p)
    | none => true) &&
  allCtxs.all (fun q => q == c || (view q).twinOf != some c || e.twinOf == some q)

/-- Link cap of Table 1.11 in bit/s for MODE of HOSTPORT_CTRL; with the link off the lower one (log entry 15). -/
def payloadCap (ctrl : Word) : Nat := if bits ctrl 31 30 = 2 then 1600000000 else 640000000

/-- Check 12 (Table 1.11, R523, R527) over the entries that count. -/
def payloadFits (ctrl : Word) (e : Entry) (all : List (Fin 256 × Entry)) : Bool :=
  ((!(e.outIq || e.std == stdIq) || e.scout || decide (e.iqSize ≤ 8952))) &&
  Hz.le (all.foldl (fun n x => Hz.add n (x.2.payload x.1)) (0, 1)) (payloadCap ctrl, 1) &&
  decide (all.foldl (fun n x => n + 64 * x.2.largestRecord x.1) 65536 ≤ 2097152)

/-! ### Placement (R453, R454) -/

/-- Place one context in the first reach of `cands` that takes it (R454). -/
def State.placeFirst (s : State) (m : Room) (c : Fin 256) (e : Entry) : List (Fin 4) → Option (Place × Fin 8)
  | [] => none
  | r :: rest =>
    let tries := (List.finRange 8).filterMap (fun t =>
      let w := s.reaches[r].tribs[t].reg
      let e2 := (e.moveTo r t).anyPlace
      if tribCarries w e2 then
        match m.place r (tribDiv w) c false e2 none false with
        | .given p => some (p, t)
        | .refused _ => none
      else none)
    match (if inCatchment s.reaches[r].catch_ e then tries.head? else none) with
    | some x => some x
    | none => s.placeFirst m c e rest

/-- Place contexts in turn, each with the earlier ones counted; a context without a place answers `none`. -/
def State.placeAll (s : State) (cands : List (Fin 4)) : Room → List (Fin 256 × Entry) → List (Fin 256 × Option (Place × Fin 8))
  | _, [] => []
  | m, (c, e) :: t =>
    match s.placeFirst m c e cands with
    | some (p, n) => (c, some (p, n)) :: s.placeAll cands (m.add c (e.moveTo p.reach n) p) t
    | none => (c, none) :: s.placeAll cands m t

/-- Order of R453: descending PRIORITY, then ascending context number. -/
def byPriority (l : List (Fin 256 × Entry)) : List (Fin 256 × Entry) :=
  (List.range 8).reverse.flatMap (fun k => l.filter (fun x => x.2.priority == k))

/-- One entry for each context, the last: a landing's stands for the entry that it replaces (R345). -/
def lastOfEach (l : List (Fin 256 × Entry)) : List (Fin 256 × Entry) :=
  l.foldr (fun x t => if t.any (fun y => y.1 == x.1) then t else x :: t) []

/-- The room once a reach is lost. -/
def Room.without (m : Room) (r : Fin 4) : Room :=
  { seats := m.seats.filter (fun x => x.place.reach != r), taken := m.taken.filter (fun x => x.1 != r) }

/-- Reaches that count as surviving in the check of R47: neither disabled, failed nor retired (log entry 17). -/
def State.survivors (s : State) : List (Fin 4) :=
  allReaches.filter (fun r => s.reachEnabled r && s.reaches[r].st != .failed && s.reaches[r].st != .retired)

/-- Check 13 (R46, R47, R455): the limit of protected contexts, and each reach in turn assumed lost. -/
def State.protectionHolds (s : State) (m : Room) (live : List (Fin 256 × Entry)) : Bool :=
  decide (((live.filter (fun x => x.2.isTwin || x.2.isReserve)).map (fun x => x.1)).dedup.length ≤ (if s.part.is8120 then 64 else 192)) &&
  allReaches.all (fun k =>
    let lost := byPriority (lastOfEach ((m.seats.filter (fun x => x.main && x.place.reach == k && x.entry.isReserve)).map
      (fun x => (x.ctx, x.entry))))
    (s.placeAll (s.survivors.filter (· != k)) (m.without k) lost).all (fun x => x.2.isSome))

/-! ### A whole check -/

/-- What the checks depend on beside the entry. -/
structure CheckEnv where
  /-- entries as they would be after the commit (twin check) -/
  view : Fin 256 → Entry
  /-- check 1 is made (not in the image check) -/
  readiness : Bool := true
  /-- refuse a changed twin relation (R208) -/
  relationFixed : Bool := false
  /-- the change keeps the context in its reach and out of ACQUIRE -/
  keepEngine : Bool := false
  /-- slots of the context itself count as free (R191); not for a landing (R345) -/
  own : Bool := true
  old : Option Place := none
  locked : Bool := false

/-- The tributary word that an entry names. -/
def State.tribOf (s : State) (e : Entry) : Word := s.reaches[e.reach].tribs[e.trib].reg

/-- Table 5.3 in its order (R187): the verdict on entry `e` of context `c` in `m`, whose counted entries are `live`. -/
def State.check (s : State) (env : CheckEnv) (m : Room) (live : List (Fin 256 × Entry)) (c : Fin 256) (e : Entry) : Verdict :=
  let r := e.reach
  if env.readiness && !e.idle && s.reachEnabled r && s.reaches[r].st != .ready then .refused 0x0F
  else if env.readiness && !e.idle && s.doze.inDoze then .refused 0x10
  else if !fieldsValid (s.reachEnabled r) e then .refused 0x0D
  else if !e.idle && (!responseAllowed e || (env.readiness && !modulesServe s.image.modules e)) then .refused 0x0B
  else if !e.idle && !tribCarries (s.tribOf e) e then .refused 0x0A
  else if !e.idle && !inCatchment s.reaches[r].catch_ e then .refused 0x07
  else if !twinsValid env.view c || env.relationFixed || env.locked then .refused 0x09
  else if e.idle then .given {}
  else match m.place r (tribDiv (s.tribOf e)) c env.own e env.old env.keepEngine with
    | .refused n => .refused n
    | .given p =>
      if !payloadFits s.host.ctrl e (live ++ [(c, e)]) then .refused 0x06
      else if !s.protectionHolds (m.add c e p) (live ++ [(c, e)]) then .refused 0x08
      else .given p

/-- The entries that count toward limits, without those of `cs`; those of `gone` count as they are active. -/
def State.liveBut (s : State) (cs gone : List (Fin 256)) : List (Fin 256 × Entry) :=
  (allCtxs.filter (fun c => !cs.contains c)).filterMap (fun c =>
    let p := if gone.contains c then (s.ctxs[c].active, s.ctxs[c].st != .idle) else s.ctxs[c].counted
    if p.2 then some (c, p.1) else none)

/-- The entries that count for a commit to `cs`: the partner of a pair commit that ends with it as it is active (R207). -/
def State.liveEntries (s : State) (cs : List (Fin 256)) : List (Fin 256 × Entry) := s.liveBut cs (s.unpended cs)

/-- A swap from `old` to `e` takes the context into ACQUIRE (R31, R193, Table 5.5). -/
def goesAcquire (old e : Entry) : Bool :=
  old.reach != e.reach || old.trib != e.trib || old.std != e.std || movedBeyond old.centre e.centre old.stopEdge 2 1

/-- The counted entry of a context for the twin check: held image entries count as pending (R211). -/
def State.twinView (s : State) (c : Fin 256) : Entry :=
  match s.ctxs[c].pending, s.ctxs[c].held with
  | some p, _ => p.entry
  | none, some h => h
  | none, none => s.ctxs[c].active

/-! ### Ending a pending entry -/

def sameCarrier (a b : Carrier) : Bool := a.std == b.std && a.freq == b.freq

/-- The context's follow set (R328). -/
def State.followSet (s : State) (c : Fin 256) : List Member :=
  match s.image.followSets.find? (fun p => p.1 == c) with
  | some p => p.2
  | none => []

def Member.carrier (m : Member) : Carrier := { std := m.std, chan := m.chan, freq := m.centre, ident := m.ident }

/-- The member whose parameters a candidate of another standard takes (R329). Of several members of the standard it is the one of the
candidate's own frequency, else of its identity, else the first (log entry 47). -/
def State.memberFor (s : State) (c : Fin 256) (k : Carrier) : Option Member :=
  let l := (s.followSet c).filter (fun m => m.std == k.std)
  (l.find? (fun m => sameCarrier m.carrier k)).orElse (fun _ => (l.find? (fun m => m.ident == k.ident)).orElse (fun _ => l.head?))

/-- Level in 0.1 dB against the reach-referred reference level of an input that stands `mean`, in 0.25 dB, below context full scale after a
gain of `gain` steps: the reference level lies 60.206 dB below context full scale (R181, R182). -/
def levelOf (mean : Int) (gain : Nat) : Int := roundDiv (60206 - 250 * mean - 250 * (gain : Int)) 100

/-- The level that the context AGC holds to CAGC_TARGET (R182, R312). -/
def Ctx.agcLevel (x : Ctx) : Int := levelOf (4 * x.active.cagcTarget : Nat) x.gain

/-- The level that the context reported over the last 100 ms: the mean of its measurement windows, without one the level that its AGC holds;
none without a place (R338, R364, log entry 47). -/
def State.ownLevel (s : State) (c : Fin 256) : Option Int :=
  let x := s.ctxs[c]
  let l := x.levels.filter (fun p => decide (s.clock ≤ p.1 + 100 * msPs))
  if x.st == .idle || x.place.isNone then none
  else if l.isEmpty then some x.agcLevel
  else some (roundDiv (l.map (fun p => p.2)).sum l.length)

/-- The identity a candidate is verified against (R337): its own, else for the context's standard the SERVICE_ID or the
confirmed PI or EId; an AM candidate needs none. -/
def State.expectedId (s : State) (c : Fin 256) (k : Carrier) : Nat :=
  let x := s.ctxs[c]
  if k.std == 2 then 0
  else if k.std.toNat != x.active.std then (match s.memberFor c k with | some m => m.ident | none => k.ident)
  else if k.ident ≠ 0 then k.ident
  else if x.active.service ≠ 0 then (if k.std == 4 then x.active.service % 4096 else x.active.service % 65536)
  else match x.active.std with
    | 1 => x.fm.pi.toNat
    | 3 => x.dab.eid.getD 0
    | _ => 0

/-- An AF event (Tables 9.4 and 9.5): `under` is its CONTEXT, `scout` and `reach` 0xFF when none. Sources, level and ratio of the
candidate are those of the candidate table where the step gives no newer ones; OWN_LEVEL is the followed context's present level. -/
def State.afEvent (s : State) (event reason : Nat) (under for_ : Fin 256) (scout : Nat) (reach : Nat) (k : Carrier) (sources : BitVec 3)
    (level : Option Int) (cnr : Option Nat) (delay : Option Int) (stamp : Nat) : State :=
  let lv := fun (o : Option Int) => match o with | some x => bytesOfInt16 x | none => bytesOf 2 0x8000
  let known := s.ctxs[for_].follow.cands.find? (fun x => sameCarrier x.carrier k)
  let src := match known with | some x => sources ||| x.sources | none => sources
  let lvl := level.orElse (fun _ => known.bind (fun x => x.checks.head?.map (fun q => q.2.1)))
  let ratio := cnr.orElse (fun _ => known.bind (fun x => x.lastCnr))
  s.emit 0x30 under.val none stamp
    (bytesOf 1 event ++ bytesOf 1 reason ++ bytesOf 1 for_.val ++ bytesOf 1 scout ++ bytesOf 1 k.std.toNat ++
      bytesOf 1 src.toNat ++ bytesOf 1 reach ++ bytesOf 1 (k.std == 4 && k.chan).toNat ++ bytesOf 4 k.freq ++
      bytesOf 4 (s.expectedId for_ k) ++ lv lvl ++ bytesOf 1 (match ratio with | some n => min n 0xFF | none => 0xFF) ++ [0] ++ lv delay ++
      lv (s.ownLevel for_))

/-- A pending or landing sequencer change ends abandoned (Table 9.5, EVENT 0x06). -/
def State.abandoned (s : State) (c : Fin 256) (reason : Nat) : State :=
  let x := s.ctxs[c]
  match x.follow.check with
  | some (f, k) => (s.modCtx c (fun x => { x with follow := { x.follow with check := none } })).afEvent 6 reason c f c.val
      x.active.reach.val k 0 none none none s.nowNs
  | none => match x.follow.hard with
    | some k => (s.modCtx c (fun x => { x with follow := { x.follow with hard := none } })).afEvent 6 reason c c 0xFF 0xFF k 0
        none none none s.nowNs
    | none => s

/-- One context's landing ends; its resources are freed (R347, R365). -/
def State.endOneLanding (s : State) (c : Fin 256) (event reason : Nat) : State :=
  match s.ctxs[c].follow.landing with
  | none => s
  | some l => (s.modCtx c (fun x => { x with follow := { x.follow with landing := none } })).afEvent event reason c c 0xFF
      l.place.reach.val l.cand 0 none none none s.nowNs

/-- A landing ends, and with it that of the partner (R347, R363, R365). -/
def State.endLanding (s : State) (c : Fin 256) (event reason : Nat) : State :=
  match s.ctxs[c].follow.landing with
  | none => s
  | some l =>
    let t := s.endOneLanding c event reason
    match l.pair with
    | some p => t.endOneLanding p event reason
    | none => t

/-- The window's last commit ends aborted: its REASON is updated (Table 5.11). -/
def State.windowReason (s : State) (c : Fin 256) (pair : Option (Fin 256)) (reason : Nat) : State :=
  if s.window.resultCtx == c || some s.window.resultCtx == pair then { s with window := { s.window with reason := reason } } else s

/-- A pending entry ends without its swap: the requester learns the reason, and the entry leaves (Table 1.8). -/
def State.endPending (s : State) (c : Fin 256) (reason afReason : Nat) : State :=
  match s.ctxs[c].pending with
  | none => s
  | some p =>
    let t := s.modCtx c (fun x => { x with pending := none })
    let u := match p.pair with
      | some q => if (s.ctxs[q].pending.bind (fun y => y.pair)) == some c then t.modCtx q (fun x => { x with pending := none }) else t
      | none => t
    match p.origin with
    | .qrp id => u.respond id 0x0011 stAborted reason []
    | .window _ => u.windowReason c p.pair reason
    | .sequencer => u.abandoned c afReason
    | .image => u

/-! ### Commits -/

/-- The place that a context holds when a commit made now is swapped, its own pending entry set aside: in a fade period the spare, which
the swap waits for (R173, R189, R191). -/
def State.oldOf (s : State) (c : Fin 256) : Option Place :=
  let x := s.ctxs[c]
  if x.st == .idle then none else match x.fade with | some f => some f.spare | none => x.place

/-- The member of a pair commit that is still pending between the pair's two swaps (R207). -/
def State.pairLocked (s : State) (c : Fin 256) : Bool :=
  match s.ctxs[c].pending with
  | some p => p.firstSwapped
  | none => false

/-- The entries as they would be: those committed, the active one of a partner whose pair commit they supersede (R207), else the counted. -/
def State.viewWith (s : State) (new : List (Fin 256 × Entry)) (c : Fin 256) : Entry :=
  match new.find? (fun x => x.1 == c) with
  | some x => x.2
  | none => if (s.unpended (new.map (fun x => x.1))).contains c then s.ctxs[c].active else s.twinView c

/-- The relation before the commit: the counted entry's, or the active one's when a pair commit is superseded (R207, R208). -/
def State.relationOf (s : State) (c : Fin 256) : Option (Fin 256) :=
  match s.ctxs[c].pending with
  | some p => if p.pair.isSome then s.ctxs[c].active.twinOf else p.entry.twinOf
  | none => s.ctxs[c].active.twinOf

/-- A commit as the part takes it: reserved bits ignored, and a scout keeps the sequencer's fields (R14, R178). That a commit which ends
SCOUT keeps none of them is the model's choice (log entry 76). -/
def State.taken (s : State) (origin : Origin) (c : Fin 256) (e : Entry) : Entry :=
  let a := s.ctxs[c].active
  let host := match origin with | .window _ => true | .qrp _ => true | _ => false
  (if host && e.scout && a.scout then e.keepScout a else e).stored c

/-- The context held by the image until its reach is ready (R211): its own commit fails check 1. -/
def State.heldBack (s : State) (origin : Origin) (c : Fin 256) : Bool :=
  match origin with
  | .image => false
  | _ => s.ctxs[c].held.isSome

/-- Check of a single commit. -/
def State.checkSingle (s : State) (origin : Origin) (c : Fin 256) (e : Entry) : Verdict :=
  if s.heldBack origin c then .refused 0x0F
  else
    s.check { view := s.viewWith [(c, e)]
              relationFixed := origin != .image && e.twinOf != s.relationOf c
              keepEngine := s.ctxs[c].st != .idle && !goesAcquire s.ctxs[c].active e
              old := s.oldOf c
              locked := s.pairLocked c } (if origin == .image then s.roomBare [c] [c] else s.roomFor [c]) (s.liveEntries [c]) c e

/-- Put an accepted entry into the pending copy (R26); it ends a calibration point that it overlies (Table 11.3). -/
def State.setPending (s : State) (origin : Origin) (c : Fin 256) (e : Entry) (p : Place) (pair : Option (Fin 256))
    (lead : Fin 256) : State :=
  (s.modCtx c (fun x =>
    { x with pending := some { entry := e, place := p, origin := origin, pair := pair, lead := lead, at_ := s.clock }, held := none })).pointOverlaid e

/-- An accepted host commit ends the context's landing and, for a pair, its partner's (R365). -/
def State.hostTakes (s : State) (origin : Origin) (c : Fin 256) : State :=
  match origin with
  | .window _ => (s.endLanding c 6 1)
  | .qrp _ => (s.endLanding c 6 1)
  | _ => s

/-- Order in which commits of one FAB cycle take effect (R210). -/
def Origin.rank : Origin → Nat
  | .image => 0
  | .sequencer => 1
  | .window .twoWire => 2
  | .window .qrp => 3
  | .qrp _ => 3

/-- A commit of this FAB cycle, already taken, that takes effect after one that comes now from `origin` (R210). -/
def State.outranked (s : State) (origin : Origin) (c : Fin 256) : Bool :=
  match s.ctxs[c].pending with
  | some p => p.at_ == s.clock && decide (origin.rank < p.origin.rank)
  | none => false

/-- The shadow entry handed over for a commit (R25, R26). -/
def State.setShadow (s : State) (c : Fin 256) (e : Entry) : State := s.modCtx c (fun x => { x with shadow := e })

/-- An accepted commit that another one of the same FAB cycle has superseded already (R210, Table 1.8). -/
def State.outdone (s : State) (origin : Origin) (c : Fin 256) : State :=
  match origin with
  | .sequencer => s.abandoned c 1
  | _ => s

/-- A single commit (R26, R32): the check, then the pending copy; an earlier pending entry ends superseded. The VTN-8120 takes the context
numbers 0 to 255, bounded by its slots (log entry 51). -/
def State.commit (s : State) (origin : Origin) (c : Fin 256) (entry : Entry) : State × Nat :=
  let e := s.taken origin c entry
  let t := s.setShadow c e
  match t.checkSingle origin c e with
  | .refused n => (t, n)
  | .given p =>
    if t.outranked origin c then (t.outdone origin c, 1)
    else (((t.endPending c 0x01 1).hostTakes origin c).setPending origin c e p none c, 0)

/-- A pair commit (R206 to R208): checked member by member, the lower context first, and taken whole. -/
def State.commitPair (z : State) (origin : Origin) (a b : Fin 256) (ea eb : Entry) : State × Nat :=
  let x := z.taken origin a ea
  let y := z.taken origin b eb
  let s := (z.setShadow a x).setShadow b y
  let lo := if a < b then (a, x) else (b, y)
  let hi := if a < b then (b, y) else (a, x)
  let view := s.viewWith [(a, x), (b, y)]
  let env := fun (c : Fin 256) (e : Entry) => ({ view := view
                                                 keepEngine := s.ctxs[c].st != .idle && !goesAcquire s.ctxs[c].active e
                                                 old := s.oldOf c
                                                 locked := s.pairLocked c } : CheckEnv)
  let room := s.roomFor [a, b]
  let live := s.liveEntries [a, b]
  if a == b then (s, 0x09)
  else if s.heldBack origin a || s.heldBack origin b then (s, 0x0F)
  else match s.check (env lo.1 lo.2) room live lo.1 lo.2 with
    | .refused n => (s, n)
    | .given p =>
      let room2 := if lo.2.idle then room else room.add lo.1 lo.2 p
      let live2 := if lo.2.idle then live else live ++ [lo]
      match s.check (env hi.1 hi.2) room2 live2 hi.1 hi.2 with
      | .refused n => (s, n)
      | .given q =>
        if s.outranked origin a || s.outranked origin b then (s.outdone origin a, 1)
        else
        let t := ((((s.endPending a 0x01 1).endPending b 0x01 1).hostTakes origin a).hostTakes origin b)
        ((t.setPending origin lo.1 lo.2 p (some hi.1) a).setPending origin hi.1 hi.2 q (some lo.1) a, 0)

end Sys2Proof.Machine
end

