-- ==== Sys2Proof/Machine/Rds.lean ====
section
/-! DEFINITION. RDS bits, blocks, groups and items (R225, R230 to R237, R243). The block code and the layout of groups are those of
IEC 62106, which the manual follows and does not restate (log entry 67). -/

namespace Sys2Proof.Machine

/-! ### The block code (R230, R231) -/

/-- Remainder of a 26-bit block by g(x) = x^10 + x^8 + x^7 + x^5 + x^4 + x^3 + 1. -/
def rdsRem (w : Nat) : Nat :=
  (List.range 16).foldl (fun v k => if v.testBit (25 - k) then v ^^^ (0x5B9 <<< (15 - k)) else v) w

/-- Offset words; offset E is zero. -/
def offsetWord : RdsOffset → Nat
  | .a => 0x0FC
  | .b => 0x198
  | .c => 0x168
  | .cPrime => 0x350
  | .d => 0x1B4
  | _ => 0

/-- Offsets that the search knows: E in RBDS mode only (R231). -/
def knownOffsets (rbds : Bool) : List RdsOffset := [.a, .b, .c, .cPrime, .d] ++ (if rbds then [.e] else [])

/-- The offset word that a block's syndrome matches. -/
def matchOffset (rbds : Bool) (w : Nat) : Option RdsOffset := (knownOffsets rbds).find? (fun o => rdsRem w == offsetWord o)

/-- Error patterns of up to five bits that begin and end with an error: those of one and two bit errors first. -/
def burstPatterns : List Nat := [1, 3, 5, 9, 17, 7, 11, 13, 19, 21, 25, 15, 23, 27, 29, 31]

/-- Bit errors of a pattern. -/
def errorsIn (p : Nat) : Nat := ((List.range 5).filter (fun k => p.testBit k)).length

/-- A block corrected under an offset word: the block and its error class (R231). A pattern of one or two bit errors is class 1 whatever
its span (log entry 67). -/
def correctBlock (off : RdsOffset) (w : Nat) : Nat × Fin 4 :=
  let s := rdsRem w ^^^ offsetWord off
  if s = 0 then (w, 0)
  else
    match burstPatterns.findSome? (fun p => (List.range 26).findSome? (fun k =>
        if p <<< k < 2 ^ 26 && rdsRem (p <<< k) == s then some (p, p <<< k) else none)) with
    | some q => (w ^^^ q.2, if errorsIn q.1 ≤ 2 then 1 else 2)
    | none => (w, 3)

/-- The place of an offset word in a group: A 0, B 1, C and C′ 2, D 3; offset E, of RBDS, has none. -/
def rdsPlace : RdsOffset → Option Nat
  | .a => some 0
  | .b => some 1
  | .c => some 2
  | .cPrime => some 2
  | .d => some 3
  | _ => none

/-- The next offset in sequence (R230); with RBDS a run of E blocks follows D or E. -/
def follows (rbds : Bool) (p n : RdsOffset) : Bool :=
  match rdsPlace p, rdsPlace n with
  | some i, some j => j == (i + 1) % 4
  | some 3, none => rbds && n == .e
  | none, some 0 => rbds && p == .e
  | none, none => rbds && p == .e && n == .e
  | _, _ => false

/-- Offsets that may stand at a place of the flywheel; `e` says that the group in hand is one of E blocks, `u` that none of its blocks has
been readable. -/
def offsetsAt (rbds e u : Bool) (pos : Nat) : List RdsOffset :=
  let also := if rbds && u then [RdsOffset.e] else []
  if pos = 0 then (if rbds then [.a, .e] else [.a])
  else if e then [.e]
  else if pos = 1 then .b :: also
  else if pos = 2 then [.c, .cPrime] ++ also
  else .d :: also

/-- A block in synchronisation: of the offsets that may stand there, the one that needs the least correction. In RDS mode a block with
offset E is class 3 (R231). Answers offset, information word (raw when class 3) and class. -/
def judgeBlock (rbds e u : Bool) (pos w : Nat) : RdsOffset × BitVec 16 × Fin 4 :=
  if !rbds && rdsRem w == 0 then (RdsOffset.none, BitVec.ofNat 16 (w / 1024), 3)
  else
    let l := (offsetsAt rbds e u pos).map (fun o => (o, correctBlock o w))
    let best := l.foldl (fun (b : RdsOffset × Nat × Fin 4) x => if x.2.2 < b.2.2 then x else b) (RdsOffset.none, w, (3 : Fin 4))
    (best.1, BitVec.ofNat 16 (best.2.1 / 1024), best.2.2)

/-! ### Synchronisation (R225, R230) -/

/-- RDS synchronisation is lost, the partial group discarded, and the search begins afresh (R230, Table 6.13). -/
def Fm.loseRds (f : Fm) : Fm :=
  { f with rdsSync := false, rdsPrev := none, rdsClasses := [], group := [], rdsCands := [], rdsPos := 0, rdsReg := 0, rdsMarks := [] }

/-- The PI check of R225 on a block A of class 0 or 1. -/
def Fm.checkPi (f : Fm) (service : Nat) (pi : BitVec 16) (auto : Bool) : Fm :=
  if service = 0 then f
  else if pi.toNat = service % 65536 then
    let g := { f with piBad := 0, piGood := f.piGood + 1 }
    if f.piLost && 2 ≤ g.piGood then { g with piLost := false, lock := g.carrierLock && (!auto || g.pilotKnown) } else g
  else
    let g := { f with piGood := 0, piBad := f.piBad + 1 }
    if 2 ≤ g.piBad then { g with piLost := true, lock := false } else g

/-- A mark set in either. -/
def joinMarks (a b : Marks) : Marks := ⟨a.blanked || b.blanked, a.overrange || b.overrange⟩

/-- A block in synchronisation: its error class counts toward the last 50, it joins the group that its block A (or first E) began, and a
block A is checked against SERVICE_ID. -/
def Fm.takeBlock (f : Fm) (e : Entry) (b : RdsOffset × BitVec 16 × Fin 4) (pos stamp : Nat) (m : Marks) : Fm :=
  let g := { f with rdsClasses := (b.2.2 :: f.rdsClasses).take 50 }
  let h := if pos = 0 then { g with group := [b], groupStamp := stamp, groupMarks := m }
    else if f.group.length = pos then { g with group := f.group ++ [b], groupMarks := joinMarks f.groupMarks m }
    else { g with group := [] }
  let k := if b.1 == .a then { h with blocksA := (b.2 :: h.blocksA).take 2 } else h
  if b.1 == .a && b.2.2.val ≤ 1 then k.checkPi e.service b.2.1 e.stereoAuto else k

/-- Place of the next block by the flywheel. -/
def Fm.nextPos (f : Fm) : Nat :=
  match f.group.length with
  | 0 => ((f.rdsPrev.bind rdsPlace).map (· + 1)).getD 0 % 4
  | n => n % 4

/-- The offset that stands at a place of the flywheel. -/
def offsetAt : Nat → RdsOffset
  | 0 => .a
  | 1 => .b
  | 2 => .c
  | _ => .d

/-- More than 20 of the last 50 blocks are of class 3 (R230). -/
def Fm.syncFails (f : Fm) : Bool := decide (20 < (f.rdsClasses.filter (· == 3)).length)

/-- The group in hand is one of E blocks: one of its blocks has shown offset E, and the others, if any, could not be read. -/
def Fm.inE (f : Fm) : Bool := f.group.any (fun b => b.1 == .e)

/-- No block of the group in hand has been readable. -/
def Fm.unread (f : Fm) : Bool := f.group.all (fun b => b.1 == .none)

/-- A block boundary of the flywheel (R230, R231). -/
def Fm.flywheel (f : Fm) (e : Entry) (stamp : Nat) (m : Marks) : Fm :=
  let pos := f.nextPos
  let b := judgeBlock e.rbds f.inE f.unread pos f.rdsReg.toNat
  let g := (f.takeBlock e b pos stamp m)
  let h := { g with rdsPos := 0, rdsPrev := some (if b.1 == RdsOffset.none then offsetAt pos else b.1) }
  if h.syncFails then h.loseRds else h

/-- Block synchronisation on the block `k` found 26 bits before and the block just found (R230, R236). -/
def Fm.synchronise (f : Fm) (e : Entry) (k : RdsCand) (off : RdsOffset) (stamp : Nat) (m : Marks) : Fm :=
  let info := BitVec.ofNat 16 (f.rdsReg.toNat / 1024)
  let pos := fun (o : RdsOffset) => (rdsPlace o).getD 0
  let g : Fm := { f with rdsSync := true, rdsCands := [], rdsClasses := [], group := [], rdsPos := 0, rdsPrev := some off }
  let h := g.takeBlock e (k.off, k.info, 0) (pos k.off) k.stamp k.marks
  h.takeBlock e (off, info, 0) (match rdsPlace off with | some j => j | none => h.group.length % 4) stamp m

/-- A bit of the search: every block with a zero syndrome is a candidate, until a second one 26 bits later follows it (R230). -/
def Fm.search (f : Fm) (e : Entry) (stamp : Nat) (m : Marks) : Fm :=
  let l := (f.rdsCands.map (fun k => { k with age := k.age + 1 })).filter (fun k => decide (k.age ≤ 26))
  if f.rdsMarks.length < 26 then { f with rdsCands := l }
  else match matchOffset e.rbds f.rdsReg.toNat with
    | none => { f with rdsCands := l }
    | some o =>
      match l.find? (fun k => k.age == 26 && follows e.rbds k.off o) with
      | some k => f.synchronise e k o stamp m
      | none => { f with rdsCands := l ++ [{ off := o, info := BitVec.ofNat 16 (f.rdsReg.toNat / 1024), stamp := stamp, marks := m }] }

/-- One recovered bit; `stamp` is the timestamp of the first of the last 26. -/
def Fm.bit (f : Fm) (e : Entry) (b : Bool) (stamp : Nat) (m : Marks) : Fm :=
  let g := { f with rdsReg := (f.rdsReg <<< 1) ||| (if b then 1 else 0), rdsMarks := (m :: f.rdsMarks).take 26 }
  let all := g.rdsMarks.foldl joinMarks {}
  if !g.rdsSync then g.search e stamp all
  else if g.rdsPos + 1 < 26 then { g with rdsPos := g.rdsPos + 1 }
  else g.flywheel e stamp all

/-- Recovered bits; `stamp` is the sample time of the first one's start. A bit lasts 16/19 ms (1,187.5 b/s). -/
def Fm.bits (f : Fm) (e : Entry) (l : List Bool) (stamp : Nat) (m : Marks) : Fm :=
  l.zipIdx.foldl (fun g b => g.bit e b.1 ((stamp * 19 + b.2 * 16000000 - 25 * 16000000) / 19) m) f

/-! ### Groups (R232 to R235, R243) -/

/-- A block of the group in hand. -/
def Fm.blk (f : Fm) (n : Nat) : RdsOffset × BitVec 16 × Fin 4 := f.group.getD n (.none, 0, 3)

def Fm.info (f : Fm) (n : Nat) : BitVec 16 := (f.blk n).2.1
def Fm.cls (f : Fm) (n : Nat) : Nat := (f.blk n).2.2.val

/-- Blocks of class 0 or 1, from which items are built (R237). -/
def Fm.clean (f : Fm) (l : List Nat) : Bool := l.all (fun n => decide (f.cls n ≤ 1))

/-- Four consecutive blocks of offset E (R243), of which not all need be readable. -/
def Fm.mmbs (f : Fm) : Bool := f.group.any (fun b => b.1 == .e) && f.group.all (fun b => b.1 == .e || b.1 == .none)

/-- The group-type code (R232): given when block B has class 0, 1 or 2. -/
def Fm.code (f : Fm) : Option (BitVec 5) :=
  if f.mmbs || f.cls 1 = 3 then none else some (BitVec.ofNat 5 (f.info 1 >>> 11).toNat)

/-- The AID that routes a code (R235): the most recently confirmed entry that holds it. Codes 0b00000 and 0b11111 route
nothing (R233). -/
def Fm.aidOf (f : Fm) (code : Option (BitVec 5)) : BitVec 16 :=
  match code with
  | none => 0
  | some k => if k == 0 || k == 31 then 0 else
      match f.oda.reverse.find? (fun p => p.2 == k) with
      | some p => p.1
      | none => 0

/-- A type 3A group enters its AID and code (R233); a full map gives up the entry confirmed longest ago. -/
def odaEnter (l : List (BitVec 16 × BitVec 5)) (aid : BitVec 16) (code : BitVec 5) : List (BitVec 16 × BitVec 5) :=
  let rest := l.filter (fun p => p.1 != aid)
  (if 8 ≤ rest.length then rest.drop (rest.length - 7) else rest) ++ [(aid, code)]

/-- The group is a type 3A group with blocks B and D of class 0 or 1. -/
def Fm.is3A (f : Fm) : Bool := f.code == some 6 && f.clean [1, 3]

/-- Type 4A group with blocks B, C and D of class 0 (R237). -/
def Fm.isCt (f : Fm) : Bool := f.code == some 8 && f.cls 1 == 0 && f.cls 2 == 0 && f.cls 3 == 0

/-! ### Items (R237, Table 6.9) -/

/-- A group carries the value. Groups in which the value cannot be read are passed over: that they do not part two consecutive groups is
the model's choice (log entry 67). -/
def Seen.see (s : Seen) (v : Nat) : Seen := { last := some v, conf := if s.last = some v then some v else s.conf }

/-- The value stands as it was last confirmed. -/
def Seen.steady (s : Seen) : Option Nat := if s.conf.isSome && s.conf == s.last then s.conf else none

/-- Every one of a list of segments has come twice with the same content: their values. -/
def steadyAll (l : List Seen) : Option (List Nat) := if l.all (fun s => s.steady.isSome) then some (l.map (fun s => s.steady.getD 0)) else none

/-- Block B as a number, and its lower bits. -/
def Fm.b (f : Fm) (k n : Nat) : Nat := (f.info 1).toNat / 2 ^ k % 2 ^ n

/-- PTY and TP from every group; TA, MS and a bit of DI from types 0A, 0B and 15B. -/
def Fm.seeFlags (f : Fm) (w : RdsWork) : RdsWork :=
  let v := { w with pty := w.pty.see (f.b 5 5), tp := w.tp.see (f.b 10 1) }
  if f.code == some 0 || f.code == some 1 || f.code == some 31 then
    { v with ta := v.ta.see (f.b 4 1), ms := v.ms.see (f.b 3 1)
             di := v.di.set (Fin.ofNat 4 (3 - f.b 0 2)) (v.di[Fin.ofNat 4 (3 - f.b 0 2)].see (f.b 2 1)) }
  else v

/-- Item 0x02, once each of its parts has been confirmed (log entry 67). -/
def RdsWork.flagsItem (w : RdsWork) : Option RdsItem :=
  match w.pty.conf, w.tp.conf, w.ta.conf, w.ms.conf with
  | some p, some t, some a, some m =>
    if w.di.toList.all (fun s => s.conf.isSome) then
      some ⟨2, bytesOf 1 p ++ bytesOf 1 (t + 2 * a + 4 * m) ++
        bytesOf 1 ((w.di.toList.zipIdx.map (fun q => (q.1.conf.getD 0) * 2 ^ q.2)).sum) ++ [0]⟩
    else none
  | _, _, _, _ => none

/-- PS: a segment in block D of types 0A and 0B. -/
def Fm.seePs (f : Fm) (w : RdsWork) : RdsWork × Option RdsItem :=
  if (f.code == some 0 || f.code == some 1) && f.clean [1, 3] then
    let k : Fin 4 := Fin.ofNat 4 (f.b 0 2)
    let v := { w with ps := w.ps.set k (w.ps[k].see (f.info 3).toNat) }
    (v, (steadyAll v.ps.toList).map (fun l => ⟨3, l.flatMap (bytesOf 2)⟩))
  else (w, none)

/-- PTYN: a segment in blocks C and D of type 10A; its A/B flag begins a new name. -/
def Fm.seePtyn (f : Fm) (w : RdsWork) : RdsWork × Option RdsItem :=
  if f.code == some 20 && f.clean [1, 2, 3] then
    let ab := f.b 4 1 == 1
    let u := if w.ptynAb == some ab then w else { w with ptynAb := some ab, ptyn := Vector.replicate 2 {} }
    let k : Fin 2 := Fin.ofNat 2 (f.b 0 1)
    let v := { u with ptyn := u.ptyn.set k (u.ptyn[k].see ((f.info 2).toNat * 65536 + (f.info 3).toNat)) }
    (v, (steadyAll v.ptyn.toList).map (fun l => ⟨8, l.flatMap (bytesOf 4)⟩))
  else (w, none)

/-- The text up to its 0x0D, or of all 16 segments, when every segment up to there has come (log entry 67). -/
def rtText (l : List (Nat × List Byte)) : Nat → Nat → Option (List Byte)
  | 0, _ => some []
  | n + 1, a =>
    match l.find? (fun p => p.1 == a) with
    | none => none
    | some p => if p.2.contains 0x0D then some (p.2.takeWhile (· != 0x0D)) else (rtText l n (a + 1)).map (fun t => p.2 ++ t)

/-- RT: a segment of type 2A in blocks C and D, of 2B in block D; a change of the A/B flag clears the text being built (R238). -/
def Fm.seeRt (f : Fm) (w : RdsWork) : RdsWork × Option RdsItem :=
  let a := f.code == some 4 && f.clean [1, 2, 3]
  let b := f.code == some 5 && f.clean [1, 3]
  if a || b then
    let ab := (f.b 4 1 == 1, b)
    let u := if w.rtAb == some ab then w else { w with rtAb := some ab, rt := [] }
    let seg := (if a then bytesOf 2 (f.info 2).toNat else []) ++ bytesOf 2 (f.info 3).toNat
    let v := { u with rt := (f.b 0 4, seg) :: u.rt.filter (fun p => p.1 != f.b 0 4) }
    (v, (rtText v.rt 16 0).map (fun t => ⟨4, bytesOf 1 (f.b 4 1) ++ bytesOf 1 t.length ++ t⟩))
  else (w, none)

/-- CT (Table 6.9) from a type 4A group. -/
def Fm.ctMjd (f : Fm) : Nat := f.b 0 2 * 32768 + (f.info 2).toNat / 2
def Fm.ctHour (f : Fm) : Nat := (f.info 2).toNat % 2 * 16 + (f.info 3).toNat / 4096
def Fm.ctMinute (f : Fm) : Nat := (f.info 3).toNat / 64 % 64
def Fm.ctOffset (f : Fm) : Int := if (f.info 3).toNat / 32 % 2 = 1 then -((f.info 3).toNat % 32 : Nat) else ((f.info 3).toNat % 32 : Nat)
def Fm.ctItem (f : Fm) : RdsItem :=
  ⟨5, bytesOf 4 f.ctMjd ++ bytesOf 1 f.ctHour ++ bytesOf 1 f.ctMinute ++ [byteOfInt f.ctOffset, 0]⟩

/-- CT time as station time, ns from 2000-01-01, MJD 51544. -/
def Fm.ctNs (f : Fm) : Nat := ((f.ctMjd - 51544) * 86400 + f.ctHour * 3600 + f.ctMinute * 60) * 1000000000

/-- A frequency as Table 6.9 gives it, from an AF code: VHF in 10 kHz, LF and MF in kHz with bit 15 set. -/
def afFreq (lfmf : Bool) (k : Nat) : Nat :=
  if !lfmf then 8750 + 10 * k else if k ≤ 15 then 0x8000 + 144 + 9 * k else 0x8000 + 387 + 9 * k

/-- Frequencies of a run of AF codes: 250 announces an LF or MF code, and codes of no frequency are passed over. -/
def afFreqs : List Nat → List Nat
  | [] => []
  | k :: l =>
    if k = 250 then
      match l with
      | j :: t => if 1 ≤ j ∧ j ≤ 135 then afFreq true j :: afFreqs t else afFreqs t
      | [] => []
    else if 1 ≤ k ∧ k ≤ 204 then afFreq false k :: afFreqs l
    else afFreqs l

/-- The pairs of a method B list all hold its tuned frequency. -/
def pairsHold (t : Nat) : List Nat → Bool
  | a :: b :: l => (a == t || b == t) && pairsHold t l
  | [] => true
  | _ => false

/-- AF item of a complete list: method B when it begins with a tuned frequency that each following pair holds, else method A. -/
def afItem (own : Nat) (l : List Nat) : RdsItem :=
  let mk := fun (m t : Nat) (q : List Nat) => (⟨6, bytesOf 1 m ++ bytesOf 1 q.length ++ bytesOf 2 t ++ q.flatMap (bytesOf 2)⟩ : RdsItem)
  match l with
  | t :: rest => if !rest.isEmpty && pairsHold t rest then mk 1 t (rest.filter (· != t)) else mk 0 own l
  | [] => mk 0 own []

/-- An AF code joins the list: 225 to 249 begin one of 1 to 25 frequencies. -/
def RdsWork.afCode (w : RdsWork) (k : Nat) : RdsWork :=
  if 225 ≤ k ∧ k ≤ 249 then { w with afCount := k - 224, af := [] }
  else if w.afCount = 0 then w
  else { w with af := w.af ++ [k] }

/-- AF lists from block C of type 0A; answers the frequencies of a list now complete. -/
def Fm.seeAf (f : Fm) (w : RdsWork) : RdsWork × Option (List Nat) :=
  if f.code == some 0 && f.clean [1, 2] then
    let v := (w.afCode ((f.info 2).toNat / 256)).afCode ((f.info 2).toNat % 256)
    let l := afFreqs v.af
    if v.afCount ≠ 0 ∧ v.afCount ≤ l.length then ({ v with afCount := 0, af := [] }, some (l.take v.afCount)) else (v, none)
  else (w, none)

/-- The carriers of an AF item (Table 9.1). -/
def afCarriers (pi : BitVec 16) (l : List Nat) : List Carrier :=
  l.map (fun k => if k < 0x8000 then ⟨1, false, k * 10000, pi.toNat⟩ else ⟨2, false, (k - 0x8000) * 1000, 0⟩)

/-- Frequencies of an AF item, tuned frequency not among them. -/
def itemFreqs : List Byte → List Nat
  | a :: b :: l => (a.toNat * 256 + b.toNat) :: itemFreqs l
  | _ => []

/-- ODA registration of a type 3A group: map entry and item (R233, Table 6.9). -/
def Fm.odaAid (f : Fm) : BitVec 16 := f.info 3
def Fm.odaCode (f : Fm) : BitVec 5 := BitVec.ofNat 5 (f.info 1).toNat
def Fm.odaItem (f : Fm) : RdsItem :=
  ⟨7, bytesOf 1 f.odaCode.toNat ++ [0] ++ bytesOf 2 f.odaAid.toNat ++ bytesOf 2 (f.info 2).toNat⟩

/-- EON item of a type 14A group. -/
def Fm.eonItem (f : Fm) : RdsItem :=
  ⟨9, bytesOf 2 (f.info 3).toNat ++ bytesOf 1 (f.b 0 4) ++ [0] ++ bytesOf 2 (f.info 2).toNat⟩

/-- What a group confirms beside PI (R237): the work after it, and the items in their code order. -/
def Fm.confirms (f : Fm) (own : Nat) : RdsWork × List RdsItem :=
  if !f.clean [1] then (f.work, [])
  else
    let w := f.seeFlags f.work
    let ps := f.seePs w
    let rt := f.seeRt ps.1
    let af := f.seeAf rt.1
    let pn := f.seePtyn af.1
    (pn.1, w.flagsItem.toList ++ ps.2.toList ++ rt.2.toList ++ (if f.isCt then [f.ctItem] else []) ++
      (af.2.map (afItem own)).toList ++ (if f.is3A then [f.odaItem] else []) ++ pn.2.toList ++
      (if f.code == some 28 && f.clean [1, 2, 3] then [f.eonItem] else []))

/-- Payload of a group record (Table 6.5). -/
def Fm.groupPayload (f : Fm) (aid : BitVec 16) (level : Int) (cnr : Nat) : List Byte :=
  bytesOf 2 (f.info 0).toNat ++ bytesOf 2 (f.info 1).toNat ++ bytesOf 2 (f.info 2).toNat ++ bytesOf 2 (f.info 3).toNat ++
    bytesOf 1 (f.cls 0 * 64 + f.cls 1 * 16 + f.cls 2 * 4 + f.cls 3) ++
    bytesOf 1 ((if (f.blk 2).1 == .cPrime then 128 else 0) + (if f.mmbs then 64 else 0) +
      (match f.code with | some k => 32 + k.toNat | none => 0)) ++
    bytesOf 2 aid.toNat ++ bytesOfInt16 level ++ bytesOf 1 (min cnr 255) ++ [0]

/-- GROUP_FILTER passes the group (R236). -/
def Fm.filterPasses (f : Fm) (e : Entry) (aid : BitVec 16) : Bool :=
  match e.groupFilter with
  | 0 => true
  | 1 => (aid != 0 && e.aids.contains aid) || (f.code == some 6 && decide (f.cls 3 ≤ 2) && e.aids.contains (f.info 3))
  | _ => false

end Sys2Proof.Machine
end

