-- ==== Sys2Proof/Machine/Context.lean ====
section
/-! DEFINITION. What every change of a context's state brings with it (R192 to R196, Table 5.5): HOLD posts, items kept for
VALID, twin events, the end of I/Q blocks, receptions and landings; and who sends a pair's records (R354 to R362). -/

namespace Sys2Proof.Machine

/-- Code of a context state (Table 5.4). -/
def CtxSt.code : CtxSt → Nat
  | .idle => 0
  | .acquire => 1
  | .settling => 2
  | .valid => 3
  | .hold => 4
  | .migrating => 5

/-- The lock of a context's standard (R221 to R228, R257, R310); an I/Q pass-through context needs none. -/
def Ctx.locked (x : Ctx) : Bool :=
  match x.active.std with
  | 1 => x.fm.lock
  | 2 => x.am.lock
  | 3 => x.dab.lock
  | 4 => x.eab.lock
  | _ => true

/-! ### Twins -/

/-- The partner of a twin member (R353). -/
def State.partnerOf (s : State) (c : Fin 256) : Option (Fin 256) :=
  if s.ctxs[c].st == .idle then none else s.ctxs[c].active.twinOf

/-- The record context of a pair, the lower member; a context without a partner is its own (R354). -/
def State.recordCtx (s : State) (c : Fin 256) : Fin 256 :=
  match s.partnerOf c with
  | some p => if p < c then p else c
  | none => c

/-- The other member seen from the record context. -/
def State.higherCtx (s : State) (c : Fin 256) : Fin 256 :=
  match s.partnerOf c with
  | some p => if p < c then c else p
  | none => c

/-- A member is VALID. -/
def State.isValid (s : State) (c : Fin 256) : Bool := s.ctxs[c].st == .valid

/-- The decoding member of a pair is the record context while its reach is ready and it is VALID (R355): false the record
context, true the other. -/
def State.decoderOf (s : State) (lo : Fin 256) : Bool :=
  !(s.isValid lo && s.reaches[s.ctxs[lo].reachOf].st == .ready)

/-- FM and AM pairs select; EAB, DAB and I/Q pairs have a decoding member. -/
def selects (std : Nat) : Bool := std == stdFm || std == stdAm

/-- The member whose records a pair delivers now (R355, R360, R362): false the record context. -/
def State.delivering (s : State) (lo : Fin 256) : Option Bool :=
  if selects s.ctxs[lo].active.std then s.ctxs[lo].twin.selected
  else
    let d := s.decoderOf lo
    if s.isValid (if d then s.higherCtx lo else lo) then some d else none

/-- The context's records go out: it is no scout, and of a pair it is the member that delivers (R340, R354, R362). -/
def State.delivers (s : State) (c : Fin 256) : Bool :=
  !s.ctxs[c].active.scout &&
  (match s.partnerOf c with
    | none => true
    | some _ => s.delivering (s.recordCtx c) == some (c != s.recordCtx c))

/-! ### The division of records at a switch or a change of selection (R350, R361) -/

/-- Where the span of the last record of a type ended, in the record context. -/
def State.spanOf (s : State) (c : Fin 256) (typ : Nat) : Option Nat :=
  (s.ctxs[s.recordCtx c].follow.spans.find? (fun p => p.1 == typ)).map (fun p => p.2)

/-- A record handed over at `now`, and the time of its last sample: one held back no longer counts only as the last before the others (R451,
R460). -/
def noteEnd (l : List (Nat × Nat)) (now e : Nat) : List (Nat × Nat) :=
  let held := l.takeWhile (fun p => decide (now < p.1 + 50000000))
  (now, e) :: held ++ (l.drop held.length).take 1

/-- The context has handed over a record whose last sample is of time `e`. -/
def State.noteSent (s : State) (c : Fin 256) (e : Nat) : State := s.modCtx c (fun x => { x with sentEnds := noteEnd x.sentEnds s.clock e })

/-- A record goes to record assembly, and its span is noted. -/
def State.sendBuilt (s : State) (c : Fin 256) (r : Fin 4) (b : Built) : State :=
  let to_ := s.recordCtx c
  ((s.handOver c r b.typ b.stamp b.payload b.marks b.combined b.discont to_).modCtx to_ (fun x =>
    { x with follow := { x.follow with spans := (b.typ, b.spanEnd) :: x.follow.spans.filter (fun p => p.1 != b.typ) } })).noteSent c b.spanEnd

/-- Of the records that waited, those whose span ends strictly after that of the last record sent of their type, or after the switch
instant when there was none (R350). -/
def State.after (s : State) (c : Fin 256) (switchNs : Nat) (l : List Built) : List Built :=
  l.filter (fun b => decide ((s.spanOf c b.typ).getD switchNs < b.spanEnd))

/-- Another chain's records count from now on. -/
def State.clearSpans (s : State) (c : Fin 256) : State :=
  s.modCtx (s.recordCtx c) (fun x => { x with follow := { x.follow with spans := [] } })

/-- The division of frames and samples is over: nothing waits for the old chain or member any more (R350, R361). -/
def Ctx.openGate (x : Ctx) : Ctx := { x with gate := x.gate.map (fun g => { g with pcmOpen := true, iqOpen := true }) }

/-- The run-out ends: the old chain's records of before the switch instant, as far as it has built them, then those of the landing that R350
gives. The old slots, engine and buffer are free. -/
def State.endRunOut (s : State) (c : Fin 256) (built : List Built) : State :=
  match s.ctxs[c].follow.runOut with
  | none => s
  | some o =>
    let t := (s.modCtx c (fun x => { x.openGate with follow := { x.follow with runOut := none } })).forEach
      (built.filter (fun b => decide (b.stamp < o.switchNs))) (fun b t => t.sendBuilt c o.place.reach b)
    (t.clearSpans c).forEach (t.after c o.switchNs o.waiting) (fun b u => u.sendBuilt c u.ctxs[c].reachOf b)

/-- A run-out that has lasted 1 s ends at whatever meets it next (R348). -/
def State.expireRunOut (s : State) (c : Fin 256) : State :=
  match s.ctxs[c].follow.runOut with
  | some o => if o.over s.clock then s.endRunOut c [] else s
  | none => s

/-- A record of the context's chain: while the old chain of a switch runs out, the record waits. -/
def State.deliver (s : State) (c : Fin 256) (r : Fin 4) (b : Built) : State :=
  let t := s.expireRunOut c
  match t.ctxs[c].follow.runOut with
  | some o => t.modCtx c (fun x => { x with follow := { x.follow with runOut := some { o with waiting := o.waiting ++ [b] } } })
  | none => t.sendBuilt c r b

/-- A record of the old chain of a switch that comes while it runs out: sent when its timestamp lies before the switch instant (R350). -/
def State.deliverOld (s : State) (c : Fin 256) (r : Fin 4) (b : Built) : State :=
  let t := s.expireRunOut c
  match t.ctxs[c].follow.runOut with
  | some o => if b.stamp < o.switchNs then t.sendBuilt c o.place.reach b else t
  | none => t.deliver c r b

/-- The division of a change of selection ends: of the new member's records that wait, those that R350 gives are sent. -/
def State.endTurn (s : State) (c : Fin 256) : State :=
  let lo := s.recordCtx c
  match s.ctxs[lo].twin.turn with
  | none => s
  | some u =>
    let new := if u.old = lo then s.higherCtx c else lo
    ((s.modCtx lo (fun x => { x with twin := { x.twin with turn := none } })).clearSpans c).forEach (s.after c u.switchNs u.waiting)
      (fun b t => t.sendBuilt new t.ctxs[new].reachOf b)

/-- A record that a member of an FM or AM pair has built (R354, R360, R361): the selected member's is sent, or waits while a change of
selection is under way. Of the member selected before, it is sent when its timestamp lies before the switch instant, and the first later
one ends the change. What a member builds that is not selected is kept for 1 s. -/
def State.twinRecord (s : State) (c : Fin 256) (r : Fin 4) (b : Built) : State :=
  let lo := s.recordCtx c
  let t := match s.ctxs[lo].twin.turn with
    | some u => if u.sincePs + secPs < s.clock then s.endTurn c else s
    | none => s
  match t.ctxs[lo].twin.turn with
  | some u =>
    if c = u.old then (if b.stamp < u.switchNs then t.sendBuilt c r b else t.endTurn c)
    else t.modCtx lo (fun x => { x with twin := { x.twin with turn := some { u with waiting := u.waiting ++ [b] } } })
  | none =>
    if t.delivers c then t.deliver c r b
    else t.modCtx lo (fun x => { x with twin := { x.twin with
      recent := x.twin.recent.filter (fun p => decide (s.clock ≤ p.1 + secPs)) ++ [(s.clock, b)] } })

/-- The carrier-to-noise ratio last measured in an FM or AM context (R643), none before the first. -/
def Ctx.cnrNow (x : Ctx) : Option Nat := if selects x.active.std && x.fm.cnr != 0 then some x.fm.cnr else none

/-- A twin event (Table 9.6) of the pair of record context `lo`, with the members' present levels and the ratios of a selection or those last
measured; unknown ones read as in Table 9.4. -/
def State.twinEvent (s : State) (lo : Fin 256) (event : Nat) (ratios : Option (Nat × Nat)) (stamp : Nat) : State :=
  let hi := s.higherCtx lo
  let x := s.ctxs[lo]
  let fmam := selects x.active.std
  let vl := s.isValid lo
  let vh := s.isValid hi
  let sel : Nat := if fmam then (match x.twin.selected with | some b => b.toNat | none => 0xFF)
    else if vl && vh then 2 else if vl then 0 else if vh then 1 else 0xFF
  let decReach : Nat := if fmam || !(vl || vh) then 0xFF
    else s.ctxs[if s.decoderOf lo then hi else lo].reachOf.val
  let level := fun (o : Option Int) => match o with | some v => bytesOfInt16 v | none => bytesOf 2 0x8000
  let ratio := fun (o : Option Nat) => bytesOf 1 (min (o.getD 0xFF) 0xFF)
  let lv := level (s.ownLevel lo) ++ level (s.ownLevel hi) ++ (match ratios with
    | some p => ratio (some p.1) ++ ratio (some p.2)
    | none => ratio x.cnrNow ++ ratio s.ctxs[hi].cnrNow)
  let t := s.modCtx lo (fun y => { y with twin := { y.twin with combined := 0 } })
  t.emit 0x31 lo.val none stamp
    (bytesOf 1 event ++ bytesOf 1 (vl.toNat + 2 * vh.toNat) ++ bytesOf 1 lo.val ++ bytesOf 1 hi.val ++ bytesOf 1 sel ++
      bytesOf 1 decReach ++ lv ++ bytesOf 2 (min x.twin.combined 65535) ++ [0, 0])

/-- Judge the pair of a member after a change: a twin event at each change of the set of VALID members and of the decoding
member (R362). -/
def State.twinUpdate (s : State) (c : Fin 256) : State :=
  match s.partnerOf c with
  | none => s
  | some _ =>
    let lo := s.recordCtx c
    let hi := s.higherCtx c
    let now : BitVec 2 := (if s.isValid lo then 1 else 0) ||| (if s.isValid hi then 2 else 0)
    let was := s.ctxs[lo].twin.validSet
    let t := if now == was then s else
      (s.modCtx lo (fun y => { y with twin := { y.twin with
        validSet := now, selected := if now == 0 then none else y.twin.selected } })).twinEvent lo
        (if now == 3 then 1 else if now == 0 then 3 else 2) none s.nowNs
    if selects t.ctxs[lo].active.std then t
    else
      let d := t.decoderOf lo
      let old := t.ctxs[lo].twin.decoder
      let u := t.modCtx lo (fun y => { y with twin := { y.twin with decoder := some d } })
      if old.isSome && old != some d then u.twinEvent lo 5 none s.nowNs else u

/-- The partner whose soft bits a context adds to its own: the context is the decoding member, and in DAB both hold frame synchronisation
(R355, R356, R359). -/
def State.addsFrom (s : State) (c : Fin 256) : Option (Fin 256) :=
  let lo := s.recordCtx c
  match s.partnerOf c with
  | none => none
  | some p =>
    if s.decoderOf lo == (c != lo) && (s.ctxs[c].active.std != stdDab || (s.ctxs[c].dab.sync && s.ctxs[p].dab.sync)) then some p else none

/-- The partner's soft bits of the next decoding came too late (R357, R359). -/
def State.decodesAlone (s : State) (c : Fin 256) : Bool := s.ctxs[s.recordCtx c].twin.aloneNext

/-- The decoding that the missing soft bits concern is done (R357, R359). -/
def State.combineDone (s : State) (c : Fin 256) : State :=
  s.modCtx (s.recordCtx c) (fun x => { x with twin := { x.twin with aloneNext := false } })

/-- A combined decoding counts in the pair's next twin event (Table 9.6). -/
def State.countCombined (s : State) (c : Fin 256) : State :=
  if (s.partnerOf c).isSome then
    s.modCtx (s.recordCtx c) (fun x => { x with twin := { x.twin with combined := x.twin.combined + 1 } })
  else s

/-! ### Items kept for VALID (R238, R240) -/

/-- Payload of an item record (Table 6.6). -/
def itemPayload (rbds : Bool) (pi : BitVec 16) (i : RdsItem) : List Byte :=
  [i.code, if rbds then 1 else 0] ++ bytesOf 2 i.value.length ++ bytesOf 2 pi.toNat ++ [0, 0] ++ i.value

/-- What tells one item of a context from another: for ODA registration its AID, for EON its network and variant, else the code
(log entry 48). -/
def itemKey (i : RdsItem) : BitVec 8 × List Byte :=
  (i.code, if i.code == 7 then (i.value.drop 2).take 2 else if i.code == 9 then i.value.take 3 else [])

/-- A group of 104 bits at 1,187.5 b/s, ns. -/
def groupNs : Nat := 87578947

/-- CT, ODA registration and EON are sent at every confirmation; the others when the value differs from the last sent (R238). -/
def alwaysSent (code : BitVec 8) : Bool := code == 5 || code == 7 || code == 9

/-- Send one confirmed item: enabled, and differing from the last sent under the record context (R238, R354). -/
def State.sendItem (s : State) (c : Fin 256) (stamp : Nat) (pi : BitVec 16) (i : RdsItem) (m : Marks) : State :=
  let x := s.ctxs[c]
  let to_ := s.recordCtx c
  if !x.active.itemOn i.code.toNat || !x.active.outRec || x.active.scout then s
  else if !alwaysSent i.code && s.ctxs[to_].fm.sentItems.contains i then s
  else
    (s.when (s.delivers c) (fun t => t.modCtx to_ (fun y => { y with fm := { y.fm with
      sentItems := i :: y.fm.sentItems.filter (fun j => itemKey j != itemKey i) } }))).twinRecord c x.reachOf
      { typ := 0x02, stamp := stamp, spanEnd := stamp + groupNs, payload := itemPayload x.active.rbds pi i
        marks := ⟨m.blanked && x.active.honour, m.overrange⟩ }

/-- On entry to VALID, one record for each item confirmed meanwhile, in the order of their timestamps (R240). -/
def State.sendWaiting (s : State) (c : Fin 256) : State :=
  let w := s.ctxs[c].fm.waiting
  let t := s.modCtx c (fun y => { y with fm := { y.fm with waiting := [] } })
  w.foldl (fun t q => t.sendItem c q.stamp q.pi q.item q.marks) t

/-! ### PCM records (R244 to R246) -/

/-- Station time of an instant of the clock, convergently rounded to 1 ns (R521). -/
def State.stampAt (s : State) (ps : Nat) : Nat := ((s.nowNs : Int) - roundDiv ((s.clock : Int) - ps) 1000).toNat

/-- The frames that may go out: those of the switch instant and later wait until the old chain or member has reached it, for at most 1 s
(R350, R361). -/
def Ctx.framesOut (x : Ctx) (now : Nat) : List PcmFrame :=
  match x.gate with
  | some g => if g.pcmOpen || decide (g.sincePs + secPs < now) then x.fm.audio.frames
      else x.fm.audio.frames.takeWhile (fun f => decide (f.atPs < g.pcmPs))
  | none => x.fm.audio.frames

/-- The frames of the last second. -/
def Ctx.recentFrames (x : Ctx) (now : Nat) : List PcmFrame := x.fm.audio.frames.filter (fun f => decide (now ≤ f.atPs + secPs))

/-- Sample time of what the context's chain puts out at an instant of the clock: the chain's group delay is taken off (R153). -/
def State.sampleTime (s : State) (c : Fin 256) (ps : Nat) : Nat :=
  s.stampAt (ps - (match s.ctxs[c].chain with | some k => k.delayPs | none => 0))

/-- Send one PCM record with the first frames, at most a full one. A pair's member that does not deliver keeps those of the last second (R361,
R362). -/
def State.pcmSend (s : State) (c : Fin 256) : State :=
  let x := s.ctxs[c]
  let n := (pcmFormat x.active.pcmMode).1
  let l := (x.framesOut s.clock).take n
  match l with
  | [] => s
  | f :: _ =>
    if x.active.outPcm && s.delivers c then
      let t := s.modCtx c (fun x => { x with fm := { x.fm with
        pcmDiscont := false
        audio := { x.fm.audio with frames := x.fm.audio.frames.drop l.length, sentPs := l.getLast?.map (fun f => f.atPs) } } })
      (t.handOver c x.reachOf 0x03 (s.stampAt f.atPs) (x.pcmPayload l x.fm.pcmDiscont)
        ⟨l.any (fun f => f.marks.blanked) && x.active.honour, l.any (fun f => f.marks.overrange)⟩ false x.fm.pcmDiscont (t.recordCtx c)).noteSent c
          (s.stampAt ((l.getLast?.getD f).atPs))
    else s.modCtx c (fun x => { x with fm := { x.fm with audio := { x.fm.audio with frames := x.recentFrames s.clock } } })

/-- Send the frames already produced (R245). -/
def State.pcmFlush (s : State) (c : Fin 256) : State :=
  let x := s.ctxs[c]
  s.forEach (List.range (x.fm.audio.frames.length / max (pcmFormat x.active.pcmMode).1 1 + 1)) (fun _ t => t.pcmSend c)

/-! ### I/Q blocks (R522, Table 14.10) -/

/-- Words clamped in a reach count in SAT_EVENTS of REACH_x_CHAIN (R139). -/
def State.countClamps (s : State) (r : Fin 4) (n : Nat) : State :=
  s.modReach r (fun x => { x with satEvents := if n = 0 then x.satEvents else x.satEvents.add 65535 s.clock n })

/-- One I or Q word as the block carries it: 24 bits, or its upper 16 bits convergently rounded and clamped (R183); and the clamps. -/
def iqWord (wide : Bool) (v : Int) : List Byte × Nat :=
  if wide then (bytesOf 3 (unsigned 24 v), 0) else (bytesOf 2 (unsigned 16 (narrow 16 256 v).1), (narrow 16 256 v).2)

/-- Send the block with the samples it holds, if any. -/
def State.iqFlush (s : State) (c : Fin 256) : State :=
  let x := s.ctxs[c]
  if x.iqBuf.isEmpty then s
  else
    let words := x.iqBuf.flatMap (fun p => [iqWord x.active.iqWide p.1, iqWord x.active.iqWide p.2])
    let t := (s.modCtx c (fun y => { y with iqBuf := [], iqMarks := {}, iqDiscont := false })).countClamps x.reachOf
      ((words.map (fun w => w.2)).sum)
    let body := [if x.active.iqWide then 1 else 0, 0] ++ bytesOf 2 x.iqBuf.length ++ bytesOf 4 x.iqFirst.toNat ++ words.flatMap (fun w => w.1)
    if t.delivers c then
      (t.handOver c x.reachOf 0x04 x.iqStamp body ⟨x.iqMarks.blanked && x.active.honour, x.iqMarks.overrange⟩ false x.iqDiscont
        (t.recordCtx c)).noteSent c (match x.iqEndPs with | some p => s.stampAt (p - 1) | none => x.iqStamp)
    else t

/-- A block ends early; the next one carries DISCONT (R522). -/
def State.iqBreak (s : State) (c : Fin 256) : State :=
  (s.iqFlush c).modCtx c (fun y => { y with iqDiscont := y.iqDiscont || y.iqSent })

/-- The states in which I/Q blocks are sent (R522). -/
def Ctx.iqOpen (x : Ctx) : Bool :=
  x.active.outIq && !x.active.scout && x.active.req != 2 && (x.st == .settling || x.st == .valid || x.st == .hold)

/-- A valid output joins the context's block; a full block is sent. -/
def State.iqPut (s : State) (c : Fin 256) (y : Sample) : State :=
  let x := s.ctxs[c]
  let t := s.modCtx c (fun x =>
    { x with iqFirst := if x.iqBuf.isEmpty then x.iqIndex else x.iqFirst
             iqStamp := if x.iqBuf.isEmpty then s.stampAt y.atPs else x.iqStamp
             iqBuf := x.iqBuf ++ [(y.i, y.q)], iqMarks := orMarks x.iqMarks y.marks, iqSent := true, iqEndPs := some (y.atPs + 1) })
  if x.active.iqCount ≤ x.iqBuf.length + 1 then t.iqFlush c else t

/-- One output instant of a context (Table 14.10): a valid sample goes into the block while blocks are sent; any other ends it. -/
def State.iqSample (s : State) (c : Fin 256) (y : Sample) : State :=
  let t := if y.invalid || !s.ctxs[c].iqOpen then s.iqBreak c else s.iqPut c y
  t.modCtx c (fun x => { x with iqIndex := x.iqIndex + 1 })

/-- A member that does not deliver keeps a valid sample for 1 s (R361, R362). -/
def State.iqHold (s : State) (c : Fin 256) (y : Sample) : State :=
  s.modCtx c (fun x => { x with
    iqIndex := x.iqIndex + 1
    iqKept := x.iqKept.filter (fun w => decide (s.clock ≤ w.atPs + secPs)) ++ (if y.invalid || !x.iqOpen then [] else [y]) })

/-- The samples that waited for the old chain or member. -/
def State.iqDrain (s : State) (c : Fin 256) : State :=
  match s.ctxs[c].gate with
  | some g =>
    if g.iqOpen || decide (g.sincePs + secPs < s.clock) then
      (s.modCtx c (fun x => { x with gate := some { g with wait := [] } })).forEach g.wait (fun y t => t.iqSample c y)
    else s
  | none => s

/-- The member that takes over from `c` in a change of selection under way (R361). -/
def State.turnTo (s : State) (c : Fin 256) : Option (Fin 256) :=
  let lo := s.recordCtx c
  match s.ctxs[lo].twin.turn with
  | some u => if u.old = c then some (if c = lo then s.higherCtx c else lo) else none
  | none => none

/-- An output of the context's own chain, or of its old one before the switch instant: into the block, or it waits for the old chain or
member to reach that instant (R350, R361). -/
def State.iqOwn (s : State) (c : Fin 256) (y : Sample) : State :=
  match s.ctxs[c].gate with
  | some g =>
    if y.atPs < g.iqPs then s.iqSample c y
    else if g.iqOpen || decide (g.sincePs + secPs < s.clock) then (s.iqDrain c).iqSample c y
    else s.modCtx c (fun x => { x with gate := some { g with wait := g.wait ++ [y] } })
  | none => s.iqSample c y

/-- One output of a context for I/Q blocks. Of the member that a change of selection leaves, what was sampled before the switch instant goes
into the new one's block (R361). -/
def State.iqServe (s : State) (c : Fin 256) (y : Sample) : State :=
  match s.turnTo c with
  | some n => match s.ctxs[n].gate with
    | some g => if y.atPs < g.iqPs then s.iqSample n y
        else (s.modCtx n (fun x => { x with gate := some { g with iqOpen := true } })).iqHold c y
    | none => s.iqHold c y
  | none => if (s.partnerOf c).isSome && !s.delivers c then s.iqHold c y else s.iqOwn c y

/-! ### EAB receptions (R311, R319) -/

/-- STAGE of Table 8.19 for the state in which a reception ends. -/
def RxSt.stage : RxSt → Nat
  | .syncWait => 1
  | .header => 2
  | .payload => 3
  | .filtered => 3
  | _ => 0

/-- The reception that takes over a candidate: its level, AFC, timing, stage and stored symbols (R319). -/
def Candidate.reception (k : Candidate) (channel : Bool) (noise : Nat) : Reception :=
  { level := k.level, foffset := k.foffset, detectStamp := k.stamp, shadow := true, noise := noise
    syms := k.syms, raw := k.raw, marks := k.marks, erased := k.syms.contains none
    syncStamp := (syncStart k.syms).map (fun p => k.stamp + symbolsNs channel p - symbolsNs channel detectSymbols)
    syncErr := match syncStart k.syms with | some p => syncErrors k.syms p | none => 255 }

/-- The main receiver after an abandonment or the end of a burst: it takes over a shadow candidate, or is ARMED (R319). -/
def Eab.next (e : Eab) (channel : Bool) (spate : Int) : Eab :=
  match e.shadow with
  | some k =>
    let st := (stageOf k.syms).getD .preamble
    { e with st := st, shadow := none, shadowRestart := none, spateAtDetect := spate, afcFrozen := st != .preamble, rx := k.reception channel e.noise }
  | none => { e with st := .armed, rx := {}, shadowRestart := none, afcFrozen := false }

/-- A reception ends with a status: it waits for its records (R321), and the receiver goes on as R319 gives, or is off. -/
def State.eabFinish (s : State) (c : Fin 256) (status stage auth symbols : Nat) (other : Option Int) (endStamp : Nat) (echo dup on : Bool) : State :=
  s.modCtx c (fun x =>
    let e : Eab := { x.eab with
      ended := x.eab.ended.filter (fun q => !(q.handedOver && (q.relayed || decide (q.atPs + secPs < s.clock)))) ++
        [{ rx := x.eab.rx, status := status, stage := stage, auth := auth, symbols := symbols, other := other, endStamp := endStamp
           echo := echo, dup := dup, entry := x.active, atPs := s.clock }]
      frozen := x.eab.frozen.filter (fun p => decide (s.clock < p.2 + secPs)) ++ [(x.eab.burstPs, s.clock)], burstPs := s.clock
      endPs := some s.clock, busyPs := x.eab.busyPs + (s.clock - x.eab.rxPs), rxPs := s.clock }
    { x with eab := if on then e.next x.active.eabChannel x.spateLevel
                    else { e with st := .off, shadow := none, rx := {}, afcFrozen := false } })

/-- Symbol periods from the preamble detection of the running reception to a sample time. -/
def State.symbolsTo (s : State) (c : Fin 256) (stamp : Nat) : Nat :=
  (roundDiv ((stamp - s.ctxs[c].eab.rx.detectStamp) * 1000) (symbolPs s.ctxs[c].active.eabChannel)).toNat

/-- A reception that a swap, a migration or the loss of lock ends is INTERRUPTED (Table 8.22). -/
def State.eabInterrupt (s : State) (c : Fin 256) : State :=
  let e := s.ctxs[c].eab
  if e.receiving then s.eabFinish c 0x09 e.st.stage 0 (s.symbolsTo c s.nowNs) none s.nowNs false false false
  else s.modCtx c (fun x => { x with eab := { x.eab with st := .off, shadow := none } })

/-! ### DAB at loss of lock (R282) -/

/-- Partial superframes and data groups are discarded; the next records carry DISCONT (Table 7.9). -/
def Dab.lose (d : Dab) : Dab :=
  { d with subs := d.subs.map (fun q => { q with discont := true, lost := min (q.lost + q.groups.length) 65535, groups := [], frames := [] }) }

/-- Synchronisation is lost, and lock with it (R257); the de-interleaver starts again with the next one (R266), and a reconfiguration that
waits is discarded with what the FIC gave before it (Table 7.9). -/
def Dab.syncLost (d : Dab) : Dab :=
  let waits := d.occurrence.isSome
  { d with sync := false, lock := false, frameStamp := none, frameCif := none, inFrame := 0, lines := [], stored := 0, frameGood := 0, badFrames := 0
           newOrgs := [], newClasses := [], newComplete := false, occurrence := none, reached := false, passed := false, relock := false
           fic := [], alone := [], orgs := if waits then [] else d.orgs, classes := if waits then [] else d.classes
           eid := if waits then none else d.eid }

/-! ### State changes -/

/-- What leaving VALID does to the engine's output, once the frames already produced have gone (R245, Table 7.9). -/
def Ctx.leaveValid (x : Ctx) : Ctx :=
  { x with fm := { x.fm with pcmDiscont := true }, dab := x.dab.lose }

/-- Change a context's state (Table 5.5), with the posts of R196, the records of R240, the receiver and landing rules, and
the twin events of R362. -/
def State.toState (s : State) (c : Fin 256) (new : CtxSt) : State :=
  let x := s.ctxs[c]
  if x.st == new then s
  else
    let r := x.reachOf
    let wasValid := x.st == .valid
    let t0 := if (x.st == .settling || wasValid || x.st == .hold) && !(new == .settling || new == .valid || new == .hold)
      then s.iqBreak c else s
    let tp := t0.when wasValid (fun t => t.pcmFlush c)
    let t1 := if x.active.std == stdEab && wasValid && !x.active.scout then tp.eabInterrupt c else tp
    let t2 := t1.modCtx c (fun y =>
      let z := if wasValid then y.leaveValid else y
      { z with st := new
               follow := { z.follow with holdSince := if new == .hold then some s.clock else none }
               eab := if new == .valid && z.active.std == stdEab && !z.eab.receiving then { z.eab with st := .armed } else z.eab })
    let t3 := if !x.active.scout && (x.st == .hold) != (new == .hold) then
        t2.post (srcOf r) r.val c.val (if new == .hold then 0x60 else 0x61) 0 []
      else t2
    let t4 := if new == .valid then t3.sendWaiting c else t3
    let t5 := if new == .valid || new == .hold then t4
      else if new == .migrating then t4.endLanding c 6 2
      else t4.endLanding c 6 5
    t5.twinUpdate c

/-- Lock is gained: SETTLING ends, and HOLD ends unless the context is paused (Table 5.5). -/
def State.lockGained (s : State) (c : Fin 256) : State :=
  let x := s.ctxs[c]
  if x.st == .settling && !x.resettle then s.toState c .valid
  else if x.st == .hold && x.active.req == 1 then s.toState c .valid
  else s

/-- Lock is lost: SETTLING and VALID lead to HOLD (Table 5.5). A context that settles only for invalid outputs is judged when
they end. -/
def State.lockLost (s : State) (c : Fin 256) : State :=
  let x := s.ctxs[c]
  if x.st == .valid || (x.st == .settling && !x.resettle) then s.toState c .hold else s

end Sys2Proof.Machine
end

