-- ==== Sys2Proof/Machine/Candidates.lean ====
section
/-! DEFINITION. The candidate table of service following (R327 to R333, R337). -/

namespace Sys2Proof.Machine

/-- Source bits of a candidate (Table 9.4, SOURCES). -/
def srcImage : Nat := 0
def srcSide : Nat := 1
def srcLearned : Nat := 2

def sourceBit (n : Nat) : BitVec 3 := BitVec.ofNat 3 (2 ^ n)

/-- A candidate that the context's AF_MODE keeps: one of another standard needs a member that makes it usable (R329, R330). -/
def State.candKept (s : State) (c : Fin 256) (k : Carrier) : Bool :=
  let e := s.ctxs[c].active
  if k.std.toNat == e.std then true else e.afMode == 2 && (s.memberFor c k).isSome

/-- The candidate that leaves a full table (R331): a learned one first, then a side-data one, never one of the image; within a
class the one checked longest ago. -/
def victim (l : List Cand) : Option Cand :=
  let pick := fun (q : List Cand) => q.foldl (fun (b : Option Cand) x => match b with
    | none => some x
    | some y => if (x.checkedAt.map (· + 1)).getD 0 < (y.checkedAt.map (· + 1)).getD 0 then some x else some y) none
  match pick (l.filter (fun x => x.sources == sourceBit srcLearned)) with
  | some x => some x
  | none => pick (l.filter (fun x => !(x.sources.getLsbD srcImage)))

/-- Enter one candidate with its sources (R327, R331), with LIST_CHANGED for what joins and leaves. -/
def State.addCand (s : State) (c : Fin 256) (src : BitVec 3) (k : Carrier) : State :=
  let l := s.ctxs[c].follow.cands
  let put := fun (t : State) (q : List Cand) => t.modCtx c (fun x => { x with follow := { x.follow with cands := q } })
  let tell := fun (t : State) (reason : Nat) (x : Cand) =>
    t.afEvent 1 reason c c 0xFF 0xFF x.carrier x.sources none none none t.nowNs
  if l.any (fun x => sameCarrier x.carrier k) then
    put s (l.map (fun x => if sameCarrier x.carrier k then { x with sources := x.sources ||| src } else x))
  else
    let new : Cand := { carrier := k, sources := src }
    if l.length < 16 then tell (put s (l ++ [new])) 0 new
    else match victim l with
      | none => s
      | some v => tell (tell (put s (l.erase v ++ [new])) 0x80 v) 0 new

/-- A source gives a list (R331), of which AF_MODE keeps a part (R330): what only that source gave and it now omits leaves the table, and the
rest is entered. -/
def State.applyList (s : State) (c : Fin 256) (src : Nat) (given : List Carrier) : State :=
  if s.ctxs[c].active.afMode == 0 then s
  else
    let list := given.filter (s.candKept c)
    let l := s.ctxs[c].follow.cands
    let omitted := fun (x : Cand) => x.sources.getLsbD src && !(list.any (sameCarrier x.carrier))
    let gone := l.filter (fun x => omitted x && x.sources == sourceBit src)
    let kept := (l.filter (fun x => !(omitted x && x.sources == sourceBit src))).map
      (fun x => if omitted x then { x with sources := x.sources &&& ~~~(sourceBit src) } else x)
    let t := s.modCtx c (fun x => { x with follow := { x.follow with cands := kept } })
    let u := t.forEach gone (fun x t => t.afEvent 1 0x80 c c 0xFF 0xFF x.carrier x.sources none none none t.nowNs)
    u.forEach list (fun k t => t.addCand c (sourceBit src) k)

/-- Side data confirm a list: it fills the table where the entry enables them, now or later (R327). -/
def State.sideList (s : State) (c : Fin 256) (list : List Carrier) : State :=
  let t := s.modCtx c (fun x => { x with follow := { x.follow with side := some list } })
  if s.ctxs[c].active.afSide then t.applyList c srcSide list else t

/-- The sources an entry enables, judged again when the entry changes (R327, R330). -/
def State.refreshCands (s : State) (c : Fin 256) : State :=
  let e := s.ctxs[c].active
  if e.afMode == 0 || e.scout || s.ctxs[c].st == .idle then
    s.modCtx c (fun x => { x with follow := { x.follow with cands := [] } })
  else
    ((s.applyList c srcImage (if e.afImage then (s.followSet c).map Member.carrier else [])).applyList c srcLearned
      (if e.afLearned then s.ctxs[c].follow.learned else [])).applyList c srcSide
      (if e.afSide then s.ctxs[c].follow.side.getD [] else [])

end Sys2Proof.Machine
end

