-- ==== Sys2Proof/Machine/Swap.lean ====
section
/-! DEFINITION. Frame boundaries, swaps and what they do to the chain and the engine (R27 to R32, R168 to R175, R193,
R204, R207), the end of a fade, and the first valid sample (R157, R458, R460). -/

namespace Sys2Proof.Machine

/-! ### What a swap is -/

/-- The kinds of swap (Table 5.5, R169 to R171, R193). -/
inductive SwapKind | toIdle | fromIdle | acquire | fade (spare : Place) | hard | plain
  deriving DecidableEq, Repr

/-- A change of response, preset or rate stage. R170 names response and preset; that RESAMP or RESAMP_RATE alone counts as well is the
model's choice (log entry 52). -/
def filterChanged (old e : Entry) : Bool :=
  old.response != e.response || old.preset != e.preset || old.resamp != e.resamp || (e.resamp && old.rate != e.rate)

/-- Both entries give the same output rate (R170). -/
def sameFout (old e : Entry) : Bool :=
  match responseOf old.response, responseOf e.response with
  | some a, some b => (a.fout old).1 * (b.fout e).2 == (b.fout e).1 * (a.fout old).2
  | _, _ => false

/-- Both entries give the same channel rate (R169). -/
def sameFch (old e : Entry) : Bool :=
  match responseOf old.response, responseOf e.response with
  | some a, some b => a.fch.2 == b.fch.2
  | _, _ => false

/-- The move of CENTRE exceeds one eighth of the old response's pass edge (R168, R170, R193). -/
def movedMedium (old e : Entry) : Bool := movedBeyond old.centre e.centre old.passEdge 1 8

/-- The contexts of a higher number that have borrowed a spare slot of the reach in this FAB cycle (R175). -/
def State.borrowers (s : State) (c : Fin 256) (r : Fin 4) : List (Fin 256) :=
  allCtxs.filter (fun q => decide (c < q) && (match s.ctxs[q].fade with
    | some f => f.lent && f.claimPs == s.clock && f.spare.reach == r
    | none => false))

/-- The room as it stands for a context whose claim comes before those of the higher ones in the same FAB cycle (R175). -/
def State.roomBefore (s : State) (c : Fin 256) (r : Fin 4) : Room :=
  (s.forEach (s.borrowers c r) (fun q t => t.modCtx q (fun y => { y with fade := none }))).room

/-- The spare slot of a fade: the slot the commit gave in place of the held one, else a free one that R190's order gives, with those that
higher contexts claim in the same FAB cycle counted as free (R170, R175, R191). That R190 orders the choice is the model's choice (log
entry 53). -/
def State.spareFor (s : State) (c : Fin 256) (held : Place) (p : Pending) : Option Place :=
  if p.place.slot ≠ held.slot then some p.place
  else ((s.roomBefore c p.place.reach).chooseSlot p.place.reach c false p.place.slots p.entry.anyPlace none).map
    (fun k => { p.place with slot := k })

/-- Which kind of swap a pending entry makes. A slot given in place of the held one, with no fade, restarts the chain
(log entry 18). That a swap of Table 5.5's ACQUIRE row whose REQ_STATE is hold enters ACQUIRE is the model's choice (log entry 76). -/
def State.swapKind (s : State) (c : Fin 256) (p : Pending) : SwapKind :=
  let x := s.ctxs[c]
  if p.entry.idle then .toIdle
  else if x.st == .idle then .fromIdle
  else if goesAcquire x.active p.entry || x.st == .migrating then .acquire
  else match x.place with
    | none => .acquire
    | some held =>
      if filterChanged x.active p.entry then
        if sameFout x.active p.entry && p.entry.std != stdEab && !movedMedium x.active p.entry then
          match s.spareFor c held p with
          | some q => .fade q
          | none => .hard
        else .hard
      else if movedMedium x.active p.entry || p.place.slot != held.slot then .hard
      else .plain

/-! ### The engine's state across a swap -/

/-- FM state at an entry to ACQUIRE: what the side-data table holds stays when the standard does (R239, Table 6.13), and
PRESET_GT is entered (R234). -/
def Fm.acquire (f : Fm) (keep : Bool) (e : Entry) : Fm :=
  let g : Fm := if keep then { oda := f.oda, pi := f.pi, piLast := f.piLast, work := f.work, items := f.items, sentItems := f.sentItems
                               waiting := f.waiting, pcmDiscont := f.pcmDiscont } else { pcmDiscont := f.pcmDiscont }
  match e.presetGt with
  | some gt => if e.std == stdFm && e.aid0 != 0 then { g with oda := odaEnter g.oda e.aid0 gt } else g
  | none => g

/-- The engine's state at an entry to ACQUIRE (R181, R193, R234). -/
def Ctx.acquireEngine (x : Ctx) (keep : Bool) (now : Nat) : Ctx :=
  { x with fm := x.fm.acquire keep x.active, am := {}, dab := { digests := [] }
           eab := { ended := x.eab.ended, endPs := x.eab.endPs, nfStartPs := now }
           gain := 4 * x.active.cagcGain, invalid := true, resettle := false, erased := false, restoreDue := false, demod := [], levels := [], iqKept := []
           gate := none }

/-- FM lock after the PI rule is judged against a new SERVICE_ID (R225). -/
def Fm.newService (f : Fm) (service : Nat) (auto : Bool) : Fm :=
  let g := { f with piBad := 0, piGood := 0 }
  if f.piLost && service == 0 then { g with piLost := false, lock := g.carrierLock && (!auto || g.pilotKnown) } else g

/-- DAB subchannels after a new selection (R267): kept ones go on, deselected ones stop. -/
def Dab.select (d : Dab) (l : List (Fin 64)) : Dab :=
  { d with subs := l.map (fun q => match d.subs.find? (fun y => y.sub == q) with | some y => y | none => { sub := q }) }

/-- With RDS_EN 0 the PI rule does not apply, and a lock that it lost is gained again if carrier lock holds (R225, R230). -/
def Fm.rdsOff (f : Fm) (auto : Bool) : Fm :=
  { f.loseRds with piBad := 0, piGood := 0, piLost := false
                   lock := f.lock || (f.piLost && f.carrierLock && (!auto || f.pilotKnown)) }

/-- A swap that changes STEREO_MODE: in mono, FM lock is carrier lock (R222); in auto a pilot decision window begins, and a lock held stays
until carrier lock is lost (R223). -/
def Fm.stereoMode (f : Fm) (auto : Bool) (now : Nat) : Fm :=
  if auto then { f with pilotWindow := f.carrierLock, pilotKnown := false, stereo := false, rampPs := none, sincePs := now }
  else { f with pilotWindow := false, pilotKnown := false, stereo := false, rampPs := none, lock := f.carrierLock && !f.piLost }

/-- The audio path at a swap (R218, R246): a change of what the rate converter works on, or a hard change, clears it. -/
def Audio.turn (a : Audio) (old e : Entry) (hard : Bool) (now : Nat) : Audio :=
  if hard || old.pcmRatio != e.pcmRatio then { swaps := [now] } else { a with swaps := a.swaps.filter (fun w => decide (now < w + secPs)) ++ [now] }

/-- The synchronous detector is in use: always with DETECT synchronous, and while its loop is locked with fall-back (R228). -/
def syncInUse (detect : Nat) (loop : Bool) : Bool := detect == 1 || (detect == 2 && loop)

/-- The detector changes with a 10 ms blend; without lock the engine starts on it (R228, Table 6.13). -/
def Am.use (a : Am) (sync : Bool) (now : Nat) : Am :=
  if a.syncDet == sync then a else { a with syncDet := sync, blendPs := if a.lock then some now else none }

/-- A noise-floor period begins: at the end of the one before, or at a swap that changes NF_PERIOD (R323, log entry 69). -/
def Eab.newPeriod (e : Eab) (from_ : Nat) : Eab :=
  { e with nfBlocks := [], nfStartPs := from_, bursts := 0, busyPs := 0, rxPs := max e.rxPs from_ }

/-- What a swap that keeps the context out of ACQUIRE changes in the engine. -/
def Ctx.retuneEngine (x : Ctx) (old e : Entry) (hard : Bool) (now : Nat) : Ctx :=
  match e.std with
  | 1 =>
    let f := if old.service ≠ e.service then x.fm.newService e.service e.stereoAuto else x.fm
    let g := if old.stereoAuto == e.stereoAuto then f else f.stereoMode e.stereoAuto now
    let h := if !e.rdsEn then g.rdsOff e.stereoAuto else if hard then g.loseRds else g
    { x with fm := { h with pcmDiscont := h.pcmDiscont || hard, audio := h.audio.turn old e hard now } }
  | 2 => { x with am := x.am.use (syncInUse e.detect x.am.loopLocked) now
                  fm := { x.fm with pcmDiscont := x.fm.pcmDiscont || hard, audio := x.fm.audio.turn old e hard now } }
  | 3 =>
    if old.service ≠ e.service then { x with dab := ({} : Dab).select e.subs }
    else if hard && movedMedium old e then
      let d := x.dab.select e.subs
      { x with dab := { d with relock := d.relock || d.lock, lock := false } }
    else { x with dab := x.dab.select e.subs }
  | 4 => if old.nfPeriod == e.nfPeriod then x else { x with eab := x.eab.newPeriod now }
  | _ => x

/-- The fields that may change under a reception taken over at the boundary (Table 8.22). -/
def sameReception (old e : Entry) : Bool :=
  old[0] == e[0] && old[1] == e[1] && old[2] == e[2] && old[3] == e[3] && old[4] == e[4] && old[5] == e[5] && old[6] == e[6] &&
  (old[8] &&& 0xF0000000) == (e[8] &&& 0xF0000000) && (old[9] &&& 0x1FFFFFFF) == (e[9] &&& 0x1FFFFFFF) &&
  (old[10] &&& 0x87FFFF00) == (e[10] &&& 0x87FFFF00) && old[11] == e[11]

/-! ### The chain across a swap (R167 to R171, R647) -/

/-- A change that the chain meets at its first sample after this FAB cycle. After a hard change or a start, V_C outputs are invalid (R169);
with R156 still running, both must allow a valid one (Table 4.9). -/
def State.changeChain (s : State) (c : Fin 256) (k : ChainStep) (e : Entry) : State :=
  let n := Chain.fresh e (s.tribOf e) (s.clock + fabPs)
  let t := s.reaches[e.reach].tribs[e.trib]
  s.modCtx c (fun x => { x with due := x.due ++ [{ fromPs := s.clock + fabPs, step := k, entry := e }]
                                validPs := match k with
                                  | .restart => n.fromPs + n.outputsPs (if n.fromPs < t.startPs + 28 * 320 * n.div then n.v else n.vc)
                                  | .hard => max x.validPs (n.fromPs + n.outputsPs n.vc)
                                  | _ => x.validPs })

/-- The clock at which output s0 + V_C + 63 of a fade is formed whose first tributary sample comes after `fromPs` (R171): V_C is that of the
new chain `n`. -/
def State.fadeEndPs (s : State) (c : Fin 256) (n : Chain) : Nat :=
  let r := s.reaches[n.entry.reach]
  let t := r.tribs[n.entry.trib]
  let step := 320 * n.div
  match s.ctxs[c].chain with
  | some k =>
    let first := r.gridPs + 320 * r.next + 320 * ((n.div - t.pos % n.div) % n.div)
    let m := if n.fromPs < first then 0 else (n.fromPs - first) / step + 1
    first + step * k.outputAt m (n.vc + 63)
  | none => n.fromPs + n.outputsPs (n.vc + 64)

/-- The chain of a context stops, with what waits in its buffer. -/
def Ctx.stopChain (x : Ctx) : Ctx := { x with chain := none, mix := none, ending := none, due := [], outs := [], fade := none }

/-- A fade period is over: the spare is the context's slot (R171, Table 4.10). -/
def Ctx.endFade (x : Ctx) : Ctx :=
  match x.fade with
  | some f => { x with fade := none, place := some f.spare }
  | none => x

/-- A chain starts from cleared state at the first sample after this FAB cycle (R166). -/
def State.startChain (s : State) (c : Fin 256) (e : Entry) : State := (s.modCtx c (fun x => { x with fade := none })).changeChain c .restart e

/-! ### The swap -/

/-- The state a swap leads to when the context neither leaves nor enters IDLE or ACQUIRE (Table 5.5). An I/Q pass-through context that was
paused stays in SETTLING, since it has no lock to gain (log entry 54). -/
def State.swapState (s : State) (c : Fin 256) (e : Entry) (hard : Bool) : State :=
  let x := s.ctxs[c]
  if e.req == 2 then (s.modCtx c (fun y => { y with paused := true, resettle := false })).toState c .hold
  else if x.st == .hold && x.paused then
    (s.modCtx c (fun y => { y with paused := false, resettle := false
                                   fm := { y.fm.loseRds with lock := false, carrierLock := false, pilotKnown := false, pilotWindow := false }
                                   am := { y.am with lock := false }, dab := { y.dab with lock := false }
                                   eab := { y.eab with lock := false } })).toState c .settling
  else if hard && (x.st == .valid || x.st == .hold || (x.st == .settling && x.locked && e.std != stdIq)) then
    (s.modCtx c (fun y => { y with resettle := true })).toState c .settling
  else s

/-- Add one to HARD_CHANGES of a reach (R169). -/
def State.countHard (s : State) (r : Fin 4) : State := s.modReach r (fun x => { x with hardChanges := x.hardChanges.add 255 s.clock })

/-- A lock that a swap itself ends or returns is judged at the swap (R225, Table 7.9, Table 5.16). -/
def State.judgeSwap (s : State) (c : Fin 256) (was : Bool) : State :=
  if s.ctxs[c].locked && !was then s.lockGained c
  else if !s.ctxs[c].locked && was then s.lockLost c
  else s

/-- The active entry written from a pending one, with its place. -/
def State.putEntry (s : State) (c : Fin 256) (e : Entry) (q : Option Place) : State :=
  s.modCtx c (fun y => { y with active := e, pending := none, place := q, waiting := false, placed := false })

/-- A hard change from `old` to `e` (R169): counted, outputs invalid, the engine's state as R193 gives, SETTLING from VALID and HOLD; lock is
judged when the invalid outputs have been formed (Tables 5.5 and 5.16). -/
def State.hardChange (s : State) (c : Fin 256) (old e : Entry) (r : Fin 4) : State :=
  (((s.countHard r).changeChain c .hard e).modCtx c (fun y => { (y.retuneEngine old e true s.clock) with invalid := true })).swapState c e true

/-- A context whose borrowed spare a lower one has taken in the same FAB cycle, with no other slot free, makes a hard change (R175). -/
def State.loseSpare (s : State) (k : Fin 256) : State :=
  let x := s.ctxs[k]
  (((s.iqBreak k).pcmFlush k).modCtx k (fun y => { y with fade := none, due := y.due.filter (fun d => d.step != .fade) })).hardChange k x.active
    x.active x.reachOf

/-- The higher contexts of this FAB cycle choose again in ascending order, in a room with what the lower ones hold (R175). A context that
has made a hard change in the cycle keeps it (log entry 75). -/
def State.regrant (s : State) (r : Fin 4) : List (Fin 256) → Room → State
  | [], _ => s
  | q :: l, m =>
    match s.ctxs[q].fade with
    | none => s.regrant r l m
    | some f =>
      match m.chooseSlot r q false f.spare.slots s.ctxs[q].active.anyPlace none with
      | some k =>
        let p := { f.spare with slot := k }
        (s.modCtx q (fun y => { y with fade := some { f with spare := p } })).regrant r l { m with taken := m.taken ++ p.slotsFor q }
      | none => (s.loseSpare q).regrant r l m

/-- A context claims its spare slot before the higher ones of the same FAB cycle (R175). -/
def State.claimSpare (s : State) (c : Fin 256) (q : Place) : State :=
  let m := s.roomBefore c q.reach
  s.regrant q.reach (s.borrowers c q.reach) { m with taken := m.taken ++ q.slotsFor c }

/-- A swap that changes the form of PCM records ends the one being filled (log entry 66). -/
def State.pcmTurn (s : State) (c : Fin 256) (old e : Entry) : State :=
  if old.outPcm == e.outPcm && old.pcmMode == e.pcmMode && old.channels == e.channels then s else s.pcmFlush c

/-- FM after a restore: the lock judgements, which only pause (R642), and what the side-data table holds are not the snapshot's. -/
def Fm.restore (f q : Fm) : Fm :=
  { q with carrierLock := f.carrierLock, lock := f.lock, sincePs := f.sincePs, pilotWindow := f.pilotWindow, pilotKnown := f.pilotKnown
           stereo := f.stereo, piLost := f.piLost, piBad := f.piBad, piGood := f.piGood, oda := f.oda, pi := f.pi, piLast := f.piLast, work := f.work
           items := f.items, sentItems := f.sentItems, waiting := f.waiting, audio := { swaps := f.audio.swaps }, pcmDiscont := true }

/-- DAB after a restore: the snapshot carries frame timing, CIF count, organisation and digest table (R280); the de-interleaver lies in
the reach buffer, and what the engine was assembling is lost (log entry 71). -/
def Dab.restore (d q : Dab) : Dab :=
  { d.lose with frameStamp := q.frameStamp, frameCif := q.frameCif, orgs := q.orgs, classes := q.classes, digests := q.digests }

/-- What a snapshot restores in a running engine (R204, R642, Table 12.3). -/
def Ctx.restore (x : Ctx) (q : Snapshot) : Ctx :=
  { x with fm := x.fm.restore q.fm, am := { q.am with lock := x.am.lock }, dab := x.dab.restore q.dab, gain := q.gain }

/-- The context comes to lie on the other engine of its reach, which restores its snapshot (R202); the frames already produced stay. -/
def Ctx.changeEngine (x : Ctx) (q : Snapshot) : Ctx :=
  let y := x.restore q
  { y with erased := false, fm := { y.fm with pcmDiscont := x.fm.pcmDiscont, audio := { y.fm.audio with frames := x.fm.audio.frames } } }

/-- What the old entry's chain has formed and the engine has not taken: output instants that reach neither the cleared engine nor a record
(R193). -/
def Ctx.dropOuts (x : Ctx) : Ctx := { x with outs := x.outs.map (fun y => { y with invalid := true }) }

/-- A swap that places the context on the other engine: that one restores the snapshot of this frame boundary (R202, R204). -/
def State.moveEngine (s : State) (c : Fin 256) (old : Option Place) : State :=
  let x := s.ctxs[c]
  match old, x.place, x.snap with
  | some a, some b, some q => if a.reach == b.reach && a.engine != b.engine then s.modCtx c (fun y => y.changeEngine q) else s
  | _, _, _ => s

/-- Copy the pending entry to the active entry with the effects of its kind (R27, R30, R31, R169 to R171). In a fade the context keeps its
slot until the fade hands the spare over (R189). -/
def State.applyEntry (s : State) (c : Fin 256) (p : Pending) (k : SwapKind) : State :=
  let x := s.ctxs[c]
  let old := x.active
  let e := p.entry
  match k with
  | .toIdle => (((s.toState c .idle).putEntry c e none).modCtx c Ctx.stopChain).modCtx c (fun y =>
      { y with snap := none, paused := false, twin := {}, invalid := true, erased := false, restoreDue := false
               follow := { learned := y.follow.learned, learnedDirty := y.follow.learnedDirty, learnedAt := y.follow.learnedAt } })
  | .fromIdle =>
    ((((s.toState c .acquire).putEntry c e (some p.place)).modCtx c Ctx.stopChain).startChain c e).modCtx c (fun y =>
      { (y.acquireEngine false s.clock) with snap := none, paused := false, iqIndex := 0, iqBuf := [], iqDiscont := false, iqSent := false, sentEnds := []
                                             dab := ({} : Dab).select e.subs })
  | .acquire =>
    (((s.toState c .acquire).putEntry c e (some p.place)).startChain c e).modCtx c (fun y =>
      { (y.acquireEngine (old.std == e.std) s.clock).dropOuts with
          paused := false, dab := ({} : Dab).select e.subs
          follow := { y.follow with side := if old.std == e.std then y.follow.side else none } })
  | .fade q =>
    let held := x.place.getD {}
    let n := Chain.fresh e (s.tribOf e) (s.clock + fabPs)
    let t := ((((s.when (p.place.slot == held.slot) (fun t => t.claimSpare c q)).pcmTurn c old e).putEntry c e
      (some { q with slot := held.slot, slots := held.slots })).moveEngine c x.place).modCtx c (fun y =>
        { y with fade := some { spare := q, lent := p.place.slot == held.slot, claimPs := s.clock, endPs := s.fadeEndPs c n } })
    (((t.changeChain c .fade e).modCtx c (fun y => y.retuneEngine old e false s.clock)).judgeSwap c x.locked).swapState c e false
  | .hard => ((((s.iqBreak c).pcmFlush c).putEntry c e (some p.place)).moveEngine c x.place).hardChange c old e p.place.reach
  | .plain =>
    let t := if e.std == stdEab && x.eab.receiving && !sameReception old e then
        (s.eabInterrupt c).modCtx c (fun y => { y with eab := { y.eab with st := if y.st == .valid then .armed else .off } }) else s
    ((((((t.pcmTurn c old e).putEntry c e (some p.place)).moveEngine c x.place).changeChain c .retune e).modCtx c (fun y =>
      y.retuneEngine old e false s.clock)).judgeSwap c x.locked).swapState c e false

/-- A direct retune of R345 has taken effect. -/
def State.hardDone (s : State) (c : Fin 256) : State :=
  match s.ctxs[c].follow.hard with
  | some k => (s.modCtx c (fun x => { x with follow := { x.follow with hard := none, lastSwitch := some s.clock } })).afEvent 9 0 c c
      0xFF s.ctxs[c].reachOf.val k 0 none none none s.nowNs
  | none => s

/-- RESULT of a CTX_COMMIT response: context and slot given (Table 14.14; an idle entry is given none, log entry 31). -/
def Pending.result (p : Pending) (c : Fin 256) : List Byte :=
  bytesOf 1 c.val ++ bytesOf 1 (if p.entry.idle then Config.idleSlot else p.place.slot)

/-- RESULT of the response at the end of the commit of `p`, the entry of `c`: the context that the command named (Table 14.14). -/
def State.commitResult (s : State) (c : Fin 256) (p : Pending) : List Byte :=
  if p.lead = c then p.result c
  else
    let x := s.ctxs[p.lead]
    bytesOf 1 p.lead.val ++ bytesOf 1 (if x.active.idle then Config.idleSlot else match x.place with | some q => q.slot | none => 0)

/-- The requester learns that its commit has taken effect (R541, R207, R345). -/
def State.commitDone (s : State) (c : Fin 256) (p : Pending) : State :=
  let partnerPending := match p.pair with
    | some q => (match s.ctxs[q].pending with | some y => y.pair == some c | none => false)
    | none => false
  if partnerPending then
    match p.pair with
    | some q => s.modCtx q (fun y => { y with pending := y.pending.map (fun z => { z with firstSwapped := true }) })
    | none => s
  else match p.origin with
    | .qrp id => s.respond id 0x0011 stCompleted 0 (s.commitResult c p)
    | .sequencer => s.forEach (c :: p.pair.toList) (fun q t => t.hardDone q)
    | _ => s

/-- A scout's check runs from its swap (R336). -/
def Ctx.beginCheck (x : Ctx) (now : Nat) : Ctx :=
  if x.follow.check.isSome then { x with follow := { x.follow with checkPs := now }, fm := { x.fm with blocksA := [] }
                                         dab := { x.dab with eid := none, onlyFrame := none } }
  else x

/-- A swap (R27): a host entry ends a landing decided meanwhile (Table 9.7). The entry, candidates, twins, and the end of the commit. -/
def State.swap (s : State) (c : Fin 256) (p : Pending) : State :=
  let old := s.ctxs[c].active
  let t := ((((s.hostTakes p.origin c).applyEntry c p (s.swapKind c p)).modCtx c (fun x => x.beginCheck s.clock)).refreshCands c)
  let fresh := fun (t : State) (q : Fin 256) => t.modCtx q (fun y => { y with twin := {} })
  let u := if old.twinOf != p.entry.twinOf then fresh t c else t
  (u.twinUpdate c).commitDone c p

/-! ### FRAME_BOUNDARY -/

/-- The boundary reported is one of this context's (Table 1.7). -/
def Ctx.boundaryIs (x : Ctx) (now : Nat) : BoundaryKind → Bool
  | .tick =>
    !(x.st != .idle && !x.active.scout && x.active.std == stdDab && x.dab.sync) &&
    !(x.st != .idle && !x.active.scout && x.active.std == stdEab && x.eab.receiving)
  | .dabFrame => x.st != .idle && !x.active.scout && x.active.std == stdDab && x.dab.sync
  | .burstEnd => x.st != .idle && !x.active.scout && x.active.std == stdEab && x.eab.endPs == some now

/-- The engine that carries a context. -/
def engineOf (p : Place) : Fin 8 := Fin.ofNat 8 (2 * p.reach.val + p.engine.val)

/-- The engines that hold a context's load units: its own, and those of its subchannels (R202, R642). -/
def enginesOfPlace (p : Place) : List (Fin 8) := engineOf p :: p.subs.map (fun q => Fin.ofNat 8 (2 * p.reach.val + q.2.val))

/-- The engine writes the context's carried state into its snapshot (R204, R280). -/
def State.snapshot (s : State) (c : Fin 256) : State :=
  let x := s.ctxs[c]
  let runs := match x.place with
    | some p => s.reaches[p.reach].st == .ready && (enginesOfPlace p).all (fun e => !s.engines[e].restarting && !s.engines[e].lostPage)
    | none => false
  if x.st == .idle || x.st == .migrating || !runs then s
  else s.modCtx c (fun y => { y with snap := some { fm := y.fm, am := y.am, dab := y.dab, gain := y.gain } })

/-- A frame boundary of a context (R28): the snapshot, then the pending swap unless a fade defers it (R173) or the context
still migrates (Table 1.8), or while the other member of its pair commit does (R212). That a migration ends for the entry when its own context
leaves MIGRATING is the model's choice (log entry 73). A context that waits for its reach swaps when a commit made meanwhile has placed it
elsewhere (Table 12.5); an entry that stood pending before stays so until the context is placed (Table 1.8). -/
def State.frameBoundary (s : State) (c : Fin 256) (k : BoundaryKind) : State :=
  let x := s.ctxs[c]
  let tick := fun (t : State) => if k == .tick then t.modCtx c (fun y => { y with tickPs := some s.clock }) else t
  if !x.boundaryIs s.clock k then tick s
  else
    let t := (tick ((s.snapshot c).expireRunOut c)).modCtx c (fun y => { y with boundaryPs := some s.clock })
    match x.pending with
    | none => t
    | some p =>
      let pairMoves := match p.pair with
        | some q => s.ctxs[q].st == .migrating && (s.ctxs[q].pending.bind (fun y => y.pair)) == some c
        | none => false
      let moving := pairMoves || (x.st == .migrating && !(x.waiting && !p.early && !p.entry.idle && p.entry.reach != x.reachOf))
      if x.fade.isSome || decide (s.clock ≤ p.at_) || moving then t else t.swap c p

/-- FRAME_BOUNDARY (R28). -/
def execFrameBoundary (dt : Nat) (c : Fin 256) (kind : BoundaryKind) (s : State) : Host.Outcome State Fault Refusal :=
  s.occurs dt State.serving (fun t => t.frameBoundary c kind)

/-- Output s0 + V_C + 63 has been formed (R171, R172). -/
def Ctx.fadeOver (x : Ctx) (now : Nat) : Bool := match x.fade with | some f => decide (f.endPs ≤ now) | none => false

/-- CROSS_FADE_END (R171): the spare becomes the context's slot, and the old slot is free. -/
def execCrossFadeEnd (dt : Nat) (c : Fin 256) (s : State) : Host.Outcome State Fault Refusal :=
  s.occurs dt (fun t => t.serving && t.ctxs[c].fadeOver t.clock) (fun t => t.modCtx c Ctx.endFade)

/-! ### FIRST_VALID_SAMPLE -/

/-- MIGRATED with its gap interval, and DISCONT in the first record of each type after it (R460): the gap runs from the last sample of the last
record sent to the first valid output formed. Of a context that has sent none, or whose samples were not taken in, the report itself gives the
time. -/
def State.migrated (s : State) (c : Fin 256) (start end_ : Nat) : State :=
  let r := s.ctxs[c].reachOf
  let g0 := (s.ctxs[c].sentEnds.head?.map (fun p => p.2)).getD start
  let g1 := (s.ctxs[c].firstAt.map s.stampAt).getD end_
  (s.modCtx c (fun x => { x with placed := false, discont := gapTypes, fm := { x.fm with pcmDiscont := true }
                                 dab := x.dab.lose, iqDiscont := true })).post 5 r.val c.val 0x30 1 (bytesOf 8 g0 ++ bytesOf 8 g1)

/-- The state that the first valid sample leads to (Table 5.5, R458). -/
def Ctx.afterValid (x : Ctx) : CtxSt :=
  if x.st == .acquire || x.st == .migrating then
    if x.active.req == 2 then .hold else if x.active.std == stdIq then .valid else .settling
  else if x.st == .settling && x.resettle then
    if x.locked then .valid else .hold
  else x.st

/-- The first valid sample of a context (R157). -/
def State.firstValid (s : State) (c : Fin 256) (g0 g1 : Nat) : State :=
  let x := s.ctxs[c]
  let t := if x.placed then s.migrated c g0 g1 else s
  let n := x.afterValid
  ((t.modCtx c (fun y => { y with invalid := false, resettle := false, paused := y.active.req == 2 })).toState c n)

/-- The context's chain runs: it is not IDLE, and its reach is up. -/
def State.chainRuns (s : State) (c : Fin 256) : Bool :=
  s.ctxs[c].st != .idle && (match s.ctxs[c].place with | some p => s.reachUp p.reach | none => false)

/-- FIRST_VALID_SAMPLE (R157): the outputs that R156 and R169 mark invalid have been formed. -/
def execFirstValidSample (dt : Nat) (c : Fin 256) (gapStart gapEnd : Nat) (s : State) : Host.Outcome State Fault Refusal :=
  s.occurs dt (fun t => t.chainRuns c && t.ctxs[c].invalid && decide (t.ctxs[c].validPs ≤ t.clock) &&
      !(t.ctxs[c].st == .migrating && !t.ctxs[c].placed))
    (fun t => t.firstValid c gapStart gapEnd)

end Sys2Proof.Machine
end

