-- ==== Sys2Proof/Machine/FrontEnd.lean ====
section
/-! DEFINITION. Chapter 03 and the reach-wide part of chapter 04: the reach AGC (R99 to R106), gain steps and the multiplier (R107, R108),
the spate detectors (R116), blanking (R118 to R122), overrange (R123, R124), tributaries (R129 to R133), clamps (R139) and synchronising
resets (R158 to R166). -/

namespace Sys2Proof.Machine

/-- The reach samples its feed: it is ready, or its ADC has settled in a bring-up, in a repair, or before an image says whether it is enabled
(R76, R105, R462). -/
def State.sampling (s : State) (r : Fin 4) : Bool :=
  s.serving && (s.reaches[r].st == .ready || (s.reaches[r].adc &&
    (s.reaches[r].st == .bringup || s.reaches[r].st == .failed || (s.reaches[r].st == .disabled && !s.image.accepted))))

/-! ### Gain states -/

/-- AGC modes of Table 3.5, with 0b11 treated as HOLD. -/
def Reach.auto (x : Reach) : Bool := bits x.live.agc 31 30 == 0
def Reach.manual (x : Reach) : Bool := bits x.live.agc 31 30 == 1

/-- Attenuation in force, 31 treated as 30 (Table 3.7). -/
def attnOf (a : BitVec 5) : Nat := min a.toNat 30

/-- G of an LNA step and an attenuation (R99). -/
def gainOf (lna : BitVec 2) (attn : BitVec 5) : Int := 12 * (lna.toNat : Int) - attnOf attn

/-- The LNA code and attenuation that realise a gain in AUTO and HOLD (R100, Table 3.2). -/
def realise (g : Int) : BitVec 2 × BitVec 5 :=
  if -6 ≤ g then (2, BitVec.ofInt 5 (24 - g)) else if -18 ≤ g then (1, BitVec.ofInt 5 (12 - g)) else (0, BitVec.ofInt 5 (-g))

/-- TB (R118): free within 140 ns to 160 ns (log entry 19). -/
def blankLatencyPs : Nat := 140000 + Config.blankLatency % 20001

/-- The tail of a reach, TAIL µs (Table 3.11). -/
def Reach.tailPs (x : Reach) : Nat := x.live.blankTail.toNat * 1000000

/-- An instant lies in an interval delayed by TB (R118). -/
def delayedIn (from_ to_ t : Nat) : Bool := decide (from_ + blankLatencyPs ≤ t ∧ t < to_ + blankLatencyPs)

/-- The reach-referred sample taken at clock `t` is blanked (R118). -/
def Reach.blanked (x : Reach) (t : Nat) : Bool :=
  x.blankLog.any (fun p => delayedIn p.1 p.2 t) ||
  (match x.blank with
    | .none => false
    | .on f => decide (f + blankLatencyPs ≤ t)
    | .tail f e => delayedIn f (e + x.tailPs) t)

/-! ### Gain steps (R107, R108) -/

/-- 10^((24 − G) / 20) with 9 fractional bits, to nearest. -/
def nominalMult (g : Int) : Nat := gainSearch 131072 (4 * (24 - g).toNat) 20 0 300000

/-- The multiplier M of a gain state: 18 bits with 9 fractional bits, with the corrections of the step table (R107; log entry 55). -/
def stepMult (t : StepTable) (lna : BitVec 2) (attn : BitVec 5) : Nat :=
  min (roundDiv ((nominalMult (gainOf lna attn) * t.lna.toList.getD lna.toNat 131072 * t.attn.toList.getD (attnOf attn) 131072 : Nat) : Int)
    (2 ^ 34)).toNat 262143

/-- G as it is once the step decided last is in force. -/
def Reach.decided (x : Reach) : Int := match x.step with | some q => q.gain | none => x.gain

/-- A gain step is decided: it takes effect at a step instant that the part chooses, at most 64 samples later (R108; log entry 20). One
decided before that instant takes effect at the same one. -/
def Reach.decideStep (x : Reach) (lna : BitVec 2) (attn : BitVec 5) (g : Int) (n now : Nat) : Reach :=
  { x with step := some { decidedPs := now, lna := lna, attn := attn, gain := g
                          atPs := match x.step with | some q => q.atPs | none => now + 320 * (Config.stepSamples n % 65) } }

/-- G is decided, with its realisation (R100). -/
def Reach.setGain (x : Reach) (g : Int) (n now : Nat) : Reach := x.decideStep (realise g).1 (realise g).2 g n now

/-- Blanking begins after an instant and not after another. -/
def Reach.blanksBetween (x : Reach) (a b : Nat) : Bool :=
  let hit := fun (f : Nat) => decide (a < f + blankLatencyPs ∧ f + blankLatencyPs ≤ b)
  x.blankLog.any (fun p => hit p.1) || (match x.blank with | .none => false | .on f => hit f | .tail f _ => hit f)

/-- The step decided last comes into force at its instant, unless blanking that the AGC honours has begun before it (Table 3.4). -/
def Reach.settle (x : Reach) (now : Nat) : Reach :=
  match x.step with
  | none => x
  | some q =>
    if now < q.atPs then x
    else if x.live.blankCtl.getLsbD 2 && x.blanksBetween q.decidedPs q.atPs then { x with step := none }
    else { x with step := none, lna := q.lna, attn := q.attn, gain := q.gain
                  events := x.events ++ [(q.atPs, .gain (stepMult x.stepTable q.lna q.attn))] }

/-- The AGC is frozen: HOLD mode, or blanking under R120. -/
def Reach.agcFrozen (x : Reach) (now : Nat) : Bool := (!x.auto && !x.manual) || (x.live.blankCtl.getLsbD 2 && x.blanked now)

/-! ### The gain law -/

/-- One AGC window, 65,536 samples of 320 ps (chapter 03, "The reach AGC"). -/
def agcWindowPs : Nat := 20971520

/-- The fields of Tables 3.5 and 3.6 in the units of the law. -/
def Reach.hi (x : Reach) : Int := bits x.live.agc 11 6
def Reach.target (x : Reach) : Int := bits x.live.agc 17 12
def Reach.lo (x : Reach) : Int := bits x.live.agc 23 18
/-- 0 treated as 1, 7 treated as 6. -/
def Reach.decayStep (x : Reach) : Int := max 1 (min 6 (bits x.live.agc 2 0 : Int))
def Reach.decayHoldPs (x : Reach) : Nat := max 1 (bits x.live.agcTime 15 8) * msPs
def Reach.decayPeriodPs (x : Reach) : Nat := max 1 (bits x.live.agcTime 7 0) * msPs

/-- ⌈p / 100⌉ of a level in 0.01 dB. -/
def ceilDb (p : Int) : Int := -((-p) / 100)

/-- The law of R101 on a peak in 0.01 dBFS; `burst` holds an increase back as R104 gives. That a due increase of 0 dB at G = +24 counts as
a rise for DECAY_PERIOD is the model's choice (log entry 56). -/
def Reach.law (x : Reach) (p : Int) (n now : Nat) (burst : Bool) : Reach :=
  if -100 * x.hi < p then
    { (x.setGain (max (x.decided - max 1 (ceilDb (p + 100 * x.target))) (-30)) n now) with quietPs := 0, deferred := none }
  else if p < -100 * x.lo then
    let q := x.quietPs + agcWindowPs
    let due := decide (x.decayHoldPs ≤ q) &&
      (match x.lastRisePs with | some t => decide (t + x.decayPeriodPs ≤ now) | none => true)
    let up := min x.decayStep ((-100 * x.target - p) / 100)
    if !due then { x with quietPs := q, deferred := none }
    else if burst then { x with quietPs := q, deferred := some up }
    else { (x.setGain (min (x.decided + up) 24) n now) with quietPs := q, lastRisePs := some now, deferred := none }
  else { x with quietPs := 0, deferred := none }

/-- The one-shot of R105. Of two integers equally near it takes the even one, the model's choice (log entry 57). A rise that it makes, or
that a MANUAL write makes, is not the last rise that DECAY_PERIOD counts from: the model's choice (log entry 74). -/
def Reach.shot (x : Reach) (p : Int) (n now : Nat) : Reach :=
  { (x.setGain (clamp (-30) 24 (roundDiv (-3000 - 100 * x.target - p) 100)) n now) with oneShot := false }

/-- What the end of a window does to a reach: LEVEL, then the one-shot or the law in AUTO (R101, R105), and the window's own
marks. The peak of a window in which MANUAL values were written is discarded (Table 3.4). That PEAK takes the nearest of its 0.5 dB steps, a
tie to the even one, is the model's choice (log entry 58). -/
def Reach.windowEnd (w : Reach) (p : Int) (mean n now : Nat) (burst : Bool) : Reach :=
  let x := w.settle now
  let y := { x with clipDone := false, ovrThis := false, discardPeak := false }
  if x.discardPeak then y
  else
    let z := { y with peak := BitVec.ofInt 8 (clamp 0 255 (roundDiv (-p) 50)), mean := BitVec.ofNat 8 (min mean 255) }
    if !x.auto || x.agcFrozen now then z
    else if x.oneShot then z.shot p n now
    else z.law p n now burst

/-- What tells the draws of step instants apart: the clock and the reach. -/
def State.stepDraw (s : State) (r : Fin 4) : Nat := 4 * s.clock + r.val

/-- AGC_WINDOW_END (R101): `peak` in 0.01 dBFS, `mean` in 0.5 dB below full scale (Table 3.8). -/
def execAgcWindowEnd (dt : Nat) (r : Fin 4) (peak : Int) (mean : Nat) (s : State) : Host.Outcome State Fault Refusal :=
  s.occurs dt (fun t => t.sampling r) (fun t => t.modReach r (fun x => x.windowEnd peak mean (t.stepDraw r) t.clock (t.burstIn r)))

/-- AGC_CLIP_REDUCTION (R103): an extreme code in a sample that is not blanked for the AGC. -/
def execAgcClipReduction (dt : Nat) (r : Fin 4) (s : State) : Host.Outcome State Fault Refusal :=
  s.occurs dt (fun t => t.sampling r && t.reaches[r].auto && !t.reaches[r].agcFrozen t.clock && !t.reaches[r].clipDone)
    (fun t => t.modReach r (fun w => let x := w.settle t.clock
      { (x.setGain (max (x.decided - 6) (-30)) (t.stepDraw r) t.clock) with clipDone := true }))

/-- An increase that waited for the end of a burst (R104). -/
def Reach.raiseDeferred (w : Reach) (n now : Nat) : Reach :=
  let x := w.settle now
  match x.deferred with
  | some up => { (x.setGain (min (x.decided + up) 24) n now) with lastRisePs := some now, deferred := none }
  | none => x

/-- AGC_DEFERRED_INCREASE (R104). -/
def execAgcDeferredIncrease (dt : Nat) (r : Fin 4) (s : State) : Host.Outcome State Fault Refusal :=
  s.occurs dt (fun t => t.sampling r && t.reaches[r].auto && !t.reaches[r].agcFrozen t.clock && !t.burstIn r)
    (fun t => t.modReach r (fun x => x.raiseDeferred (t.stepDraw r) t.clock))

/-! ### AGC registers -/

/-- Address of a reach register (Table 17.2). -/
def reachAddr (r : Fin 4) (off : Nat) : Addr := BitVec.ofNat 16 (0x400 + 0x100 * r.val + off)

/-- The AGC register comes into force, with what a change of MODE brings (R100, Table 3.4). -/
def Reach.loadAgc (w : Reach) (v : Word) (n now : Nat) : Reach :=
  let x := w.settle now
  let y := { x with live := { x.live with agc := v } }
  if bits x.live.agc 31 30 == bits v 31 30 then y
  else
    let z := { y with quietPs := 0, oneShot := false, deferred := none }
    if z.manual then z else z.setGain x.decided n now

/-- The AGC register is written: before the reach is ready the value waits (R79). -/
def Reach.writeAgc (x : Reach) (v : Word) (n now : Nat) : Reach :=
  let y := { x with regs := { x.regs with agc := v &&& 0xC0FFFFC7 } }
  if x.st == .ready then y.loadAgc y.regs.agc n now else y

/-- A write to REACH_x_AGC (R102). -/
def State.writeAgc (s : State) (r : Fin 4) (v : Word) : State :=
  if 1 ≤ bits v 11 6 ∧ bits v 11 6 < bits v 17 12 ∧ bits v 17 12 < bits v 23 18 ∧ bits v 23 18 ≤ 60 then
    s.modReach r (fun x => x.writeAgc v (s.stepDraw r) s.clock)
  else s.writeIgnored (reachAddr r 0x10)

/-- The LNA step and attenuation that a write to REACH_x_ATTN asks for; LNA 0b11 leaves LNA (Table 3.7). -/
def attnWrite (lna : BitVec 2) (v : Word) : BitVec 2 × BitVec 5 :=
  (if bits v 9 8 = 3 then lna else BitVec.ofNat 2 (bits v 9 8), BitVec.ofNat 5 (bits v 4 0))

/-- A write to REACH_x_ATTN (R106, R79): in MANUAL only; before the reach is ready the stored MODE counts, and the values wait for that
instant with it. A MANUAL increase during a burst applies as R106 gives, R104's delay notwithstanding: the model's choice (log entry 74). -/
def State.writeAttn (s : State) (r : Fin 4) (v : Word) : State :=
  s.modReach r (fun w =>
    let x := w.settle s.clock
    if bits x.regs.agc 31 30 ≠ 1 then x
    else if x.st == .ready then
      let q := attnWrite (match x.step with | some g => g.lna | none => x.lna) v
      { (x.decideStep q.1 q.2 (gainOf q.1 q.2) (s.stepDraw r) s.clock) with discardPeak := true }
    else { x with regs := { x.regs with attn := some (attnWrite (x.regs.attn.getD (x.lna, x.attn)).1 v) } })

/-- The written AGC, spate and blanking values come into force as the reach becomes ready (R79), and in MANUAL the stored step. -/
def Reach.loadRegs (x : Reach) (n now : Nat) : Reach :=
  let y := x.loadAgc x.regs.agc n now
  let q := y.regs.attn.getD (y.lna, y.attn)
  let z := { y with regs := { y.regs with attn := none }, live := { y.regs with attn := none } }
  if z.manual then { z with lna := q.1, attn := q.2, gain := gainOf q.1 q.2, step := none
                            events := z.events ++ [(now, .gain (stepMult z.stepTable q.1 q.2))] } else z

/-- A register access reaches the part: awake, and the part has the reach (R2). -/
def State.reachAccess (s : State) (r : Fin 4) : Bool := s.awake && s.reachExists r

/-- REACH_AGC_WRITE (R102). -/
def execReachAgcWrite (dt : Nat) (r : Fin 4) (value : Word) (s : State) : Host.Outcome State Fault Refusal :=
  s.occurs dt (fun t => t.reachAccess r) (fun t => t.writeAgc r value)

/-- REACH_ATTN_WRITE (R106). -/
def execReachAttnWrite (dt : Nat) (r : Fin 4) (value : Word) (s : State) : Host.Outcome State Fault Refusal :=
  s.occurs dt (fun t => t.reachAccess r) (fun t => t.writeAttn r value)

/-! ### The spate path (R116, R117) -/

/-- STEP in 0.5 dB, 0 dB treated as 1 dB, and the absolute level, 0.5 dB against the reference level (Table 3.10). -/
def Reach.spateStep (x : Reach) : Int := 2 * max 1 (bits x.live.spate 4 0 : Int)
def Reach.spateAbs (x : Reach) : Option Int := if bit x.live.spate 16 then some (-(bits x.live.spate 15 8 : Int)) else none

/-- Units of the average A in 0.5 dB. -/
def spateUnit : Int := 16777216

/-- A after a new E (R116): a time constant of 1 ms at one E in 5.12 ns; the first E sets it (log entry 59). -/
def spateAverage (a : Option Int) (e : Int) : Int :=
  match a with
  | none => e * spateUnit
  | some v => v + roundDiv ((e * spateUnit - v) * 512) 100000000

/-- E raises the flag (R116). -/
def Reach.spateRaises (x : Reach) (e a : Int) : Bool :=
  decide (a + x.spateStep * spateUnit < e * spateUnit) || (match x.spateAbs with | some t => decide (t < e) | none => false)

/-- E clears the flag (R116): STEP less 3 dB, at least 0.5 dB; the absolute level less 3 dB. -/
def Reach.spateClears (x : Reach) (e a : Int) : Bool :=
  decide (e * spateUnit ≤ a + max (x.spateStep - 6) 1 * spateUnit) && (match x.spateAbs with | some t => decide (e ≤ t - 6) | none => true)

/-- A run of levels E through a detector: flag, last level and average (R116), each E judged against the average with it. `hold` keeps the
flag clear (R119). -/
def Reach.spateRun (x : Reach) (hold : Bool) : List Int → Bool × Int × Option Int → Bool × Int × Option Int
  | [], d => d
  | e :: t, (flag, _, a) =>
    let b := spateAverage a e
    x.spateRun hold t (!hold && (if flag then !x.spateClears e b else x.spateRaises e b), e, some b)

/-- The flag is raised at some E of a run. -/
def Reach.spateEver (x : Reach) (hold : Bool) : List Int → Bool × Int × Option Int → Bool
  | [], d => d.1
  | e :: t, d => d.1 || x.spateEver hold t (x.spateRun hold [e] d)

/-- How many E of a run come after the last rise from below a level to it, none without such a rise (R315). -/
def riseAt (level : Int) : Int → List Int → Option Nat
  | _, [] => none
  | last, e :: t => (riseAt level e t).orElse (fun _ => if last < level ∧ level ≤ e then some t.length else none)

/-- The spate flag as the part shows it: clear in an honouring context while its samples are blanked (R119). -/
def State.spateShown (s : State) (c : Fin 256) : Bool :=
  s.ctxs[c].spateFlag && !(s.ctxs[c].active.honour && s.reaches[s.ctxs[c].reachOf].blanked s.clock)

/-- A detector delivers levels E in 0.5 dB (R116), one in 5.12 ns up to now. In a receiving EAB context a rise to 6 dB above the level at the
detection restarts the shadow correlator from there (R315); a blanked honouring context holds its flag clear (R119). -/
def State.spateDeliver (s : State) (d : SpateDet) (levels : List Int) : State :=
  match d with
  | .trib r n =>
    if !s.sampling r then s
    else s.modTrib r n (fun t =>
      let d := s.reaches[r].spateRun false levels (t.spateFlag, t.spateLevel, t.spateAvg)
      { t with spateFlag := d.1, spateLevel := d.2.1, spateAvg := d.2.2 })
  | .ctx c =>
    let x := s.ctxs[c]
    let r := x.reachOf
    if x.st == .idle || !s.sampling r then s
    else
      let hold := x.active.honour && s.reaches[r].blanked s.clock
      let d := s.reaches[r].spateRun hold levels (x.spateFlag, x.spateLevel, x.spateAvg)
      let ever := s.reaches[r].spateEver hold levels (x.spateFlag, x.spateLevel, x.spateAvg)
      let rise := if x.eab.receiving then riseAt (x.eab.spateAtDetect + 12) x.spateLevel levels else none
      s.modCtx c (fun y => { y with
        spateFlag := d.1, spateLevel := d.2.1, spateAvg := d.2.2
        eab := { y.eab with shadowRestart := (rise.map (fun n => s.stampAt (s.clock - 5120 * n))).orElse (fun _ => y.eab.shadowRestart)
                            spatePs := if ever && !d.1 then some s.clock else y.eab.spatePs } })

/-- The detectors are valid again 16 samples, 81.92 ns, after a synchronising reset (chapter 03, "The spate path"). -/
def State.spateValid (s : State) : Bool := s.since s.sync.lastEdge 81920

/-- SPATE_FLAG_RAISE (R117). -/
def execSpateFlagRaise (dt : Nat) (d : SpateDet) (levels : List Int) (s : State) : Host.Outcome State Fault Refusal :=
  s.occurs dt State.spateValid (fun t => t.spateDeliver d levels)

/-- SPATE_FLAG_CLEAR (R116). -/
def execSpateFlagClear (dt : Nat) (d : SpateDet) (levels : List Int) (s : State) : Host.Outcome State Fault Refusal :=
  s.occurs dt State.spateValid (fun t => t.spateDeliver d levels)

/-! ### Blanking (R118 to R122) -/

/-- A source that the reach selects is asserted (Table 3.11). -/
def State.blankSource (s : State) (r : Fin 4) : Bool :=
  (s.reaches[r].live.blankCtl.getLsbD 0 && s.pins.blankIn) || (s.reaches[r].live.blankCtl.getLsbD 1 && s.pins.blankOut)

/-- The interval of a reach after its sources change (R118, R122). An interval that is over stays known to the samples not yet taken in. -/
def Reach.blankStep (x : Reach) (source : Bool) (now : Nat) : Reach :=
  match x.blank, source with
  | .none, true => { x with blank := .on now, blankCount := x.blankCount + 1 }
  | .tail f t, true =>
    if now < t + x.tailPs then { x with blank := .on f }
    else { x with blank := .on now, blankCount := x.blankCount + 1, blankLog := x.blankLog ++ [(f, t + x.tailPs)] }
  | .on f, false => { x with blank := .tail f now }
  | _, _ => x

/-- Judge a reach's sources again. -/
def State.blankUpdate (s : State) (r : Fin 4) : State :=
  if !s.sampling r then s else s.modReach r (fun x => (x.settle s.clock).blankStep (s.blankSource r) s.clock)

/-- Judge every reach's sources. -/
def State.blankAll (s : State) : State := s.forEach allReaches (fun r t => t.blankUpdate r)

/-- BLANK_IN_ASSERT (R118). -/
def execBlankInAssert (dt : Nat) (s : State) : Host.Outcome State Fault Refusal :=
  s.occurs dt (fun _ => true) (fun t => ({ t with pins := { t.pins with blankIn := true } } : State).blankAll)

/-- BLANK_IN_RELEASE (R118). -/
def execBlankInRelease (dt : Nat) (s : State) : Host.Outcome State Fault Refusal :=
  s.occurs dt (fun _ => true) (fun t => ({ t with pins := { t.pins with blankIn := false } } : State).blankAll)

/-- The last blanked sample of an interval has passed: TAIL and the latency after the release (R118). -/
def Reach.blankOver (x : Reach) (now : Nat) : Bool :=
  match x.blank with
  | .tail _ t => decide (t + x.tailPs + blankLatencyPs ≤ now)
  | _ => false

/-- An interval ends: honouring contexts have held their spate flags clear up to here (R119). -/
def State.blankEnd (s : State) (r : Fin 4) : State :=
  let t := s.modReach r (fun x => match x.blank with
    | .tail f e => { x with blank := .none, blankLog := x.blankLog ++ [(f, e + x.tailPs)] }
    | _ => x)
  { t with ctxs := t.ctxs.map (fun x => if x.st != .idle && x.reachOf == r && x.active.honour then
      { x with spateFlag := false, eab := if x.spateFlag then { x.eab with spatePs := some s.clock } else x.eab } else x) }

/-- BLANKING_INTERVAL_END (R118). -/
def execBlankingIntervalEnd (dt : Nat) (r : Fin 4) (s : State) : Host.Outcome State Fault Refusal :=
  s.occurs dt (fun t => t.sampling r && t.reaches[r].blankOver t.clock) (fun t => t.blankEnd r)

/-- The AGC, spate and blanking registers of a reach are written: before it is ready the values wait (R79). A step whose instant has come
is judged by the value that stood then (Table 3.4). -/
def State.writeFront (s : State) (r : Fin 4) (f : FrontRegs → FrontRegs) : State :=
  (s.modReach r (fun w =>
    let x := w.settle s.clock
    { x with regs := f x.regs, live := if x.st == .ready then f x.live else x.live })).blankUpdate r

/-! ### Overrange and clamps -/

/-- An overrange sample (R123, R124): one count per window; at −30 dB, AT_MIN and at most one post per second. -/
def State.overrange (s : State) (r : Fin 4) : State :=
  let x := s.reaches[r].settle s.clock
  let low := x.gain == -30
  let t := s.modReach r (fun _ => { x with
    ovrWindows := if x.ovrThis then x.ovrWindows else x.ovrWindows.add 65535 s.clock
    ovrThis := true
    atMin := x.atMin.setIf low s.clock })
  if low && s.since x.ovrPostPs secPs then
    (t.modReach r (fun x => { x with ovrPostPs := some s.clock })).post (srcOf r) r.val 0xFFFF 0x72 3 []
  else t

/-- OVERRANGE_SAMPLE (R123). -/
def execOverrangeSample (dt : Nat) (r : Fin 4) (s : State) : Host.Outcome State Fault Refusal :=
  s.occurs dt (fun t => t.sampling r) (fun t => t.overrange r)

/-- SAMPLE_CLAMPED (R139): a clamp in samples that no ENGINE_ROUND brings (log entry 60). -/
def execSampleClamped (dt : Nat) (r : Fin 4) (s : State) : Host.Outcome State Fault Refusal :=
  s.occurs dt (fun t => t.sampling r) (fun t => t.countClamps r 1)

/-! ### Tributaries (R129 to R133) -/

/-- The entry of a commit of this FAB cycle that places its context on the tributary (Table 4.10). -/
def State.newOn (s : State) (r : Fin 4) (n : Fin 8) (c : Fin 256) : Option Pending :=
  s.ctxs[c].pending.filter (fun p => !p.entry.idle && p.entry.reach == r && p.entry.trib == n && p.at_ == s.clock)

/-- A context lies on the tributary: by its active or pending entry, a landing, a run-out or the old chain of a switch. A commit of the
same FAB cycle comes after the write (Table 4.10). -/
def State.tribInUse (s : State) (r : Fin 4) (n : Fin 8) : Bool :=
  let on := fun (e : Entry) => e.reach == r && e.trib == n
  allCtxs.any (fun c =>
    let x := s.ctxs[c]
    (x.st != .idle && on x.active) ||
    (match x.pending with | some p => !p.entry.idle && on p.entry && (s.newOn r n c).isNone | none => false) ||
    (match x.follow.landing with | some l => on l.entry | none => false) ||
    (match x.follow.runOut with | some o => on o.entry | none => false))

/-- A commit of this FAB cycle is checked against the tributary as it has been written (Table 4.10). -/
def State.checkAgain (s : State) (r : Fin 4) (n : Fin 8) (c : Fin 256) : State :=
  match s.newOn r n c with
  | none => s
  | some p =>
    let x := s.ctxs[c]
    match s.check { view := s.twinView, old := s.oldOf c, keepEngine := x.st != .idle && !goesAcquire x.active p.entry }
        (s.roomBut [c] [c]) (s.liveBut [c] []) c p.entry with
    | .refused k => s.endPending c k 1
    | .given g => s.modCtx c (fun y => { y with pending := some { p with place := g } })

/-- A write to REACH_x_TRIBn (R131 to R133): the chain of the tributary starts again at the first sample from now on. -/
def State.writeTrib (s : State) (r : Fin 4) (n : Fin 8) (v : Word) : State :=
  if !tribInRange v || s.tribInUse r n then s.writeIgnored (reachAddr r (0x40 + 4 * n.val))
  else ((s.modTrib r n (fun t => { t.restart with reg := v &&& 0xC01FFFFF, startPs := s.clock })).modReach r (fun x => { x with
    events := x.events ++ [(s.clock, .trib n)] })).forEach allCtxs (fun c t => t.checkAgain r n c)

/-- REACH_TRIB_WRITE (R133). -/
def execReachTribWrite (dt : Nat) (r : Fin 4) (n : Fin 8) (value : Word) (s : State) : Host.Outcome State Fault Refusal :=
  s.occurs dt (fun t => t.reachAccess r) (fun t => t.writeTrib r n value)

/-! ### Synchronising resets (R158 to R166) -/

/-- The period of a reference tick in ps (R159, Table 2.8); 0 with no nominal rate. -/
def State.tickPs (s : State) : Nat :=
  match s.refs.freq.toNat with
  | 1 => 100000
  | 2 => 40000
  | 3 => 8000
  | _ => 0

/-- The last reference tick not after an instant, and the first not before one (R159). -/
def State.tickBefore (s : State) (t : Nat) : Nat :=
  if s.tickPs = 0 then t else s.sync.tick0 + (t - s.sync.tick0) / s.tickPs * s.tickPs
def State.tickFrom (s : State) (t : Nat) : Nat :=
  if s.tickPs = 0 then t else s.sync.tick0 + (t - s.sync.tick0 + s.tickPs - 1) / s.tickPs * s.tickPs

/-- A request with its sync edge, merged into an earlier reset whose edge lies at most four ticks before (R161). -/
def State.syncRequest (s : State) (who edge : Nat) : State :=
  let near := fun (e : Nat) => decide (e ≤ edge ∧ edge ≤ e + 4 * s.tickPs)
  if s.sync.pending.any (fun p => near p.2) || (match s.sync.lastEdge with | some e => near e | none => false) then s
  else { s with sync := { s.sync with pending := s.sync.pending ++ [(who, edge)] } }

/-- A request by GO or QRP: the first tick at least 1 µs after its acceptance (R160). -/
def State.syncLater (s : State) (who : Nat) : State := s.syncRequest who (s.tickFrom (s.clock + 1000000))

/-- SYNC_N as found at consecutive reference ticks, the first at `tick` (R159): asserted after at least two ticks released, it requests a
reset at the fourth tick after it, while PIN_EN is 1 (R158). -/
def State.syncLevels (s : State) (tick : Nat) : List Bool → State
  | [] => s
  | b :: l =>
    let t := if b && decide (2 ≤ s.sync.released) && s.sync.pinEn then s.syncRequest 0 (tick + 4 * s.tickPs) else s
    State.syncLevels { t with sync := { t.sync with released := if b then 0 else min (t.sync.released + 1) 2 } } (tick + s.tickPs) l

/-- SYNC_N_ASSERT (R159): the levels found at the reference ticks up to the last one, true for asserted. -/
def execSyncNAssert (dt : Nat) (levels : List Bool) (s : State) : Host.Outcome State Fault Refusal :=
  s.occurs dt State.serving
    (fun t => t.syncLevels (t.tickBefore t.clock - (levels.length - 1) * t.tickPs) levels)

/-- GO of REACH_A_SYNC (R79, R160): discarded while no reach is ready. -/
def State.writeSyncGo (s : State) : State :=
  if allReaches.any s.reachUp then s.syncLater 1 else s.writeIgnored 0x434

/-- SYNC_GO (R160). -/
def execSyncGo (dt : Nat) (s : State) : Host.Outcome State Fault Refusal := s.occurs dt State.awake State.writeSyncGo

/-- What the reset sample does to a context (R156, R163, Tables 4.9 and 4.10): the first V outputs invalid, a fade ended, its I/Q block ended;
its state, estimates and sequence numbers stay (R164). -/
def State.syncCtx (s : State) (c : Fin 256) (edge : Nat) : State :=
  let e := s.ctxs[c].active
  let n := Chain.fresh e (s.tribOf e) edge
  (s.iqBreak c).modCtx c (fun x => { x.endFade with invalid := true, validPs := max x.validPs (edge + n.outputsPs n.v) })

/-- A reach at the reset sample, the first at or after the sync edge (R162 to R165). -/
def State.syncReach (s : State) (r : Fin 4) (edge : Nat) : State :=
  (s.modReach r (fun x => { x with syncCount := x.syncCount + 1, events := x.events ++ [(edge, .sync)]
                                   tribs := x.tribs.map (fun t => { t with startPs := edge }) })).forEach
    (allCtxs.filter (fun c => s.ctxs[c].st != .idle && s.ctxs[c].place.isSome && s.ctxs[c].reachOf == r)) (fun c t => t.syncCtx c edge)

/-- The earliest request, if its edge has come. -/
def State.syncDue (s : State) : Option (Nat × Nat) :=
  (s.sync.pending.foldl (fun (b : Option (Nat × Nat)) p => match b with
    | some q => if p.2 < q.2 then some p else some q
    | none => some p) none).filter (fun p => decide (p.2 ≤ s.clock))

/-- The reset of the running reaches and its post (R162, R165, R166). -/
def State.syncApply (s : State) : State :=
  s.withSome s.syncDue (fun p t =>
    let u := { t with sync := { t.sync with pending := t.sync.pending.erase p, lastEdge := some p.2 } }
    (u.forEach (allReaches.filter u.reachUp) (fun r t => t.syncReach r p.2)).post 0 0xFF 0xFFFF 4 0
      (bytesOf 8 (t.nowNs - (t.clock - p.2) / 1000) ++ bytesOf 1 p.1))

/-- SYNC_RESET_APPLY (R163): the sync edge of the earliest request. -/
def execSyncResetApply (dt : Nat) (s : State) : Host.Outcome State Fault Refusal := s.occurs dt State.serving State.syncApply

end Sys2Proof.Machine
end

