-- ==== Sys2Proof/Machine/Chain.lean ====
section
/-! DEFINITION. The data plane from ADC codes to the engines (R18, R200): a reach takes its codes in at their sampling instants (R107, R108,
R118, R123, R163), its tributaries and context chains form their outputs (R127 to R157, R168 to R172, R647), and an engine serves its
contexts in rounds: the context AGC (R181, R182), I/Q blocks (R522), and the watchdog (R201). -/

namespace Sys2Proof.Machine

/-! ### A reach takes in a code -/

/-- Sampling instant of the sample that the reach takes in next. -/
def Reach.instant (x : Reach) : Nat := x.gridPs + 320 * x.next

/-- What meets the reach at a sample: a new multiplier, a reset, a tributary written. -/
def Reach.meet (x : Reach) : FrontEvent → Reach
  | .gain m => { x with mult := m }
  | .sync => { x with tribs := x.tribs.map Trib.restart }
  | .trib n => { x with tribs := x.tribs.set n x.tribs[n].restart }

/-- What stands before the sample next to be taken in. -/
def Reach.meetAll (x : Reach) : Reach :=
  let l := x.events.filter (fun p => decide (p.1 ≤ x.instant))
  l.foldl (fun y p => y.meet p.2) { x with events := x.events.filter (fun p => decide (x.instant < p.1)) }

/-- The reset sample is the one next to be taken in (R162). -/
def Reach.atReset (x : Reach) : Bool := x.events.any (fun p => decide (p.1 ≤ x.instant) && p.2 == .sync)

/-- An extreme code (chapter 03, "Overrange"). -/
def extremeCode (code : Int) : Bool := decide (code ≤ -8192 ∨ 8191 ≤ code)

/-- The reach-referred sample of a code: code × M, convergently rounded, with its marks (R107, R118, R123). -/
def Reach.refer (x : Reach) (code : Int) : Sample :=
  { i := roundDiv (clamp (-8192) 8191 code * x.mult) 512, q := 0, marks := ⟨x.blanked x.instant, extremeCode code⟩, atPs := x.instant }

/-- One tributary takes the sample; answers the reach, the outputs so far and the clamps. -/
def Reach.runTrib (y : Sample) (r : Reach × List (Fin 8 × Sample) × Nat) (n : Fin 8) : Reach × List (Fin 8 × Sample) × Nat :=
  let t := r.1.tribs[n].take y
  ({ r.1 with tribs := r.1.tribs.set n t.1 }, r.2.1 ++ (t.2.1.map (fun o => (n, o))).toList, r.2.2 + t.2.2)

/-- The reach takes one code in: its tributaries' outputs, and the words clamped. -/
def Reach.takeCode (x : Reach) (code : Int) : Reach × List (Fin 8 × Sample) × Nat :=
  let y := x.meetAll
  let r := (List.finRange 8).foldl (Reach.runTrib (y.refer code)) (y, [], 0)
  ({ r.1 with next := x.next + 1 }, r.2)

/-! ### A context takes in a tributary sample -/

/-- The entry lies on a tributary of a reach. -/
def Entry.on (e : Entry) (r : Fin 4) (n : Fin 8) : Bool := e.reach == r && e.trib == n

/-- A change is met by a tributary sample (R647). -/
def ChainDue.met (d : ChainDue) (r : Fin 4) (n : Fin 8) (t : Nat) : Bool := decide (d.fromPs < t) && d.entry.on r n

/-- A chain that starts while its tributary still delivers the invalid outputs of a reset or a write marks V outputs (R156). -/
def Chain.startsOn (k : Chain) (y : Sample) : Chain := if y.invalid then { k with leftSync := max k.leftSync k.v } else k

/-- A change of the context's chain takes place at a tributary sample. A start on another tributary leaves the old chain to the samples
taken before (R647). -/
def Ctx.change (trib : Word) (y : Sample) (x : Ctx) (d : ChainDue) : Ctx :=
  match d.step, x.chain with
  | _, none => { x with chain := some ((Chain.fresh d.entry trib d.fromPs).startsOn y) }
  | .fade, some k =>
    let k := match x.mix with | some m => m.chain | none => k
    { x with chain := some k, mix := some { chain := k.beside d.entry trib d.fromPs } }
  | .retune, some k => { x with chain := some (k.changed d trib) }
  | .hard, some k => { x with chain := some (k.changed d trib), mix := none }
  | .restart, some k =>
    { x with chain := some ((k.changed d trib).startsOn y), mix := none
             ending := if k.entry.on d.entry.reach d.entry.trib then none else some (k, d.fromPs) }

/-- The changes that a sample meets, in order. -/
def Ctx.meetDue (x : Ctx) (r : Fin 4) (n : Fin 8) (trib : Word) (y : Sample) : Ctx :=
  { ((x.due.filter (fun d => d.met r n y.atPs)).foldl (Ctx.change trib y) x) with
    due := (x.due.reverse.takeWhile (fun d => !d.met r n y.atPs)).reverse }

/-- An output joins the context's buffer with its sample time (R153). -/
def Ctx.push (x : Ctx) (delay : Nat) (y : Sample) : Ctx :=
  { x with outs := x.outs ++ [{ y with atPs := y.atPs - delay }]
           firstAt := if x.placed && x.firstAt.isNone && !y.invalid then some (y.atPs - delay) else x.firstAt }

/-- A burst freezes the context's AGC (R182). -/
def Ctx.burst (x : Ctx) : Bool := x.active.std == stdEab && x.eab.receiving

/-- A burst freezes the Oxbow at a FIR output whose newest input was taken at `t`: one formed after the detection was signalled, and not
after the burst ended or was abandoned (R151). -/
def Ctx.burstAt (x : Ctx) (t : Nat) : Bool :=
  x.active.std == stdEab && ((x.eab.receiving && decide (x.eab.burstPs < t)) || x.eab.frozen.any (fun p => decide (p.1 < t ∧ t ≤ p.2)))

/-- The outputs of a fade (R171, R172), the two chains' taken in pairs of one instant: the old chain alone up to V_C, 64 mixed, then the new
one alone. -/
def Ctx.mixOut (x : Ctx) (k : Chain) (m : Mix) (a b : Option Sample) : Ctx × Nat :=
  match m.old ++ a.toList, m.new ++ b.toList with
  | o :: os, w :: ws =>
    let v := if m.outs < m.chain.vc then (o, 0) else fadeMix (m.outs - m.chain.vc) o w
    let y := x.push k.delayPs v.1
    (if m.chain.vc + 63 ≤ m.outs then ws.foldl (fun z q => z.push m.chain.delayPs q) { y with chain := some m.chain, mix := none }
     else { y with chain := some k, mix := some { m with outs := m.outs + 1, old := os, new := ws } }, v.2)
  | os, ws => ({ x with chain := some k, mix := some { m with old := os, new := ws } }, 0)

/-- After a switch, what the landing's chain forms from the switch instant on is the context's (R350). -/
def Ctx.ownOutput (x : Ctx) (k : Chain) (y : Sample) : Bool :=
  match x.follow.runOut with
  | some o => decide (o.switchPs ≤ y.atPs - k.delayPs)
  | none => true

/-- What it forms of before that instant only its engine takes. -/
def Ctx.pushEarly (x : Ctx) (delay : Nat) (y : Sample) : Ctx :=
  { x with follow := { x.follow with runOut := x.follow.runOut.map (fun o => { o with early := o.early ++ [{ y with atPs := y.atPs - delay }] }) } }

/-- A swap to another tributary has ended the context's use of this one before the sample was taken (R647). -/
def Ctx.leftBefore (x : Ctx) (r : Fin 4) (n : Fin 8) (t : Nat) : Bool := x.due.any (fun d => decide (d.fromPs < t) && !d.entry.on r n)

/-- The chain of the context takes a tributary sample; answers the clamps. -/
def Ctx.takeSample (x : Ctx) (r : Fin 4) (n : Fin 8) (y : Sample) : Ctx × Nat :=
  match x.chain with
  | none => (x, 0)
  | some k =>
    if !k.entry.on r n || decide (y.atPs ≤ k.fromPs) || x.leftBefore r n y.atPs then (x, 0)
    else
      let a := k.take (x.burstAt y.atPs) y
      match x.mix with
      | some m =>
        let b := m.chain.take (x.burstAt y.atPs) y
        let q := x.mixOut a.1 { m with chain := b.1 } a.2.1 b.2.1
        (q.1, a.2.2 + b.2.2 + q.2)
      | none =>
        let z := { x with chain := some a.1 }
        (match a.2.1 with | some o => if x.ownOutput k o then z.push k.delayPs o else z.pushEarly k.delayPs o | none => z, a.2.2)

/-- A chain beside the context's takes a sample of its tributary. -/
def Chain.beat (k : Chain) (r : Fin 4) (n : Fin 8) (y : Sample) : Chain × Option Sample × Nat :=
  if k.entry.on r n && decide (k.fromPs < y.atPs) then k.take false y else (k, none, 0)

/-- The landing's chain takes a sample; it sends nothing (R346). -/
def Ctx.feedLanding (x : Ctx) (r : Fin 4) (n : Fin 8) (y : Sample) : Ctx × Nat :=
  match x.follow.landing with
  | some l => match l.chain with
    | some k =>
      let a := k.beat r n y
      let new := (a.2.1.map (fun w => { w with atPs := w.atPs - k.delayPs })).toList
      ({ x with follow := { x.follow with landing := some { l with chain := some a.1, outs := l.outs ++ new } } }, a.2.2)
    | none => (x, 0)
  | none => (x, 0)

/-- An output of the old chain of a switch at clock `s` joins the buffer before those of the landing's chain (R350). -/
def Ctx.pushOld (x : Ctx) (s delay : Nat) (y : Sample) : Ctx :=
  let old := x.outs.takeWhile (fun q => decide (q.atPs < s))
  { x with outs := old ++ { y with atPs := y.atPs - delay } :: x.outs.drop old.length }

/-- The old chain of a switch takes a sample: its outputs before the switch instant are still the context's (R348, R350). A later one tells
that it has reached that instant, and goes to the old audio path only. -/
def Ctx.feedRunOut (x : Ctx) (r : Fin 4) (n : Fin 8) (y : Sample) : Ctx × Nat :=
  match x.follow.runOut with
  | some o => match o.chain with
    | some k =>
      let a := k.beat r n y
      let z := { x with follow := { x.follow with runOut := some { o with chain := some a.1 } } }
      (match a.2.1 with
        | some w =>
          if w.atPs - k.delayPs < o.switchPs then z.pushOld o.switchPs k.delayPs w
          else { z with gate := x.gate.map (fun g => { g with iqOpen := true })
                        follow := { x.follow with runOut := some { o with chain := some a.1, late := o.late ++ [{ w with atPs := w.atPs - k.delayPs }] } } }
        | none => z, a.2.2)
    | none => (x, 0)
  | none => (x, 0)

/-- The chain that a swap to another tributary has ended takes a sample from before the swap (R647). Its outputs count as output instants;
they reach neither the engine, whose state the swap cleared (R193), nor a record. -/
def Ctx.feedEnding (x : Ctx) (r : Fin 4) (n : Fin 8) (y : Sample) : Ctx × Nat :=
  match x.ending with
  | some (k, until_) =>
    if k.entry.on r n && decide (k.fromPs < y.atPs) then
      if until_ < y.atPs then ({ x with ending := none }, 0)
      else
        let a := k.take false y
        let z := { x with ending := some (a.1, until_) }
        (match a.2.1 with | some w => z.push k.delayPs { w with invalid := true } | none => z, a.2.2)
    else (x, 0)
  | none => (x, 0)

/-- A context takes a tributary sample in: the changes that the sample meets, then its chains. -/
def Ctx.feed (x : Ctx) (r : Fin 4) (n : Fin 8) (trib : Word) (y : Sample) : Ctx × Nat :=
  let a := (x.meetDue r n trib y).takeSample r n y
  let b := a.1.feedLanding r n y
  let c := b.1.feedRunOut r n y
  let d := c.1.feedEnding r n y
  (d.1, a.2 + b.2 + c.2 + d.2)

/-- A context's chains at the reset sample, taken at `t` (R163, Tables 4.9 and 4.10): changes that have come apply without a fade, a fade
ends with the new chain alone, and every chain starts again. -/
def Ctx.resetChains (x : Ctx) (r : Fin 4) (word : Fin 8 → Word) (t : Nat) : Ctx :=
  let on := fun (k : Chain) => k.entry.reach == r
  let here := (x.chain.map on).getD true
  let k0 := if here then (match x.mix with | some m => some m.chain | none => x.chain) else x.chain
  let now := x.due.filter (fun d => decide (d.fromPs < t) && d.entry.reach == r)
  let k1 := now.foldl (fun (k : Option Chain) d => match k with
    | some k => some (k.changed d (word d.entry.trib))
    | none => some (Chain.fresh d.entry (word d.entry.trib) d.fromPs)) k0
  let reset := fun (o : Option Chain) => o.map (fun k => if on k then k.resync else k)
  { x with
    chain := reset k1, mix := if here || !now.isEmpty then none else x.mix, due := x.due.filter (fun d => !now.contains d)
    ending := if !here && !now.isEmpty then x.chain.map (fun k => (k, now.foldl (fun a d => max a d.fromPs) 0))
      else x.ending.map (fun q => (if on q.1 then q.1.resync else q.1, q.2))
    follow := { x.follow with landing := x.follow.landing.map (fun l => { l with chain := reset l.chain })
                              runOut := x.follow.runOut.map (fun o => { o with chain := reset o.chain }) } }

/-! ### The part takes codes in -/

/-- The context has a chain, or one to come, on a tributary of the reach. -/
def Ctx.fedBy (x : Ctx) (r : Fin 4) : Bool :=
  (match x.chain with | some k => k.entry.reach == r | none => false) || x.due.any (fun d => d.entry.reach == r) ||
  (match x.ending with | some q => q.1.entry.reach == r | none => false) ||
  (match x.follow.landing with | some l => l.place.reach == r && l.chain.isSome | none => false) ||
  (match x.follow.runOut with | some o => o.place.reach == r && o.chain.isSome | none => false)

/-- A tributary's output reaches the contexts' chains. -/
def State.feedTrib (s : State) (r : Fin 4) (n : Fin 8) (y : Sample) : State :=
  s.forEach (allCtxs.filter (fun c => s.ctxs[c].fedBy r)) (fun c t =>
    let q := t.ctxs[c].feed r n t.reaches[r].tribs[n].reg y
    (t.modCtx c (fun _ => q.1)).countClamps r q.2)

/-- The reach's next code, once its sampling instant has come. -/
def State.feedCode (s : State) (r : Fin 4) (code : Int) : State :=
  let x := s.reaches[r].settle s.clock
  if s.clock < x.instant then s
  else
    let q := x.takeCode code
    let t := (s.modReach r (fun _ => q.1)).countClamps r q.2.2
    let u := if x.atReset then
        t.forEach (allCtxs.filter (fun c => t.ctxs[c].fedBy r)) (fun c u =>
          u.modCtx c (fun y => y.resetChains r (fun n => u.reaches[r].tribs[n].reg) x.instant))
      else t
    (u.when (extremeCode code) (fun u => u.overrange r)).forEach q.2.1 (fun p u => u.feedTrib r p.1 p.2)

/-- The codes of a reach's ADC that follow those taken in before. -/
def State.feed (s : State) (r : Fin 4) : List Int → State
  | [] => s.modReach r (fun x => { x with blankLog := x.blankLog.filter (fun p => decide (x.instant < p.2 + blankLatencyPs)) })
  | c :: l => (s.feedCode r c).feed r l

/-! ### The context AGC -/

/-- The demodulator input word (R181): v × 10^(g/80) / 256 for a gain of g steps of 0.25 dB, convergently rounded to 16 bits and
clamped. -/
def demodWord (g : Nat) (v : Int) : Int :=
  let k := gainSearch v.natAbs g 17 0 32769
  let tie := decide (k ≠ 0 ∧ (256 * (2 * k - 1)) ^ 80 = (2 * v.natAbs) ^ 80 * 10 ^ g)
  let m : Nat := if tie && k % 2 == 1 then k - 1 else k
  if v < 0 then max (-(m : Int)) (-32768) else min (m : Int) 32767

/-- The gain after a measurement window (R182): level and target in 0.25 dB below context full scale. -/
def cagcNext (mode : Nat) (fixed target mean : Int) (g : Int) : Int :=
  match mode with
  | 0 => fixed
  | 1 => if mean < target then max 0 (g - min (target - mean) 24) else min 384 (g + min (roundDiv (mean - target) 4) 4)
  | 2 => clamp 0 384 (g + clamp (-48) 48 (mean - target))
  | _ => g

/-- The mode in force: fast in every EAB context (R309). -/
def Entry.cagcNow (e : Entry) : Nat := if e.std == stdEab then 2 else e.cagcMode

/-- The holds of R182: invalid samples, blanked ones that the context honours, and a burst freeze. -/
def Ctx.agcHeld (x : Ctx) (blanked : Bool) : Bool := x.invalid || (blanked && x.active.honour) || x.burst

/-- Context AGC modes (Table 5.2): 0 fixed, 1 slow, 2 fast, 3 frozen. A window that meets a hold is discarded (R182). That a swap which does
not enter ACQUIRE keeps g_c even where it sets fixed gain or another CAGC_GAIN, until the next CONTEXT_AGC_WINDOW, is the model's choice
(log entry 76). -/
def State.cagcWindow (s : State) (c : Fin 256) (mean : Int) (held : Bool) : State :=
  let x := s.ctxs[c]
  let hold := held || x.agcHeld (s.reaches[x.reachOf].blanked s.clock)
  let moving := x.active.cagcNow == 1 || x.active.cagcNow == 2
  if moving && hold then s
  else s.modCtx c (fun y => { y with
    levels := if hold then y.levels else (s.clock, levelOf mean y.gain) :: y.levels.filter (fun p => decide (s.clock ≤ p.1 + 100 * msPs))
    gain := (cagcNext y.active.cagcNow (4 * y.active.cagcGain : Nat) (4 * y.active.cagcTarget : Nat) mean y.gain).toNat })

/-- CONTEXT_AGC_WINDOW (R182). -/
def execContextAgcWindow (dt : Nat) (c : Fin 256) (mean : Int) (held : Bool) (s : State) : Host.Outcome State Fault Refusal :=
  s.occurs dt (fun t => t.chainRuns c) (fun t => t.cagcWindow c mean held)

/-! ### A service round (R200) -/

/-- The demodulator's input word of an output (R181), as the audio path takes it; the phase of its loop is a free value (log entry 49). -/
def Ctx.audioIn (x : Ctx) (c : Fin 256) (y : Sample) (n : Nat) : AudioIn :=
  { i := demodWord x.gain y.i, q := demodWord x.gain y.q, ref := Config.loopPhase c.val (x.iqIndex.toNat + n), marks := y.marks, atPs := y.atPs }

/-- The context's frames are to be sent: PCM of an FM or AM context in VALID (R244, R245). -/
def Ctx.pcmOn (x : Ctx) : Bool := x.active.outPcm && !x.active.scout && x.st == .valid && selects x.active.std

/-- An output reaches the audio path of an FM or AM engine; an invalid one is dropped (R157). -/
def Ctx.hearWith (c : Fin 256) (x : Ctx) (keep : Bool) (p : Sample × Nat) : Ctx :=
  if !selects x.active.std then x else if p.1.invalid then x.deafen else x.hear keep (x.audioIn c p.1 p.2)

/-- The context with the engine of its old chain (R350). -/
def Ctx.asOld (x : Ctx) (o : RunOut) : Ctx := { x with active := o.entry, gain := o.gain, am := o.am, fm := o.fm }

/-- Frames join those not yet sent, in the order of their times. -/
def Ctx.putFrames (x : Ctx) (l : List PcmFrame) : Ctx :=
  match l with
  | [] => x
  | f :: _ =>
    let a := x.fm.audio.frames.takeWhile (fun g => decide (g.atPs < f.atPs))
    { x with fm := { x.fm with audio := { x.fm.audio with frames := a ++ l ++ x.fm.audio.frames.drop a.length } } }

/-- The frames that a step of an engine has formed beside those that stood before. -/
def Ctx.newFrames (x y : Ctx) : List PcmFrame := y.fm.audio.frames.drop x.fm.audio.frames.length

/-- Of what the context's own engine forms, frames of before the switch instant are not sent (R350, R361). -/
def Ctx.keepOwn (x y : Ctx) : Ctx :=
  match x.gate with
  | some g => ({ y with fm := { y.fm with audio := { y.fm.audio with frames := x.fm.audio.frames } } } : Ctx).putFrames
      ((x.newFrames y).filter (fun f => decide (g.pcmPs ≤ f.atPs)))
  | none => y

/-- An output reaches the audio path of the context's own engine. -/
def Ctx.hearOwn (c : Fin 256) (x : Ctx) (p : Sample × Nat) : Ctx := x.keepOwn (x.hearWith c x.pcmOn p)

/-- Of what the old engine of a switch forms, frames of before the switch instant are sent, and the first later one opens the way for the
landing's (R350). -/
def Ctx.keepOld (x : Ctx) (l : List PcmFrame) : Ctx :=
  match x.gate with
  | some g =>
    ({ x with gate := some { g with pcmOpen := g.pcmOpen || l.any (fun f => decide (g.pcmPs ≤ f.atPs)) } } : Ctx).putFrames
      (l.filter (fun f => decide (f.atPs < g.pcmPs)))
  | none => x

/-- An output of the old chain of a switch reaches its engine's audio path. -/
def Ctx.hearOld (c : Fin 256) (x : Ctx) (p : Sample × Nat) : Ctx :=
  match x.follow.runOut with
  | some o =>
    let a := x.asOld o
    let y := a.hearWith c x.pcmOn p
    ({ x with follow := { x.follow with runOut := some { o with fm := { y.fm with audio := { y.fm.audio with frames := [] } } } } } : Ctx).keepOld
      (a.newFrames y)
  | none => x

/-- An output of the context reaches the audio path; one from before the switch instant reaches that of the old chain (R350). -/
def Ctx.hearOut (c : Fin 256) (x : Ctx) (p : Sample × Nat) : Ctx :=
  match x.follow.runOut with
  | some o => if p.1.atPs < o.switchPs then x.hearOld c p else x.hearOwn c p
  | none => x.hearOwn c p

/-- What only one of the two engines of a switch takes: the landing's outputs of before the switch instant, and the old chain's of later
ones (R350). -/
def Ctx.hearAside (c : Fin 256) (x : Ctx) : Ctx :=
  match x.follow.runOut with
  | some o =>
    let y : Ctx := { x with follow := { x.follow with runOut := some { o with late := [], early := [] } } }
    o.late.zipIdx.foldl (Ctx.hearOld c) (o.early.zipIdx.foldl (Ctx.hearOwn c) y)
  | none => x

/-- The landing's engine takes its outputs: its audio path runs, and nothing is sent (R346); what it forms is kept for 1 s, for a switch
instant that has passed when the switch comes (R350). -/
def Ctx.hearLanding (c : Fin 256) (x : Ctx) (now : Nat) : Ctx :=
  match x.follow.landing with
  | some l =>
    let y : Ctx := { x with active := l.entry, fm := l.fm, am := l.am, gain := 4 * l.entry.cagcGain }
    let z := l.outs.zipIdx.foldl (fun y p => y.hearWith c x.active.outPcm p) y
    let recent := l.recent.filter (fun w => decide (now ≤ w.atPs + secPs)) ++ (if l.entry.outIq then l.outs else [])
    { x with follow := { x.follow with landing := some { l with
        outs := [], recent := recent, fm := { z.fm with audio := { z.fm.audio with frames := z.recentFrames now } } } } }
  | none => x

/-- Frames of before the switch instant of the member that a change of selection leaves go out with the new one's (R361). -/
def State.turnFrames (s : State) (c : Fin 256) : State :=
  s.withSome (s.turnTo c) (fun n t => t.withSome t.ctxs[n].gate (fun g u =>
    let l := u.ctxs[c].fm.audio.frames
    (u.modCtx n (fun y => y.keepOld l)).modCtx c (fun x =>
      { x with fm := { x.fm with audio := { x.fm.audio with frames := l.filter (fun f => decide (g.pcmPs ≤ f.atPs)) } } })))

/-- The samples of a burst being received mark its reception, whether or not their symbols come to be decided (R320, R325). -/
def State.markBurst (s : State) (c : Fin 256) (l : List Sample) : State :=
  let x := s.ctxs[c]
  if x.active.std != stdEab || !x.eab.receiving then s
  else
    let own := l.filter (fun y => decide (x.eab.rx.detectStamp ≤ s.stampAt y.atPs))
    s.modCtx c (fun x => { x with eab := { x.eab with rx := { x.eab.rx with
      marks := own.foldl (fun m y => orMarks m y.marks) x.eab.rx.marks
      erased := x.eab.rx.erased || own.any (fun y => y.invalid || x.erased || (y.marks.blanked && x.active.honour)) } } })

/-- Output samples that no engine processes are erased: their instants pass without one (R642, Table 12.3). -/
def State.eraseOuts (s : State) (c : Fin 256) : State :=
  let l := s.ctxs[c].outs.map (fun y => { y with invalid := true })
  (((s.modCtx c (fun x => { x with outs := [], demod := [] })).markBurst c l).forEach l (fun y t => t.iqServe c y)).iqDrain c

/-- A context whose engine state is lost without a valid snapshot (R642, Table 12.3). -/
def State.reacquire (s : State) (c : Fin 256) : State :=
  (s.toState c .acquire).modCtx c (fun x => { (x.acquireEngine true s.clock) with dab := ({} : Dab).select x.active.subs })

/-- Its engine restores the context's snapshot, or it enters ACQUIRE (R642, Table 12.3). -/
def State.restoreSnap (s : State) (c : Fin 256) : State :=
  match s.ctxs[c].snap with
  | some q => s.modCtx c (fun x => x.restore q)
  | none => s.reacquire c

/-- The round in which the engine restores a context's state is erased for it (Table 12.3). -/
def State.restoreRound (s : State) (c : Fin 256) : State :=
  ((s.eraseOuts c).modCtx c (fun x => { x with restoreDue := false })).restoreSnap c

/-- The engine takes a context's buffer: valid samples become the demodulator's input, and join I/Q blocks (R157, R181, R522). -/
def State.serveOuts (s : State) (c : Fin 256) : State :=
  let l := s.ctxs[c].outs
  let t := s.modCtx c (fun x => l.zipIdx.foldl (Ctx.hearOut c) { ((x.hearLanding c s.clock).hearAside c) with
    outs := [], demod := (l.filter (fun y => !y.invalid)).map (fun y => (demodWord x.gain y.i, demodWord x.gain y.q)) })
  (((t.markBurst c l).turnFrames c).forEach l (fun y u => u.iqServe c y)).iqDrain c

/-- The engine serves a context in its round; the round is erased for one whose state is restored in it or which has load units on an engine
that restarts (R642, Table 12.3). -/
def State.serveCtx (s : State) (c : Fin 256) : State :=
  if s.ctxs[c].restoreDue then s.restoreRound c else if s.ctxs[c].erased then s.eraseOuts c else s.serveOuts c

/-- Contexts in the order in which an engine serves them (R200). -/
def State.roundOrder (s : State) (l : List (Fin 256)) : List (Fin 256) :=
  (List.range 8).reverse.flatMap (fun k => l.filter (fun c => s.ctxs[c].active.priority == k))

/-- An engine runs: its reach is up and it is neither restarting nor halted for a lost page (R642, Table 12.3). -/
def State.engineUp (s : State) (e : Fin 8) : Bool :=
  s.reachUp (Fin.ofNat 4 (e.val / 2)) && !s.engines[e].restarting && !s.engines[e].lostPage

/-- The context lies on the engine and its chain runs. -/
def State.onEngine (s : State) (e : Fin 8) (c : Fin 256) : Bool :=
  s.chainRuns c && (match s.ctxs[c].place with | some p => engineOf p == e | none => false)

/-- The contexts of an engine with outputs to take. -/
def State.toServe (s : State) (e : Fin 8) : List (Fin 256) :=
  s.roundOrder (allCtxs.filter (fun c => s.onEngine e c && (!s.ctxs[c].outs.isEmpty || s.ctxs[c].restoreDue ||
    (match s.ctxs[c].follow.landing with | some l => !l.outs.isEmpty | none => false))))

/-- ENGINE_ROUND (R200): `codes` are the ADC codes of the engine's reach that follow those taken in before (log entry 60). -/
def State.round (s : State) (e : Fin 8) (codes : List Int) : State :=
  let t := s.feed (Fin.ofNat 4 (e.val / 2)) codes
  t.forEach (t.toServe e) (fun c u => u.serveCtx c)

/-- ENGINE_ROUND (R200). -/
def execEngineRound (dt : Nat) (e : Fin 8) (codes : List Int) (s : State) : Host.Outcome State Fault Refusal :=
  s.occurs dt (fun t => t.engineUp e) (fun t => t.round e codes)

/-- Contexts with load units on an engine (R642). -/
def State.unitsOn (s : State) (e : Fin 8) : List (Fin 256) :=
  allCtxs.filter (fun c => s.ctxs[c].st != .idle && s.ctxs[c].st != .migrating && (match s.ctxs[c].place with
    | some p => (enginesOfPlace p).contains e
    | none => false))

/-- The module that a page of the program store holds: modules lie one after another from the store's start (log entry 29). -/
def moduleAt : List (Nat × Nat) → Nat → Option Nat
  | [], _ => none
  | (id, n) :: t, off => if off < n then some id else moduleAt t (off - n)

/-- An engine needs a module: the runtime always, any other while a context on it uses it (Table 5.6). -/
def State.engineNeeds (s : State) (e : Fin 8) (m : Nat) : Bool :=
  m == 1 || (s.unitsOn e).any (fun c => s.ctxs[c].active.module == m)

/-- The module of a page; beside the modules lies the runtime. -/
def State.pageModule (s : State) (page : Nat) : Nat := (moduleAt s.image.modules (4096 * page)).getD 1

/-- The engine waits for a page that is being read again from flash (Table 12.3). -/
def State.pageWait (s : State) (e : Fin 8) : Bool := s.ecc.badPages.any (fun p => s.engineNeeds e (s.pageModule p))

/-- The watchdog events of the last 10 s, with a new one (R438). -/
def Warden.overran (w : Warden) (e : Fin 8) (now : Nat) : Warden :=
  { w with overruns := (e, now) :: w.overruns.filter (fun p => decide (now < p.2 + 10 * secPs)), wdog := e :: w.wdog.filter (· != e) }

/-- ENGINE_WATCHDOG (R201): counted, and reported to the reach's warden as evidence (R436, R438); an overrun while the engine waits for a
page is none (Table 12.3). -/
def State.watchdog (s : State) (e : Fin 8) : State :=
  (s.modEngine e (fun x => { x with wdog := x.wdog.add 255 s.clock })).when (!s.pageWait e) (fun t =>
    t.modWarden (Fin.ofNat 4 (e.val / 2)) (fun w => w.overran e s.clock))

/-- ENGINE_WATCHDOG (R201). -/
def execEngineWatchdog (dt : Nat) (e : Fin 8) (s : State) : Host.Outcome State Fault Refusal :=
  s.occurs dt (fun t => t.engineUp e) (fun t => t.watchdog e)

end Sys2Proof.Machine
end

