-- ==== Sys2Proof/Machine/Window.lean ====
section
/-! DEFINITION. The CTX window (R205, R206, R209, Tables 5.9 to 5.15). -/

namespace Sys2Proof.Machine

/-- A copy of the entry of context `c` (R205, R211): 1 the pending one, where a held image entry shows as pending; CTX_NUM is filled
in (Table 5.2). -/
def Ctx.copyOf (x : Ctx) (c : Fin 256) (copy : Nat) : Entry :=
  let e := if copy = 1 then
    match x.pending, x.held with
    | some p, _ => p.entry
    | none, some h => h
    | none, none => x.active
  else x.active
  e.set 0 (setBits e[0] 7 0 c.val)

/-- Load units committed to a context: none without a place. -/
def Ctx.loadHeld (x : Ctx) : Nat :=
  match x.place with
  | some p => if x.st == .idle then 0 else x.active.mainLoad + 20 * p.subs.length
  | none => 0

/-- Word of CTX_STATUS (Table 5.12). -/
def Ctx.statusWord (x : Ctx) : Word :=
  let held := if x.st == .idle then none else x.place
  fieldAt x.st.code 29 ||| flag x.fade.isSome 28 ||| flag (x.pending.isSome || x.held.isSome) 27 |||
    fieldAt (match held with | some p => p.engine.val | none => 3) 25 |||
    fieldAt (match held with | some p => p.slot | none => 0) 18 |||
    fieldAt (match held with | some p => p.slots | none => 0) 16 ||| fieldAt x.loadHeld 0

/-- A read of CTX_STATUS snapshots the selected context (R205, Tables 5.12 to 5.14). -/
def State.readCtxStatus (s : State) : State × Word :=
  let x := s.ctxs[s.window.ctx]
  ({ s with window := { s.window with spateFlag := s.spateShown s.window.ctx
                                      spateLevel := BitVec.ofInt 8 (clamp 0 255 (-x.spateLevel))
                                      seq := if x.released = 0 then 0 else BitVec.ofNat 32 (x.released - 1) } }, x.statusWord)

/-- CTX_STATUS_READ (R205). -/
def execCtxStatusRead (dt : Nat) (s : State) : Host.Outcome State Fault Refusal :=
  s.occurs dt State.awake (fun t => { t.readCtxStatus.1 with readData := [t.readCtxStatus.2] })

/-- BUSY of CTX_RESULT. -/
def State.windowBusy (s : State) : Bool := decide (s.clock < s.window.busyUntil)

/-- LOAD (R205). -/
def State.windowLoad (s : State) (pair : Bool) : State :=
  let w := s.window
  { s with window := { w with stage0 := s.ctxs[w.ctx].copyOf w.ctx w.copy.toNat
                              stage1 := if pair then s.ctxs[w.pairCtx].copyOf w.pairCtx w.copy.toNat else w.stage1 } }

/-- COMMIT (R206, Table 5.11). The check ends within the 20 µs of R188 (log entry 16). -/
def State.windowCommit (s : State) (via : Via) (pair : Bool) : State :=
  let w := s.window
  let res := if pair then s.commitPair (.window via) w.ctx w.pairCtx w.stage0 w.stage1 else s.commit (.window via) w.ctx w.stage0
  { res.1 with draws := res.1.draws + 1
               window := { res.1.window with
                 reason := res.2, resultCtx := w.ctx, count := w.count + 1
                 busyUntil := s.clock + (Config.checkCycles s.draws % 7812) * fabPs } }

/-- A write to CTX_CMD (Table 5.10): ignored and posted while BUSY (R209); LOAD is done first. -/
def State.writeCtxCmd (s : State) (via : Via) (v : Word) : State :=
  if s.windowBusy then s.writeIgnored 0x0804
  else (s.when (bit v 0) (fun t => t.windowLoad (bit v 2))).when (bit v 1) (fun t => t.windowCommit via (bit v 2))

/-- CTX_LOAD (R205). -/
def execCtxLoad (dt : Nat) (pair : Bool) (s : State) : Host.Outcome State Fault Refusal :=
  s.occurs dt State.awake (fun t => t.writeCtxCmd .twoWire (flag pair 2 ||| 1))

/-- CTX_COMMIT_WINDOW (R206). -/
def execCtxCommitWindow (dt : Nat) (pair load : Bool) (s : State) : Host.Outcome State Fault Refusal :=
  s.occurs dt State.awake (fun t => t.writeCtxCmd .twoWire (flag pair 2 ||| 2 ||| flag load 0))

end Sys2Proof.Machine
end

