-- ==== Sys2Proof/Machine/Rtc.lean ====
section
/-! DEFINITION. Chapter 16: the backup domain (R586 to R589), station time and calendar (R594 to R600), civil time (R601, R602),
rate trimming (R603 to R605) and time reports (R606). -/

namespace Sys2Proof.Machine

/-! ### Calendar (R594) -/

/-- Seconds from 2000-01-01 to the end of 2199. -/
def calendarSeconds : Nat := 6311433600

/-- Year after 2000, month and day of a day count from 2000-01-01, by the Gregorian calendar. -/
def calendarOf (days : Nat) : Nat × Nat × Nat :=
  let z := days + 730425
  let era := z / 146097
  let doe := z % 146097
  let yoe := (doe - doe / 1460 + doe / 36524 - doe / 146096) / 365
  let doy := doe - (365 * yoe + yoe / 4 - yoe / 100)
  let mp := (5 * doy + 2) / 153
  let day := doy - (153 * mp + 2) / 5 + 1
  let month := if mp < 10 then mp + 3 else mp - 9
  let year := yoe + era * 400 + (if month ≤ 2 then 1 else 0)
  (year - 2000, month, day)

/-- Words of RTC_TIME and RTC_DATE of a seconds count (Tables 16.8, 16.9); 2000-01-01 was a Saturday. -/
def timeWord (seconds : Nat) : Word :=
  let t := seconds % 86400
  fieldAt (t / 3600) 16 ||| fieldAt (t / 60 % 60) 8

def dateWord (seconds : Nat) : Word :=
  let d := seconds % calendarSeconds / 86400
  let c := calendarOf d
  fieldAt ((d + 5) % 7 + 1) 28 ||| fieldAt c.1 16 ||| fieldAt c.2.1 8 ||| fieldAt c.2.2 0

/-! ### Civil time -/

/-- Civil seconds less station seconds (chapter 16, "Civil time"). -/
def Rtc.civilShift (r : Rtc) : Int := 900 * signed 8 r.offset.toNat + (if r.summer then 3600 else 0)

/-- Civil seconds within the calendar's range. -/
def Rtc.civilSeconds (r : Rtc) : Nat := (((r.seconds : Int) + r.civilShift) % calendarSeconds).toNat

/-- Eight bytes of civil time in ns. -/
def civilBytes (ns : Nat) (shift : Int) : List Byte := bytesOf 8 (unsigned 64 ((ns : Int) + shift * 1000000000))

/-! ### Reading (R596) -/

/-- Word of RTC_SECONDS (Table 16.7). -/
def Rtc.secondsWord (r : Rtc) : Word :=
  flag r.timeLost 31 ||| fieldAt (r.fracPs * 32768 / secPs) 16 ||| fieldAt (r.seconds % 60) 0

/-- The snapshot of the six holding registers. -/
def Rtc.snapshot (r : Rtc) : Rtc :=
  { r with holding := [timeWord r.seconds, dateWord r.seconds, BitVec.ofNat 32 (r.seconds / 2 ^ 32), BitVec.ofNat 32 r.seconds,
                       timeWord r.civilSeconds, dateWord r.civilSeconds] }

/-- A read of RTC_SECONDS. -/
def State.readRtcSeconds (s : State) : State × Word := ({ s with rtc := s.rtc.snapshot }, s.rtc.secondsWord)

/-- RTC_SECONDS_READ (R596). -/
def execRtcSecondsRead (dt : Nat) (s : State) : Host.Outcome State Fault Refusal :=
  s.occurs dt State.awake (fun t => { t.readRtcSeconds.1 with readData := [t.readRtcSeconds.2] })

/-! ### Time reports (R606) -/

/-- SRC, 5 to 7 treated as 0 (Table 16.14). -/
def Rtc.src (r : Rtc) : Nat := if 5 ≤ bits r.ctrl 31 29 then 0 else bits r.ctrl 31 29
def Rtc.autosetOn (r : Rtc) : Bool := bit r.ctrl 28
def Rtc.mains60 (r : Rtc) : Bool := bit r.ctrl 27
def Rtc.ctx (r : Rtc) : Fin 256 := Fin.ofNat 256 (bits r.ctrl 23 16)
/-- WINDOW in ns: 0 treated as 1 minute, above 1,440 as 1,440. -/
def Rtc.windowNs (r : Rtc) : Nat := max 1 (min 1440 (bits r.ctrl 10 0)) * 60000000000

/-- Payload of a time report (Table 16.4). -/
def Rtc.report (r : Rtc) (event : Nat) (err : Option Int) (before after : List Byte) : List Byte :=
  bytesOf 1 event ++ bytesOf 1 (bits r.ctrl 31 29) ++ bytesOf 1 (r.timeLost.toNat + 2 * r.vbatLow.toNat + 4 * r.summer.toNat) ++
    [r.offset] ++ bytesOfInt16 r.trim ++ (match err with | some e => bytesOfInt16 e | none => bytesOf 2 0x8000) ++ before ++ after

/-- Send a report, or keep it until the part runs and is out of doze (Table 16.6). -/
def State.timeReport (s : State) (event : Nat) (err : Option Int) (before after : List Byte) : State :=
  let p := s.rtc.report event err before after
  if s.serving then s.emit 0x42 0xFFFF none s.nowNs p
  else { s with rtc := { s.rtc with reports := s.rtc.reports ++ [(s.nowNs, p)] } }

/-- Send the reports kept. -/
def State.sendReports (s : State) : State :=
  ({ s with rtc := { s.rtc with reports := [] } } : State).forEach s.rtc.reports (fun p t => t.emit 0x42 0xFFFF none p.1 p.2)

/-- When FAB first runs: TIME_LOST after a loss, POWER_RETURN after a switch-over (Table 16.5). -/
def State.firstReports (s : State) : State :=
  let t := s.when s.rtc.lostReport (fun t => ({ t with rtc := { t.rtc with lostReport := false } } : State).timeReport 3 none
    (bytesOf 8 0) (bytesOf 8 t.nowNs))
  t.withSome t.rtc.returned (fun p t => ({ t with rtc := { t.rtc with returned := none } } : State).timeReport 4 none
    (bytesOf 8 p.1) (bytesOf 8 p.2))

/-! ### The doze schedule (R88 to R91, R600) -/

/-- A minute of the day lies inside a window, which may run on into the next day (R91). -/
def insideWindow (l : List (Nat × Nat)) (minute : Nat) : Bool := l.any (fun w => decide ((minute + 1440 - w.1) % 1440 < w.2))

/-- Minute of the day of a station time in seconds. -/
def minuteOf (seconds : Nat) : Nat := seconds / 60 % 1440

/-- Station time lies inside a window of the schedule. -/
def State.inWindow (s : State) : Bool := insideWindow s.image.windows (minuteOf s.rtc.seconds)

/-- The schedule requests things: SCHEDULE_EN is 1, TIME_LOST is clear (R88), and the host has not left the window (R90). -/
def State.scheduleActs (s : State) : Bool := s.doze.scheduleEn && !s.rtc.timeLost && !s.doze.suppressed

/-- Doze entry is requested (R89). -/
def State.requestDoze (s : State) : State :=
  if s.doze.inDoze && !s.doze.exitRequested then s else { s with doze := { s.doze with requested := true } }

/-- Doze exit is requested (R89); an entry in progress completes first (Table 1.12). That an entry which only waits counts as one in progress,
so that it is still carried out, is the model's choice (log entry 61). -/
def State.requestExit (s : State) : State :=
  if s.doze.inDoze || s.doze.requested then { s with doze := { s.doze with exitRequested := true } } else s

/-- Entry at an instant of R91 at which station time lies inside a window. -/
def State.enterWindow (s : State) : State := if s.scheduleActs && s.inWindow then s.requestDoze else s

/-- A step into a window requests entry, and a step out of one exit (R600); `was` is whether time lay inside before. -/
def State.scheduleStep (s : State) (was : Bool) : State :=
  if s.inWindow then s.enterWindow else if was && s.scheduleActs then s.requestExit else s

/-! ### Trim windows (R603 to R605) -/

/-- A new window starts now, when a source is selected. -/
def State.newWindow (s : State) (state : Nat) : State :=
  { s with rtc := { s.rtc with winStartNs := s.nowNs, winState := if s.rtc.src = 0 then 0 else state
                               srcFirst := none, srcLast := none, srcCount := 0, mainsLast := none } }

/-- The running window is discarded, and the next one starts (Table 16.3, Table 16.6). -/
def State.discardWindow (s : State) : State :=
  if s.rtc.winState = 0 then s
  else (s.timeReport 6 none (bytesOf 8 s.rtc.winStartNs) (bytesOf 8 s.nowNs)).newWindow 2

/-- Two differences between station and source time, in thirds of 1 ns, are more than 0.5 s apart. -/
def jumped (a b : Nat × Nat) : Bool :=
  decide (1500000000 < (((3 * b.1 : Nat) : Int) - b.2 - (((3 * a.1 : Nat) : Int) - a.2)).natAbs)

/-- A source event: station time in ns and source time in thirds of 1 ns. A change of more than 0.5 s against the event before
discards the window. -/
def State.sourceEvent (s : State) (station source : Nat) : State :=
  if s.rtc.winState = 0 then s
  else if (match s.rtc.srcLast with | some a => jumped a (station, source) | none => false) then s.discardWindow
  else { s with rtc := { s.rtc with srcFirst := some (s.rtc.srcFirst.getD (station, source)), srcLast := some (station, source)
                                    srcCount := s.rtc.srcCount + 1 } }

/-- A CT item that context `c` confirms: CT time, and the station time of its minute edge (R599, R603). -/
def State.ctItem (s : State) (c : Fin 256) (ct edge : Nat) : State :=
  if s.rtc.ctx != c then s
  else
    let t := if s.rtc.autosetOn && s.rtc.timeLost && s.rtc.staged.isNone && s.rtc.autoset.isNone then
      { s with rtc := { s.rtc with autoset := some (ct, edge, s.clock) } } else s
    if s.rtc.src = 3 then t.sourceEvent edge (3 * ct) else t

/-- FIG 0/10 long form from a VALID context: its time and the start of its transmission frame (Table 16.3). -/
def State.dabTime (s : State) (c : Fin 256) (time frame : Nat) : State :=
  if s.rtc.src = 2 && s.rtc.ctx == c && s.isValid c then s.sourceEvent frame (3 * time) else s

/-- A crystal tick counted in FAB (Table 16.3): those of the second boundaries, with the FAB clock as the source's time. -/
def State.crystalTick (s : State) : State := if s.rtc.src = 1 then s.sourceEvent s.nowNs (3 * s.clock / 1000) else s

/-- Bounds of a mains cycle in ps: 45 to 55 Hz, or 54 to 66 Hz (Table 16.3); and its nominal length in thirds of 1 ns. -/
def mainsGood (sixty : Bool) (ps : Nat) : Bool :=
  if sixty then decide (secPs ≤ 66 * ps ∧ 54 * ps ≤ secPs) else decide (secPs ≤ 55 * ps ∧ 45 * ps ≤ secPs)
def mainsThirds (sixty : Bool) : Nat := if sixty then 50000000 else 60000000

/-- A rising edge of MAINS_IN (R603). -/
def State.mainsEdge (s : State) : State :=
  if s.rtc.src ≠ 4 || s.rtc.winState = 0 then s
  else
    let bad := match s.rtc.mainsLast with | some t => !mainsGood s.rtc.mains60 (s.clock - t) | none => false
    let t := if bad then s.discardWindow else s
    let source := match t.rtc.srcLast with | some p => p.2 + mainsThirds t.rtc.mains60 | none => 0
    let u := t.sourceEvent t.nowNs source
    { u with rtc := { u.rtc with mainsLast := some u.clock } }

/-- MAINS_IN_EDGE (R603). -/
def execMainsInEdge (dt : Nat) (s : State) : Host.Outcome State Fault Refusal := s.occurs dt State.awake State.mainsEdge

/-- e in 1/64 ppm (R603), convergently rounded. -/
def trimError (dS dR : Nat) : Int := roundDiv (((dS : Int) - dR) * 64000000) dR

/-- The RTC_TRIM payload (R605). -/
def trimRecord (trim : Int) (src endNs : Nat) (e : Int) : List Byte :=
  bytesOfInt16 trim ++ bytesOf 1 src ++ [0] ++ bytesOf 8 endNs ++ bytesOfInt16 e ++ [0, 0]

/-- A window ends (R603, R604): its elapsed times are those between the first and the last source event. The event's own times count for REFCLK
alone, and only where the window holds fewer than two crystal ticks of its own. Without a reference there is no trim against it (R66). -/
def State.windowEnd (s : State) (deltaS deltaR events : Nat) : State :=
  let m : Nat × Nat × Nat := if s.rtc.src = 1 && decide (s.rtc.srcCount < 2) then (3 * deltaS, 3 * deltaR, max events 2)
    else match s.rtc.srcFirst, s.rtc.srcLast with
      | some a, some b => (3 * (b.1 - a.1), b.2 - a.2, s.rtc.srcCount)
      | _, _ => (0, 0, 0)
  if m.2.2 < 2 || 2 * m.2.1 < 3 * s.rtc.windowNs || m.2.1 = 0 || (s.rtc.src = 1 && s.refs.noRef) then s.discardWindow
  else
    let e := clamp (-32767) 32767 (trimError m.1 m.2.1)
    let trim := clamp (-32768) 32767 (s.rtc.trim - e)
    let t : State := { s with rtc := { s.rtc with trim := trim, lastErr := BitVec.ofInt 16 e, trimEndNs := s.nowNs } }
    let u := (t.timeReport 5 (some e) (bytesOf 8 s.rtc.winStartNs) (bytesOf 8 s.nowNs)).newWindow 3
    (u.journalRequest ⟨.append 4 4 0 (trimRecord trim s.rtc.src s.nowNs e), false⟩).1

/-- RTC_TRIM_WINDOW_END (R604): the window has run WINDOW minutes. -/
def execRtcTrimWindowEnd (dt : Nat) (deltaS deltaR : Nat) (events : Nat) (s : State) : Host.Outcome State Fault Refusal :=
  s.occurs dt (fun t => t.awake && t.rtc.winState != 0 && decide (t.rtc.winStartNs + t.rtc.windowNs ≤ t.nowNs))
    (fun t => t.windowEnd deltaS deltaR events)

/-- A host write of TRIM applies at once and restarts the window (R604). -/
def State.writeTrim (s : State) (v : BitVec 16) : State :=
  let t : State := { s with rtc := { s.rtc with trim := signed 16 v.toNat } }
  (t.timeReport 9 none (bytesOf 8 0) (bytesOf 8 t.nowNs)).newWindow 1

/-- RTC_TRIM_WRITE (R604). -/
def execRtcTrimWrite (dt : Nat) (value : BitVec 16) (s : State) : Host.Outcome State Fault Refusal :=
  s.occurs dt State.awake (fun t => t.writeTrim value)

/-- A write of RTC_TRIM_CTRL: another source starts another window (log entry 21). -/
def State.writeTrimCtrl (s : State) (v : Word) : State :=
  let t : State := { s with rtc := { s.rtc with ctrl := v &&& 0xF8FF07FF } }
  if t.rtc.src = s.rtc.src && t.rtc.mains60 == s.rtc.mains60 && t.rtc.ctx == s.rtc.ctx then t else t.newWindow 1

/-! ### Setting (R597 to R602) -/

/-- COMMIT of the value in RTC_SET_HI and RTC_SET_LO (R597, R598). -/
def State.rtcCommit (s : State) : State :=
  let v := s.rtc.setHi.toNat * 2 ^ 32 + s.rtc.setLo.toNat
  if calendarSeconds ≤ v then s.writeIgnored 0x1434 else { s with rtc := { s.rtc with staged := some (v, s.clock) } }

/-- RTC_COMMIT (R597). -/
def execRtcCommit (dt : Nat) (s : State) : Host.Outcome State Fault Refusal := s.occurs dt State.awake State.rtcCommit

/-- CANCEL (R597): what it discards is kept for a boundary in the same FAB cycle (Table 16.6). -/
def State.rtcCancel (s : State) : State :=
  { s with rtc := { s.rtc with staged := none, cancelled := s.rtc.staged.map (fun p => (p.1, p.2, s.clock)) } }

/-- The staged write that a boundary meets: one that CANCEL discarded in the boundary's own FAB cycle too (Table 16.6). -/
def State.stagedNow (s : State) : Option (Nat × Nat) :=
  match s.rtc.staged, s.rtc.cancelled with
  | some p, _ => some p
  | none, some (v, at_, t) => if t = s.clock then some (v, at_) else none
  | none, none => none

/-- RTC_CANCEL (R597). -/
def execRtcCancel (dt : Nat) (s : State) : Host.Outcome State Fault Refusal := s.occurs dt State.awake State.rtcCancel

/-- A write of RTC_CIVIL_CTRL's step bits (R602): both together, or a step that leaves SUMMER, are ignored. -/
def State.civilStep (s : State) (up down : Bool) : State :=
  if up == down || s.rtc.summer == up then s else { s with rtc := { s.rtc with summerNext := some up } }

/-- RTC_STEP_UP (R602). -/
def execRtcStepUp (dt : Nat) (s : State) : Host.Outcome State Fault Refusal := s.occurs dt State.awake (fun t => t.civilStep true false)

/-- RTC_STEP_DOWN (R602). -/
def execRtcStepDown (dt : Nat) (s : State) : Host.Outcome State Fault Refusal := s.occurs dt State.awake (fun t => t.civilStep false true)

/-- A write of OFFSET (R601). -/
def State.writeOffset (s : State) (v : BitVec 8) : State :=
  let i := signed 8 v.toNat
  if -56 ≤ i ∧ i ≤ 56 then { s with rtc := { s.rtc with offsetNext := some v } } else s.writeIgnored 0x141C

/-- RTC_OFFSET_WRITE (R601). -/
def execRtcOffsetWrite (dt : Nat) (value : BitVec 8) (s : State) : Host.Outcome State Fault Refusal :=
  s.occurs dt State.awake (fun t => t.writeOffset value)

/-! ### The second boundary -/

/-- At least 1 ms before the boundary (R597, R599). -/
def State.boundaryDue (s : State) (at_ : Nat) : Bool := decide (at_ + msPs ≤ s.clock)

/-- A step of station time with its report (R595, R600); the running window is discarded and the next one starts at the step. -/
def State.stepTime (s : State) (event seconds fracPs : Nat) : State :=
  let before := s.nowNs
  let t : State := { s with rtc := { s.rtc with seconds := seconds, fracPs := fracPs, timeLost := false, staged := none, cancelled := none, autoset := none } }
  (t.timeReport event none (bytesOf 8 before) (bytesOf 8 t.nowNs)).discardWindow.scheduleStep s.inWindow

/-- Autoset (R599): CT time plus the time elapsed since the minute edge. -/
def State.autosetStep (s : State) (a : Nat × Nat × Nat) : State :=
  let n := a.1 + (s.nowNs - a.2.1)
  s.stepTime 2 (n / 1000000000) (n % 1000000000 * 1000)

/-- The staged write or the autoset of a boundary (R597, R599, Table 16.6). -/
def State.boundarySteps (s : State) : State :=
  match s.stagedNow, s.rtc.autoset with
  | some (v, at_), _ => if s.boundaryDue at_ then s.stepTime 1 v 0 else s
  | none, some a =>
    if !(s.rtc.autosetOn && s.rtc.timeLost) then { s with rtc := { s.rtc with autoset := none } }
    else if s.boundaryDue a.2.2 then s.autosetStep a else s
  | none, none => s

/-- Civil changes of a boundary (R601, R602); `before` is the station time just before it. -/
def State.civilChanges (s : State) (before : Nat) : State :=
  let old := s.rtc
  let t : State := { s with rtc := { s.rtc with offset := s.rtc.offsetNext.getD s.rtc.offset, summer := s.rtc.summerNext.getD s.rtc.summer
                                                offsetNext := none, summerNext := none } }
  if t.rtc.civilShift = old.civilShift && t.rtc.offset == old.offset && t.rtc.summer == old.summer then t
  else t.timeReport 7 none (civilBytes before old.civilShift) (civilBytes t.nowNs t.rtc.civilShift)

/-- The wrap of the calendar (R594). -/
def State.calendarWrap (s : State) : State :=
  if s.rtc.seconds % calendarSeconds = 0 && s.rtc.seconds ≠ 0 then
    ({ s with rtc := { s.rtc with calWrap := s.rtc.calWrap.set s.clock } } : State).timeReport 8 none (bytesOf 8 0) (bytesOf 8 s.nowNs)
  else s

/-- A second boundary (R594, R597 to R602). -/
def State.secondBoundary (s : State) : State :=
  let t : State := { s with rtc := { s.rtc with seconds := (s.rtc.seconds + 1) % 2 ^ 40, fracPs := 0 } }
  ((t.calendarWrap.boundarySteps).civilChanges t.nowNs).crystalTick

/-- RTC_SECOND_BOUNDARY (R597). The backup domain counts in every state of the part. -/
def execRtcSecondBoundary (dt : Nat) (s : State) : Host.Outcome State Fault Refusal := s.occurs dt (fun _ => true) State.secondBoundary

/-! ### The backup domain's supply (R586 to R589) -/

/-- The switch-over to VBAT (R586, R587). -/
def State.toVbat (s : State) : State :=
  { s with rtc := { s.rtc with
      onVbat := true, lastSwitchNs := s.nowNs
      swValid := s.rtc.swValid.set s.clock
      swStamp := if s.rtc.swValid.on then s.rtc.swStamp else s.rtc.seconds
      swCount := if s.rtc.swValid.on then min (s.rtc.swCount + 1) 255 else s.rtc.swCount } }

/-- RTC_SWITCH_TO_VBAT (R586): VDD_A18 below 1.55 V while VBAT is at least 1.5 V. -/
def execRtcSwitchToVbat (dt : Nat) (a18 vbat : Nat) (s : State) : Host.Outcome State Fault Refusal :=
  s.occurs dt (fun t => !t.rtc.onVbat && decide (a18 < 1550 ∧ 1500 ≤ vbat)) State.toVbat

/-- The domain returns to VDD_A18 (R586): above 1.65 V for 1 ms, or at once when VBAT falls below 1.5 V. -/
def returnsToMain (a18 vbat aboveUs : Nat) : Bool := decide ((1650 < a18 ∧ 1000 ≤ aboveUs) ∨ (1500 ≤ a18 ∧ vbat < 1500))

/-- RTC_RETURN_TO_MAIN (R586). -/
def execRtcReturnToMain (dt : Nat) (a18 vbat aboveUs : Nat) (s : State) : Host.Outcome State Fault Refusal :=
  s.occurs dt (fun t => t.rtc.onVbat && returnsToMain a18 vbat aboveUs)
    (fun t => { t with rtc := { t.rtc with onVbat := false, returned := some (t.rtc.lastSwitchNs, t.nowNs) } })

/-- The domain restarts without its content (R588). -/
def State.domainRestart (s : State) (oscillator : Bool) : State :=
  ({ s with rtc := { s.rtc with
      seconds := 0, fracPs := 0, timeLost := true, oscStopped := oscillator, calWrap := {}, summer := false, offset := 0
      trim := 0, trimEndNs := 0, swValid := {}, swStamp := 0, swCount := 0, lastSwitchNs := 0, lostReport := true
      offsetNext := none, summerNext := none, autoset := none } } : State).discardWindow

/-- What an outage does (R588): 2 ms or more lose the content, less than 1.8 ms of missing supply keep it, and between these
either may happen (log entry 11). An oscillator that stops for less than 2 ms loses nothing. -/
def State.domainOutage (s : State) (oscillator : Bool) (us : Nat) : State :=
  if 2000 ≤ us then s.domainRestart oscillator
  else if oscillator || us < 1800 then s
  else
    let t := { s with draws := s.draws + 1 }
    if Config.domainSurvives s.draws then t else t.domainRestart false

/-- RTC_DOMAIN_LOST (R588). -/
def execRtcDomainLost (dt : Nat) (oscillator : Bool) (outageUs : Nat) (s : State) : Host.Outcome State Fault Refusal :=
  s.occurs dt (fun _ => true) (fun t => t.domainOutage oscillator outageUs)

/-- VBAT_MEASURE (R589): at power-up and every hour after it. -/
def execVbatMeasure (dt : Nat) (millivolts : Nat) (s : State) : Host.Outcome State Fault Refusal :=
  s.occurs dt (fun t => !t.still.frozen && t.since t.rtc.vbatPs (3600 * secPs))
    (fun t => { t with rtc := { t.rtc with vbatLow := decide (millivolts < 1800), vbatPs := some t.clock } })

end Sys2Proof.Machine
end

