-- ==== Sys2Proof/Machine/FmAm.lean ====
section
/-! DEFINITION. Chapter 06: FM and AM lock, stereo, RDS synchronisation, groups, items, and PCM records. -/

namespace Sys2Proof.Machine

/-- The context's engines serve it as standard `std`: it has valid samples, its chain runs, and each engine with load units of it does
(R157, R642). -/
def State.engineServes (s : State) (c : Fin 256) (std : Nat) : Bool :=
  let x := s.ctxs[c]
  s.chainRuns c && x.active.std == std && !x.invalid && (x.st == .settling || x.st == .valid || x.st == .hold) &&
    (match x.place with | some p => (enginesOfPlace p).all s.engineUp | none => false)

def State.modFm (s : State) (c : Fin 256) (f : Fm → Fm) : State := s.modCtx c (fun x => { x with fm := f x.fm })
def State.modAm (s : State) (c : Fin 256) (f : Am → Am) : State := s.modCtx c (fun x => { x with am := f x.am })

/-- Judge what a change of the engine's lock means for the context's state (R192). -/
def State.judgeLock (s : State) (c : Fin 256) (was : Bool) : State :=
  if s.ctxs[c].locked && !was then s.lockGained c
  else if !s.ctxs[c].locked && was then s.lockLost c
  else s

/-- Change the FM state and judge its lock. -/
def State.fmStep (s : State) (c : Fin 256) (f : Fm → Fm) : State := (s.modFm c f).judgeLock c s.ctxs[c].locked

/-- Microseconds in ps. -/
def usPs : Nat := 1000000

/-- A measurement over `us` µs to now, of at least `least` µs, of valid samples only. -/
def State.measured (s : State) (c : Fin 256) (us least : Nat) : Bool :=
  decide (least ≤ us) && decide (s.ctxs[c].validPs + us * usPs ≤ s.clock)

/-- The carrier-to-noise ratio stayed at or above LOCK_CNR for `least` µs: `lowest` in 0.5 dB over the last `us` µs (R221, R228). -/
def State.cnrHeld (s : State) (c : Fin 256) (lowest us least : Nat) : Bool :=
  decide (s.ctxs[c].active.lockCnr ≤ lowest) && s.measured c us least

/-- The ratio stayed below LOCK_CNR − 3 dB for `least` µs: `highest` over the last `us` µs. -/
def State.cnrFailed (s : State) (c : Fin 256) (highest us least : Nat) : Bool :=
  decide (highest + 6 < s.ctxs[c].active.lockCnr) && s.measured c us least

/-! ### FM lock and stereo (R221 to R224) -/

/-- Carrier lock is gained: mono locks (R222), auto opens its pilot decision window (R223), or takes the decision that a snapshot
has brought (R458). A lock lost by the PI rule stays lost (R225). -/
def Fm.carrierGained (f : Fm) (auto : Bool) (cnr now : Nat) : Fm :=
  let g := { f with carrierLock := true, sincePs := now, cnr := cnr, rampPs := none }
  if auto && f.pilotKnown then { g with lock := !f.piLost }
  else { g with pilotWindow := auto, pilotKnown := false, stereo := false, lock := !auto && !f.piLost }

/-- FM_CARRIER_LOCK (R221). -/
def execFmCarrierLock (dt : Nat) (c : Fin 256) (lowest overUs : Nat) (s : State) : Host.Outcome State Fault Refusal :=
  s.occurs dt (fun t => t.engineServes c stdFm && !t.ctxs[c].fm.carrierLock && t.cnrHeld c lowest overUs 8000)
    (fun t => t.fmStep c (fun f => f.carrierGained t.ctxs[c].active.stereoAuto lowest t.clock))

/-- Carrier lock is lost: FM lock and block synchronisation go with it (R221, R223, R230), and a pilot window is abandoned. -/
def Fm.carrierLost (f : Fm) (cnr : Nat) : Fm :=
  { f.loseRds with carrierLock := false, cnr := cnr, pilotWindow := false, pilotKnown := false, lock := false, rampPs := none }

/-- FM_CARRIER_LOCK_LOST (R221). -/
def execFmCarrierLockLost (dt : Nat) (c : Fin 256) (highest overUs : Nat) (s : State) : Host.Outcome State Fault Refusal :=
  s.occurs dt (fun t => t.engineServes c stdFm && t.ctxs[c].fm.carrierLock && t.cnrFailed c highest overUs 50000)
    (fun t => t.fmStep c (fun f => f.carrierLost highest))

/-- The end of the 150 ms pilot decision window (R223). -/
def Fm.pilotDecided (f : Fm) (pilot : Bool) : Fm :=
  { f with pilotWindow := false, pilotKnown := true, stereo := pilot, rampPs := none, lock := !f.piLost }

/-- The pilot is present: its loop locked for the last 50 ms, with at least 3.75 kHz deviation (R223). -/
def pilotPresent (lockedUs deviation : Nat) : Bool := decide (50000 ≤ lockedUs ∧ 3750 ≤ deviation)

/-- FM_PILOT_DECISION (R223): at the window's end, how long the pilot loop has been locked, and the pilot's deviation in Hz. -/
def execFmPilotDecision (dt : Nat) (c : Fin 256) (lockedUs deviation : Nat) (s : State) : Host.Outcome State Fault Refusal :=
  s.occurs dt (fun t => t.engineServes c stdFm && t.ctxs[c].fm.pilotWindow && decide (t.ctxs[c].fm.sincePs + 150 * msPs ≤ t.clock))
    (fun t => t.fmStep c (fun f => f.pilotDecided (pilotPresent lockedUs deviation)))

/-- Stereo follows the pilot in a VALID auto context, once it is decided (R223, R224). -/
def State.followsPilot (s : State) (c : Fin 256) : Bool :=
  s.engineServes c stdFm && s.isValid c && s.ctxs[c].active.stereoAuto && s.ctxs[c].fm.pilotKnown

/-- Stereo or mono from now on: the weight reaches its law within 20 ms (R224). -/
def Fm.turnStereo (f : Fm) (b : Bool) (now : Nat) : Fm := { f with stereo := b, rampPs := some now }

/-- FM_STEREO_TO_MONO (R224): the pilot loop has been unlocked for 20 ms. -/
def execFmStereoToMono (dt : Nat) (c : Fin 256) (unlockedUs : Nat) (s : State) : Host.Outcome State Fault Refusal :=
  s.occurs dt (fun t => t.followsPilot c && t.ctxs[c].fm.stereo && decide (20000 ≤ unlockedUs)) (fun t => t.modFm c (fun f => f.turnStereo false t.clock))

/-- FM_MONO_TO_STEREO (R224): the loop has been locked again for 100 ms. -/
def execFmMonoToStereo (dt : Nat) (c : Fin 256) (lockedUs : Nat) (s : State) : Host.Outcome State Fault Refusal :=
  s.occurs dt (fun t => t.followsPilot c && !t.ctxs[c].fm.stereo && decide (100000 ≤ lockedUs)) (fun t => t.modFm c (fun f => f.turnStereo true t.clock))

/-! ### AM (R228) -/

/-- The condition for AM lock: the ratio for 20 ms, or with DETECT synchronous the carrier loop locked for 20 ms. -/
def State.amGains (s : State) (c : Fin 256) (lowest us : Nat) : Bool :=
  if s.ctxs[c].active.detect = 1 then s.ctxs[c].am.loopLocked && decide (s.ctxs[c].am.loopPs + 20 * msPs ≤ s.clock)
  else s.cnrHeld c lowest us 20000

/-- The condition for its loss: the ratio for 100 ms, or the loop unlocked for 100 ms. -/
def State.amLoses (s : State) (c : Fin 256) (highest us : Nat) : Bool :=
  if s.ctxs[c].active.detect = 1 then !s.ctxs[c].am.loopLocked && decide (s.ctxs[c].am.loopPs + 100 * msPs ≤ s.clock)
  else s.cnrFailed c highest us 100000

/-- AM_LOCK_GAINED (R228): the engine starts on the detector whose condition holds (Table 6.13). -/
def execAmLockGained (dt : Nat) (c : Fin 256) (lowest overUs : Nat) (s : State) : Host.Outcome State Fault Refusal :=
  s.occurs dt (fun t => t.engineServes c stdAm && !t.ctxs[c].am.lock && t.amGains c lowest overUs)
    (fun t => ((t.modAm c (fun a => { a with lock := true, blendPs := none, syncDet := syncInUse t.ctxs[c].active.detect a.loopLocked })).modFm c
      (fun f => { f with cnr := lowest })).judgeLock c false)

/-- AM_LOCK_LOST (R228): a running blend stops (Table 6.13). -/
def execAmLockLost (dt : Nat) (c : Fin 256) (highest overUs : Nat) (s : State) : Host.Outcome State Fault Refusal :=
  s.occurs dt (fun t => t.engineServes c stdAm && t.ctxs[c].am.lock && t.amLoses c highest overUs)
    (fun t => (t.modAm c (fun a => { a with lock := false, blendPs := none })).judgeLock c true)

/-- The carrier loop locks or unlocks; it pulls in within ±200 Hz (R227). With lock, the detector in use follows it (R228). -/
def Am.loop (a : Am) (detect : Nat) (locked : Bool) (offset : Int) (now : Nat) : Am :=
  let on := locked && decide (offset.natAbs ≤ 200)
  let b := if on == a.loopLocked then a else { a with loopLocked := on, loopPs := now }
  if b.lock then b.use (syncInUse detect on) now else b

/-- AM_DETECTOR_SWITCH (R228): the carrier loop locks or unlocks, with the carrier's offset from CENTRE in Hz. -/
def execAmDetectorSwitch (dt : Nat) (c : Fin 256) (loopLocked : Bool) (offset : Int) (s : State) : Host.Outcome State Fault Refusal :=
  s.occurs dt (fun t => t.engineServes c stdAm) (fun t => t.modAm c (fun a => a.loop t.ctxs[c].active.detect loopLocked offset t.clock))

/-! ### RDS blocks (R230, R231) -/

/-- RDS_BLOCK (R231): the bits recovered up to the end of a block, decoded while RDS_EN is 1 and carrier lock holds (R230). -/
def execRdsBlock (dt : Nat) (c : Fin 256) (bits : List Bool) (stamp : Nat) (marks : Marks) (s : State) : Host.Outcome State Fault Refusal :=
  s.occurs dt (fun t => t.engineServes c stdFm && t.ctxs[c].active.rdsEn && t.ctxs[c].fm.carrierLock)
    (fun t => t.fmStep c (fun f => f.bits t.ctxs[c].active bits stamp marks))

/-! ### RDS groups (R232 to R240) -/

/-- A confirmed item: kept in the side-data table, and sent in VALID or kept for VALID with its group's timestamp (R238, R240). -/
def State.confirmItem (s : State) (c : Fin 256) (i : RdsItem) : State :=
  let f := s.ctxs[c].fm
  let w : Waiting := { stamp := f.groupStamp, pi := f.pi, item := i, marks := f.groupMarks }
  let t := s.modFm c (fun f => { f with items := i :: f.items.filter (fun j => itemKey j != itemKey i) })
  if t.isValid c then t.sendItem c w.stamp w.pi i w.marks
  else if f.waiting.any (fun q => q.item == i) then t
  else t.modFm c (fun f => { f with waiting := f.waiting.filter (fun q => itemKey q.item != itemKey i) ++ [w] })

/-- Every item of the context but CT is cleared, with the ODA map and the items being built (R239, Table 6.13). -/
def Fm.clearItems (f : Fm) : Fm :=
  { f with items := f.items.filter (fun i => i.code == 5), sentItems := f.sentItems.filter (fun i => i.code == 5), work := {}
           waiting := f.waiting.filter (fun q => q.item.code == 5), oda := [] }

/-- PI of a group: confirmed when two consecutive groups carry it (R237), a group with an unreadable block A passed over, the model's choice
(log entry 67). A change of the confirmed PI clears the items (R239). -/
def State.groupPi (s : State) (c : Fin 256) : State :=
  let f := s.ctxs[c].fm
  if !f.clean [0] then s
  else
    let pi := f.info 0
    let t := s.modFm c (fun f => { f with piLast := some pi })
    if f.piLast != some pi then t
    else
      let u := t.when (f.items.any (fun i => i.code == 1) && f.pi != pi) (fun t => t.modFm c Fm.clearItems)
      (u.modFm c (fun f => { f with pi := pi })).confirmItem c ⟨1, bytesOf 2 pi.toNat⟩

/-- The ODA map after a type 3A group (R233). -/
def Fm.takeOda (f : Fm) : Fm := if f.is3A then { f with oda := odaEnter f.oda f.odaAid f.odaCode } else f

/-- The group record (R235, R236, R241, R242), sent while the context is VALID. -/
def State.groupRecord (s : State) (c : Fin 256) (level : Int) (cnr : Nat) : State :=
  let x := s.ctxs[c]
  let aid := x.fm.aidOf x.fm.code
  if s.isValid c && x.active.outRec && !x.active.scout && x.fm.filterPasses x.active aid then
    s.twinRecord c x.reachOf { typ := 0x01, stamp := x.fm.groupStamp, spanEnd := x.fm.groupStamp + groupNs
                               payload := x.fm.groupPayload aid level cnr
                               marks := ⟨x.fm.groupMarks.blanked && x.active.honour, x.fm.groupMarks.overrange⟩ }
  else s

/-- An AF item reaches the sequencer (R327, Table 9.1). -/
def State.sideItem (s : State) (c : Fin 256) (i : RdsItem) : State :=
  if i.code == 6 then s.sideList c (afCarriers s.ctxs[c].fm.pi (itemFreqs (i.value.drop 4))) else s

/-- A CT item reaches the RTC with its minute edge, the end of the group of 104 bits (R599, R603). -/
def State.ctEdge (s : State) (c : Fin 256) (f : Fm) : State := if f.isCt then s.ctItem c f.ctNs (f.groupStamp + groupNs) else s

/-- What a group confirms (R233, R237 to R240). -/
def State.groupItems (s : State) (c : Fin 256) : State :=
  let t := s.groupPi c
  let q := t.ctxs[c].fm.confirms (t.ctxs[c].active.centre / 10000)
  (t.modFm c (fun f => { f.takeOda with work := q.1 })).forEach q.2 (fun i u => (u.confirmItem c i).sideItem c i)

/-- A completed group: items and the ODA map first, then its record, which the new map routes; MMBS groups give no items
(R243). -/
def State.groupComplete (s : State) (c : Fin 256) (level : Int) (cnr : Nat) : State :=
  let f := s.ctxs[c].fm
  let t := if f.mmbs then s else (s.groupItems c).ctEdge c f
  (t.groupRecord c level cnr).modFm c (fun f => { f with group := [], cnr := cnr })

/-- RDS_GROUP_COMPLETE (R236): `level` in 0.1 dB against the reference level, `cnr` in 0.5 dB, over the group. -/
def execRdsGroupComplete (dt : Nat) (c : Fin 256) (level : Int) (cnr : Nat) (s : State) : Host.Outcome State Fault Refusal :=
  s.occurs dt (fun t => t.engineServes c stdFm && t.ctxs[c].fm.rdsSync && t.ctxs[c].fm.group.length == 4)
    (fun t => t.groupComplete c level cnr)

/-! ### PCM (R226, R244 to R246) -/

/-- The demodulator's input since the last record, with the carrier-to-noise ratio over it, and a record once its frames are full. -/
def State.pcm (s : State) (c : Fin 256) (audio : List AudioIn) (cnr : Nat) : State :=
  let t := (s.modCtx c (fun x => audio.foldl (fun x a => x.keepOwn (x.hear true a)) { x with fm := { x.fm with cnr := cnr } })).turnFrames c
  if (pcmFormat t.ctxs[c].active.pcmMode).1 ≤ (t.ctxs[c].framesOut t.clock).length then t.pcmSend c else t

/-- PCM_RECORD (R244). -/
def execPcmRecord (dt : Nat) (c : Fin 256) (audio : List AudioIn) (cnr : Nat) (s : State) : Host.Outcome State Fault Refusal :=
  s.occurs dt (fun t => (t.engineServes c stdFm || t.engineServes c stdAm) && t.ctxs[c].pcmOn) (fun t => t.pcm c audio cnr)

end Sys2Proof.Machine
end

