-- ==== Sys2Proof/Machine/Dab.lean ====
section
/-! DEFINITION. Chapter 07: DAB frame synchronisation and lock, the FIC, the time de-interleaver, subchannels, superframes, packets, PAD
and reconfigurations. -/

namespace Sys2Proof.Machine

def State.modDab (s : State) (c : Fin 256) (f : Dab → Dab) : State := s.modCtx c (fun x => { x with dab := f x.dab })

/-- Change the DAB state and judge its lock. -/
def State.dabStep (s : State) (c : Fin 256) (f : Dab → Dab) : State := (s.modDab c f).judgeLock c s.ctxs[c].locked

/-- Frame synchronisation: the time de-interleaver begins empty (R266). -/
def Dab.synced (d : Dab) : Dab :=
  { d with sync := true, frameGood := 0, badFrames := 0, lines := [], stored := 0, inFrame := 0, frameStamp := none }

/-- The null symbol found is one by which synchronisation is declared: 96 ms from the one before (R256), or, after a migration, at an instant
that the frame timing of the snapshot predicts, `apartMs` then being counted from that (R458). -/
def Dab.nullFits (d : Dab) (apartMs : Nat) : Bool :=
  apartMs == 96 || (d.frameStamp.isSome && apartMs % 96 == 0)

/-- DAB_FRAME_SYNC (R256): two null symbols 96 ms apart, each followed by a PRS that correlates (`prs`), with a carrier offset within
±10 kHz of CENTRE (R251). -/
def execDabFrameSync (dt : Nat) (c : Fin 256) (apartMs : Nat) (prs : Bool) (offset : Int) (s : State) : Host.Outcome State Fault Refusal :=
  s.occurs dt (fun t => t.engineServes c stdDab && !t.ctxs[c].dab.sync && t.ctxs[c].dab.nullFits apartMs && prs && decide (offset.natAbs ≤ 10000))
    (fun t => t.dabStep c Dab.synced)

/-- DAB_FRAME_SYNC_LOST (R256): transmission frames in a row without a correlating PRS. -/
def execDabFrameSyncLost (dt : Nat) (c : Fin 256) (missed : Nat) (s : State) : Host.Outcome State Fault Refusal :=
  s.occurs dt (fun t => t.engineServes c stdDab && t.ctxs[c].dab.sync && decide (3 ≤ missed)) (fun t => t.dabStep c Dab.syncLost)

/-! ### Lock (R257, R258) -/

/-- One FIG 0/0's EId against SERVICE_ID (R258): a lock held is lost at the second wrong one in a row, and regained at the second right one. -/
def Dab.checkEid (d : Dab) (service eid : Nat) : Dab :=
  let e := { d with eid := some eid }
  if service % 65536 = 0 then e
  else if eid = service % 65536 then
    let f := { e with eidBad := 0, eidGood := d.eidGood + 1 }
    if f.eidLost && 2 ≤ f.eidGood && f.sync then { f with eidLost := false, lock := true } else f
  else
    let f := { e with eidGood := 0, eidBad := d.eidBad + 1 }
    if 2 ≤ f.eidBad && f.lock then { f with eidLost := true, lock := false } else f

/-- Lock is gained (R257): synchronisation, 6 good FIBs of the frame, and the expected EId. -/
def Dab.gain (d : Dab) (service : Nat) : Dab :=
  if d.sync && !d.eidLost && 6 ≤ d.frameGood && (service % 65536 = 0 || d.eid == some (service % 65536)) then { d with lock := true } else d

/-- The end of a transmission frame: ten in a row without a good FIB lose lock (R257). -/
def Dab.endFrame (d : Dab) : Dab :=
  let n := if d.frameGood = 0 then d.badFrames + 1 else 0
  { d with badFrames := n, frameGood := 0, lock := d.lock && decide (n < 10) }

/-! ### The FIC (R262 to R265) -/

/-- Entries replace those of their subchannels. -/
def mergeOrgs (old new : List SubOrg) : List SubOrg := old.filter (fun o => !(new.any (fun n => n.sub == o.sub))) ++ new
def mergeClasses (old new : List (Fin 64 × SubClass)) : List (Fin 64 × SubClass) :=
  old.filter (fun o => !(new.any (fun n => n.1 == o.1))) ++ new

/-- FIG 0/0 of the FIB of index `k`: the EId check, the CIF count, and a signalled reconfiguration (R258, R275). -/
def Dab.useFig00 (d : Dab) (service : Nat) (k : Fin 12) (g : Nat × Nat × Option Nat) : Dab :=
  let e := d.checkEid service g.1
  { e with frameCif := some ((g.2.1 % 5000 + 5000 - k.val / 3) % 5000)
           occurrence := g.2.2.orElse (fun _ => e.occurrence)
           reached := if g.2.2.isSome && g.2.2 != e.occurrence then false else e.reached
           passed := if g.2.2.isSome && g.2.2 != e.occurrence then false else e.passed }

/-- A FIB of index `k` belongs to the occurrence CIF of a reconfiguration that waits (R275). -/
def Dab.occursAt (d : Dab) (k : Fin 12) : Bool :=
  match d.occurrence, d.frameCif with
  | some o, some n => (n + k.val / 3) % 5000 % 250 == o
  | _, _ => false

/-- The occurrence CIF's FIBs have come: the organisation that FIGs now call the current one is the one that waits (R276). -/
def Dab.pass (d : Dab) (k : Fin 12) : Dab := { d with passed := d.passed || d.reached || d.occursAt k }

/-- FIG 0/1 of the current or the next configuration. The next one is complete once an entry of it comes again (log entry 68). -/
def Dab.useFig01 (d : Dab) (next : Bool) (l : List SubOrg) : Dab :=
  if next then { d with newComplete := d.newComplete || l.any (fun o => d.newOrgs.contains o), newOrgs := mergeOrgs d.newOrgs l }
  else { d with orgs := mergeOrgs d.orgs l }

/-- FIGs 0/2 and 0/3: the class of a subchannel (R268). -/
def Dab.useClasses (d : Dab) (next : Bool) (l : List (Fin 64 × SubClass)) : Dab :=
  if next then { d with newClasses := mergeClasses d.newClasses l } else { d with classes := mergeClasses d.classes l }

/-- What one FIG of a FIB that passes its CRC changes in the engine (R264, Table 7.4). -/
def Dab.useFig (service : Nat) (k : Fin 12) (d : Dab) (fig : List Byte) : Dab :=
  match fig0 1 fig, fig0 2 fig, fig0 3 fig, fig00 fig with
  | some (p, l), _, _, _ => if p.2.1 then d else d.useFig01 (p.1 || d.passed) (fig01 10 l)
  | _, some (p, l), _, _ => if p.2.1 then d else d.useClasses (p.1 || d.passed) (fig02 p.2.2 10 l)
  | _, _, some (p, l), _ => if p.2.1 then d else d.useClasses (p.1 || d.passed) (fig03 10 l)
  | _, _, _, some g => d.useFig00 service k g
  | _, _, _, _ => d

/-- One FIB: of one that fails its CRC nothing is used, and it is counted (R262). -/
def Dab.useFib (service : Nat) (d : Dab) (f : Fib) : Dab :=
  if fibOk f then { ((fibFigs f).foldl (Dab.useFig service f.index) (d.pass f.index)) with frameGood := d.frameGood + 1 }
  else { d with fibFail := min (d.fibFail + 1) 65535 }

/-- A transmission frame begins (R259): CIF counts go on by four (modulo 5,000). Its PRS returns a lock that a medium retune has interrupted
(Table 7.9). -/
def Dab.newFrame (d : Dab) (stamp : Nat) : Dab :=
  if d.frameStamp == some stamp then d
  else { d with frameStamp := some stamp, inFrame := 0, frameCif := if d.frameStamp.isSome then d.frameCif.map (fun n => (n + 4) % 5000) else d.frameCif
                lock := d.lock || d.relock, relock := false }

/-- The FIBs of a CIF, and at the last one of the frame the count of frames without a good FIB (R257, R262). -/
def Dab.useFic (d : Dab) (service : Nat) (fibs : List Fib) (stamp : Nat) : Dab :=
  let e := (fibs.foldl (Dab.useFib service) (d.newFrame stamp)).gain service
  if fibs.any (fun f => f.index == 11) then e.endFrame else e

/-- Undefined profiles of selected subchannels (R265): one post per change of the entry. -/
def State.postUndefined (s : State) (c : Fin 256) : State :=
  let d := s.ctxs[c].dab
  let bad := d.orgs.filter (fun o => !o.defined && d.subs.any (fun q => q.sub == o.sub))
  let t := s.modDab c (fun d => { d with undefinedPosted := bad })
  t.forEach (bad.filter (fun o => !d.undefinedPosted.contains o)) (fun o t =>
    t.post (srcOf s.ctxs[c].reachOf) s.ctxs[c].reachOf.val c.val 0x62 0 (bytesOf 1 o.sub.val))

/-- The digest table of R263 without the digests last matched 10 s ago. -/
def liveDigests (l : List (BitVec 32 × Nat)) (now : Nat) : List (BitVec 32 × Nat) := l.filter (fun p => decide (now < p.2 + 10 * secPs))

/-- FIG_FILTER on one FIG (R263): whether it is sent, and the table after it. -/
def figFilter (mode now : Nat) (l : List (BitVec 32 × Nat)) (fig : List Byte) : Bool × List (BitVec 32 × Nat) :=
  match mode with
  | 0 => (true, l)
  | 1 =>
    let d := crc32 fig
    let live := liveDigests l now
    if live.any (fun p => p.1 == d) then (false, live.map (fun p => if p.1 == d then (d, now) else p))
    else (true, (if 256 ≤ live.length then live.drop 1 else live) ++ [(d, now)])
  | _ => (false, l)

/-- CIF count of a FIB's CIF as records carry it (Table 7.5). -/
def Dab.cifOf (d : Dab) (k : Fin 12) : Nat := match d.frameCif with | some n => (n + k.val / 3) % 5000 | none => 0xFFFF

/-- A context's data records go out: VALID, OUT_REC, and the member that delivers (R261, R362). -/
def State.dataOn (s : State) (c : Fin 256) : Bool := s.isValid c && s.ctxs[c].active.outRec && s.delivers c

/-- Hand over a DAB record, with COMBINED in a pair's count of combined decodings (R359, Table 9.6). -/
def State.dabRecord (s : State) (c : Fin 256) (typ stamp spanEnd : Nat) (payload : List Byte) (m : Marks) (combined disc : Bool) : State :=
  let x := s.ctxs[c]
  s.deliver c x.reachOf { typ := typ, stamp := stamp, spanEnd := spanEnd, payload := payload
                          marks := ⟨m.blanked && x.active.honour, m.overrange⟩, combined := combined, discont := disc }

/-- Transmission mode I (log entry 68): null symbol, PRS and three FIC symbols; and the 18 MSC symbols of a CIF, ns. -/
def ficNs : Nat := 6281250
def mscNs : Nat := 22429688

/-- One FIG goes through FIG_FILTER (R263, Table 7.5). `m` holds the marks of the CIF's 96 FIC bytes; the FIG stands from byte `at_` of its
FIB on (R278). -/
def State.sendFig (s : State) (c : Fin 256) (fib : Fin 12) (stamp : Nat) (combined : Bool) (m : List Marks) (at_ : Nat) (fig : List Byte) :
    State :=
  let x := s.ctxs[c]
  let f := figFilter x.active.figFilter s.clock x.dab.digests fig
  let t := s.modDab c (fun d => { d with digests := f.2 })
  if !f.1 then t
  else
    (t.modDab c (fun d => { d with fibFail := 0 })).dabRecord c 0x10 stamp (stamp + ficNs)
      (bytesOf 1 fib.val ++ [0] ++ bytesOf 2 (x.dab.cifOf fib) ++ bytesOf 2 x.dab.fibFail ++ bytesOf 1 fig.length ++ [0] ++ fig)
      (marksOver m (32 * (fib.val % 3) + at_) fig.length) combined false

/-- A combined decoding counts in the pair's next twin event, once per CIF (Table 9.6); `fresh` begins a CIF. -/
def State.countCif (s : State) (c : Fin 256) (combined fresh : Bool) : State :=
  let done := s.ctxs[c].dab.cifCounted && !fresh
  let t := s.modDab c (fun d => { d with cifCounted := combined || done })
  if combined && !done then t.countCombined c else t

/-- The whole MSC of a CIF enters the time de-interleaver (R266); the occurrence CIF is noticed (R275, R276). -/
def Dab.store (d : Dab) (m : MscCif) (now : Nat) : Dab :=
  let n := d.frameCif.map (fun k => (k + d.inFrame) % 5000)
  { d with lines := (⟨m, n, now⟩ :: d.lines).take 16, stored := min (d.stored + 1) 16, inFrame := d.inFrame + 1
           reached := d.reached || (d.occurrence.isSome && n.map (· % 250) == d.occurrence) }

/-- Identities of the FM members of a context's follow set. -/
def State.followPis (s : State) (c : Fin 256) : List Nat := ((s.followSet c).filter (fun m => m.std == 1)).map (fun m => m.ident)

/-- An entry of FIG 0/21 joins those collected; one that comes again completes the list and begins the next one (R331, log entry 68). Answers the
list completed last, and those collected. -/
def fig21Collect (q : Option (List (Nat × Nat × List Nat)) × List (Nat × Nat × List Nat)) (p : Nat × Nat × List Nat) :
    Option (List (Nat × Nat × List Nat)) × List (Nat × Nat × List Nat) :=
  if q.2.contains p then (some q.2, [p]) else (q.1, q.2 ++ [p])

/-- FIG 0/21 gives the sequencer its candidates, and FIG 0/10 the RTC its time (R264, Table 9.1, R603). -/
def State.ficNews (s : State) (c : Fin 256) (figs : List (List Byte)) (stamp : Nat) : State :=
  let lists := figs.flatMap (fun g => match fig0 21 g with | some (_, l) => fig21 10 l | none => [])
  let q := lists.foldl fig21Collect (none, s.ctxs[c].dab.fig21)
  let t := (s.modDab c (fun d => { d with fig21 := q.2 })).withSome q.1 (fun l t =>
    t.sideList c (fig21Carriers t.ctxs[c].dab.eid (t.followPis c) l))
  t.forEach (figs.filterMap fig10) (fun n t => t.dabTime c n stamp)

/-- The count of CIF `k` of a transmission frame that starts at `stamp`, as far as it is known before the FIC is decoded. -/
def Dab.ficCount (d : Dab) (stamp : Nat) (k : Fin 4) : Option Nat := (d.newFrame stamp).frameCif.map (fun n => (n + k.val) % 5000)

/-- Soft bits of the partner's FIC of the same CIF count, which the decoding member adds (R359). -/
def State.partnerFic (s : State) (c : Fin 256) (count : Option Nat) : Option StoredFic :=
  match s.addsFrom c with
  | some p => s.ctxs[p].dab.fic.find? (fun f => count.isSome && f.count == count)
  | none => none

/-- The soft bits of a CIF's FIC from which the Viterbi decoder works (R279, R359). -/
def State.ficSoft (s : State) (c : Fin 256) (fic : Fic) (stamp : Nat) (symbols : List DabSym) : List Soft :=
  let own := ficSoftBits fic symbols s.ctxs[c].active.honour
  match s.partnerFic c (s.ctxs[c].dab.ficCount stamp fic.cif) with
  | some f => List.zipWith Soft.add own f.soft
  | none => own

/-- The FIBs are three of the CIF's, and what the Viterbi decoder returns for the soft bits (R262). -/
def State.ficReturned (s : State) (c : Fin 256) (fic : Fic) (stamp : Nat) (symbols : List DabSym) : Bool :=
  fic.fibs.map (fun f => f.index.val) == [3 * fic.cif.val, 3 * fic.cif.val + 1, 3 * fic.cif.val + 2] &&
    viterbiReturns 768 ficMask (s.ficSoft c fic stamp symbols)
      (xorBits ((fic.fibs.flatMap (fun f => f.bytes)).flatMap bitsOfByte) (dispersal 768 (List.replicate 9 true)))

/-- The engine keeps a CIF's soft bits for the pair, and notes a CIF that is decoded alone (R359); a scout keeps to one transmission frame
(R339). -/
def Dab.holdFic (d : Dab) (fic : Fic) (soft : List Soft) (stamp : Nat) (alone scout : Bool) : Dab :=
  let n := d.ficCount stamp fic.cif
  { d with fic := (⟨soft, n⟩ :: d.fic).take 4, alone := if alone then (n.toList ++ d.alone).take 4 else d.alone
           onlyFrame := if scout then some stamp else none }

/-- The FIBs of one CIF (R262 to R265) and, but for a scout (R339), the MSC of one. FIG records are sent when the context was VALID before and
is after (R261). That every FIB of the CIF is checked before the first FIG record counts FIB_FAIL is the model's choice (log entry 68). -/
def State.ficDecode (s : State) (c : Fin 256) (fic : Fic) (msc : Option MscCif) (stamp : Nat) (symbols : List DabSym) : State :=
  let e := s.ctxs[c].active
  let was := s.dataOn c
  let good := fic.fibs.filter fibOk
  let count := s.ctxs[c].dab.ficCount stamp fic.cif
  let combined := (s.partnerFic c count).isSome
  let m := byteMarks ficMask ((List.range 2304).map (fun i => symMarks (ficDrawn symbols fic.cif i))) 96
  let held := s.modDab c (fun d => d.holdFic fic (ficSoftBits fic symbols e.honour) stamp ((s.addsFrom c).isSome && !combined) e.scout)
  let t := ((held.countCif c combined true).dabStep c (fun d => d.useFic e.service fic.fibs stamp)).postUndefined c
  let u := (t.ficNews c (good.flatMap fibFigs) stamp).withSome (if e.scout then none else msc) (fun k t => t.modDab c (fun d => d.store k t.clock))
  if was && u.dataOn c then
    u.forEach good (fun f u => u.forEach (fibFigsAt f) (fun g u => u.sendFig c f.index stamp combined m g.1 g.2))
  else u

/-- A scout decodes the FIC of one transmission frame in a check (R339). -/
def State.ficOpen (s : State) (c : Fin 256) (stamp : Nat) : Bool :=
  !s.ctxs[c].active.scout || (match s.ctxs[c].dab.onlyFrame with | some t => t == stamp | none => true)

/-- The FIC of a frame that starts at `stamp` is decoded from the sum, or alone: without a partner, or 4 ms after its own soft bits (R359). -/
def State.ficWaited (s : State) (c : Fin 256) (fic : Fic) (stamp : Nat) : Bool :=
  (s.addsFrom c).isNone || (s.partnerFic c (s.ctxs[c].dab.ficCount stamp fic.cif)).isSome || decide (stamp + ficNs + 4000000 ≤ s.nowNs)

/-- DAB_FIC_DECODE (R263): the FIC of one CIF, decoded from the sum with the partner's where that is held (`combined`), and the MSC of the CIF
that has been received since, in a transmission frame that starts at `frameStamp`. -/
def execDabFicDecode (dt : Nat) (c : Fin 256) (fic : Fic) (msc : Option MscCif) (frameStamp : Nat) (combined : Bool)
    (symbols : List DabSym) (s : State) : Host.Outcome State Fault Refusal :=
  s.occurs dt (fun t => t.engineServes c stdDab && t.ctxs[c].dab.sync && t.ficOpen c frameStamp &&
      combined == (t.partnerFic c (t.ctxs[c].dab.ficCount frameStamp fic.cif)).isSome && t.ficWaited c fic frameStamp &&
      t.ficReturned c fic frameStamp symbols)
    (fun t => t.ficDecode c fic msc frameStamp symbols)

/-! ### Subchannels (R267 to R274) -/

def Dab.sub? (d : Dab) (q : Fin 64) : Option DabSub := d.subs.find? (fun x => x.sub == q)

def State.modSub (s : State) (c : Fin 256) (q : Fin 64) (f : DabSub → DabSub) : State :=
  s.modDab c (fun d => { d with subs := d.subs.map (fun x => if x.sub == q then f x else x) })

/-- Class of a subchannel; one that no FIG 0/2 or 0/3 names is stream data (R268). -/
def Dab.classOf (d : Dab) (q : Fin 64) : SubClass :=
  match d.classes.find? (fun p => p.1 == q) with
  | some p => p.2
  | none => .stream

/-- The organisation of a subchannel that FIG 0/1 lists with a profile and size that EN 300 401 defines (R265, R268). -/
def Dab.orgOf? (d : Dab) (q : Fin 64) : Option SubOrg := d.orgs.find? (fun o => o.sub == q && o.defined)

/-- A logical frame has completed de-interleaving: 16 CIFs have been stored since synchronisation (R266). -/
def Dab.frameReady (d : Dab) : Bool := decide (16 ≤ d.stored)

/-- The subchannel yields output: selected, listed and past the frames that a reconfiguration discards (R265, R268, R275). -/
def Dab.yields (d : Dab) (q : Fin 64) : Bool :=
  d.sync && d.frameReady && (d.orgOf? q).isSome && (match d.sub? q with | some x => x.discard == 0 | none => false)

/-- The partner's time de-interleaver from the CIF with the same count as the newest on, which the decoding member adds: unless that CIF is
decoded alone, or the partner stored its own more than 4 ms later (R359). -/
def State.partnerLines (s : State) (c : Fin 256) : Option (List StoredCif) :=
  let d := s.ctxs[c].dab
  match s.addsFrom c, d.lines with
  | some p, k :: _ =>
    match alignLines d.lines s.ctxs[p].dab.lines with
    | q :: l => if (match k.count with | some n => d.alone.contains n | none => true) || k.atPs + 4 * msPs < q.atPs then none else some (q :: l)
    | [] => none
  | _, _ => none

/-- The soft bits of a logical frame, with those of the partner where they are added (R279, R359). -/
def State.frameSoft (s : State) (c : Fin 256) (o : SubOrg) : List Soft :=
  let x := s.ctxs[c]
  let own := deinterleave x.dab.lines x.active.honour o
  match s.partnerLines c with
  | some l => List.zipWith Soft.add own (deinterleave l x.active.honour o)
  | none => own

/-- What records tell of the logical frame that the newest CIF completes: timestamp, CIF count, bit errors found by re-encoding the
decoder's bits, and marks (R269, R277, R278). -/
def State.frameInfo (s : State) (c : Fin 256) (o : SubOrg) (f : LogicalFrame) : FrameInfo :=
  let d := s.ctxs[c].dab
  let e := reencode f.bits (depuncture .erased o.mask (s.frameSoft c o))
  let bits := match s.partnerLines c with
    | some l => List.zipWith orMarks (bitMarks d.lines o) (bitMarks l o)
    | none => bitMarks d.lines o
  let m := byteMarks o.mask bits (o.dataBits / 8)
  let now : Nat × Option Nat := match d.lines with | k :: _ => (k.msc.stamp, k.count) | [] => (0, none)
  { stamp := now.1, cif := now.2.getD 0xFFFF, errors := e.1, compared := e.2, byteMarks := m, marks := m.foldl orMarks {}
    combined := (s.partnerLines c).isSome }

/-- The channel bit-error ratio × 4,096 over logical frames, saturated (Table 7.6); to the nearest, log entry 68. -/
def berOf (l : List FrameInfo) : Nat :=
  let n := (l.map (fun f => f.compared)).sum
  if n = 0 then 0 else min 255 (roundDiv (4096 * ((l.map (fun f => f.errors)).sum : Nat)) n).toNat

def marksOf (l : List FrameInfo) : Marks := l.foldl (fun m f => orMarks m f.marks) {}

/-- A packet, data-group or stream record (Table 7.6); its timestamp and CIF count are those of the frame that carried its first byte. -/
def State.packetRecord (s : State) (c : Fin 256) (q : Fin 64) (kind : Nat) (crc : Option Bool) (g : DabGroup) : State :=
  match s.ctxs[c].dab.sub? q, g.frames with
  | some x, f :: _ =>
    if !s.dataOn c then s
    else
      let dfl := (if kind = 2 then 0 else match crc with | some true => 1 | some false => 0 | none => 2) + 4 * x.discont.toNat
      (s.modSub c q (fun x => { x with discont := false, lost := 0 })).dabRecord c 0x11 f.stamp ((g.frames.getLast?.getD f).stamp + mscNs)
        (bytesOf 1 q.val ++ bytesOf 1 kind ++ bytesOf 2 g.addr.toNat ++ bytesOf 2 g.bytes.length ++ bytesOf 1 dfl ++ bytesOf 1 (berOf g.frames) ++
          bytesOf 2 f.cif ++ bytesOf 2 (min x.lost 65535) ++ g.bytes) (marksOf g.frames) (g.frames.any (fun f => f.combined)) x.discont
  | _, _ => s

/-- Count discarded packets and data groups (R273). -/
def State.countLost (s : State) (c : Fin 256) (q : Fin 64) (n : Nat) : State :=
  s.modSub c q (fun x => { x with lost := min (x.lost + n) 65535 })

/-- A logical frame that carried more of a data group: one that already did counts once (Table 7.6). -/
def addFrame (l : List FrameInfo) (f : FrameInfo) : List FrameInfo :=
  match l.getLast? with
  | some g => if g.stamp = f.stamp ∧ g.cif = f.cif then l.dropLast ++ [{ g with marks := orMarks g.marks f.marks }] else l ++ [f]
  | none => [f]

/-- One packet into the data groups of its subchannel (R273). `f` tells of its useful data. -/
def State.assemble (s : State) (c : Fin 256) (q : Fin 64) (f : FrameInfo) (p : Packet) : State :=
  match s.ctxs[c].dab.sub? q with
  | none => s
  | some x =>
    let old := x.groups.find? (fun g => g.addr == p.addr)
    let drop := fun (t : State) => t.modSub c q (fun x => { x with groups := x.groups.filter (fun g => g.addr != p.addr) })
    let keep := fun (t : State) (g : DabGroup) => (drop t).modSub c q (fun x => { x with groups := x.groups ++ [g] })
    let fin := fun (t : State) (g : DabGroup) => if p.last then (drop t).packetRecord c q 0 (groupCrc g.bytes) g else keep t g
    if p.first then
      fin (if old.isSome then (drop s).countLost c q 1 else s) { addr := p.addr, next := p.continuity + 1, bytes := p.useful, frames := [f] }
    else match old with
      | none => s
      | some g =>
        if p.continuity != g.next then (drop s).countLost c q 1
        else fin s { g with next := p.continuity + 1, bytes := g.bytes ++ p.useful, frames := addFrame g.frames f }

/-- One packet (R273): a CRC failure is discarded and counted; padding packets and addresses not listed give nothing. -/
def State.packet (s : State) (c : Fin 256) (q : Fin 64) (f : FrameInfo) (p : Packet) : State :=
  let e := s.ctxs[c].active
  if !dabCrcOk p.bytes then s.countLost c q 1
  else if p.addr == 0 || (e.addrEn && !e.addrs.contains p.addr) then s
  else if e.pktRaw then s.packetRecord c q 1 (some true) { addr := p.addr, next := 0, bytes := p.bytes, frames := [f.over p.offset p.bytes.length] }
  else s.assemble c q (f.over (p.offset + 3) p.useful.length) p

/-- X-PAD in the order that EN 300 401 reads it: for Layer II the reverse of its position in the frame (R274). -/
def padRead (p : PadAt) (format : Nat) : List Byte := if format = 1 then p.xPad.reverse else p.xPad

/-- Logical frames of a run of them that carried `n` bytes from byte `a` on, with `size` bytes in each. -/
def carriers (l : List FrameInfo) (size a n : Nat) : List FrameInfo :=
  (l.zipIdx.filter (fun p => decide (p.2 * size < a + n) && decide (a < (p.2 + 1) * size))).map (fun p =>
    p.1.over (a - p.2 * size) (min (a + n) ((p.2 + 1) * size) - max a (p.2 * size)))

/-- Marks of the samples that bore a PAD's bytes, in a unit that begins at byte `a` of a run of frames (R278). -/
def PadAt.marks (p : PadAt) (l : List FrameInfo) (size a : Nat) : Marks :=
  orMarks (marksOf (carriers l size (a + p.offset) p.xPad.length)) (marksOf (carriers l size (a + p.offset + p.length - 2) 2))

/-- An access-unit record (Table 7.7) and its PAD record (Table 7.8). The unit's `bytes` begin at byte `a` of the run of frames `run`, of
`size` bytes each. -/
def State.unitRecord (s : State) (c : Fin 256) (q : Fin 64) (format : Nat) (crcOk : Bool) (rsBytes index : Nat) (param : Byte)
    (bytes : List Byte) (pad : Option PadAt) (run : List FrameInfo) (size a : Nat) : State :=
  let l := carriers run size a bytes.length
  match s.ctxs[c].dab.sub? q, l with
  | some x, f :: _ =>
    if !s.dataOn c then s
    else
      let m := marksOf l
      let comb := l.any (fun f => f.combined)
      let t := (s.modSub c q (fun x => { x with discont := false, sfLost := 0 })).dabRecord c 0x12 f.stamp ((l.getLast?.getD f).stamp + mscNs)
        (bytesOf 1 q.val ++ bytesOf 1 format ++ bytesOf 2 bytes.length ++
          bytesOf 1 ((!crcOk).toNat + 2 * (decide (rsBytes ≠ 0)).toNat + 4 * x.discont.toNat) ++ bytesOf 1 index ++ bytesOf 1 (min rsBytes 255) ++
          bytesOf 1 (berOf l) ++ bytesOf 2 f.cif ++ [param] ++ bytesOf 1 (min x.sfLost 255) ++ bytes) m comb x.discont
      match pad with
      | some p =>
        if s.ctxs[c].active.padEn then
          t.dabRecord c 0x13 f.stamp ((l.getLast?.getD f).stamp + mscNs)
            (bytesOf 1 q.val ++ bytesOf 1 (!crcOk).toNat ++ bytesOf 2 (2 + p.xPad.length) ++ bytesOf 2 f.cif ++ [0, 0] ++
              p.fPad ++ padRead p format) (p.marks run size a) comb false
        else t
      | none => t
  | _, _ => s

/-- A logical frame of a DAB+ subchannel joins its superframe, which starts at a CIF whose count is divisible by 5 (R270). -/
def DabSub.form (x : DabSub) (bytes : List Byte) (f : FrameInfo) : DabSub :=
  if f.cif ≠ 0xFFFF ∧ f.cif % 5 = 0 then { x with frames := [(bytes, f)] }
  else if f.cif ≠ 0xFFFF ∧ x.frames.length = f.cif % 5 then { x with frames := x.frames ++ [(bytes, f)] }
  else { x with frames := [] }

/-- A Layer II frame with its PAD, which tells what an X-PAD of variable size takes when the next one lists no contents (R272, R274). -/
def State.layer2Frame (s : State) (c : Fin 256) (q : Fin 64) (x : DabSub) (bytes : List Byte) (i : FrameInfo) : State :=
  let p := layer2Pad bytes x.xPadLen
  (s.modSub c q (fun x => { x with xPadLen := match p with | some p => p.2 | none => x.xPadLen })).unitRecord c q 1 true 0 0 0 bytes
    (p.map (fun p => p.1)) [i] bytes.length 0

/-- One logical frame (R269 to R273). Assembly takes place while the context is VALID only (R261). -/
def State.logicalFrame (s : State) (c : Fin 256) (q : Fin 64) (f : LogicalFrame) : State :=
  let d := s.ctxs[c].dab
  let t := s.countCif c (s.partnerLines c).isSome false
  match d.orgOf? q with
  | none => t
  | some o =>
    if !d.yields q then t.modSub c q (fun x => { x with discard := x.discard - 1 })
    else if !s.isValid c then t
    else
      let i := s.frameInfo c o f
      let bytes := undisperse f.bits
      match d.classOf q with
      | .dabPlus => t.modSub c q (fun x => x.form bytes i)
      | .layer2 => match d.sub? q with | some x => t.layer2Frame c q x bytes i | none => t
      | .stream => t.packetRecord c q 2 none { addr := 0, next := 0, bytes := bytes, frames := [i] }
      | .packet => t.forEach (packetsOf bytes.length 0 bytes) (fun p t => t.packet c q i p)

/-- The logical frame is what the Viterbi decoder returns for its soft bits, summed with the partner's as `combined` says (R269, R359). -/
def State.frameReturned (s : State) (c : Fin 256) (q : Fin 64) (f : LogicalFrame) : Bool :=
  f.combined == (s.partnerLines c).isSome &&
    (match s.ctxs[c].dab.orgOf? q with
      | some o => viterbiReturns o.dataBits o.mask (s.frameSoft c o) f.bits
      | none => true)

/-- The logical frame that the newest CIF completes is decoded from the sum, or alone: without a partner, or once 4 ms have passed (R359). -/
def State.frameWaited (s : State) (c : Fin 256) : Bool :=
  (s.addsFrom c).isNone || (s.partnerLines c).isSome ||
    (match s.ctxs[c].dab.lines with
      | k :: _ => decide (k.atPs + 4 * msPs ≤ s.clock) || (match k.count with | some n => s.ctxs[c].dab.alone.contains n | none => true)
      | [] => true)

/-- DAB_LOGICAL_FRAME (R269). -/
def execDabLogicalFrame (dt : Nat) (c : Fin 256) (sub : Fin 64) (f : LogicalFrame) (s : State) : Host.Outcome State Fault Refusal :=
  s.occurs dt (fun t => t.engineServes c stdDab && t.ctxs[c].dab.sync && t.ctxs[c].dab.frameReady && t.frameWaited c && t.frameReturned c sub f)
    (fun t => t.logicalFrame c sub f)

/-- The bytes of a superframe as its logical frames bring them. -/
def DabSub.raw (x : DabSub) : List Byte := x.frames.flatMap (fun p => p.1)

/-- A superframe after Reed-Solomon decoding (R270, R271): without its fire code it is counted lost, else its access units are delivered.
RS_BYTES counts the bytes that the decoder has changed. -/
def State.superframe (s : State) (c : Fin 256) (q : Fin 64) (x : DabSub) (corrected : List Byte) : State :=
  let t := s.modSub c q (fun x => { x with frames := [] })
  if !fireOk corrected then t.modSub c q (fun x => { x with sfLost := min (x.sfLost + 1) 255 })
  else
    t.forEach (unitsOf corrected).zipIdx (fun u t =>
      t.unitRecord c q 0 (dabCrcOk u.1.2) (bytesChanged x.raw corrected) u.2 (corrected.getD 2 0) u.1.2 (unitPad u.1.2)
        (x.frames.map (fun p => p.2)) (corrected.length / 5) u.1.1)

/-- DAB_SUPERFRAME (R270): five logical frames have come, and the Reed-Solomon decoder returns them, but for the codewords in `failed`, which
it could not correct. -/
def execDabSuperframe (dt : Nat) (c : Fin 256) (sub : Fin 64) (corrected : List Byte) (failed : List Nat) (s : State) :
    Host.Outcome State Fault Refusal :=
  s.occurs dt (fun t => t.engineServes c stdDab && t.ctxs[c].dab.yields sub && t.ctxs[c].dab.classOf sub == .dabPlus)
    (fun t => match t.ctxs[c].dab.sub? sub with
      | some x => if x.frames.length = 5 ∧ rsReturns x.raw corrected failed then t.superframe c sub x corrected else t
      | none => t)

/-! ### Reconfiguration (R275, R276) -/

/-- Start, size and profile of a subchannel. -/
def orgIn (l : List SubOrg) (q : Fin 64) : Option (Nat × Nat × Nat) := (l.find? (fun o => o.sub == q)).map (fun o => (o.start, o.size, o.profile))

/-- The new organisation takes effect (R275): changed subchannels discard 15 logical frames and then carry DISCONT. -/
def Dab.reconfigure (d : Dab) : Dab :=
  { d with
    orgs := d.newOrgs, classes := mergeClasses d.classes d.newClasses
    newOrgs := [], newClasses := [], newComplete := false, occurrence := none, reached := false, passed := false
    subs := d.subs.map (fun x => if orgIn d.orgs x.sub == orgIn d.newOrgs x.sub then x
      else { x with discard := 15, discont := true, groups := [], frames := [] }) }

/-- DAB_RECONFIGURATION (R275): the CIF that FIG 0/0 names, or the first after a complete set (R276). -/
def execDabReconfiguration (dt : Nat) (c : Fin 256) (s : State) : Host.Outcome State Fault Refusal :=
  s.occurs dt (fun t => t.engineServes c stdDab && t.ctxs[c].dab.sync && t.ctxs[c].dab.newComplete && t.ctxs[c].dab.reached)
    (fun t => t.modDab c Dab.reconfigure)

end Sys2Proof.Machine
end

