-- ==== Sys2Proof/Machine/Eab.lean ====
section
/-! DEFINITION. Chapter 08, reception: lock, the states of a reception, the shadow detector, authentication and the replay
table, the records, and the noise floor. -/

namespace Sys2Proof.Machine

def State.modEab (s : State) (c : Fin 256) (f : Eab → Eab) : State := s.modCtx c (fun x => { x with eab := f x.eab })

/-- The context's main receiver runs. -/
def State.eabServes (s : State) (c : Fin 256) : Bool := s.engineServes c stdEab

/-! ### Lock (R310) -/

/-- Change the EAB lock and judge what it means. -/
def State.eabStep (s : State) (c : Fin 256) (lock : Bool) : State :=
  (s.modEab c (fun e => { e with lock := lock })).judgeLock c s.ctxs[c].locked

/-- Context output samples of 20 ms under a channel plan: 48,828.125 S/s or half of it (Table 8.1). -/
def lockSamples (channel : Bool) : Rat := if channel then 390625 / 800 else 390625 / 400

/-- Lock is gained over samples of which `marked` carry the overrange mark (R310): 20 ms of valid ones, and once lock has been lost no more
than half of them overrange. -/
def Ctx.eabGains (x : Ctx) (samples marked : Nat) : Bool :=
  decide (lockSamples x.active.eabChannel ≤ samples) && (!x.eab.lockLost || decide (2 * marked ≤ samples))

/-- Lock is lost: over 1 s, more than half of the samples overrange (R310). -/
def Ctx.eabLoses (x : Ctx) (samples marked : Nat) : Bool :=
  decide (50 * lockSamples x.active.eabChannel ≤ samples ∧ samples < 2 * marked)

/-- EAB_LOCK (R310): the power over the samples is the first estimate of the noise floor. -/
def execEabLock (dt : Nat) (c : Fin 256) (samples : Nat) (span : EabSpan) (s : State) : Host.Outcome State Fault Refusal :=
  s.occurs dt (fun t => t.eabServes c && !t.ctxs[c].eab.lock && t.ctxs[c].eabGains samples span.marked)
    (fun t => (t.modEab c (fun e => { e with noise := span.power })).eabStep c true)

/-- EAB_LOCK_LOST (R310): a reception then ends INTERRUPTED. -/
def execEabLockLost (dt : Nat) (c : Fin 256) (samples marked : Nat) (s : State) : Host.Outcome State Fault Refusal :=
  s.occurs dt (fun t => t.eabServes c && t.ctxs[c].eab.lock && t.ctxs[c].eabLoses samples marked)
    (fun t => (t.modEab c (fun e => { e with lockLost := true })).eabStep c false)

/-! ### The header word (Table 8.4) -/

/-- Field of the header information word. -/
def hField (h : BitVec 128) (hi lo : Nat) : Nat := h.toNat / 2 ^ lo % 2 ^ (hi + 1 - lo)

def hVersion (h : BitVec 128) : Nat := hField h 127 125
def hType (h : BitVec 128) : Nat := hField h 124 120
def hTxId (h : BitVec 128) : Nat := hField h 119 108
/-- R291: a version 1 message has ORIGIN equal to TX_ID. -/
def hOrigin (h : BitVec 128) : Nat := if hVersion h = 1 then hTxId h else hField h 107 96
/-- R291: a version 1 message has HOP 0. -/
def hHop (h : BitVec 128) : Nat := if hVersion h = 1 then 0 else hField h 95 92
def hRate (h : BitVec 128) : Nat := hField h 91 90
/-- CW = CWS + 1. -/
def hCw (h : BitVec 128) : Nat := hField h 89 87 + 1
def hSlot (h : BitVec 128) : Fin 8 := Fin.ofNat 8 (hField h 86 84)
/-- RATE, CWS and KEY_SLOT in one byte (FORMAT of Table 8.18). -/
def hFormat (h : BitVec 128) : Nat := hField h 91 84
def hVtype (h : BitVec 128) : Nat := hField h 127 120
def hCounter (h : BitVec 128) : Nat := hField h 79 48
def hTag (h : BitVec 128) : Nat := hField h 47 16

/-- The CRC of the header passes (R290). -/
def hCrcOk (h : BitVec 128) : Bool := crc16 (bytesOf 14 (h.toNat / 2 ^ 16)) == BitVec.ofNat 16 (hField h 15 0)

/-- A format failure (R292). -/
def hBadFormat (e : Entry) (h : BitVec 128) : Bool :=
  !(e.verAllowed (hVersion h)) || hRate h == 3 || (hVersion h == 1 && hRate h != 0) || hTxId h == 0 || hTxId h == 0xFFF

/-! ### States of a reception (R311 to R314) -/

/-- A reception begins at preamble detection (R312); the AGC, and then the Oxbow, are frozen by being received (R151). -/
def Eab.detect (e : Eab) (spate : Int) (now : Nat) (r : Reception) : Eab :=
  { e with st := .preamble, rx := r, spateAtDetect := spate, afcFrozen := false, shadow := none, shadowRestart := none
           bursts := e.bursts + 1, rxPs := now, burstPs := now }

/-- The context's decisions on symbols: those of samples that an engine restart erases are erased too (R320, R642). -/
def Ctx.decisions (x : Ctx) (l : List EabSym) : List (Option Quad) := l.map (fun y => if x.erased then none else decisionOf x.active.honour y)

/-- Symbols as a reception keeps them. -/
def Ctx.kept (x : Ctx) (l : List EabSym) : List EabSym := l.map (erasedSym x.active.honour x.erased)

/-- Symbols join a reception (R320). -/
def Reception.take (r : Reception) (x : Ctx) (l : List EabSym) : Reception :=
  { r with syms := r.syms ++ x.decisions l, raw := r.raw ++ x.kept l, erased := r.erased || (x.decisions l).contains none
           marks := orMarks r.marks (symbolMarks l) }

/-- The running reception with the symbols that have come since the event before. -/
def Ctx.heard (x : Ctx) (l : List EabSym) : Reception := x.eab.rx.take x l

/-- Put what has been heard into the reception. -/
def State.hearSymbols (s : State) (c : Fin 256) (l : List EabSym) : State := s.modCtx c (fun x => { x with eab := { x.eab with rx := x.heard l } })

/-- The last 16 decisions alternate, none of a masked sample, and their signal-to-noise ratio is at least DET_SNR (R312). The AGC's level and
that ratio are what the report gives. -/
def Ctx.detects (x : Ctx) (l : List EabSym) (level : Int) (snr : Nat) : Bool :=
  l.length == detectSymbols && !(x.decisions l).contains none && alternates (x.decisions l) && decide (x.active.detSnr ≤ snr) &&
    level == x.agcLevel && snr == snrOver (x.kept l) x.eab.noise

/-- EAB_PREAMBLE_DETECT (R312). -/
def execEabPreambleDetect (dt : Nat) (c : Fin 256) (last : List EabSym) (level : Int) (snr : Nat) (foffset : Int) (stamp : Nat) (s : State) :
    Host.Outcome State Fault Refusal :=
  s.occurs dt (fun t => t.eabServes c && t.ctxs[c].eab.st == .armed && t.ctxs[c].detects last level snr)
    (fun t => (t.calSettle t.ctxs[c].reachOf).modEab c (fun e => e.detect t.ctxs[c].spateLevel t.clock
      (({ level := level, foffset := foffset, detectStamp := stamp, noise := e.noise } : Reception).take t.ctxs[c] last)))

/-- The AFC estimate within its pull-in range of ±2 kHz (R313). -/
def afcEstimate (foffset : Int) : Int := clamp (-2000) 2000 foffset

/-- The symbols show the preamble end, and the second of its two decisions is the last of them (R314). -/
def endsPreamble (l : List (Option Quad)) : Bool := (preambleEnd l).map (· + 2) == some l.length

/-- EAB_PREAMBLE_END (R314): the AFC estimate is frozen (R313). -/
def execEabPreambleEnd (dt : Nat) (c : Fin 256) (syms : List EabSym) (foffset : Int) (s : State) : Host.Outcome State Fault Refusal :=
  s.occurs dt (fun t => t.eabServes c && t.ctxs[c].eab.st == .preamble && endsPreamble (t.ctxs[c].heard syms).syms)
    (fun t => (t.hearSymbols c syms).modEab c (fun e =>
      { e with st := .syncWait, afcFrozen := true, rx := { e.rx with foffset := afcEstimate foffset } }))

/-- A reception is given up with a status (R311), with no authentication and nothing for the relay. -/
def State.eabAbandon (s : State) (c : Fin 256) (status symbols : Nat) (other : Option Int) : State :=
  s.eabFinish c status s.ctxs[c].eab.st.stage 0 symbols other s.nowNs false false true

/-- Symbols since the preamble detection. -/
def Reception.count (r : Reception) : Nat := r.syms.length - detectSymbols

/-- A reception that its last symbol fails. -/
def State.eabFail (s : State) (c : Fin 256) (status : Nat) (syms : List EabSym) : State :=
  let t := s.hearSymbols c syms
  t.eabAbandon c status t.ctxs[c].eab.rx.count none

/-- The alternation goes on 64 symbols after the detection (Table 8.15). -/
def falsePreamble (l : List (Option Quad)) : Bool := l.length == detectSymbols + preambleMax && (preambleEnd l).isNone

/-- EAB_FALSE_PREAMBLE (R311). -/
def execEabFalsePreamble (dt : Nat) (c : Fin 256) (syms : List EabSym) (s : State) : Host.Outcome State Fault Refusal :=
  s.occurs dt (fun t => t.eabServes c && t.ctxs[c].eab.st == .preamble && falsePreamble (t.ctxs[c].heard syms).syms) (fun t => t.eabFail c 1 syms)

/-- A sample time lies within 1/16 symbol of that of a symbol of the reception (R324). -/
def Reception.near (r : Reception) (channel : Bool) (index stamp : Nat) : Bool :=
  decide (16 * 1000 * ((stamp + symbolsNs channel detectSymbols : Int) - r.detectStamp - symbolsNs channel index).natAbs ≤ symbolPs channel)

/-- SYNC is found at the position that the last symbol completes, and started at this sample time (R314, R324). -/
def Reception.finds (r : Reception) (channel : Bool) (stamp : Nat) : Bool :=
  match syncStart r.syms with
  | some p => p + 24 == r.syms.length && r.near channel p stamp
  | none => false

/-- EAB_SYNC_FOUND (R314): at most 3 of the 24 sign decisions disagree. -/
def execEabSyncFound (dt : Nat) (c : Fin 256) (syms : List EabSym) (stamp : Nat) (s : State) : Host.Outcome State Fault Refusal :=
  s.occurs dt (fun t => t.eabServes c && t.ctxs[c].eab.st == .syncWait && (t.ctxs[c].heard syms).finds t.ctxs[c].active.eabChannel stamp)
    (fun t => (t.hearSymbols c syms).modEab c (fun e =>
      { e with st := .header, rx := { e.rx with syncErr := syncErrors e.rx.syms ((syncStart e.rx.syms).getD 0), syncStamp := some stamp } }))

/-- The last position of the window has been tested, and none was SYNC (Table 8.15). -/
def missesSync (l : List (Option Quad)) : Bool := (preambleEnd l).map (· + 32) == some l.length && (syncStart l).isNone

/-- EAB_NO_SYNC (R311). -/
def execEabNoSync (dt : Nat) (c : Fin 256) (syms : List EabSym) (s : State) : Host.Outcome State Fault Refusal :=
  s.occurs dt (fun t => t.eabServes c && t.ctxs[c].eab.st == .syncWait && missesSync (t.ctxs[c].heard syms).syms) (fun t => t.eabFail c 2 syms)

/-! ### Codewords (R300) -/

/-- Symbols from SYNC on that have come. -/
def Reception.fromSync (r : Reception) : Nat := match syncStart r.syms with | some p => r.syms.length - p | none => 0

/-- A decoding takes place when its last symbol, the `n`-th from SYNC on, arrives; stored symbols of a takeover may reach beyond it (R300,
R316). -/
def Reception.arrived (r : Reception) (n : Nat) (syms : List EabSym) : Bool :=
  decide (n ≤ r.fromSync) && (syms.isEmpty || r.fromSync == n)

/-- The decoder's end (R300): every check row used is satisfied within ITER_MAX iterations, or ITER_MAX iterations have passed. -/
def decoderEnds (satisfied : Bool) (iter limit : Nat) : Bool := if satisfied then decide (iter ≤ limit) else iter == limit

/-- Every check row of the header code is satisfied (R297, R300). -/
def headerChecks (d : List Bool) : Bool := d == encodeHeader (d.take 128)

/-- Every check row used at a rate is satisfied: row by row, the parity bits sent are those of the information bits (R298, R300). -/
def payloadChecks (rate : Nat) (d : List Bool) : Bool := d == (encodePayload (d.take 512)).take (sentBits rate)

/-- A reception of a pair matches another: their SYNC starts lie within 1/4 symbol (R356). -/
def Reception.matched (r q : Reception) (channel : Bool) : Bool :=
  match r.syncStamp, q.syncStamp with
  | some a, some b => decide (4000 * ((a : Int) - b).natAbs ≤ symbolPs channel)
  | _, _ => false

/-- The partner's matched reception, running or ended at the end of its burst (R356). -/
def State.matchOf (s : State) (c : Fin 256) : Option Reception :=
  match s.partnerOf c with
  | none => none
  | some p =>
    let x := s.ctxs[c]
    let e := s.ctxs[p].eab
    let here := fun (q : Reception) => x.eab.rx.matched q x.active.eabChannel
    if e.receiving && here e.rx then some e.rx
    else match e.ended.getLast? with
      | some q => if q.stage == 4 && here q.rx then some q.rx else none
      | none => none

/-- The partner's reach decodes the sum, and this member's reception yields nothing of its own (R355, R358). -/
def State.echoes (s : State) (c : Fin 256) : Bool :=
  (s.matchOf c).isSome && s.decoderOf (s.recordCtx c) != (c != s.recordCtx c)

/-- The partner's matched reception whose soft bits up to symbol `n` from SYNC on have arrived, and not too late (R356, R357). -/
def State.addend (s : State) (c : Fin 256) (n : Nat) : Option Reception :=
  if (s.addsFrom c).isNone || s.decodesAlone c then none
  else (s.matchOf c).bind (fun r => if n ≤ r.fromSync then some r else none)

/-- The partner's soft bits up to symbol `n` from SYNC on are late: 2 ms have passed since that symbol (R357). -/
def State.combineLate (s : State) (c : Fin 256) (n : Nat) : Bool :=
  match s.ctxs[c].eab.rx.syncStamp with
  | some t => decide (t + symbolsNs s.ctxs[c].active.eabChannel n + 2000000 ≤ s.nowNs)
  | none => false

/-- The decoding of what ends at symbol `n` need not wait for the partner: its soft bits are there or late, or it has no reception that may
match (R357). -/
def State.mayDecode (s : State) (c : Fin 256) (n : Nat) : Bool :=
  match s.addsFrom c with
  | some p =>
    let e := s.ctxs[p].eab
    (s.addend c n).isSome || s.decodesAlone c || s.combineLate c n ||
      !(e.receiving && (e.rx.syncStamp.isNone || s.ctxs[c].eab.rx.matched e.rx s.ctxs[c].active.eabChannel))
  | none => true

/-- Signal-to-noise ratio of a reception over the symbols received, as two numbers. -/
def Reception.snrRatio (r : Reception) : Nat × Nat := Sys2Proof.Machine.snrRatio r.raw r.noise

/-- A ratio is below another. -/
def ratioBelow (a b : Nat × Nat) : Bool := decide (a.1 * b.2 < b.1 * a.2)

/-- The linear sum of two ratios. -/
def ratioSum (a b : Nat × Nat) : Nat × Nat := (a.1 * b.2 + b.1 * a.2, a.2 * b.2)

/-- SNR as the records carry it: over the symbols received, for a pair the linear sum of the two (R358, Tables 8.18 and 8.19). -/
def Reception.snr (r : Reception) : Nat :=
  halfDecibels (match r.pairSnr with | some q => ratioSum r.snrRatio q | none => r.snrRatio)

/-- What a decoding adds to a reception's report (Table 8.18); `q` is the partner's reception that it is summed with (R358). -/
def Reception.decoded (r : Reception) (iter : Nat) (q : Option Reception) : Reception :=
  match q with
  | some p => { r with iter := max r.iter iter, combined := true, pairSnr := some p.snrRatio
                       pairBest := if ratioBelow r.snrRatio p.snrRatio then some (p.level, p.foffset) else none }
  | none => { r with iter := max r.iter iter }

/-- Soft bits of `n` symbols from symbol `k` from SYNC on, with the whitening taken off (R301). -/
def Reception.softFrom (r : Reception) (k n : Nat) (white : List Bool) : List Int :=
  List.zipWith (fun v w => if w then -v else v)
    (((r.raw.drop ((syncStart r.syms).getD 0 + k)).take n).flatMap (fun y => [y.soft.1, y.soft.2])) white

/-- A soft bit scaled by a signal-to-noise ratio (R356). -/
def scaleSoft (q : Nat × Nat) (v : Int) : Rat := (v * q.1 : Int) / ((max q.2 1 : Nat) : Rat)

/-- A sum within the decoder's input range (R356). -/
def saturate (v : Rat) : Rat := max (-(Config.softRange + 1 : Nat)) (min (Config.softRange + 1 : Nat) v)

/-- What the LDPC decoder works from: the reception's own soft bits, or the sum of both members', each scaled by its own ratio (R356, R357). -/
def decoderInput (r : Reception) (q : Option Reception) (k n : Nat) (white : List Bool) : List Rat :=
  let own := r.softFrom k n white
  match q with
  | some p => List.zipWith (fun a b => saturate (scaleSoft r.snrRatio a + scaleSoft p.snrRatio b)) own (p.softFrom k n white)
  | none => own.map (fun v => (v : Rat))

/-- The bits that soft values stand for, none while one of them is an erasure. -/
def hardBits (l : List Rat) : Option (List Bool) := if l.all (fun v => v != 0) then some (l.map (fun v => decide (0 < v))) else none

/-- What a decoder may return (R300, log entry 69): where the soft values already satisfy every check row, their bits. -/
def decoderKeeps (checks : List Bool → Bool) (l : List Rat) (d : List Bool) : Bool :=
  match hardBits l with
  | some b => !checks b || d == b
  | none => true

/-- Signal-to-noise ratio of a decoding up to symbol `n` from SYNC on. -/
def State.decodingSnr (s : State) (c : Fin 256) (n : Nat) : Nat := (s.ctxs[c].eab.rx.decoded 0 (s.addend c n)).snr

/-- The symbols of the header, and those of a payload codeword, from SYNC on. -/
def headerSpan : Nat × Nat := (24, 128)
def codewordSpan (k rate : Nat) : Nat × Nat := (24 + 128 + k * codewordSymbols rate, codewordSymbols rate)

/-- The header is decoded (R300): its CRC, the format failures of R292, and SERVICE_ID against TX_ID (R307). -/
def State.headerDecoded (s : State) (c : Fin 256) (d : List Bool) (iter : Nat) : State :=
  let e := s.ctxs[c].active
  let h := BitVec.ofNat 128 (natOfBits (d.take 128))
  let t := s.modEab c (fun x => { x with rx := x.rx.decoded iter (s.addend c (24 + 128)) })
  let n := t.ctxs[c].eab.rx.count
  if !headerChecks d || !hCrcOk h then t.eabAbandon c 3 n none
  else
    let u := t.modEab c (fun x => { x with rx := { x.rx with header := some h } })
    if hBadFormat e h then u.eabAbandon c 4 n none
    else if e.service % 4096 ≠ 0 && e.service % 4096 ≠ hTxId h then u.modEab c (fun x => { x with st := .filtered })
    else u.modEab c (fun x => { x with st := .payload })

/-- The decoder may return these bits for the header (R297, R300, R356). -/
def State.headerReturns (s : State) (c : Fin 256) (d : List Bool) (iter : Nat) : Bool :=
  decoderEnds (headerChecks d) iter s.ctxs[c].active.iterMax &&
    decoderKeeps headerChecks (decoderInput s.ctxs[c].eab.rx (s.addend c (24 + 128)) headerSpan.1 headerSpan.2 (whiten 256 0x1FF)) d

/-- EAB_HEADER_DECODED (R300): when the header's last symbol arrives, with the signal-to-noise ratio of the decoding. The member that does not
decode a matched pair hands over its soft bits (R355, R356). -/
def execEabHeaderDecoded (dt : Nat) (c : Fin 256) (syms : List EabSym) (decoded : List Bool) (iter snr : Nat) (s : State) :
    Host.Outcome State Fault Refusal :=
  s.occurs dt (fun t => t.eabServes c && t.ctxs[c].eab.st == .header && (t.ctxs[c].heard syms).arrived (24 + 128) syms &&
      (t.echoes c || (t.mayDecode c (24 + 128) && (t.hearSymbols c syms).headerReturns c decoded iter &&
        snr == (t.hearSymbols c syms).decodingSnr c (24 + 128))))
    (fun t => if t.echoes c then t.hearSymbols c syms else ((t.hearSymbols c syms).headerDecoded c decoded iter).combineDone c)

/-- Codewords and rate of a reception's header. -/
def Reception.cw (r : Reception) : Nat := match r.header with | some h => hCw h | none => 0
def Reception.rate (r : Reception) : Nat := match r.header with | some h => hRate h | none => 0

/-- A payload codeword is decoded (R300). -/
def Reception.codeword (r : Reception) (d : List Bool) : Reception :=
  { r with cwDone := r.cwDone + 1, cwFail := if payloadChecks r.rate d then r.cwFail else r.cwFail + 1, blocks := r.blocks ++ bytesOfBits 64 d }

/-- The header of a reception or, in the member that does not decode a matched pair, the partner's (R358). -/
def State.heardHeader (s : State) (c : Fin 256) : Option (BitVec 128) :=
  (s.ctxs[c].eab.rx.header).orElse (fun _ => if s.echoes c then (s.matchOf c).bind (fun r => r.header) else none)

/-- Symbols from SYNC on up to the end of the codeword to be decoded next. -/
def Reception.nextEnd (r : Reception) (h : BitVec 128) : Nat := syncToEnd (r.cwDone + 1) (hRate h)

/-- The decoder may return these bits for the codeword to be decoded next (R298, R300, R356). -/
def State.codewordReturns (s : State) (c : Fin 256) (h : BitVec 128) (d : List Bool) (iter : Nat) : Bool :=
  let r := s.ctxs[c].eab.rx
  let n := sentBits (hRate h)
  decoderEnds (payloadChecks (hRate h) d) iter s.ctxs[c].active.iterMax &&
    decoderKeeps (payloadChecks (hRate h)) (decoderInput r (s.addend c (r.nextEnd h)) (codewordSpan r.cwDone (hRate h)).1
      (codewordSpan r.cwDone (hRate h)).2 ((whiten ((r.cwDone + 1) * n) (payloadSeed (hTxId h))).drop (r.cwDone * n))) d

/-- A payload codeword has been decoded, from the sum where the partner's soft bits are held. -/
def State.codewordDecoded (s : State) (c : Fin 256) (h : BitVec 128) (d : List Bool) (iter : Nat) : State :=
  s.modEab c (fun e => { e with rx := (e.rx.decoded iter (s.addend c (e.rx.nextEnd h))).codeword d })

/-- EAB_CODEWORD_DECODED (R300): when the codeword's last symbol arrives, with the signal-to-noise ratio of the decoding. The member that does
not decode a matched pair hands over its soft bits (R355, R356). -/
def execEabCodewordDecoded (dt : Nat) (c : Fin 256) (syms : List EabSym) (decoded : List Bool) (iter snr : Nat) (s : State) :
    Host.Outcome State Fault Refusal :=
  s.occurs dt (fun t => t.eabServes c && (match t.heardHeader c with
      | none => false
      | some h =>
        let r := t.ctxs[c].eab.rx
        decide (r.cwDone < hCw h) && (t.ctxs[c].heard syms).arrived (r.nextEnd h) syms &&
          (if t.echoes c then t.ctxs[c].eab.st == .header || t.ctxs[c].eab.st == .payload
          else t.ctxs[c].eab.st == .payload && t.mayDecode c (r.nextEnd h) && (t.hearSymbols c syms).codewordReturns c h decoded iter &&
            snr == (t.hearSymbols c syms).decodingSnr c (r.nextEnd h))))
    (fun t => t.withSome (t.heardHeader c) (fun h u =>
      if u.echoes c then (u.hearSymbols c syms).modEab c (fun e => { e with rx := { e.rx with cwDone := e.rx.cwDone + 1 } })
      else ((u.hearSymbols c syms).codewordDecoded c h decoded iter).combineDone c))

/-! ### Authentication (R302 to R305) -/

/-- CMAC input M (Table 8.12). -/
def cmacInput (h : BitVec 128) (block : List Byte) : List Byte :=
  bytesOf 1 (hVtype h) ++ bytesOf 1 (hOrigin h / 16) ++ bytesOf 1 (hOrigin h % 16 * 16) ++ bytesOf 1 (hFormat h) ++
    bytesOf 4 (hCounter h) ++ block

/-- TAG: the most significant 32 bits of the CMAC (R302). -/
def tagOf (key : BitVec 128) (h : BitVec 128) (block : List Byte) : Nat := natOf ((cmac key (cmacInput h block)).take 4)

def ReplayKey.isFor (k : ReplayKey) (h : BitVec 128) : Bool := k.origin == hOrigin h && k.slot == (hSlot h).val

/-- REPLAYED, DUPLICATE or VERIFIED by the replay table (Table 8.13, R305). -/
def replayStatus (k : Option ReplayKey) (counter : Nat) : Nat :=
  match k with
  | none => 0
  | some k =>
    if k.highest = 2 ^ 32 - 1 || counter + 32 ≤ k.highest then 2
    else if counter ≤ k.highest && k.window.getLsbD (k.highest - counter) then 3
    else 0

/-- The authentication status of a message, in the order of Table 8.13. -/
def State.authOf (s : State) (e : Entry) (h : BitVec 128) (block : List Byte) : Nat :=
  if hSlot h = 0 then 4
  else match s.keys.slots[hSlot h] with
    | none => 4
    | some key =>
      if !e.keyAllowed (hSlot h).val then 5
      else if hTag h ≠ tagOf key h block then 1
      else replayStatus (s.replay.find? (fun k => k.isFor h)) (hCounter h)

/-- An entry after a VERIFIED message (R304). -/
def ReplayKey.accept (k : ReplayKey) (counter : Nat) : ReplayKey :=
  if k.highest < counter then
    { k with highest := counter, window := (k.window <<< (counter - k.highest)) ||| 1, dirty := true }
  else { k with window := k.window ||| ((1 : BitVec 32) <<< (k.highest - counter)), dirty := true }

/-- The replay table after a VERIFIED message (R304), the entry that advanced least recently first. -/
def replayAccept (l : List ReplayKey) (h : BitVec 128) : List ReplayKey :=
  match l.find? (fun k => k.isFor h) with
  | some k =>
    if k.highest < hCounter h then l.filter (fun x => !x.isFor h) ++ [k.accept (hCounter h)]
    else l.map (fun x => if x.isFor h then x.accept (hCounter h) else x)
  | none => (if 256 ≤ l.length then l.drop 1 else l) ++
      [{ origin := hOrigin h, slot := (hSlot h).val, highest := hCounter h, window := 1 }]

/-- Another context verified the same message in this FAB cycle: the higher of the two takes DUPLICATE, and the lower one VERIFIED
(Table 8.22). -/
def State.sameCycle (s : State) (c : Fin 256) (h : BitVec 128) (d : Fin 256) : Bool :=
  decide (c ≠ d) && (match s.ctxs[d].eab.ended.getLast? with
    | some q => q.atPs == s.clock && q.auth == 0 && (match q.rx.header with
      | some g => hOrigin g == hOrigin h && hSlot g == hSlot h && hCounter g == hCounter h && q.status == 0
      | none => false)
    | none => false)

/-- A context's message, verified in this FAB cycle, becomes a DUPLICATE: its neighbour list is undone (R295, Table 8.22). -/
def State.yield (s : State) (d : Fin 256) : State :=
  match s.ctxs[d].eab.ended.getLast? with
  | some q => s.modCtx d (fun x => { x with eab := { x.eab with ended := x.eab.ended.dropLast ++ [{ q with auth := 3 }] }
                                            follow := if q.listed then { x.follow with cands := q.before.1, side := q.before.2 } else x.follow })
  | none => s

/-- The status of a message and the state after it. The message that another context has verified in the same FAB cycle is judged beside that
one, whatever the table now says of its counter (Table 8.22). -/
def State.authenticate (s : State) (c : Fin 256) (h : BitVec 128) (block : List Byte) : State × Nat :=
  let n := s.authOf s.ctxs[c].active h block
  if n = 0 then ({ s with replay := replayAccept s.replay h }, 0)
  else if n = 2 || n = 3 then match allCtxs.find? (s.sameCycle c h) with
    | some d => if c < d then (s.yield d, 0) else (s, 3)
    | none => (s, n)
  else (s, n)

/-! ### Neighbour lists (R295, Table 9.1) -/

/-- The entries of a neighbour-list body that it holds whole (Table 8.7). -/
def neighbours (body : List Byte) : List Carrier :=
  (List.range (natAt body 0 1)).filterMap (fun i =>
    let o := 2 + 8 * i
    let std := natAt body o 1
    if o + 8 ≤ body.length && (std == 1 || std == 3 || std == 4) then
      some { std := BitVec.ofNat 4 std, chan := std == 4 && natAt body (o + 1) 1 == 1, freq := natAt body (o + 2) 4, ident := natAt body (o + 6) 2 }
    else none)

/-- An entry that Table 9.1 takes: EAB, or matching a follow-set member by ID or STD. -/
def State.neighbourTaken (s : State) (c : Fin 256) (k : Carrier) : Bool :=
  k.std == 4 || (s.followSet c).any (fun m => m.std == k.std || m.ident == k.ident)

/-- A VERIFIED neighbour list enters the candidate table (R295, R327). -/
def State.takeNeighbours (s : State) (c : Fin 256) (h : BitVec 128) (body : List Byte) : State :=
  if hType h = 8 then s.sideList c ((neighbours body).filter (s.neighbourTaken c)) else s

/-! ### The end of a burst -/

/-- PCRC passes (Table 8.5). -/
def pcrcOk (block : List Byte) : Bool :=
  crc16 (block.take (block.length - 2)) == BitVec.ofNat 16 (natAt block (block.length - 2) 2)

/-- What the pair delivered less than 1 s ago from the other member (R646). -/
def State.deliveredByPartner (s : State) (c : Fin 256) (h : BitVec 128) (pcrc : Nat) : Bool :=
  (s.partnerOf c).isSome && (s.ctxs[s.recordCtx c].twin.delivered.any (fun d =>
    d.origin == hOrigin h && d.slot == (hSlot h).val && d.counter == hCounter h && d.pcrc == pcrc &&
      d.member != (c != s.recordCtx c) && decide (s.clock ≤ d.atPs + secPs)))

/-- Remember a message of a pair (R646). -/
def State.rememberDelivered (s : State) (c : Fin 256) (h : BitVec 128) (pcrc : Nat) : State :=
  if (s.partnerOf c).isNone then s
  else
    let lo := s.recordCtx c
    s.modCtx lo (fun x => { x with twin := { x.twin with
      delivered := x.twin.delivered.filter (fun d => decide (s.clock ≤ d.atPs + secPs)) ++
        [{ origin := hOrigin h, slot := (hSlot h).val, counter := hCounter h, pcrc := pcrc, atPs := s.clock, member := c != lo }] } })

/-- The end of a payload: COMPLETE or PAYLOAD_FAIL (Table 8.20), the authentication of a block whose PCRC passes (R303), and
the neighbour list of a VERIFIED message. -/
def State.payloadEnd (s : State) (c : Fin 256) (h : BitVec 128) (symbols endStamp : Nat) : State :=
  let block := s.ctxs[c].eab.rx.blocks
  let sound := s.ctxs[c].eab.rx.cwFail == 0 && pcrcOk block
  let whole := sound && decide (natAt block 0 2 + 4 ≤ block.length)
  let a := if sound then s.authenticate c h block else (s, 0)
  let pcrc := natAt block (block.length - 2) 2
  let dup := whole && s.deliveredByPartner c h pcrc
  let t := a.1.when (whole && !dup) (fun t => t.rememberDelivered c h pcrc)
  let u := t.when (whole && a.2 == 0) (fun t => t.takeNeighbours c h (slice block 2 (natAt block 0 2)))
  let v := u.when s.ctxs[c].eab.rx.combined (fun t => t.countCombined c)
  (v.eabFinish c (if whole then 0 else 5) 4 a.2 symbols none endStamp false dup true).modEab c (fun e => { e with
    ended := e.ended.dropLast ++ (e.ended.getLast?.map (fun q => { q with
      before := (s.ctxs[c].follow.cands, s.ctxs[c].follow.side), listed := whole && a.2 == 0 && hType h == 8 })).toList })

/-- Sample time of the end of the burst: the end of symbol 199 + CW × S (R288). -/
def Reception.endNs (r : Reception) (channel : Bool) (h : BitVec 128) : Nat :=
  r.syncStamp.getD r.detectStamp + symbolsNs channel (syncToEnd (hCw h) (hRate h))

/-- The end of a burst (R311, R319). A matched reception that the partner's reach decoded yields nothing of its own (R358). -/
def State.burstEnd (s : State) (c : Fin 256) (h : BitVec 128) : State :=
  let e := s.ctxs[c].eab
  let stamp := e.rx.endNs s.ctxs[c].active.eabChannel h
  if s.echoes c then s.eabFinish c 0 4 0 e.rx.count none stamp true false true
  else if e.st == .filtered then s.eabFinish c 8 4 0 e.rx.count none stamp false false true
  else s.payloadEnd c h e.rx.count stamp

/-- The last symbol of the burst has come, and every codeword of a payload has been decoded. -/
def State.burstEnds (s : State) (c : Fin 256) (syms : List EabSym) : Bool :=
  match s.heardHeader c with
  | none => false
  | some h =>
    let e := s.ctxs[c].eab
    (s.ctxs[c].heard syms).arrived (syncToEnd (hCw h) (hRate h)) syms &&
      (e.st == .filtered || s.echoes c || (e.st == .payload && e.rx.cwDone == e.rx.cw))

/-- EAB_BURST_END (R311). -/
def execEabBurstEnd (dt : Nat) (c : Fin 256) (syms : List EabSym) (s : State) : Host.Outcome State Fault Refusal :=
  s.occurs dt (fun t => t.eabServes c && t.burstEnds c syms)
    (fun t => t.withSome (t.heardHeader c) (fun h u => (u.hearSymbols c syms).burstEnd c h))

/-! ### Records (R321, R324, R325) -/

/-- LEVEL and FOFFSET as the records carry them (Table 8.18, R358). -/
def Reception.reported (r : Reception) : Int × Int := r.pairBest.getD (r.level, r.foffset)

/-- MFLAGS and BFLAGS. -/
def Reception.flagsByte (r : Reception) : List Byte := bytesOf 1 (r.shadow.toNat + 2 * r.erased.toNat)

/-- Payload of a message record (Table 8.18). -/
def messagePayload (q : Ended) (h : BitVec 128) : List Byte :=
  let len := natAt q.rx.blocks 0 2
  bytesOf 2 (hTxId h) ++ bytesOf 2 (hOrigin h) ++ bytesOf 1 (hVtype h) ++ bytesOf 1 (hHop h) ++ bytesOf 1 (hFormat h) ++
    bytesOf 1 q.auth ++ bytesOf 4 (hCounter h) ++ bytesOf 4 (hTag h) ++ bytesOf 2 len ++ bytesOf 1 q.rx.iter ++ q.rx.flagsByte ++
    bytesOfInt16 q.rx.reported.1 ++ bytesOf 1 (min q.rx.snr 255) ++ [0] ++ bytesOfInt16 q.rx.reported.2 ++ [0, 0] ++ slice q.rx.blocks 2 len

/-- Payload of a burst report (Table 8.19). -/
def reportPayload (q : Ended) : List Byte :=
  bytesOf 2 (match q.rx.header with | some h => hTxId h | none => 0xFFFF) ++ bytesOf 1 q.status ++ bytesOf 1 q.stage ++
    bytesOfInt16 q.rx.reported.1 ++ bytesOf 1 (min q.rx.snr 255) ++ bytesOf 1 q.rx.syncErr ++ bytesOfInt16 q.rx.reported.2 ++
    bytesOf 1 q.rx.cw ++ bytesOf 1 q.rx.cwFail ++ bytesOf 1 q.rx.iter ++ q.rx.flagsByte ++ bytesOf 2 (min q.symbols 65535) ++
    (match q.other with | some l => bytesOfInt16 l | none => bytesOf 2 0x8000) ++ [0, 0]

/-- AUTH lets a message with this status out (Table 8.14). -/
def authAllows (mode status : Nat) : Bool := mode == 0 || (mode == 1 && status == 0)

/-- BURST_REP selects a report with this status (Table 8.14). -/
def reportSelected (mode status : Nat) : Bool := mode == 2 || (mode == 1 && status != 0)

/-- The first reception whose records are not yet handed over. -/
def Eab.toHandOver (e : Eab) : Option Ended := e.ended.find? (fun q => !q.handedOver)

/-- Mark the first waiting reception as handed over; what is not for the relay (R388, R646) is settled too. -/
def markHanded (now : Nat) : List Ended → List Ended
  | [] => []
  | q :: t => if q.handedOver then q :: markHanded now t
    else { q with handedOver := true, handedPs := now, relayed := q.relayed || q.status != 0 || q.echo || q.dup } :: t

/-- Timestamp of its records (R324). -/
def Ended.stamp (q : Ended) : Nat := q.rx.syncStamp.getD q.rx.detectStamp

/-- A record of a reception: one that ended before a switch is the old chain's (R350). -/
def State.eabGive (s : State) (c : Fin 256) (r : Fin 4) (q : Ended) (b : Built) : State :=
  match s.ctxs[c].follow.runOut with
  | some o => if q.atPs ≤ o.sincePs then s.deliverOld c r b else s.deliver c r b
  | none => s.deliver c r b

/-- The records of one ended reception (R325). -/
def State.eabRecords (s : State) (c : Fin 256) (q : Ended) : State :=
  let r := s.ctxs[c].reachOf

  let marks : Marks := ⟨q.rx.marks.blanked && q.entry.honour, q.rx.marks.overrange⟩
  let send := q.entry.outRec && !q.entry.scout && !q.echo
  let t := match q.rx.header with
    | some h => s.when (send && q.status == 0 && !q.dup && authAllows q.entry.auth q.auth) (fun t =>
        t.eabGive c r q { typ := 0x20, stamp := q.stamp, spanEnd := q.endStamp, payload := messagePayload q h, marks := marks, combined := q.rx.combined })
    | none => s
  t.when (send && reportSelected q.entry.burstRep q.status) (fun t =>
    t.eabGive c r q { typ := 0x21, stamp := q.stamp, spanEnd := q.endStamp, payload := reportPayload q, marks := marks, combined := q.rx.combined })

/-- EAB_RECORD_HANDOVER (R321): the oldest reception that waits; that of a context in MIGRATING waits for its target reach
(Table 8.22). -/
def execEabRecordHandover (dt : Nat) (c : Fin 256) (s : State) : Host.Outcome State Fault Refusal :=
  s.occurs dt (fun t => t.serving && t.reachUp t.ctxs[c].reachOf && t.ctxs[c].st != .migrating)
    (fun t => t.withSome t.ctxs[c].eab.toHandOver (fun q u =>
      (u.modEab c (fun e => { e with ended := markHanded u.clock e.ended })).eabRecords c q))

/-! ### The shadow detector (R315 to R319) -/

/-- The candidate that the shadow correlator holds after a detection (R316): the same preamble further on, else the one of
the higher level. -/
def shadowAfter (old : Option Candidate) (k : Candidate) : Candidate :=
  match old with
  | some o => if o.stamp == k.stamp then k else if o.level < k.level then k else o
  | none => k

/-- A detection is a new preamble (BURSTS of Table 8.21). -/
def shadowIsNew (old : Option Candidate) (k : Candidate) : Bool :=
  match old with
  | some o => o.stamp != k.stamp
  | none => true

/-- The preamble is that of the main receiver's current reception: carrier within 200 Hz and symbol timing within 1/8 symbol (R315). -/
def Reception.isOwn (r : Reception) (channel : Bool) (k : Candidate) : Bool :=
  let p := symbolPs channel
  let off := ((k.stamp : Int) - r.detectStamp).natAbs * 1000 % p
  decide ((k.foffset - r.foffset).natAbs ≤ 200) && decide (8 * min off (p - off) ≤ p)

/-- Signal-to-noise ratio of a candidate's detection (R312). -/
def Ctx.candidateSnr (x : Ctx) (k : Candidate) : Nat := snrOver (k.raw.take detectSymbols) x.eab.noise

/-- A preamble that the correlator may find: detected as R312 gives, in the sync window of R314, not the reception's own, and since a
rise of the spate level searched from that rise on (R315). -/
def Ctx.shadowFinds (x : Ctx) (k : Candidate) : Bool :=
  decide (detectSymbols ≤ k.syms.length) && !(k.syms.take detectSymbols).contains none && alternates (k.syms.take detectSymbols) &&
    decide (x.active.detSnr ≤ x.candidateSnr k) && (stageOf k.syms).isSome && !x.eab.rx.isOwn x.active.eabChannel k &&
    (match x.eab.shadowRestart with
      | some t => decide (t + symbolsNs x.active.eabChannel detectSymbols ≤ k.stamp)
      | none => true)

/-- The candidate held goes on (R316): symbols of its own preamble and burst, within its sync window. -/
def Ctx.shadowGoesOn (x : Ctx) (k : Candidate) : Bool :=
  (match x.eab.shadow with | some o => o.stamp == k.stamp | none => false) && (stageOf k.syms).isSome

/-- The shadow correlator reports a preamble (R316); a candidate 6 dB above L_ref captures (R317). -/
def State.shadowDetect (s : State) (c : Fin 256) (k : Candidate) (now : Nat) : State :=
  let t := s.modEab c (fun e => { e with shadow := some (shadowAfter e.shadow k)
                                         bursts := if shadowIsNew e.shadow k then e.bursts + 1 else e.bursts })
  let l := (shadowAfter s.ctxs[c].eab.shadow k).level
  if s.ctxs[c].eab.rx.level + 60 ≤ l then t.eabAbandon c 6 (t.symbolsTo c now) (some l) else t

/-- The candidate that symbols from its detection on give, or the one held with more of them. Its level is that of the symbols of its
detection. -/
def Ctx.candidate (x : Ctx) (syms : List EabSym) (foffset : Int) (stamp : Nat) : Candidate :=
  let new : Candidate := { level := levelOver ((x.kept syms).take detectSymbols), foffset := foffset, stamp := stamp, syms := x.decisions syms
                           raw := x.kept syms, marks := symbolMarks syms }
  match x.eab.shadow with
  | some o =>
    if o.stamp = stamp then { o with foffset := foffset, syms := o.syms ++ new.syms, raw := o.raw ++ new.raw, marks := orMarks o.marks new.marks }
    else new
  | none => new

/-- EAB_SHADOW_DETECT (R316): `stamp` tells the preamble, `now` is the sample time of the report; `main` holds the main receiver's symbols
since its event before. -/
def execEabShadowDetect (dt : Nat) (c : Fin 256) (syms main : List EabSym) (snr : Nat) (foffset : Int) (stamp now : Nat) (s : State) :
    Host.Outcome State Fault Refusal :=
  s.occurs dt (fun t =>
      let k := t.ctxs[c].candidate syms foffset stamp
      t.eabServes c && t.ctxs[c].eab.receiving && snr == t.ctxs[c].candidateSnr k && (t.ctxs[c].shadowGoesOn k || t.ctxs[c].shadowFinds k))
    (fun t => (t.hearSymbols c main).shadowDetect c (t.ctxs[c].candidate syms foffset stamp) now)

/-- The shadow detector drops its candidate (R316): it fails R314, or its signal-to-noise ratio has stayed below DET_SNR for 8 consecutive
symbols. -/
def Ctx.shadowDrops (x : Ctx) (syms : List EabSym) (snrs : List Nat) : Bool :=
  match x.eab.shadow with
  | some k =>
    let l := k.raw ++ x.kept syms
    (stageOf (k.syms ++ x.decisions syms)).isNone || (snrs.length == 8 && snrs == (l.drop (l.length - 8)).map (fun y => snrOver [y] x.eab.noise) &&
      snrs.all (fun v => decide (v < x.active.detSnr)))
  | none => false

/-- EAB_SHADOW_DROP (R316). -/
def execEabShadowDrop (dt : Nat) (c : Fin 256) (syms : List EabSym) (snrs : List Nat) (s : State) : Host.Outcome State Fault Refusal :=
  s.occurs dt (fun t => t.eabServes c && t.ctxs[c].eab.receiving && t.ctxs[c].shadowDrops syms snrs)
    (fun t => t.modEab c (fun e => { e with shadow := none }))

/-- The states in which a level rise ends a reception (R318). -/
def RxSt.rises : RxSt → Bool
  | .header => true
  | .payload => true
  | .filtered => true
  | _ => false

/-- The last 32 symbols of a reception. -/
def Reception.rise (r : Reception) : List EabSym := r.raw.drop (r.raw.length - 32)

/-- A level rise that has lasted (R318): the first 4 of the last 32 symbols and every later one that is not erased lie more than 6 dB above
L_ref. -/
def Reception.levelRose (r : Reception) : Bool :=
  r.rise.length == 32 && !((r.rise.take 4).any (fun y => y.invalid)) &&
    (r.rise.filter (fun y => !y.invalid)).all (fun y => decide (r.level + 60 < levelOver [y]))

/-- Level of the rise (Table 8.19): that of its last symbol that is not erased (log entry 69). -/
def Reception.riseLevel (r : Reception) : Option Int := (r.rise.filter (fun y => !y.invalid)).getLast?.map (fun y => levelOver [y])

/-- EAB_LEVEL_RISE (R318): 32 symbols after the rise began, without a capture; `stamp` is the sample time of their end. -/
def execEabLevelRise (dt : Nat) (c : Fin 256) (syms : List EabSym) (stamp : Nat) (s : State) : Host.Outcome State Fault Refusal :=
  s.occurs dt (fun t => t.eabServes c && t.ctxs[c].eab.st.rises && (t.ctxs[c].heard syms).levelRose)
    (fun t => (t.hearSymbols c syms).eabAbandon c 7 (t.symbolsTo c stamp) (t.ctxs[c].heard syms).riseLevel)

/-! ### The noise floor (R322, R323) -/

/-- A 10 ms block that ends now qualifies (R322): at no point in it was a burst received, a shadow candidate held, the spate flag raised,
or a sample invalid, overrange, or blanked in a context that honours blanking. -/
def State.nfQualifies (s : State) (c : Fin 256) (invalid : Bool) (m : Marks) : Bool :=
  let x := s.ctxs[c]
  !invalid && !m.overrange && !(m.blanked && x.active.honour) && !x.eab.receiving && x.eab.shadow.isNone && !x.spateFlag &&
    s.since x.eab.endPs (10 * msPs) && s.since x.eab.spatePs (10 * msPs)

/-- EAB_NF_BLOCK (R322): the power of a 10 ms block, reach-referred. -/
def execEabNfBlock (dt : Nat) (c : Fin 256) (power : Nat) (invalid : Bool) (marks : Marks) (s : State) : Host.Outcome State Fault Refusal :=
  s.occurs dt (fun t => t.eabServes c && t.nfQualifies c invalid marks)
    (fun t => t.modEab c (fun e => { e with
      noise := power
      nfBlocks := e.nfBlocks ++ [t.densityAt t.ctxs[c].reachOf power t.ctxs[c].active.eabChannel t.ctxs[c].active.centre] }))

/-- Put a value into an ascending list. -/
def insertUp (x : Int) : List Int → List Int
  | [] => [x]
  | y :: t => if x ≤ y then x :: y :: t else y :: insertUp x t

/-- The nearest-rank percentile of a list: rank ⌈p n / 100⌉ (log entry 25). -/
def percentile (p : Nat) (l : List Int) : Int := (l.foldr insertUp []).getD ((p * l.length + 99) / 100 - 1) 0

/-- Payload of a noise-floor report (Table 8.21). -/
def nfPayload (blocks : List Int) (periodMs busyMs bursts : Nat) : List Byte :=
  (if blocks.length < 10 then bytesOf 2 0x8000 ++ bytesOf 2 0x8000 ++ bytesOf 2 0x8000
    else bytesOfInt16 (percentile 10 blocks) ++ bytesOfInt16 (roundDiv blocks.sum blocks.length) ++ bytesOfInt16 (percentile 90 blocks)) ++
    bytesOf 2 (min blocks.length 65535) ++ bytesOf 4 periodMs ++ bytesOf 4 busyMs ++ bytesOf 2 (min bursts 65535) ++ [0, 0]

/-- The clock at which the noise-floor period ends. -/
def Ctx.nfEnd (x : Ctx) : Nat := x.eab.nfStartPs + x.active.nfPeriod * secPs

/-- Time in the period with a burst being received, ms (Table 8.21). -/
def Ctx.busyMs (x : Ctx) : Nat := (x.eab.busyPs + (if x.eab.receiving then x.nfEnd - x.eab.rxPs else 0)) / msPs

/-- The end of a period (R323, R324): the report, and the next period begins. No marked sample is in a block that qualified. -/
def State.nfReport (s : State) (c : Fin 256) : State :=
  let x := s.ctxs[c]
  let stamp := s.sampleTime c x.nfEnd
  (s.modEab c (fun e => e.newPeriod x.nfEnd)).when (s.dataOn c) (fun t => t.deliver c x.reachOf
    { typ := 0x60, stamp := stamp, spanEnd := stamp
      payload := nfPayload x.eab.nfBlocks (1000 * x.active.nfPeriod) x.busyMs x.eab.bursts })

/-- EAB_NF_REPORT (R323). -/
def execEabNfReport (dt : Nat) (c : Fin 256) (s : State) : Host.Outcome State Fault Refusal :=
  s.occurs dt (fun t => t.eabServes c && t.ctxs[c].active.nfPeriod != 0 && decide (t.ctxs[c].nfEnd ≤ t.clock)) (fun t => t.nfReport c)

/-! ### The replay journal (R306) -/

/-- An entry of the replay table in a REPLAY record: 16 bytes (log entry 26). -/
def ReplayKey.bytes (k : ReplayKey) : List Byte :=
  bytesOf 2 k.origin ++ bytesOf 1 k.slot ++ [0] ++ bytesOf 4 k.highest ++ bytesOf 4 k.window.toNat ++ [0, 0, 0, 0]

/-- One session for the entries that changed since the previous one (R306), at most 128 in a record (R488). -/
def State.replaySession (s : State) : State :=
  let l := (s.replay.filter (fun k => k.dirty)).take 128
  if l.isEmpty then s
  else
    let q := s.journalRequest ⟨.append 4 3 0 (l.flatMap ReplayKey.bytes), false⟩
    if 1 < q.2 then s
    else { q.1 with replay := q.1.replay.map (fun k => if l.contains k then { k with dirty := false } else k), replayJournalPs := some s.clock }

/-- EAB_REPLAY_JOURNAL (R306): at most one session per second. -/
def execEabReplayJournal (dt : Nat) (s : State) : Host.Outcome State Fault Refusal :=
  s.occurs dt (fun t => t.serving && t.since t.replayJournalPs secPs) State.replaySession

end Sys2Proof.Machine
end

