-- ==== Sys2Proof/Machine/Follow.lean ====
section
/-! DEFINITION. Chapter 09: scout checks, the choice of a switch, landings, switches and run-outs, and the selection of FM and
AM twins. -/

namespace Sys2Proof.Machine

def State.modFollow (s : State) (c : Fin 256) (f : Follow → Follow) : State := s.modCtx c (fun x => { x with follow := f x.follow })

/-! ### The entry of a candidate (R329, R335, R344) -/

/-- The follow-set member whose parameters a candidate takes (R328, R329). -/
def State.memberOf (s : State) (c : Fin 256) (k : Cand) : Option Member :=
  let exact := (s.followSet c).find? (fun m => sameCarrier m.carrier k.carrier)
  if k.carrier.std.toNat == s.ctxs[c].active.std then (if k.sources.getLsbD srcImage then exact else none)
  else s.memberFor c k.carrier

/-- STDPARAM words of a member in an entry; an empty set leaves the entry's own (R328). -/
def Member.params4 (m : Member) (e : Entry) : Entry :=
  if m.ownParam || m.params.isEmpty then e
  else (((e.set 10 (m.params.getD 0 0)).set 11 (m.params.getD 1 0)).set 12 (m.params.getD 2 0)).set 13 (m.params.getD 3 0)

/-- The context's active entry tuned to a candidate: CENTRE, STANDARD, SERVICE_ID, RESPONSE, PRESET, RESAMP, RESAMP_RATE and
STDPARAM. -/
def State.candEntry (s : State) (c : Fin 256) (k : Cand) : Entry :=
  let e := s.ctxs[c].active
  let dab := k.carrier.std == 3
  let m := s.memberOf c k
  let e1 := match m with | some m => m.params4 e | none => e
  let w0 := setBits e[0] 27 24 k.carrier.std.toNat
  let w1 := if k.carrier.std.toNat == e.std then e[1] else BitVec.ofNat 32 (match m with | some m => m.ident | none => 0)
  let w4 := match m with
    | some m => setBits (setBits e[4] 31 26 m.response.toNat) 25 24 m.preset.toNat
    | none => e[4]
  ((((e1.set 0 w0).set 1 w1).set 2 (BitVec.ofNat 32 k.carrier.freq)).set 4 (setBits w4 23 23 dab.toNat)).set 5 (if dab then 2048000 else e[5])

/-- The lowest tributary of a reach that carries an entry (R179, R344). -/
def State.tribFor (s : State) (r : Fin 4) (e : Entry) : Option (Fin 8) :=
  (List.finRange 8).find? (fun n => tribCarries s.reaches[r].tribs[n].reg (e.moveTo r n))

/-! ### Checks (R332 to R340) -/

/-- The entry that takes a scout to a candidate, when the scout can reach it (R179, R332, R335). -/
def State.scoutEntry (s : State) (sc c : Fin 256) (k : Cand) : Option Entry :=
  let x := s.ctxs[sc]
  let r := x.active.reach
  let e := s.candEntry c k
  let slotOk := k.carrier.std != 3 || (match x.place with | some p => decide (p.slot < 16) | none => false)
  if !slotOk || !inCatchment s.reaches[r].catch_ e then none
  else (s.tribFor r e).map (fun n => x.active.keepScout (e.moveTo r n))

/-- A candidate may be checked now: two seconds after the beginning of its last check, unless the context is in HOLD (R334). -/
def Cand.due (k : Cand) (hold : Bool) (now : Nat) : Bool :=
  hold || (match k.checkedAt with | some t => decide (t + 2 * secPs ≤ now) | none => true)

/-- Until JOURNAL sets, scouts use only the lists of the image (R85). -/
def State.listOpen (s : State) (k : Cand) : Bool := s.journal.ready || k.sources.getLsbD srcImage

/-- The candidate checked longest ago, one never checked before all others, among those the scout can take (R334). -/
def State.candToCheck (s : State) (sc c : Fin 256) : Option (Cand × Entry) :=
  let hold := s.ctxs[c].st == .hold
  let l := (s.ctxs[c].follow.cands.filter (fun k => k.due hold s.clock && s.listOpen k)).filterMap (fun k => (s.scoutEntry sc c k).map (fun e => (k, e)))
  l.foldl (fun (b : Option (Cand × Entry)) x => match b with
    | some y => if (x.1.checkedAt.map (· + 1)).getD 0 < (y.1.checkedAt.map (· + 1)).getD 0 then some x else some y
    | none => some x) none

/-- The contexts that a scout group serves, in the order of R334. -/
def State.followed (s : State) (group : Nat) : List (Fin 256) :=
  let l := allCtxs.filter (fun c =>
    let x := s.ctxs[c]
    x.st != .idle && !x.active.scout && x.active.afMode != 0 && x.active.afGroup == group)
  let order := fun (q : List (Fin 256)) => (List.range 8).reverse.flatMap (fun k => q.filter (fun c => s.ctxs[c].active.priority == k))
  order (l.filter (fun c => s.ctxs[c].st == .hold)) ++ order (l.filter (fun c => s.ctxs[c].st != .hold))

/-- A pending entry of the sequencer's own. -/
def Ctx.sequencerPending (x : Ctx) : Bool := match x.pending with | some p => p.origin == .sequencer | none => false

/-- A scout is free (R334): placed in a running reach, with neither a check nor a sequencer change under way. A host commit that is pending
is replaced (Table 1.8). -/
def State.scoutFree (s : State) (sc : Fin 256) : Bool :=
  let x := s.ctxs[sc]
  x.active.scout && s.chainRuns sc && x.st != .migrating && x.follow.check.isNone && !x.sequencerPending

/-- The next check of a free scout: a sequencer commit retunes it (R334). A commit that the checks refuse starts none. -/
def State.startCheck (s : State) (sc : Fin 256) : State :=
  match (s.followed s.ctxs[sc].active.group).findSome? (fun c => (s.candToCheck sc c).map (fun k => (c, k))) with
  | none => s
  | some (c, k, e) =>
    let r := s.commit .sequencer sc e
    if r.2 ≠ 0 then s
    else (r.1.modFollow sc (fun f => { f with check := some (c, k.carrier) })).modFollow c (fun f => { f with
      cands := f.cands.map (fun x => if sameCarrier x.carrier k.carrier then { x with checkedAt := some s.clock } else x) })

/-- SCOUT_CHECK_START (R334). -/
def execScoutCheckStart (dt : Nat) (sc : Fin 256) (s : State) : Host.Outcome State Fault Refusal :=
  s.occurs dt (fun t => t.serving && t.scoutFree sc) (fun t => t.startCheck sc)

/-- The survey of Table 9.2: the standard's lock, and a carrier-to-noise ratio not below the followed context's LOCK_CNR, 0.5 dB (R336). -/
def State.surveyed (s : State) (sc : Fin 256) (k : Carrier) : Bool :=
  let x := s.ctxs[sc]
  match k.std.toNat with
  | 1 => x.fm.carrierLock
  | 2 => x.am.lock
  | 3 => x.dab.sync
  | _ => x.eab.lock

/-- The ratio lies below the followed context's LOCK_CNR (R336). -/
def Entry.belowCnr (e : Entry) (cnr : Nat) : Bool := (e.std == stdFm || e.std == stdAm) && decide (cnr < e.lockCnr)

/-- Two consecutive blocks A of class 0 or 1 (R336). -/
def Fm.cleanPair (f : Fm) : Option (Nat × Nat) :=
  match f.blocksA with
  | [a, b] => if a.2.val ≤ 1 ∧ b.2.val ≤ 1 ∧ f.rdsSync then some (a.1.toNat, b.1.toNat) else none
  | _ => none

/-- TX_IDs of headers that have passed since an instant, and whether a message of the burst was VERIFIED. -/
def Eab.heardIds (e : Eab) (since : Nat) : List (Nat × Bool) :=
  ((e.ended.filter (fun q => decide (since ≤ q.atPs))).filterMap (fun q => q.rx.header.map (fun h => (hTxId h, q.status == 0 && q.auth == 0)))) ++
    (e.rx.header.map (fun h => (hTxId h, false))).toList

/-- What the scout has seen of the expected identity (Table 9.2): 0 what verification needs, 2 another identity, 4 the identity
without the authentication that AUTH 0b01 asks for, 3 nothing yet. -/
def State.identitySeen (s : State) (sc c : Fin 256) (k : Carrier) : Nat :=
  let x := s.ctxs[sc]
  let want := s.expectedId c k
  match k.std.toNat with
  | 1 => match x.fm.cleanPair with
    | some (a, b) => if a = want % 65536 ∧ b = want % 65536 then 0 else 2
    | none => 3
  | 3 => match x.dab.eid with
    | some e => if e = want % 65536 then 0 else 2
    | none => 3
  | 4 =>
    let l := x.eab.heardIds x.follow.checkPs
    let own := l.filter (fun p => p.1 == want % 4096)
    if own.any (fun p => s.ctxs[c].active.std != stdEab || s.ctxs[c].active.auth != 1 || p.2) then 0 else if !own.isEmpty then 4 else if !l.isEmpty then 2 else 3
  | _ => 0

/-- Limit of a check in ms (Table 9.2). -/
def checkLimitMs (std : Nat) : Nat := if std = stdFm then 250 else if std = stdAm then 150 else if std = stdDab then 300 else 3000

/-- The verification is complete: for AM, the ratio has been at or above LOCK_CNR for a further 100 ms (Table 9.2). -/
def State.checkDone (s : State) (sc c : Fin 256) (k : Carrier) (lowest heldUs : Nat) : Bool :=
  s.surveyed sc k && (if k.std.toNat = stdAm then decide (100000 ≤ heldUs) && !s.ctxs[c].active.belowCnr lowest else s.identitySeen sc c k == 0)

/-- The result of a check, when it has one: 0 VERIFIED, else the REASON of REJECTED (R336, R337, Table 9.5). -/
def State.checkResult (s : State) (sc c : Fin 256) (k : Carrier) (cnr lowest heldUs : Nat) : Option Nat :=
  let limit := s.ctxs[sc].follow.checkPs + checkLimitMs k.std.toNat * msPs
  if !s.ctxs[sc].invalid && s.ctxs[c].active.belowCnr cnr then some 1
  else if (k.std == 1 || k.std == 3) && s.expectedId c k == 0 then some 2
  else if s.checkDone sc c k lowest heldUs && decide (s.clock ≤ limit) then some 0
  else if s.clock < limit then none
  else if !s.surveyed sc k then some 3
  else if s.identitySeen sc c k = 0 then some 3 else some (s.identitySeen sc c k)

/-- A candidate after a check; of two checks that end in one FAB cycle the lower scout's counts (Table 9.7). -/
def Cand.checked (x : Cand) (sc : Fin 256) (ok : Bool) (level : Int) (cnr now : Nat) : Cand :=
  let same := match x.checks with | q :: _ => q.2.2 == now | [] => false
  if same && decide (x.lastBy < sc) then x
  else { x with checks := ((ok, level, now) :: (if same then x.checks.drop 1 else x.checks)).take 2, lastBy := sc, lastCnr := some cnr }

/-- A verified candidate joins the learned list; the oldest of 16 leaves (R333). -/
def Follow.learn (f : Follow) (k : Carrier) : Follow :=
  if f.learned.any (sameCarrier k) then f
  else { f with learned := (if 16 ≤ f.learned.length then f.learned.drop 1 else f.learned) ++ [k], learnedDirty := true }

/-- One learned candidate in an AF_LEARNED record: 12 bytes (log entry 26). -/
def learnedBytes (k : Carrier) : List Byte :=
  bytesOf 1 k.std.toNat ++ bytesOf 1 k.chan.toNat ++ [0, 0] ++ bytesOf 4 k.freq ++ bytesOf 4 k.ident

/-- The learned list's journal session, at most one per context in 60 s (R333). -/
def State.journalLearned (s : State) (c : Fin 256) : State :=
  let f := s.ctxs[c].follow
  if !f.learnedDirty || !s.since f.learnedAt (60 * secPs) then s
  else
    let q := s.journalRequest ⟨.append 4 2 c.val (f.learned.flatMap learnedBytes), false⟩
    if 1 < q.2 then s else q.1.modFollow c (fun f => { f with learnedDirty := false, learnedAt := some s.clock })

/-- AF_LEARNED_JOURNAL (R333). -/
def execAfLearnedJournal (dt : Nat) (c : Fin 256) (s : State) : Host.Outcome State Fault Refusal :=
  s.occurs dt State.serving (fun t => t.journalLearned c)

/-- A check ends with a result; the scout is free and sends one AF event under its own number (R336 to R340). -/
def State.endCheck (s : State) (sc : Fin 256) (result : Nat) (level : Option Int) (cnr : Option Nat) : State :=
  match s.ctxs[sc].follow.check with
  | none => s
  | some (c, k) =>
    let t := (s.modFollow sc (fun f => { f with check := none })).modFollow c (fun f =>
      { f with cands := f.cands.map (fun x => if sameCarrier x.carrier k then x.checked sc (result == 0) (level.getD 0) (cnr.getD 0) s.clock else x) })
    let u := if result = 0 then t.modFollow c (fun f => f.learn { k with ident := s.expectedId c k }) else t
    let v := if result = 0 && u.ctxs[c].active.afLearned && u.ctxs[c].follow.cands.any (fun x => sameCarrier x.carrier k) then
      u.addCand c (sourceBit srcLearned) k else u
    (v.journalLearned c).afEvent (if result = 0 then 2 else 3) result sc c sc.val s.ctxs[sc].reachOf.val k 0 level cnr none s.nowNs

/-- SCOUT_CHECK_END (R336): after the scout's swap, once the check has its result, with the followed context's own level (R338). -/
def execScoutCheckEnd (dt : Nat) (sc : Fin 256) (level : Int) (cnr lowest heldUs : Nat) (ownLevel : Int) (s : State) : Host.Outcome State Fault Refusal :=
  s.occurs dt (fun t => t.serving && t.ctxs[sc].follow.check.isSome && !t.ctxs[sc].sequencerPending)
    (fun t => t.withSome t.ctxs[sc].follow.check (fun q u => u.when ((u.ownLevel q.1).getD ownLevel == ownLevel) (fun u =>
      u.withSome (u.checkResult sc q.1 q.2 cnr lowest heldUs) (fun n v => v.endCheck sc n (some level) (some cnr)))))

/-! ### The choice (R341 to R343) -/

/-- A check's result is fresh for 10 s (R338). -/
def freshCheck (now : Nat) (q : Bool × Int × Nat) : Bool := q.1 && decide (now ≤ q.2.2 + 10 * secPs)

/-- The last check is VERIFIED and fresh. -/
def Cand.freshNow (k : Cand) (now : Nat) : Bool := match k.checks with | q :: _ => freshCheck now q | [] => false

/-- Both last checks are VERIFIED, fresh and at least `floor` in level (R341). -/
def Cand.beats (k : Cand) (now : Nat) (floor : Int) : Bool :=
  k.checks.length == 2 && k.checks.all (fun q => freshCheck now q && decide (floor ≤ q.2.1))

/-- The candidate with the highest level in its last check; the first of equals. -/
def highest (l : List Cand) : Option Cand :=
  let lvl := fun (k : Cand) => match k.checks with | q :: _ => q.2.1 | [] => 0
  l.foldl (fun (b : Option Cand) x => match b with
    | some y => if lvl y < lvl x then some x else some y
    | none => some x) none

/-- The candidate that the sequencer decides for, if any (R341 to R343): the context's own level is the one it reported over the last 100 ms
(R338). AF_MARGIN counts 0.5 dB, levels 0.1 dB. -/
def State.chosen (s : State) (c : Fin 256) : Option Cand :=
  let x := s.ctxs[c]
  let own := x.follow.cands.filter (fun k => k.carrier.std.toNat == x.active.std)
  if x.active.afMode == 0 || x.active.scout then none
  else if x.st == .valid then
    match s.ownLevel c with
    | none => none
    | some l =>
      if !s.since x.follow.lastSwitch (30 * secPs) then none
      else highest (own.filter (fun k => k.beats s.clock (l + 5 * (x.active.afMargin : Int))))
  else if x.st == .hold && (match x.follow.holdSince with | some t => decide (t + secPs ≤ s.clock) | none => false) then
    match highest (own.filter (fun k => k.freshNow s.clock)) with
    | some k => some k
    | none =>
      if x.active.afMode == 2 then
        highest (x.follow.cands.filter (fun k => k.carrier.std.toNat != x.active.std && k.freshNow s.clock && (s.memberFor c k.carrier).isSome))
      else none
  else none

/-! ### The landing (R344 to R347) -/

/-- The landing entry (R344); a member of a pair lands in its own reach (R363). -/
def State.landingEntry (s : State) (c : Fin 256) (k : Cand) (ownReach : Bool) : Entry :=
  let e := (s.candEntry c k).anyPlace
  let inside := fun (r : Fin 4) => s.reachEnabled r && inCatchment s.reaches[r].catch_ e
  let own := s.ctxs[c].reachOf
  let r := if ownReach || (inside own && (s.tribFor own e).isSome) then own else ((allReaches.find? inside).getD own)
  e.moveTo r ((s.tribFor r e).getD 0)

/-- The check of landing entries (R345): what the context holds stays counted. -/
def State.landCheck (s : State) (m : Room) (extra new : List (Fin 256 × Entry)) (c : Fin 256) (e : Entry) : Verdict :=
  s.check { view := s.viewWith new, own := false } m (s.liveEntries [] ++ extra) c e

/-- A landing that waits for its boundary. -/
def State.setLanding (s : State) (c : Fin 256) (e : Entry) (p : Place) (k : Carrier) (pair : Option (Fin 256)) : State :=
  s.modFollow c (fun f => { f with landing := some { entry := e, place := p, cand := k, pair := pair, decidedPs := s.clock } })

/-- A failed check (R345): NO_ROOM, and for a context in HOLD the direct retune. -/
def State.noRoom (s : State) (c : Fin 256) (k : Cand) (reason : Nat) : State :=
  s.afEvent 8 reason c c 0xFF 0xFF k.carrier k.sources none none none s.nowNs

/-- Mark a direct retune whose swap is to be reported as SWITCHED_HARD. -/
def State.setHard (s : State) (c : Fin 256) (k : Cand) : State := s.modFollow c (fun f => { f with hard := some k.carrier })

/-- A single context lands (R345). -/
def State.landSingle (s : State) (c : Fin 256) (k : Cand) : State :=
  let e := (s.landingEntry c k false).stored c
  match s.landCheck s.room [] [(c, e)] c e with
  | .given p => s.setLanding c e p k.carrier none
  | .refused n =>
    let t := s.noRoom c k n
    if s.ctxs[c].st == .hold then
      let q := t.commit .sequencer c e
      if q.2 = 0 then q.1.setHard c k else t
    else t

/-- A pair lands together, or not at all (R363). -/
def State.landPair (s : State) (c p : Fin 256) (k : Cand) : State :=
  let lo := if c < p then c else p
  let hi := if c < p then p else c
  let a := (s.landingEntry lo k true).stored lo
  let b := (s.landingEntry hi k true).stored hi
  let new := [(lo, a), (hi, b)]
  let fail := fun (q : Fin 256) (n : Nat) =>
    let t := s.noRoom q k n
    if s.ctxs[lo].st == .hold && s.ctxs[hi].st == .hold then
      let r := t.commitPair .sequencer lo hi a b
      if r.2 = 0 then (r.1.setHard lo k).setHard hi k else t
    else t
  match s.landCheck s.room [] new lo a with
  | .refused n => fail lo n
  | .given x =>
    match s.landCheck (s.room.add lo a x) [(lo, a)] new hi b with
    | .refused n => fail hi n
    | .given y => (s.setLanding lo a x k.carrier (some hi)).setLanding hi b y k.carrier (some lo)

/-- A switch is decided (R341, R342): the landing is checked. A pair follows only while both its members are in VALID or HOLD (R343, R363). -/
def State.decideSwitch (s : State) (c : Fin 256) : State :=
  match s.chosen c with
  | none => s
  | some k => match s.partnerOf c with
    | some p => if s.ctxs[p].st == .valid || s.ctxs[p].st == .hold then s.landPair c p k else s
    | none => s.landSingle c k

/-- The context is open to a decision: no change of the sequencer's is under way. A host commit that is pending is replaced by a direct
retune, and ends a landing at its swap (Tables 1.8 and 9.7). -/
def Ctx.decides (x : Ctx) : Bool := x.follow.landing.isNone && x.follow.hard.isNone && !x.sequencerPending

/-- AF_SWITCH_DECISION (R341, R342). -/
def execAfSwitchDecision (dt : Nat) (c : Fin 256) (s : State) : Host.Outcome State Fault Refusal :=
  s.occurs dt (fun t => t.serving && t.ctxs[c].decides) (fun t => t.decideSwitch c)

/-- The contexts of a landing: its own, and the partner's. -/
def Ctx.landers (x : Ctx) (c : Fin 256) : List (Fin 256) :=
  match x.follow.landing with
  | some l => c :: l.pair.toList
  | none => []

/-- One landing starts (R346): its chain from cleared state, its engine as at an entry to ACQUIRE. -/
def State.startLanding (s : State) (c : Fin 256) : State :=
  match s.ctxs[c].follow.landing with
  | none => s
  | some l =>
    (s.modFollow c (fun f => { f with landing := some { l with
      started := true, startedPs := s.clock, chain := some (Chain.fresh l.entry (s.tribOf l.entry) (s.clock + fabPs))
      dab := ({} : Dab).select l.entry.subs } })).afEvent 4 0 c c 0xFF l.place.reach.val l.cand 0 none none none s.nowNs

def State.landingIs (s : State) (c : Fin 256) (p : Landing → Bool) : Bool :=
  match s.ctxs[c].follow.landing with | some l => p l | none => false

/-- LANDING_START (R346): the context's next frame boundary after the decision. -/
def execLandingStart (dt : Nat) (c : Fin 256) (s : State) : Host.Outcome State Fault Refusal :=
  s.occurs dt (fun t => t.serving && t.landingIs c (fun l => !l.started && decide (l.decidedPs < t.clock)) && t.ctxs[c].boundaryPs == some t.clock)
    (fun t => t.forEach (t.ctxs[c].landers c) (fun q u => u.startLanding q))

/-- Limit of Table 9.3. -/
def landingLimitPs (std : Nat) : Nat := if std = stdDab then 3 * secPs else 2 * secPs

/-- FM state of a landing once its demodulator has delivered (R221 to R223, R230). -/
def Fm.land (f : Fm) (e : Entry) (d : Landed) (now : Nat) : Fm :=
  let a := if f.carrierLock && decide (d.highest + 6 < e.lockCnr) && decide (50000 ≤ d.failUs) then f.carrierLost d.highest else f
  let g := if !a.carrierLock && decide (e.lockCnr ≤ d.lowest) && decide (8000 ≤ d.lockUs) then a.carrierGained e.stereoAuto d.lowest now else a
  let h := if g.pilotWindow && decide (158000 ≤ d.lockUs) then g.pilotDecided (pilotPresent d.pilotUs d.deviation) else g
  if e.rdsEn && h.carrierLock then h.bits e d.rds d.rdsStamp {} else h

/-- AM state of a landing (R228): with DETECT synchronous, `lockUs` and `failUs` are the carrier loop's. -/
def Am.land (a : Am) (e : Entry) (d : Landed) : Am :=
  if a.lock && decide (100000 ≤ d.failUs) && (e.detect == 1 || decide (d.highest + 6 < e.lockCnr)) then { a with lock := false }
  else if decide (20000 ≤ d.lockUs) && (e.detect == 1 || decide (e.lockCnr ≤ d.lowest)) then
    { a with lock := true, loopLocked := a.loopLocked || e.detect == 1, syncDet := syncInUse e.detect (a.loopLocked || e.detect == 1) }
  else a

/-- The context as the landing's engine works: the landing's entry and DAB state, no partner, and nothing to send. -/
def State.asLanding (s : State) (c : Fin 256) (l : Landing) : State := s.modCtx c (fun x => { x with active := l.entry, dab := l.dab, st := .idle })

/-- A subchannel of the landing has delivered. -/
def Landing.delivers (l : Landing) (q : Fin 64) : Landing := { l with delivered := q :: l.delivered.filter (fun r => r != q) }

/-- A logical frame of the landing, as the Viterbi decoder returns it: delivered, or a part of a superframe (R269, R270). -/
def State.landFrame (s : State) (c : Fin 256) (l : Landing) (p : Fin 64 × LogicalFrame) : Landing :=
  let t := s.asLanding c l
  let sub := fun (f : DabSub → DabSub) => { l with dab := { l.dab with subs := l.dab.subs.map (fun x => if x.sub == p.1 then f x else x) } }
  match l.dab.orgOf? p.1 with
  | some o =>
    if !l.dab.frameReady || !t.frameReturned c p.1 p.2 then l
    else if !l.dab.yields p.1 then sub (fun x => { x with discard := x.discard - 1 })
    else if l.dab.classOf p.1 == .dabPlus then sub (fun x => x.form (undisperse p.2.bits) (t.frameInfo c o p.2))
    else l.delivers p.1
  | none => l

/-- A superframe of the landing, as the Reed-Solomon decoder returns it (R270, R271). -/
def Landing.super (l : Landing) (p : Fin 64 × List Byte × List Nat) : Landing :=
  match l.dab.sub? p.1 with
  | some x => if x.frames.length = 5 ∧ rsReturns x.raw p.2.1 p.2.2 ∧ fireOk p.2.1 then l.delivers p.1 else l
  | none => l

/-- One CIF of the landing (R257, R262, R266). -/
def State.landCif (s : State) (c : Fin 256) (l : Landing) (q : LandedCif) : Landing :=
  if !l.dab.sync || !(s.asLanding c l).ficReturned c q.fic q.stamp q.symbols then l
  else
    let d := l.dab.useFic l.entry.service q.fic.fibs q.stamp
    let m : Landing := { l with dab := match q.msc with | some k => d.store k s.clock | none => d }
    q.supers.foldl Landing.super (q.frames.foldl (s.landFrame c) m)

/-- Frame synchronisation of a landing, gained and lost (R256). -/
def Dab.landSync (b : Dab) (d : Landed) : Dab :=
  if b.sync && decide (3 ≤ d.missed) then b.syncLost
  else if !b.sync && b.nullFits d.apartMs && d.prs && decide (d.offset.natAbs ≤ 10000) then b.synced
  else b

/-- EAB lock of a landing, gained and lost, with its noise estimate (R310). -/
def Eab.land (b : Eab) (x : Ctx) (d : Landed) : Eab :=
  let on := if b.lock then !x.eabLoses d.samples d.marked else x.eabGains d.samples d.marked
  { b with lock := on, lockLost := b.lockLost || (b.lock && !on), noise := if on && !b.lock then d.power else b.noise }

/-- The condition of Table 9.3. -/
def State.landingIsReady (s : State) (c : Fin 256) (l : Landing) : Bool :=
  match l.entry.std with
  | 1 => l.fm.lock && (!l.entry.rdsEn || (let want := s.expectedId c l.cand % 65536; l.fm.cleanPair == some (want, want)))
  | 2 => l.am.lock
  | 3 => l.dab.lock && l.entry.subs.all (fun q => l.delivered.contains q)
  | _ => l.eab.lock

/-- The landing's engine takes what its demodulator has delivered, and whether the landing is ready is judged anew (R347). -/
def State.landingTakes (s : State) (c : Fin 256) (l : Landing) (d : Landed) : Landing :=
  let m : Landing := match l.entry.std with
    | 1 => { l with fm := l.fm.land l.entry d s.clock }
    | 2 => { l with am := l.am.land l.entry d }
    | 3 => d.cifs.foldl (s.landCif c) { l with dab := l.dab.landSync d }
    | _ => { l with eab := l.eab.land { s.ctxs[c] with active := l.entry, eab := l.eab } d, burst := d.burst }
  { m with ready := s.landingIsReady c m }

/-- LANDING_READY (R347): up to the limit, and while a ready landing waits for its switch. -/
def execLandingReady (dt : Nat) (c : Fin 256) (d : Landed) (s : State) : Host.Outcome State Fault Refusal :=
  s.occurs dt (fun t => t.serving && t.landingIs c (fun l => l.started && (l.ready || decide (t.clock ≤ l.startedPs + landingLimitPs l.entry.std))))
    (fun t => t.withSome t.ctxs[c].follow.landing (fun l u =>
      u.modFollow c (fun f => { f with landing := some (u.landingTakes c l d) })))

/-- A landing fails at its limit (R347): the candidate's last check counts as REJECTED. -/
def State.failLanding (s : State) (c : Fin 256) : State :=
  let mark := fun (t : State) (q : Fin 256) => match s.ctxs[q].follow.landing with
    | some l => t.modFollow q (fun f => { f with cands := f.cands.map (fun x => if sameCarrier x.carrier l.cand then
        { x with checks := match x.checks with | k :: r => (false, k.2) :: r | [] => [] } else x) })
    | none => t
  (((s.ctxs[c].landers c).foldl mark s)).endLanding c 7 3

/-- LANDING_FAILED (R347). -/
def execLandingFailed (dt : Nat) (c : Fin 256) (s : State) : Host.Outcome State Fault Refusal :=
  s.occurs dt (fun t => t.serving && t.landingIs c (fun l => l.started && !l.ready && decide (l.startedPs + landingLimitPs l.entry.std ≤ t.clock)))
    (fun t => t.failLanding c)

/-! ### The switch (R348 to R352) -/

/-- FM state after a switch: the landing's engine, with the side data of the context's own standard (R239). Frames of before the switch instant
come from the old chain, the others from the landing (R350), and the record that holds both carries CHANGE (R246). -/
def Fm.landed (f l : Fm) (keep : Bool) (e : Entry) (switchPs : Nat) : Fm :=
  let g := f.acquire keep e
  { l with oda := g.oda, pi := g.pi, piLast := g.piLast, work := g.work, items := g.items, sentItems := g.sentItems, waiting := g.waiting
           pcmDiscont := f.pcmDiscont
           audio := { l.audio with
             frames := f.audio.frames.filter (fun w => decide (w.atPs < switchPs)) ++ l.audio.frames.filter (fun w => decide (switchPs ≤ w.atPs))
             swaps := f.audio.swaps.filter (fun w => decide (switchPs < w + secPs)) ++ [switchPs], sentPs := f.audio.sentPs, mono := [] } }

/-- The context with its landing's engine (R348, R349). -/
def Ctx.landed (x : Ctx) (l : Landing) (switchPs : Nat) (now : Nat) : Ctx :=
  let e := l.entry
  let keep := x.active.std == e.std
  let y := { x with active := e, invalid := false, resettle := false, erased := false, restoreDue := false, demod := [], gain := 4 * e.cagcGain, levels := []
                    spateFlag := false, fm := x.fm.landed l.fm keep e switchPs, am := {}, dab := { digests := [] }
                    eab := { ended := x.eab.ended, endPs := x.eab.endPs, frozen := x.eab.frozen, nfStartPs := now } }
  match e.std with
  | 2 => { y with am := l.am }
  | 3 => { y with dab := { l.dab with digests := if keep then x.dab.digests else [] } }
  | 4 => { y with eab := { y.eab with lock := true, lockLost := l.eab.lockLost, noise := l.eab.noise } }
  | _ => y

/-- The clock value of a station time. -/
def State.clockAt (s : State) (ns : Nat) : Nat := ((s.clock : Int) - ((s.nowNs : Int) - ns) * 1000).toNat

/-- The old chain of a switch (R348, R350). The landing's records of more than 1 s before the switch instant are never sent. -/
def Ctx.oldChain (x : Ctx) (p : Place) (switchPs switchNs now : Nat) (built : List Built) : RunOut :=
  { entry := x.active, place := p, chain := x.chain, fm := { x.fm with audio := { x.fm.audio with frames := [] } }, am := x.am, gain := x.gain
    switchPs := switchPs, switchNs := switchNs, sincePs := now, waiting := built.filter (fun b => decide (switchNs ≤ b.spanEnd + 1000000000))
    late := x.outs.filter (fun y => decide (switchPs ≤ y.atPs)) }

/-- The division of frames and samples that a switch begins (R350): what the landing has formed from the switch instant on waits for the old
chain while that delivers frames and samples. -/
def Ctx.switchGate (x : Ctx) (l : Landing) (switchPs now : Nat) : Gate :=
  { pcmPs := switchPs, iqPs := switchPs, sincePs := now, pcmOpen := !x.pcmOn || x.chain.isNone, iqOpen := !x.iqOpen || x.chain.isNone
    wait := l.recent.filter (fun y => decide (switchPs ≤ y.atPs)) }

/-- The old carrier as a candidate (R352). -/
def State.oldCarrier (s : State) (c : Fin 256) : Carrier :=
  let e := s.ctxs[c].active
  let k : Carrier := { std := BitVec.ofNat 4 e.std, chan := e.std == stdEab && e.eabChannel, freq := e.centre, ident := 0 }
  { k with ident := s.expectedId c k }

/-- The switch instant may be this: the sample time of an output of the context at the frame boundary (R350). -/
def State.atOutput (s : State) (c : Fin 256) (stamp : Nat) : Bool :=
  let a := s.sampleTime c s.clock
  decide (stamp ≤ a) && decide (a ≤ stamp + (match s.ctxs[c].chain with | some k => k.outputsPs 1 / 1000 + 1 | none => 0))

/-- One context switches to its landing: it holds the landing's slots, and its old chain runs out (R348 to R350). `built` holds the records
that the landing built in the second before. The event tells of the context as it was. -/
def State.switchOne (s : State) (c : Fin 256) (stamp : Nat) (d : Landed) (built : List Built) : State :=
  let h := s.modCtx c (fun x => x.hearLanding c s.clock)
  let x := h.ctxs[c]
  match x.follow.landing with
  | none => s
  | some k =>
    let l := h.landingTakes c k d
    let at_ := s.clockAt stamp
    let delay := if selects x.active.std && selects l.entry.std then audioOffset x.fm.audio.mono l.fm.audio.mono at_ else none
    let t := (h.afEvent 5 0 c c 0xFF l.place.reach.val l.cand 0 none none delay stamp).modCtx c (fun x =>
      { (x.landed l at_ s.clock) with
          place := some l.place, chain := l.chain, mix := none, ending := none, due := [], validPs := 0, fade := none, waiting := false, placed := false
          outs := x.outs.filter (fun y => decide (y.atPs < at_)), gate := x.place.map (fun _ => x.switchGate l at_ s.clock)
          follow := { x.follow with landing := none, lastSwitch := some s.clock
                                    runOut := x.place.map (fun p => x.oldChain p at_ stamp s.clock built) } })
    let u := if l.entry.req == 1 then t.toState c .valid else t
    let v := u.modEab c (fun e => if l.entry.std == stdEab && u.isValid c then { e with st := .armed } else e)
    (v.refreshCands c).addCand c 0 (s.oldCarrier c)

/-- What the demodulators of a landing have delivered: the context's own, and the partner's. -/
def landedOf (c : Fin 256) (d other : Landed) (q : Fin 256) : Landed := if q = c then d else other

/-- The switch may take place (R348, R363, Table 9.7): at a frame boundary of the context, for a pair at a tick, every landing is ready, no
fade period runs, no burst is being received in either chain, and no commit is pending. -/
def State.switchDue (s : State) (c : Fin 256) (d other : Landed) : Bool :=
  (if (s.ctxs[c].landers c).length = 1 then s.ctxs[c].boundaryPs == some s.clock else s.ctxs[c].tickPs == some s.clock) &&
  (s.ctxs[c].landers c).all (fun q =>
    s.landingIs q (fun l => l.started && (s.landingTakes q l (landedOf c d other q)).ready && !(landedOf c d other q).burst) &&
      s.ctxs[q].fade.isNone && !s.ctxs[q].eab.receiving && s.ctxs[q].pending.isNone)

/-- AF_SWITCH (R348): what the landing has delivered since LANDING_READY, the partner's in a pair, the records that each has built, and the
switch instant. -/
def execAfSwitch (dt : Nat) (c : Fin 256) (other : Landed) (otherBuilt : List Built) (switchStamp : Nat) (d : Landed) (built : List Built)
    (s : State) : Host.Outcome State Fault Refusal :=
  s.occurs dt (fun t => t.serving && t.ctxs[c].follow.landing.isSome && t.switchDue c d other && t.atOutput c switchStamp)
    (fun t => t.forEach (t.ctxs[c].landers c) (fun q u =>
      u.switchOne q switchStamp (landedOf c d other q) (if q = c then built else otherBuilt)))

/-- RUN_OUT_END (R348): the old chain has built every record that R350 gives to it, or 1 s has passed, after which it sends none. -/
def execRunOutEnd (dt : Nat) (c : Fin 256) (built : List Built) (s : State) : Host.Outcome State Fault Refusal :=
  s.occurs dt State.serving (fun t => t.withSome t.ctxs[c].follow.runOut (fun o u =>
    u.endRunOut c (if u.clock ≤ o.sincePs + secPs then built else [])))

/-! ### Twins (R357, R360, R361) -/

/-- The decoding member of a pair. -/
def State.decodingMember (s : State) (c : Fin 256) : Fin 256 := if s.decoderOf (s.recordCtx c) then s.higherCtx c else s.recordCtx c

/-- The partner's soft bits of the decoding member's next header or codeword, or of its newest CIF, come too late (R357, R359). -/
def State.combineOverdue (s : State) (m : Fin 256) : Bool :=
  let x := s.ctxs[m]
  if x.active.std = stdDab then (match x.dab.lines with | k :: _ => decide (k.atPs + 4 * msPs ≤ s.clock) | [] => false)
  else match x.eab.st, x.eab.rx.header with
    | .header, _ => s.combineLate m (24 + 128)
    | .payload, some h => s.combineLate m (x.eab.rx.nextEnd h)
    | _, _ => false

/-- The decoding of a late partner goes on alone: EAB the next one, DAB that of the newest CIF (R357, R359). -/
def State.decodeAlone (s : State) (m : Fin 256) : State :=
  if s.ctxs[m].active.std = stdDab then s.modDab m (fun d =>
    { d with alone := ((d.lines.head?.bind (fun k => k.count)).toList ++ d.alone).take 4 })
  else s.modCtx (s.recordCtx m) (fun x => { x with twin := { x.twin with aloneNext := true } })

/-- TWIN_COMBINE_TIMEOUT (R357, R359): 2 ms after the last symbol of a header or codeword, 4 ms after a CIF. -/
def execTwinCombineTimeout (dt : Nat) (c : Fin 256) (s : State) : Host.Outcome State Fault Refusal :=
  s.occurs dt (fun t => t.serving && (t.partnerOf c).isSome && (t.ctxs[c].active.std == stdEab || t.ctxs[c].active.std == stdDab) &&
      t.combineOverdue (t.decodingMember c))
    (fun t => t.decodeAlone (t.decodingMember c))

/-- The last 1,000 ticks, newest first: the second ratio exceeded the first by 3 dB at every one (R360). -/
def leads (l : List (Nat × Nat)) : Bool := decide (1000 ≤ l.length) && (l.take 1000).all (fun p => decide (p.1 + 6 ≤ p.2))

/-- The member that is selected at a tick (R360): false the record context. Ratios of record context and other member in 0.5 dB, newest
first. -/
def selectionAt (now : Option Bool) (vl vh : Bool) (ticks : List (Nat × Nat)) : Option Bool :=
  match vl, vh with
  | false, false => none
  | true, false => some false
  | false, true => some true
  | true, true =>
    match now with
    | none => some (match ticks with | p :: _ => decide (p.1 < p.2) | [] => false)
    | some false => some (leads ticks)
    | some true => some (!leads (ticks.map (fun p => (p.2, p.1))))

/-- The instant up to which the member selected before supplies PCM frames: the switch instant, or the end of its last frame when it has left
VALID, from which the other carries on (R361, R362). -/
def State.pcmCut (s : State) (old : Fin 256) (switchPs : Nat) : Nat :=
  if s.isValid old then switchPs else match s.ctxs[old].fm.audio.sentPs with | some t => t + 1 | none => switchPs

/-- The member selected before still supplies I/Q samples. -/
def State.iqRuns (s : State) (old : Fin 256) : Bool := s.ctxs[old].iqOpen && s.chainRuns old

/-- The instant up to which it supplies I/Q samples: the switch instant, or the first sample that it has not. -/
def State.iqCut (s : State) (old : Fin 256) (switchPs : Nat) : Nat :=
  if s.iqRuns old then switchPs else s.ctxs[old].iqEndPs.getD switchPs

/-- The period of a PCM frame, ps. -/
def Entry.framePs (e : Entry) : Nat := 10 ^ 12 / pcmRate e.pcmMode

/-- PCM frames and I/Q samples of before the switch instant come from the member selected before; the other has kept those of the last second
(R350, R361, R362). A record carries DISCONT where both leave a gap. -/
def State.handSamples (s : State) (old new : Fin 256) (switchPs : Nat) : State :=
  let x := s.ctxs[old]
  let y := s.ctxs[new]
  let pcm := s.pcmCut old switchPs
  let iq := s.iqCut old switchPs
  let own := y.fm.audio.frames.filter (fun f => decide (pcm ≤ f.atPs))
  let gap := match own with | f :: _ => decide (pcm + 2 * y.active.framePs < f.atPs) | [] => true
  let t := s.modCtx new (fun y => { y with
    fm := { y.fm with
      audio := { y.fm.audio with
        frames := x.fm.audio.frames.filter (fun f => decide (f.atPs < pcm)) ++ own, sentPs := x.fm.audio.sentPs
        swaps := y.fm.audio.swaps.filter (fun w => decide (switchPs < w + secPs)) ++ [switchPs] }
      pcmDiscont := if s.isValid old then x.fm.pcmDiscont else gap }
    iqBuf := x.iqBuf, iqFirst := x.iqFirst, iqIndex := x.iqIndex, iqStamp := x.iqStamp, iqMarks := x.iqMarks, iqDiscont := x.iqDiscont
    iqSent := x.iqSent, iqKept := [], iqEndPs := x.iqEndPs
    gate := some { pcmPs := pcm, iqPs := iq, sincePs := s.clock, pcmOpen := !s.isValid old, iqOpen := !s.iqRuns old
                   wait := y.iqKept.filter (fun w => decide (iq ≤ w.atPs)) } })
  t.modCtx old (fun x => { x with
    fm := { x.fm with audio := { x.fm.audio with frames := x.fm.audio.frames.filter (fun f => decide (pcm ≤ f.atPs)) } }
    iqBuf := [], iqMarks := {} })

/-- The first selection of a pair, or the first after neither member was VALID: what its member has kept from before is not sent. -/
def State.freshSelection (s : State) (new : Fin 256) (switchPs : Nat) : State :=
  s.modCtx new (fun y => { y with
    fm := { y.fm with audio := { y.fm.audio with frames := y.fm.audio.frames.filter (fun f => decide (switchPs ≤ f.atPs)) } }, iqKept := [] })

/-- A pair's selection is judged at a tick; a change sends a twin event at the switch instant, and divides the records as R350 gives (R361,
R362, R364). -/
def State.selectTwin (s : State) (c : Fin 256) (ticks : List (Nat × Nat)) (stamp : Nat) : State :=
  let lo := s.recordCtx c
  let hi := s.higherCtx c
  let old := s.ctxs[lo].twin.selected
  let new := selectionAt old (s.isValid lo) (s.isValid hi) ticks
  let member := fun (b : Bool) => if b then hi else lo
  if new == old then s
  else
    let t := (s.endTurn c).modCtx lo (fun x => { x with twin := { x.twin with
      selected := new, recent := []
      turn := match old, new with
        | some a, some _ => some { old := member a, switchNs := stamp, sincePs := s.clock, waiting := (x.twin.recent.filter (fun q =>
            decide (s.clock ≤ q.1 + secPs))).map (fun q => q.2) }
        | _, _ => none } })
    let u := match old, new with
      | some a, some b => t.handSamples (member a) (member b) (t.clockAt stamp)
      | none, some b => t.freshSelection (member b) (t.clockAt stamp)
      | _, none => t
    let v := match old with | some a => if u.isValid (member a) then u else u.endTurn c | none => u
    v.twinEvent lo 4 ticks.head? stamp

/-- The member whose output gives the switch instant of a selection: the one selected before, at the first selection the record context
(R361). -/
def State.switchMember (s : State) (c : Fin 256) : Fin 256 :=
  if s.ctxs[s.recordCtx c].twin.selected == some true then s.higherCtx c else s.recordCtx c

/-- TWIN_SELECTION_CHANGE (R360): the ratios at the ticks, with the members' levels and the switch instant, which the event carries. -/
def execTwinSelectionChange (dt : Nat) (c : Fin 256) (ticks : List (Nat × Nat)) (levelL levelH : Int) (stamp : Nat) (s : State) :
    Host.Outcome State Fault Refusal :=
  s.occurs dt (fun t => t.serving && (t.partnerOf c).isSome && selects t.ctxs[c].active.std &&
      (t.ownLevel (t.recordCtx c)).getD levelL == levelL && (t.ownLevel (t.higherCtx c)).getD levelH == levelH &&
      t.atOutput (t.switchMember c) stamp)
    (fun t => t.selectTwin c ticks stamp)

end Sys2Proof.Machine
end

