-- ==== Sys2Proof/Machine/Wire.lean ====
section
/-! DEFINITION. Bytes on the host port: records and datagrams (R509, R510, R518), UDP, IPv4, ICMP, ARP and Ethernet frames as the part sends
them, and what it takes of those it receives (R505, R507, R508, R510). -/

namespace Sys2Proof.Machine

/-! ### The next hop (R507) -/

/-- The next hop: the collector when it lies in the part's subnet, else the gateway; 0 none. -/
def HPort.nextHopIp (h : HPort) : Word :=
  match h.session with
  | some q => if q.peer.ip &&& h.mask = h.ip &&& h.mask then q.peer.ip else h.gw
  | none => 0

/-- The next hop is resolved. -/
def HPort.resolved (h : HPort) : Bool :=
  h.session.isSome && h.nextHopIp != 0 && (match h.nextHop with | some p => p.1 == h.nextHopIp | none => false)

/-- Longest Ethernet frame, FCS included, and the IPv4 datagram that fits it (R505). -/
def HPort.frameMax (h : HPort) : Nat := if bit h.ctrl 28 then 9018 else 1518
def HPort.mtu (h : HPort) : Nat := h.frameMax - 18

/-- The part's UDP port (Table 14.23). -/
def HPort.udpPort (h : HPort) : Nat := bits h.port 15 0

/-! ### Records and datagrams -/

/-- A record as a session of a version sends it (Table 14.7). -/
def Record.bytes (r : Record) (version : Nat) : List Byte :=
  bytesOf 1 version ++ bytesOf 1 r.typ ++ bytesOf 2 r.flags.toNat ++ bytesOf 2 r.ctx ++ bytesOf 1 r.reach ++ [0] ++ bytesOf 4 r.seq.toNat ++
    bytesOf 8 r.stamp ++ bytesOf 2 r.payload.length ++ [0, 0] ++ r.payload

/-- MAGIC, VERSION, KIND and DSEQ (Table 14.2). -/
def datagramHead (version kind dseq : Nat) : List Byte := bytesOf 2 0x5152 ++ bytesOf 1 version ++ bytesOf 1 kind ++ bytesOf 4 dseq

/-- The head of a datagram for an address: the session's, or, where it holds none, one whose VERSION and DSEQ the manual leaves open
(log entry 72). -/
def HPort.replyHead (h : HPort) (to_ : Peer) (kind : Nat) : List Byte :=
  let stray := Config.strayHeader h.sent.length
  match h.session with
  | some q => if q.peer == to_ then datagramHead q.version kind h.dseq
    else datagramHead (stray.toNat / 2 ^ 32) kind (stray.toNat % 2 ^ 32)
  | none => datagramHead (stray.toNat / 2 ^ 32) kind (stray.toNat % 2 ^ 32)

/-- An entry of NAK_MISS (Table 14.3). -/
def missBytes (e : BitVec 16 × Nat × Nat × BitVec 32) : List Byte :=
  bytesOf 2 e.1.toNat ++ bytesOf 1 e.2.1 ++ bytesOf 1 e.2.2.1 ++ bytesOf 4 e.2.2.2.toNat

/-- A QRP datagram with the address that it goes to; none for what is not one (Tables 14.2 to 14.5). -/
def HPort.datagram (h : HPort) : Frame → Option (Peer × List Byte)
  | .records v d l => h.session.map (fun q => (q.peer, datagramHead v 0x10 d ++ l.flatMap (fun r => r.bytes v)))
  | .helloAck p v d ident image n now queued =>
    some (p, datagramHead v 0x02 d ++ bytesOf 1 v ++ [0, 0, 0] ++ bytesOf 4 ident.toNat ++ bytesOf 4 image.toNat ++ bytesOf 4 n ++ bytesOf 8 now ++
      bytesOf 4 queued)
  | .helloReject p reason lo hi => some (p, h.replyHead p 0x03 ++ bytesOf 1 reason ++ bytesOf 1 lo ++ bytesOf 1 hi)
  | .bye p reason => some (p, h.replyHead p 0x04 ++ bytesOf 1 reason ++ [0, 0, 0])
  | .nakMiss v d l => h.session.map (fun q => (q.peer, datagramHead v 0x12 d ++ l.flatMap missBytes))
  | _ => none

/-! ### The Internet layers -/

/-- One's complement sum of the 16-bit words of a run of bytes (RFC 1071). -/
def onesSum : List Byte → Nat → Nat
  | [], n => n % 65536 + n / 65536
  | [a], n => onesSum [] (n + 256 * a.toNat)
  | a :: b :: l, n => onesSum l ((n + 256 * a.toNat + b.toNat) % 65536 + (n + 256 * a.toNat + b.toNat) / 65536)

/-- The checksum of a run of bytes that holds 0 in its place. -/
def inetSum (l : List Byte) : Nat := 65535 - onesSum l 0

/-- A run of bytes with its checksum in place sums up to all ones. -/
def sumHolds (l : List Byte) : Bool := onesSum l 0 == 65535

/-- The pseudo header that the UDP checksum covers (RFC 768). -/
def pseudoHead (src dst : Word) (len : Nat) : List Byte := bytesOf 4 src.toNat ++ bytesOf 4 dst.toNat ++ [0, 17] ++ bytesOf 2 len

/-- A UDP datagram with its computed checksum, of which 0 is sent as all ones (R508). -/
def udpBytes (src dst : Word) (sport dport : Nat) (l : List Byte) : List Byte :=
  let head := bytesOf 2 sport ++ bytesOf 2 dport ++ bytesOf 2 (8 + l.length)
  let c := inetSum (pseudoHead src dst (8 + l.length) ++ head ++ [0, 0] ++ l)
  head ++ bytesOf 2 (if c = 0 then 65535 else c) ++ l

/-- An ICMP echo reply (R508, RFC 792). -/
def echoBytes (ident seq : BitVec 16) (l : List Byte) : List Byte :=
  let body := bytesOf 2 ident.toNat ++ bytesOf 2 seq.toNat ++ l
  [0, 0] ++ bytesOf 2 (inetSum ([0, 0, 0, 0] ++ body)) ++ body

/-- One IPv4 datagram: no options, TTL 64, DF clear (R508). -/
def ipBytes (head : BitVec 24) (proto : Nat) (src dst : Word) (offset : Nat) (more : Bool) (l : List Byte) : List Byte :=
  let a := bytesOf 1 0x45 ++ bytesOf 1 (head.toNat / 65536) ++ bytesOf 2 (20 + l.length) ++ bytesOf 2 (head.toNat % 65536) ++
    bytesOf 2 (offset / 8 + (if more then 8192 else 0)) ++ bytesOf 1 64 ++ bytesOf 1 proto
  let z := bytesOf 4 src.toNat ++ bytesOf 4 dst.toNat
  a ++ bytesOf 2 (inetSum (a ++ [0, 0] ++ z)) ++ z ++ l

/-- A payload in IPv4 datagrams: more than one when it passes the link MTU (R508, RFC 791). -/
def ipFragments (mtu : Nat) (head : BitVec 24) (proto : Nat) (src dst : Word) (l : List Byte) : List (List Byte) :=
  let k := (mtu - 20) / 8 * 8
  if l.length + 20 ≤ mtu then [ipBytes head proto src dst 0 false l]
  else (List.range ((l.length + k - 1) / k)).map (fun i =>
    ipBytes head proto src dst (i * k) (decide ((i + 1) * k < l.length)) ((l.drop (i * k)).take k))

/-- An Ethernet II frame, padded to its least length, with its FCS (R505). -/
def etherBytes (dst src : BitVec 48) (typ : Nat) (l : List Byte) : List Byte :=
  let body := bytesOf 6 dst.toNat ++ bytesOf 6 src.toNat ++ bytesOf 2 typ ++ l ++ List.replicate (46 - l.length) 0
  body ++ (bytesOf 4 (crc32 body).toNat).reverse

/-- The broadcast address. -/
def broadcast : BitVec 48 := 0xFFFFFFFFFFFF

/-- An ARP message for Ethernet and IPv4 (RFC 826): operation, and the two pairs of addresses. -/
def arpBytes (op : Nat) (srcMac : BitVec 48) (src : Word) (dstMac : BitVec 48) (dst : Word) : List Byte :=
  [0, 1, 8, 0, 6, 4] ++ bytesOf 2 op ++ bytesOf 6 srcMac.toNat ++ bytesOf 4 src.toNat ++ bytesOf 6 dstMac.toNat ++ bytesOf 4 dst.toNat

/-- Where a datagram for an address is sent: the resolved next hop, when it is the collector's; else the manual leaves it open (log entry
72). -/
def HPort.macFor (h : HPort) (to_ : Peer) : BitVec 48 :=
  match h.session, h.nextHop with
  | some q, some p => if q.peer == to_ && h.resolved then p.2.1 else Config.strayMac to_.ip
  | _, _ => Config.strayMac to_.ip

/-- The Ethernet frames of IPv4 datagrams. -/
def HPort.ipFrames (h : HPort) (mac : BitVec 48) (proto : Nat) (dst : Word) (l : List Byte) : List (List Byte) :=
  (ipFragments h.mtu (Config.ipHeader h.sent.length) proto h.ip dst l).map (fun d => etherBytes mac h.mac 0x0800 d)

/-- The Ethernet frames that carry what the part sends (R505, R507, R508). -/
def HPort.frames (h : HPort) (f : Frame) : List (List Byte) :=
  match f, h.datagram f with
  | _, some (p, l) => h.ipFrames (h.macFor p) 17 p.ip (udpBytes h.ip p.ip h.udpPort p.port.toNat l)
  | .arpReply to_ mac, none => [etherBytes mac h.mac 0x0806 (arpBytes 2 h.mac h.ip mac to_)]
  | .arpRequest ip, none => [etherBytes broadcast h.mac 0x0806 (arpBytes 1 h.mac h.ip 0 ip)]
  | .gratuitousArp, none => [etherBytes broadcast h.mac 0x0806 (arpBytes 1 h.mac h.ip 0 h.ip)]
  | .echoReply to_ mac ident seq l, none => h.ipFrames mac 1 to_ (echoBytes ident seq l)
  | _, none => []

/-! ### Reception -/

/-- A COMMAND datagram (Table 14.13) whose OP is not one of Table 14.14, or whose LEN does not fit its ARGS. -/
structure BadCommand where
  src : Peer
  id : BitVec 32
  op : BitVec 16
  deriving DecidableEq, Repr

/-- What becomes of a received frame. -/
inductive RxVerdict | taken | discard | bad (b : BadCommand)
  deriving DecidableEq, Repr

/-- The codes of Table 14.14. -/
def knownOps : List (BitVec 16) := [0x01, 0x02, 0x10, 0x11, 0x20, 0x30, 0x40, 0x41, 0xF0, 0xF1]

/-- LEN fits the ARGS of an OP (Tables 14.14 and 14.15). -/
def argsFit (op : Nat) (args : List Byte) : Bool :=
  match op with
  | 0x01 => args.length == 4
  | 0x02 => args.length % 8 == 0
  | 0x10 => args.length == 2
  | 0x11 => args.length == if natAt args 2 1 % 2 = 1 then 132 else 68
  | 0x20 => decide (28 ≤ args.length) && args.length == 28 + natAt args 24 2
  | 0x30 => args.length == 4
  | 0x40 => args.length == 0
  | 0x41 => args.length == 0
  | 0xF0 => args.length == 4
  | 0xF1 => args.length == 4
  | _ => false

/-- A COMMAND datagram's body: refused when its OP is unknown, or its LEN fits neither the datagram nor its ARGS (R537, Table 14.17). -/
def commandVerdict (src : Peer) (l : List Byte) : RxVerdict :=
  let op := natAt l 4 2
  let n := natAt l 6 2
  if knownOps.contains (BitVec.ofNat 16 op) && l.length == 8 + n && argsFit op (l.drop 8) then .taken
  else .bad ⟨src, BitVec.ofNat 32 (natAt l 0 4), BitVec.ofNat 16 op⟩

/-- A QRP datagram: MAGIC, KIND and the length that the kind needs (R510). -/
def qrpVerdict (src : Peer) (l : List Byte) : RxVerdict :=
  let n := l.length - 8
  if l.length < 8 || natAt l 0 2 != 0x5152 then .discard
  else match natAt l 3 1 with
    | 0x01 => if n < 28 then .discard else .taken
    | 0x04 => if n < 4 then .discard else .taken
    | 0x11 => if n < 8 then .discard else .taken
    | 0x20 => if n < 8 then .discard else commandVerdict src (l.drop 8)
    | _ => .discard

/-- A UDP datagram (R508): its checksum, of which 0 stands for none (RFC 768), and its port. -/
def HPort.udpVerdict (h : HPort) (src dst : Word) (l : List Byte) : RxVerdict :=
  let u := l.take (natAt l 4 2)
  if natAt l 4 2 < 8 || l.length < natAt l 4 2 then .discard
  else if natAt u 6 2 != 0 && !sumHolds (pseudoHead src dst u.length ++ u) then .discard
  else if natAt u 2 2 != h.udpPort then .discard
  else qrpVerdict ⟨src, BitVec.ofNat 16 (natAt u 0 2)⟩ (u.drop 8)

/-- An IPv4 datagram (R508): no options, not fragmented, a header checksum that holds. Other protocols than UDP are no matter of R510. -/
def HPort.ipVerdict (h : HPort) (l : List Byte) : RxVerdict :=
  let n := natAt l 2 2
  if l.length < 20 || natAt l 0 1 != 0x45 || n < 20 || decide (l.length < n) then .discard
  else if natAt l 6 2 % 16384 != 0 then .discard
  else if !sumHolds (l.take 20) then .discard
  else if natAt l 9 1 != 17 then .taken
  else h.udpVerdict (BitVec.ofNat 32 (natAt l 12 4)) (BitVec.ofNat 32 (natAt l 16 4)) ((l.take n).drop 20)

/-- A received frame, from its destination address to its FCS (R505). -/
def HPort.verdict (h : HPort) (f : List Byte) : RxVerdict :=
  let body := f.take (f.length - 4)
  let dst : BitVec 48 := BitVec.ofNat 48 (natAt f 0 6)
  if f.length < 18 || h.frameMax < f.length || f.drop (f.length - 4) != (bytesOf 4 (crc32 body).toNat).reverse then .discard
  else if dst != h.mac && dst != broadcast then .discard
  else match natAt f 12 2 with
    | 0x0806 => .taken
    | 0x0800 => h.ipVerdict (body.drop 14)
    | _ => .discard

end Sys2Proof.Machine
end

