-- ==== Sys2Proof/Machine/Qrp.lean ====
section
/-! DEFINITION. What every datagram and every QRP command passes first (R514 to R517, R535 to R539). -/

namespace Sys2Proof.Machine

/-- The host port can receive: the part serves, the link is up and it has an address (R504, R516). -/
def State.hostUp (s : State) : Bool := s.serving && s.host.link && s.host.ip != 0 && !s.mgmtOnly

/-- A frame leaves the part. -/
def State.sendFrame (s : State) (f : Frame) : State :=
  { s with host := { s.host with sent := s.host.sent ++ [f], wire := s.host.wire ++ s.host.frames f } }

/-- A datagram may leave: the next hop of a session, if there is one, is resolved (R507). -/
def State.maySend (s : State) : Bool := s.hostUp && (s.host.session.isNone || s.host.resolved)

/-- DSEQ counts a datagram of the session that has left (Table 14.2). -/
def State.countDatagram (s : State) : State :=
  { s with host := { s.host with dseq := (s.host.dseq + 1) % 2 ^ 32, lastTxPs := s.clock } }

/-- A datagram of the session with its DSEQ leaves. -/
def State.sendDatagram (s : State) (f : Nat → Frame) : State :=
  if s.maySend then (s.sendFrame (f s.host.dseq)).countDatagram else s

/-- A datagram to an address that holds no session, or that loses it. -/
def State.reply (s : State) (f : Frame) : State := if s.maySend then s.sendFrame f else s

/-- The answer to a datagram from an address that holds no session: BYE with reason 4, once per second and address (R516). -/
def State.byeNoSession (s : State) (src : Peer) : State :=
  if s.host.byeSent.any (fun p => p.1 == src && decide (s.clock < p.2 + secPs)) then s
  else ({ s with host := { s.host with byeSent := (src, s.clock) :: s.host.byeSent.filter (fun p => p.1 != src) } } : State).reply
    (.bye src 4)

/-- The collector of the session sent the datagram. -/
def State.fromCollector (s : State) (src : Peer) : Bool :=
  match s.host.session with | some q => q.peer == src | none => false

/-- A valid datagram of the collector keeps the session alive (R515). -/
def State.heard (s : State) : State :=
  { s with host := { s.host with session := s.host.session.map (fun q => { q with lastRxPs := s.clock }) } }

/-- A datagram other than HELLO (R515, R516): it keeps the session alive, and then has its effect. -/
def State.datagram (s : State) (src : Peer) (f : State → State) : State :=
  if !s.hostUp then s
  else if !s.fromCollector src then s.byeNoSession src
  else f s.heard

def State.sessionVersion (s : State) : Nat := match s.host.session with | some q => q.version | none => 0

/-- CMD_EN (Table 14.21). -/
def HPort.cmdEn (h : HPort) : Bool := bit h.ctrl 27

/-- A command joins the last 64 of the session (R539). -/
def State.remember (s : State) (id : BitVec 32) (op : Nat) : State :=
  let l := s.host.cmds
  { s with host := { s.host with cmds := l.drop (l.length - 63) ++
    [{ id := id, op := op, session := s.host.sessions, status := stAccepted, reason := 0 }] } }

/-- REFUSED with a reason (R536). -/
def State.refuse (s : State) (id : BitVec 32) (op reason : Nat) : State := s.respond id op stRefused reason []

/-- A lifecycle command is accepted (R536): ACCEPTED, and it is unended from now on (R538). -/
def State.accept (s : State) (id : BitVec 32) (op : Nat) (result : List Byte) : State :=
  ({ s with host := { s.host with open_ := s.host.open_ ++ [{ id := id, op := op, session := s.host.sessions, status := stAccepted, reason := 0 }] } } : State).respond
    id op stAccepted 0 result

/-- A COMMAND datagram (R535 to R539): commands disabled, no identifier, a repeated one, a command of a later version, and a
full table of unended commands are settled here; else the command has its effect. -/
def State.command (s : State) (src : Peer) (id : BitVec 32) (op : Nat) (life : Bool) (minVersion : Nat) (f : State → State) : State :=
  s.datagram src (fun t =>
    if !t.host.cmdEn then t.response id op stRefused 0x88 false []
    else if id = 0 then t.response id op stRefused 0x82 false []
    else match t.host.cmds.find? (fun c => c.id == id) with
      | some c => t.response id c.op c.status c.reason true []
      | none =>
        let u := t.remember id op
        if u.sessionVersion < minVersion then u.refuse id op 0x85
        else if life && decide (32 ≤ u.host.open_.length) then u.refuse id op 0x86
        else f u)

end Sys2Proof.Machine
end

