-- ==== Sys2Proof/Machine/Outfall.lean ====
section
/-! DEFINITION. Chapter 10: the Outfall's synthesiser, transmit queue, coexistence, level control, tone and aborts (R366 to R387),
and the eddy relay (R388 to R395). Due times and latest starts are station times in ns. -/

namespace Sys2Proof.Machine

def State.modOut (s : State) (f : Outfall → Outfall) : State := { s with outfall := f s.outfall }

/-! ### Registers and statuses -/

/-- Statuses of Table 10.6. -/
def txCompleted : Nat := 0x00
def txAborted : Nat := 0x01
def txLockTimeout : Nat := 0x02
def txLate : Nat := 0x03
def txQueueFull : Nat := 0x04
def txCxDenied : Nat := 0x05
def txCxRevoked : Nat := 0x06
def txRefused : Nat := 0x07
def txNotReady : Nat := 0x08

/-- COEX: 0b10 and 0b11 treated as 0b01 (Table 10.8). -/
def Outfall.coex (o : Outfall) : Bool := bits o.ctrl 31 30 != 0
def Outfall.detSrc (o : Outfall) : Bool := bit o.ctrl 29
/-- TX_VERSION: other than 1 treated as 2. -/
def Outfall.version (o : Outfall) : Nat := if bits o.ctrl 28 26 = 1 then 1 else 2
def Outfall.keyAllowed (o : Outfall) (n : Nat) : Bool := bit o.ctrl (16 + n)
def Outfall.txId (o : Outfall) : Nat := bits o.ctrl 11 0
/-- LOCK_TIMEOUT in ps, below 2 treated as 2 (Table 10.11). -/
def Outfall.lockTimeoutPs (o : Outfall) : Nat := max 2 (bits o.timing 15 8) * 100000000
/-- CX_WAIT in ps, 0 treated as 1. -/
def Outfall.cxWaitPs (o : Outfall) : Nat := max 1 (bits o.timing 7 0) * msPs
def Outfall.relayOn (o : Outfall) : Bool := bit o.rCtrl 31
def Outfall.reportRefused (o : Outfall) : Bool := bit o.rCtrl 30
def Outfall.confirmOn (o : Outfall) : Bool := bit o.rCtrl 29
def Outfall.confirmCtx (o : Outfall) : Fin 256 := Fin.ofNat 256 (bits o.rCtrl 23 16)
/-- LBT_CTX, 0xFF none (Table 10.14). -/
def Outfall.lbtCtx (o : Outfall) : Option (Fin 256) :=
  if bits o.rCtrl 15 8 = 255 then none else some (Fin.ofNat 256 (bits o.rCtrl 15 8))
def Outfall.maxAgeNs (o : Outfall) : Nat := max 1 (bits o.rTiming 27 20) * 10000000
def Outfall.holdoffNs (o : Outfall) : Nat := bits o.rTiming 15 0 * 1000000
/-- A context named in RELAY_SRC (Table 10.16). -/
def Outfall.isSource (o : Outfall) (c : Fin 256) : Bool :=
  c.val != 255 && [bits o.rSrc 31 24, bits o.rSrc 23 16, bits o.rSrc 15 8, bits o.rSrc 7 0].contains c.val

/-- A carrier for bursts (R367). -/
def burstCarrier (f : Nat) : Bool := decide ((136000000 ≤ f ∧ f ≤ 174000000) ∨ (400000000 ≤ f ∧ f ≤ 470000000))
/-- A carrier for the tone (R367). -/
def toneCarrier (f : Nat) : Bool := burstCarrier f || decide (87500000 ≤ f ∧ f ≤ 108000000)

/-- The correction stored for a carrier's band (R375, R379). -/
def Outfall.corrFor (o : Outfall) (f : Nat) : Int :=
  if f ≤ 108000000 then o.corr.2.2 else if f ≤ 174000000 then o.corr.1 else o.corr.2.1

/-- The stored correction of a carrier's band replaced (R375, R379). -/
def Outfall.storeCorr (o : Outfall) (f : Nat) (v : Int) : Outfall :=
  if f ≤ 108000000 then { o with corr := (o.corr.1, o.corr.2.1, v) }
  else if f ≤ 174000000 then { o with corr := (v, o.corr.2.1, o.corr.2.2) }
  else { o with corr := (o.corr.1, v, o.corr.2.2) }

/-! ### Building a burst (R381, R389) -/

/-- The header information word (Table 8.4) without its CRC and TAG. -/
def headerWord (version typ txId origin hop rate cws slot counter : Nat) : Nat :=
  version % 8 * 2 ^ 125 + typ % 32 * 2 ^ 120 + txId % 4096 * 2 ^ 108 + origin % 4096 * 2 ^ 96 + hop % 16 * 2 ^ 92 + rate % 4 * 2 ^ 90 +
    cws % 8 * 2 ^ 87 + slot % 8 * 2 ^ 84 + counter % 2 ^ 32 * 2 ^ 48

/-- TAG and CRC put into a header word (R290, R302). -/
def sealHeader (w tag : Nat) : BitVec 128 :=
  let v := w / 2 ^ 48 * 2 ^ 48 + tag % 2 ^ 32 * 2 ^ 16
  BitVec.ofNat 128 (v + (crc16 (bytesOf 14 (v / 2 ^ 16))).toNat)

/-- The payload block of a body (Table 8.5). -/
def payloadBlock (cw : Nat) (body : List Byte) : List Byte :=
  let b := fit (64 * cw - 2) (bytesOf 2 body.length ++ body)
  b ++ bytesOf 2 (crc16 b).toNat

/-- The least count of codewords that holds a body (Table 10.4). -/
def cwFor (body : List Byte) : Nat := (body.length + 4 + 63) / 64

/-- The header and payload bits as they are sent: coded, cut to the rate and whitened (R297 to R301). -/
def burstBits (h : BitVec 128) (block : List Byte) : List Bool :=
  let cws := (List.range (hCw h)).flatMap (fun j => (encodePayload ((slice block (64 * j) 64).flatMap bitsOfByte)).take (sentBits (hRate h)))
  xorBits (encodeHeader (bitsOf 128 h.toNat)) (whiten 256 0x1FF) ++ xorBits cws (whiten cws.length (payloadSeed (hTxId h)))

/-- The burst of a TRANSMIT command (R381). -/
def State.buildHeader (s : State) (a : TxArgs) (block : List Byte) : BitVec 128 :=
  let o := s.outfall
  let v := o.version
  let w := headerWord v a.typ.toNat o.txId (if v = 1 then 0 else o.txId) a.hop.toNat a.rate.toNat (cwFor a.body - 1) a.keySlot.toNat
    a.counter.toNat
  let slot : Fin 8 := Fin.ofNat 8 a.keySlot.toNat
  let tag := if slot = 0 then 0 else match s.keys.slots[slot] with
    | some k => tagOf k (BitVec.ofNat 128 w) block
    | none => 0
  sealHeader w tag

/-! ### The queue (R382) -/

def Outfall.full (o : Outfall) : Bool := decide (16 ≤ o.queue.length)

/-- An entry takes its place: by due time, entries of one due time in order of acceptance (R382). -/
def insertTx (x : Tx) : List Tx → List Tx
  | [] => [x]
  | y :: t => if x.due < y.due || (x.due == y.due && decide (x.order < y.order)) then x :: y :: t else y :: insertTx x t

/-- A transmission is queued. -/
def Outfall.enqueue (o : Outfall) (x : Tx) : Outfall :=
  { o with queue := insertTx { x with order := o.order } o.queue, order := o.order + 1 }

/-- The relayed transmission's burst end, when it has one. -/
def TxSource.burstEnd : TxSource → Option Nat
  | .relay _ e => some e
  | _ => none

def Tx.isRelay (x : Tx) : Bool := x.source.burstEnd.isSome

/-! ### Reports (R387, R394, R395) -/

/-- Payload of a relay report (Table 10.5). -/
def Tx.report (x : Tx) (event status txId hop tflags : Nat) (level : Option Int) (startNs : Option Nat) : List Byte :=
  let src : Nat := match x.source with | .qrp _ => 0 | .twoWire => 1 | .relay _ _ => 2
  let ctx : Nat := match x.source with | .relay c _ => c.val | _ => 0xFF
  let delay : Nat := match x.source, startNs with
    | .relay _ e, some n => (roundDiv ((n : Int) - e) 1000000 % 65536).toNat
    | _, _ => 0xFFFF
  bytesOf 1 event ++ bytesOf 1 status ++ bytesOf 1 src ++ bytesOf 1 ctx ++ bytesOf 2 txId ++ bytesOf 2 x.origin ++ bytesOf 1 x.vtype ++
    bytesOf 1 hop ++ bytesOf 1 x.format ++ bytesOf 1 tflags ++ bytesOf 4 x.counter.toNat ++ bytesOf 4 x.carrier ++
    (match level with | some l => bytesOfInt16 l | none => bytesOf 2 0x8000) ++ bytesOf 2 delay ++
    bytesOf 4 (match x.source with | .qrp id => id.toNat | _ => 0)

/-- The context of a report's header (R394). -/
def Tx.reportCtx (x : Tx) : Nat := match x.source with | .relay c _ => c.val | _ => 0xFFFF

/-- A relay report is sent. -/
def State.txReport (s : State) (x : Tx) (event status tflags : Nat) (level : Option Int) (startNs : Option Nat) (stamp : Nat) : State :=
  s.emit 0x50 x.reportCtx none stamp (x.report event status x.txId x.hop tflags level startNs)

/-- LAST_LEVEL in 0.1 dB; 0x80 is none. -/
def Outfall.lastTenths (o : Outfall) : Option Int :=
  if o.lastLevel = 0x80 then none else some (roundDiv (25 * o.lastLevel.toInt) 10)

/-- The final response of a QRP TRANSMIT (R537, R542); a tone of a REG_WRITE has none. -/
def State.txRespond (s : State) (x : Tx) (status reason : Nat) : State :=
  match x.source with
  | .qrp id => if x.tone then s else s.respond id 0x20 (if status = txCompleted then stCompleted else stAborted) reason []
  | _ => s

/-- A transmission is dropped before its ramp start (R387): its report and its response. -/
def State.txDrop (s : State) (x : Tx) (status reason : Nat) : State :=
  (s.txReport x (if x.tone then 6 else 2) status (if x.coex then 4 else 0) none none s.nowNs).txRespond x status reason

/-- Drop every entry of the queue that the test names. -/
def State.dropWhere (s : State) (p : Tx → Bool) (status reason : Nat) : State :=
  let gone := s.outfall.queue.filter p
  (s.modOut (fun o => { o with queue := o.queue.filter (fun x => !p x)
                               air := match o.air with | some a => if !a.started && p a.tx then none else some a | none => none
                               lbtHeld := o.lbtHeld.filter (fun n => !gone.any (fun x => x.order == n)) })).forEach gone (fun x t => t.txDrop x status reason)

/-! ### Sources (R380, R378) -/

/-- What refuses a TRANSMIT (R380 to R382), as a status of Table 10.6; 0 nothing. -/
def State.transmitRefusal (s : State) (a : TxArgs) : Nat :=
  let o := s.outfall
  let slot := a.keySlot.toNat
  if !o.ready then txNotReady
  else if !burstCarrier a.carrier || 2 ≤ a.channel.toNat || 152 < a.level.toNat || 32 ≤ a.typ.toNat || 16 ≤ a.hop.toNat ||
      3 ≤ a.rate.toNat || 8 ≤ slot || 508 < a.body.length then txRefused
  else if slot ≠ 0 && (!o.keyAllowed slot || (s.keys.slots[Fin.ofNat 8 slot]).isNone) then txRefused
  else if o.txId = 0 || o.txId = 0xFFF then txRefused
  else if o.version = 1 && (a.hop ≠ 0 || a.rate ≠ 0) then txRefused
  else if o.full then txQueueFull
  else 0

/-- A TRANSMIT accepted now (R381, R382). -/
def State.buildTx (s : State) (id : BitVec 32) (a : TxArgs) : Tx :=
  let block := payloadBlock (cwFor a.body) a.body
  let h := s.buildHeader a block
  let base := if a.start = 0 then s.nowNs else a.start
  { source := .qrp id, tone := false, carrier := a.carrier, channel := a.channel == 1, level := a.level.toNat
    due := base, latest := if a.late = 0 then none else some (base + a.late.toNat * 1000000)
    txId := hTxId h, origin := hOrigin h, vtype := hVtype h, hop := hHop h, format := hFormat h, counter := a.counter
    header := h, bits := burstBits h block, coex := s.outfall.coex }

/-- TRANSMIT (R380): refused with a status of Table 10.6, or queued and ACCEPTED (R542). -/
def execTransmit (dt : Nat) (src : Peer) (id : BitVec 32) (a : TxArgs) (s : State) : Host.Outcome State Fault Refusal :=
  s.occurs dt (fun _ => true) (fun t => t.command src id 0x20 true 1 (fun u =>
    if u.transmitRefusal a ≠ 0 then u.refuse id 0x20 (u.transmitRefusal a)
    else (u.modOut (fun o => o.enqueue (u.buildTx id a))).accept id 0x20 []))

/-- The tone that a write of TONE asks for (R378, Table 10.13). -/
def State.toneTx (s : State) (via : Via) (id : BitVec 32) : Tx :=
  let o := s.outfall
  { source := match via with | .qrp => .qrp id | .twoWire => .twoWire, tone := true, carrier := o.toneFreq.toNat, channel := false
    level := o.toneLevel.toNat, duration := max 1 (min 10000 o.toneDur.toNat), due := s.nowNs, latest := none, coex := o.coex }

/-- What refuses a tone (R367, R378, R382, R80). -/
def State.toneRefusal (s : State) : Nat :=
  let o := s.outfall
  if !o.ready then txNotReady
  else if !toneCarrier o.toneFreq.toNat || 152 < o.toneLevel.toNat then txRefused
  else if o.full then txQueueFull
  else 0

/-- A write of TONE (R378, R387): a refusal ends in a relay report; before the Outfall is ready it is posted too (R79). -/
def State.startTone (s : State) (via : Via) (id : BitVec 32) : State :=
  let x := s.toneTx via id
  let n := s.toneRefusal
  if n = 0 then s.modOut (fun o => o.enqueue x)
  else (s.when (n == txNotReady) (fun t => t.writeIgnored 0x1814)).txReport x 6 n 0 none none s.nowNs

/-- OUTFALL_TONE_START (R378). -/
def execOutfallToneStart (dt : Nat) (via : Via) (id : BitVec 32) (s : State) : Host.Outcome State Fault Refusal :=
  s.occurs dt State.awake (fun t => t.startTone via id)

/-! ### The course of a transmission (Table 8.3, R378) -/

/-- Length of a ramp: 8 symbols, of a tone 1 ms (R371, R378). -/
def Tx.rampPs (x : Tx) : Nat := if x.tone then msPs else symbolsPs x.channel 8

/-- Ramp start to ramp-down start: the symbols of the burst but for the last ramp, of a tone its ramp-up and DURATION. -/
def Tx.onPs (x : Tx) : Nat :=
  if x.tone then (1 + x.duration) * msPs else symbolsPs x.channel ((burstQuads x.bits).length - 8)

/-- The end of the VCO calibration of a retune that began at an instant: at most 110 µs (Table 10.1). -/
def calEndPs (from_ : Nat) : Nat := from_ + Config.vcoCalPs from_ % 110000001

/-- The state of Table 10.2 that an instant finds: full level from the end of the ramp-up on (Table 10.3), and waiting for lock from the end of
a VCO calibration on. -/
def Outfall.stateAt (o : Outfall) (now : Nat) : TxSt :=
  match o.st, o.air with
  | .rampUp, some a => if a.startPs + a.tx.rampPs ≤ now then .onAir else .rampUp
  | .calibrating, _ => if calEndPs o.retunePs ≤ now then .settling else .calibrating
  | t, _ => t

/-- The ramp-down start has come: the FAB cycle of an instant is that of the ramp-down start or a later one (R386). -/
def OnAir.ending (a : OnAir) (now : Nat) : Bool := a.down || decide (a.downPs / fabPs ≤ now / fabPs)

/-- The first symbol boundary after an instant; a tone has none to wait for (R374, R378, R386). -/
def OnAir.boundary (a : OnAir) (now : Nat) : Nat :=
  if a.tx.tone then now
  else symbolsPs a.tx.channel ((now - a.startPs) * (if a.tx.channel then 4800 else 9600) / secPs + 1) + a.startPs

/-- The ramp-down is brought forward, with the status that it ends in: a tone's starts at once. -/
def OnAir.cut (a : OnAir) (status reason now : Nat) : OnAir :=
  { a with status := status, abortReason := reason, downPs := min a.downPs (a.boundary now), down := a.tx.tone }

/-- The transmission on air is cut short. -/
def Outfall.cutAir (o : Outfall) (a : OnAir) (status reason now : Nat) : Outfall :=
  { o with st := if a.tx.tone then .rampDown else o.st, air := some (a.cut status reason now) }

/-! ### Aborts (R386) -/

/-- Abort of the transmissions that the test names: a queued one ends at once; one on air whose ramp-down has not started ramps
down at the next symbol boundary, a tone at once. -/
def State.abortTx (s : State) (p : Tx → Bool) (reason : Nat) : State :=
  (s.dropWhere p txAborted reason).modOut (fun o =>
    match o.air with
    | some a => if a.started && !a.ending s.clock && p a.tx then o.cutAir a txAborted reason s.clock else o
    | none => o)

/-- ABORT of OUTFALL_TONE (R386); before the Outfall is ready it is discarded (R79). -/
def State.outfallAbortAll (s : State) : State :=
  if s.outfall.ready then s.abortTx (fun _ => true) txAborted else s.writeIgnored 0x1814

/-- OUTFALL_ABORT (R386): a write of ABORT names every transmission. -/
def execOutfallAbort (dt : Nat) (s : State) : Host.Outcome State Fault Refusal :=
  s.occurs dt State.awake State.outfallAbortAll

/-! ### The synthesiser (R369, R370, R383, R384) -/

/-- A retune to a carrier includes a VCO calibration (R369, R384). -/
def State.needsCal (s : State) (f : Nat) : Bool :=
  let o := s.outfall
  o.forceCal || decide (1000000 < max f o.calCarrier - min f o.calCarrier) || decide (10 < (s.upkeep[0].temp - o.calTemp).natAbs)

/-- A retune begins; BLANK_OUT stands for no transmission any more. -/
def State.retune (s : State) (f : Nat) : State :=
  s.modOut (fun o => { o with st := if s.needsCal f then .calibrating else .settling, retuneTo := some f, retunePs := s.clock, air := none })

/-- The entry served next: one that LBT holds lets the others pass (R382, R392). -/
def Outfall.head (o : Outfall) : Option Tx := o.queue.find? (fun x => !o.lbtHeld.contains x.order)

/-- The synthesiser waits for nothing and no transmission is on air. -/
def Outfall.idle (o : Outfall) : Bool :=
  o.retuneTo.isNone && (o.st == .locked || o.st == .settling) && (match o.air with | some a => !a.started | none => true)

/-- The Outfall works: it runs or is being brought up, outside doze. -/
def State.outfallRuns (s : State) : Bool := s.serving && !s.mgmtOnly && s.outfall.st != .off

/-- OUTFALL_RETUNE_START (R383): to the head entry's carrier, when it differs. -/
def execOutfallRetuneStart (dt : Nat) (s : State) : Host.Outcome State Fault Refusal :=
  s.occurs dt (fun t => t.outfallRuns && t.outfall.idle)
    (fun t => t.withSome t.outfall.head (fun x u => if x.carrier = u.outfall.carrier && u.outfall.st == .locked then u else u.retune x.carrier))

/-- The retune is locked; the first one of a bring-up or doze exit makes the Outfall ready (R75, R95). -/
def State.retuneLocked (s : State) (f : Nat) : State :=
  s.modOut (fun o => { o with
    st := .locked, carrier := f, retuneTo := none, ready := true, lockPs := s.clock
    calCarrier := if o.st == .calibrating then f else o.calCarrier
    calTemp := if o.st == .calibrating then s.upkeep[0].temp else o.calTemp
    forceCal := o.forceCal && o.st != .calibrating })

/-- OUTFALL_RETUNE_LOCKED (R369). -/
def execOutfallRetuneLocked (dt : Nat) (s : State) : Host.Outcome State Fault Refusal :=
  s.occurs dt State.outfallRuns (fun t => t.withSome t.outfall.retuneTo (fun f u => u.retuneLocked f))

/-- The retune does not lock (R384): every entry that waits on its carrier is dropped, and the next retune calibrates. -/
def State.lockFailed (s : State) (f : Nat) : State :=
  (s.modOut (fun o => { o with st := .settling, retuneTo := none, carrier := 0, forceCal := true })).dropWhere (fun x => x.carrier == f)
    txLockTimeout txLockTimeout

/-- OUTFALL_LOCK_TIMEOUT (R384): LOCK_TIMEOUT after the start of a retune that a transmission waits on; any other runs to its end (R370). -/
def execOutfallLockTimeout (dt : Nat) (s : State) : Host.Outcome State Fault Refusal :=
  s.occurs dt (fun t => t.outfallRuns && decide (t.outfall.retunePs + t.outfall.lockTimeoutPs ≤ t.clock))
    (fun t => t.withSome t.outfall.retuneTo (fun f u => u.when (u.outfall.queue.any (fun x => x.carrier == f)) (fun v => v.lockFailed f)))

/-! ### Listen before talk (R392) -/

/-- The LBT context is receiving a burst. -/
def State.lbtBusy (s : State) : Bool :=
  match s.outfall.lbtCtx with
  | some c => s.ctxs[c].st != .idle && s.ctxs[c].active.std == stdEab && s.ctxs[c].eab.receiving
  | none => false

/-- Station time at which the LBT context last stopped receiving. -/
def State.lbtEndNs (s : State) : Nat :=
  match s.outfall.lbtCtx with
  | some c => s.nowNs - (s.clock - s.ctxs[c].eab.endPs.getD s.clock) / 1000
  | none => s.nowNs

/-- The due time of a held transmission once the burst has ended; past its latest start it is dropped with CHANNEL_BUSY. -/
def State.lbtSettleOne (s : State) (x : Tx) : State :=
  let due := (if s.lbtBusy then s.nowNs else s.lbtEndNs) + s.outfall.holdoffNs
  if (match x.latest with | some l => decide (l < due) | none => false) then s.dropWhere (fun y => y.order == x.order) 0x26 0x26
  else if s.lbtBusy then s
  else s.modOut (fun o => { o with lbtHeld := o.lbtHeld.filter (fun n => n != x.order)
                                   queue := insertTx { x with due := due } (o.queue.filter (fun y => y.order != x.order)) })

/-- Every transmission that LBT holds is judged. -/
def State.lbtSettle (s : State) : State := s.forEach (s.outfall.queue.filter (fun x => s.outfall.lbtHeld.contains x.order)) (fun x t => t.lbtSettleOne x)

/-- RELAY_LBT_CHECK (R392): 20 µs before a relayed ramp start. -/
def execRelayLbtCheck (dt : Nat) (s : State) : Host.Outcome State Fault Refusal :=
  s.occurs dt (fun t => t.outfallRuns && t.outfall.air.isNone) (fun t =>
    let u := t.lbtSettle
    match u.outfall.head with
    | some x => if x.isRelay && u.lbtBusy then (u.modOut (fun o => { o with lbtHeld := o.lbtHeld ++ [x.order] })).lbtSettle else u
    | none => u)

/-! ### On air -/

/-- The first ramp start that the last retune and the last transmission allow (R383): after a retune 20 µs from its end and 40 µs from the ramp
end. -/
def Outfall.rampFrom (o : Outfall) : Nat := if o.lockPs ≤ o.lastEndPs then o.lastEndPs else max (o.lockPs + 20000000) (o.lastEndPs + 40000000)

/-- The entry that may ramp within `slackNs`: the head, when the synthesiser is locked on its carrier. -/
def State.headReady (s : State) (slackNs : Nat) : Option Tx :=
  s.outfall.head.filter (fun x =>
    s.outfall.st == .locked && x.carrier == s.outfall.carrier && decide (x.due ≤ s.nowNs + slackNs) &&
      decide (s.outfall.rampFrom ≤ s.clock + slackNs * 1000))

/-- Drive BLANK_OUT and CX_REQ; the Outfall source of each reach follows BLANK_OUT (R372). -/
def State.driveBlank (s : State) (on cx : Bool) : State :=
  ({ s with pins := { s.pins with blankOut := on, cxReq := cx } } : State).blankAll

/-- BLANK_OUT is asserted for a transmission, in CX mode with CX_REQ (R372, R373). A grant that stands counts. -/
def State.blankFor (s : State) (x : Tx) : State :=
  (s.modOut (fun o => { o with air := some { tx := x, blankPs := s.clock, cxAsked := s.clock, cxOk := x.coex && s.pins.cxGnt }
                               blankPs := if s.pins.blankOut then o.blankPs else s.clock })).driveBlank true (x.coex || s.pins.cxReq)

/-- Transmissions start: outside doze, and not while doze entry waits (Table 1.12). -/
def State.sends (s : State) : Bool := s.outfallRuns && !s.doze.requested

/-- BLANK_OUT stands for no transmission, or for one that is neither on air nor the head any more (R382). -/
def Outfall.airFree (o : Outfall) : Bool :=
  match o.air with
  | none => true
  | some a => !a.started && o.head.map (fun x => x.order) != some a.tx.order

/-- OUTFALL_BLANK_OUT_ASSERT (R372): 20 µs before the head's ramp start. Where BLANK_OUT is still asserted for a transmission that has gone, its
20 µs begin anew. -/
def execOutfallBlankOutAssert (dt : Nat) (s : State) : Host.Outcome State Fault Refusal :=
  s.occurs dt (fun t => t.sends && t.outfall.airFree) (fun t =>
    let u := t.lbtSettle
    u.withSome (u.headReady 20000) (fun x v => v.blankFor x))

/-- CX_GNT_ASSERT (R373): CX_GNT has been asserted for 20 µs. -/
def execCxGntAssert (dt : Nat) (s : State) : Host.Outcome State Fault Refusal :=
  s.occurs dt (fun _ => true) (fun t =>
    ({ t with pins := { t.pins with cxGnt := true } } : State).modOut (fun o => { o with air := o.air.map (fun a => { a with cxOk := true }) }))

/-- CX_DENIED (R373): no grant within CX_WAIT of CX_REQ. -/
def execCxDenied (dt : Nat) (s : State) : Host.Outcome State Fault Refusal :=
  s.occurs dt State.outfallRuns (fun t => t.withSome t.outfall.air (fun a u =>
    if a.started || !a.tx.coex || a.cxOk || u.clock < a.cxAsked + u.outfall.cxWaitPs then u
    else (u.driveBlank false false).dropWhere (fun x => x.order == a.tx.order) txCxDenied txCxDenied))

/-- The grant goes away (R374, R378): before the ramp start the wait goes on; on air a burst ramps down at the next symbol
boundary, a tone at once. -/
def Outfall.revoke (o : Outfall) (now : Nat) : Outfall :=
  match o.air with
  | some a =>
    if !a.started then { o with air := some { a with cxOk := false } }
    else if a.ending now || !a.tx.coex || a.status ≠ txCompleted then o
    else o.cutAir a txCxRevoked txCxRevoked now
  | none => o

/-- CX_GNT_RELEASE (R374). -/
def execCxGntRelease (dt : Nat) (s : State) : Host.Outcome State Fault Refusal :=
  s.occurs dt (fun _ => true) (fun t => ({ t with pins := { t.pins with cxGnt := false } } : State).modOut (fun o => o.revoke t.clock))

/-- The ramp starts: the entry leaves the queue (R383, R386). -/
def State.rampStart (s : State) (a : OnAir) : State :=
  let t := s.modOut (fun o => { o with
    st := .rampUp, queue := o.queue.filter (fun x => x.order != a.tx.order)
    air := some { a with started := true, startNs := s.nowNs, startPs := s.clock, downPs := s.clock + a.tx.onPs } })
  { t with pins := { t.pins with driver := true } }

/-- BLANK_OUT has stayed asserted since the last transmission, which ended at most 40 µs ago (R372). -/
def State.blankHeld (s : State) : Bool :=
  s.pins.blankOut && decide (s.outfall.blankPs ≤ s.outfall.lastEndPs) && decide (s.clock ≤ s.outfall.lastEndPs + 40000000)

/-- What ramps at OUTFALL_RAMP_START, always the head with its carrier locked: the entry for which BLANK_OUT was asserted 20 µs before, or one
for which it stayed asserted (R372, R383). -/
def State.toRamp (s : State) : Option OnAir :=
  match s.outfall.air with
  | some a => if a.started || (s.headReady 0).map (fun x => x.order) != some a.tx.order || (a.tx.coex && !a.cxOk) ||
      decide (s.clock < a.blankPs + 20000000) then none else some a
  | none => if s.blankHeld then
      ((s.headReady 0).filter (fun x => !x.coex || (s.pins.cxReq && s.pins.cxGnt))).map (fun x => { tx := x, blankPs := s.clock, cxOk := x.coex })
    else none

/-- OUTFALL_RAMP_START (R383): not before the due time, nor after the latest start (R385). -/
def execOutfallRampStart (dt : Nat) (s : State) : Host.Outcome State Fault Refusal :=
  s.occurs dt State.sends (fun t => t.withSome t.toRamp (fun a u =>
    if (match a.tx.latest with | some l => decide (l < u.nowNs) | none => false) then u else u.rampStart a))

/-- Target level of a code in 0.01 dBm (chapter 10, "Level control"). -/
def targetLevel (code : Nat) : Int := 25 * code - 3000

/-- The level loop at a comparison (R375 to R377): driver level in 0.01 dBm at TXOUT, TXDET readings out of range in a row, whether the loop has
fallen back to the internal detector or met a limit, and the level last measured. -/
structure Loop where
  driver : Int
  outRun : Nat := 0
  fell : Bool := false
  limited : Bool := false
  level : Option Int := none
  deriving DecidableEq, Repr

/-- INTERCEPT and SLOPE (Table 10.10). -/
def Outfall.intercept (o : Outfall) : Int := signed 16 (bits o.txdet 31 16)
def Outfall.slope (o : Outfall) : Nat := bits o.txdet 15 0

/-- Power in 0.01 dBm that TXDET reads by its law (R376), to the nearest. -/
def Outfall.txdetLevel (o : Outfall) (v : Int) : Int :=
  if o.slope = 0 then Config.flatDetector v else o.intercept + roundDiv (100 * v) o.slope

/-- The driver within −30 to +8 dBm (R377); answers whether it was limited. -/
def limitDriver (d : Int) : Int × Bool := (clamp (-3000) 800 d, decide (d < -3000 ∨ 800 < d))

/-- The loop before its first comparison: the driver starts from the stored correction (R375, R379). -/
def Outfall.loopStart (o : Outfall) (x : Tx) : Loop :=
  let d := limitDriver (targetLevel x.level + o.corrFor x.carrier)
  { driver := d.1, limited := d.2 }

/-- One comparison: the driver moves by at most 0.25 dB. The fourth TXDET reading in a row out of range makes the internal detector the one
compared from it on (R376; log entry 71). -/
def Outfall.compare (o : Outfall) (target : Int) (l : Loop) (d : DetReading) : Loop :=
  let out := o.detSrc && decide (d.txdet < 20000 ∨ 1180000 < d.txdet)
  let n := if out then l.outRun + 1 else 0
  let fell := l.fell || decide (4 ≤ n)
  let p := if o.detSrc && !fell then o.txdetLevel d.txdet else d.inner
  let q := limitDriver (l.driver + clamp (-25) 25 (target - p))
  { driver := q.1, outRun := n, fell := fell, limited := l.limited || q.2, level := some p }

/-- Comparisons of the loop: one in a preamble symbol, 0 to 31, of a tone one in 125 µs over at most 4 ms (R375, R379). -/
def Tx.comparisons (x : Tx) : Nat := if x.tone then min 32 (8 * x.duration) else 32

/-- The instant at which the loop has ended. -/
def Tx.loopPs (x : Tx) : Nat := if x.tone then msPs + x.comparisons * 125000000 else symbolsPs x.channel 40

/-- The level loop over its readings. -/
def Outfall.loop (o : Outfall) (x : Tx) (l : List DetReading) : Loop :=
  (l.take x.comparisons).foldl (o.compare (targetLevel x.level)) (o.loopStart x)

/-- The level loop ends (R375 to R377, R379): the correction is stored, and LAST_LEVEL is the level last measured, in 0.25 dB. -/
def State.levelLoopEnd (s : State) (readings : List DetReading) (a : OnAir) : State :=
  let q := s.outfall.loop a.tx readings
  let t := s.modOut (fun o => { o with
    st := .onAir, fallback := o.fallback.setIf q.fell s.clock, limit := o.limit.setIf q.limited s.clock
    air := some { a with level := q.level.map (fun p => clamp (-127) 127 (roundDiv p 25)), corr := some (q.driver - targetLevel a.tx.level)
                         fallback := q.fell, limited := q.limited } })
  t.when q.fell (fun t => t.post 7 0xFF 0xFFFF 0x71 2 [])

/-- OUTFALL_LEVEL_LOOP_END (R375): preamble symbol 32, or 4 ms into a tone or the end of its DURATION. -/
def execOutfallLevelLoopEnd (dt : Nat) (readings : List DetReading) (s : State) : Host.Outcome State Fault Refusal :=
  s.occurs dt State.outfallRuns (fun t => t.withSome t.outfall.air (fun a u =>
    if a.started && !a.down && a.corr.isNone && !readings.isEmpty && decide (a.startPs + a.tx.loopPs ≤ u.clock) then u.levelLoopEnd readings a else u))

/-- OUTFALL_RAMP_DOWN_START (R386): from here on the transmission ends COMPLETED, unless an abort or a revoked grant came before. -/
def execOutfallRampDownStart (dt : Nat) (s : State) : Host.Outcome State Fault Refusal :=
  s.occurs dt State.outfallRuns (fun t => t.modOut (fun o => match o.air with
    | some a => if a.started && !a.down && decide (a.downPs ≤ t.clock) then { o with st := .rampDown, air := some { a with down := true } } else o
    | none => o))

/-- Ramp end (R387): the correction and LAST_LEVEL, the report, the response, FORWARDED, and the watch for the copy (R393). -/
def State.rampEnd (s : State) (a : OnAir) : State :=
  let x := a.tx
  let t := s.modOut (fun o =>
    let p := match a.corr with | some v => o.storeCorr x.carrier v | none => o
    { p with st := .locked, air := none, lastEndPs := s.clock
             lastLevel := match a.level with | some l => BitVec.ofInt 8 l | none => o.lastLevel
             forwarded := if x.isRelay && a.status == txCompleted then o.forwarded + 1 else o.forwarded
             watches := if x.isRelay && o.confirmOn then o.watches ++ [⟨x, a.status, a.startNs, s.clock⟩] else o.watches })
  let done := a.status == txCompleted
  let flags := a.fallback.toNat + 2 * a.limited.toNat + 4 * x.coex.toNat
  let u : State := { t with pins := { t.pins with driver := false } }
  (u.txReport x (if x.tone then 6 else if done then 1 else 2) a.status flags (if done || x.tone then u.outfall.lastTenths else none)
    (some a.startNs) (if x.tone && done then u.nowNs else a.startNs)).txRespond x a.status (if done then 0 else a.abortReason)

/-- OUTFALL_RAMP_END (R387). -/
def execOutfallRampEnd (dt : Nat) (s : State) : Host.Outcome State Fault Refusal :=
  s.occurs dt State.outfallRuns (fun t => t.withSome t.outfall.air (fun a u =>
    if a.started && a.down && decide (a.downPs + a.tx.rampPs ≤ u.clock) then u.rampEnd a else u))

/-- The next ramp start falls no more than 40 µs after the last ramp end (R372). -/
def State.rampNear (s : State) : Bool :=
  decide (s.clock < s.outfall.lastEndPs + 40000000) && (s.headReady ((s.outfall.lastEndPs + 40000000 - s.clock) / 1000)).isSome

/-- OUTFALL_BLANK_OUT_RELEASE (R372): 20 µs after a ramp end with no ramp start at hand. -/
def execOutfallBlankOutRelease (dt : Nat) (s : State) : Host.Outcome State Fault Refusal :=
  s.occurs dt (fun t => t.outfallRuns && t.outfall.air.isNone && t.pins.blankOut && decide (t.outfall.lastEndPs + 20000000 ≤ t.clock) &&
    !(t.rampNear && t.sends)) (fun t => t.driveBlank false false)

/-- OUTFALL_LATE_DROP (R385): entries whose latest start has come. -/
def execOutfallLateDrop (dt : Nat) (s : State) : Host.Outcome State Fault Refusal :=
  s.occurs dt State.outfallRuns (fun t =>
    let u := t.lbtSettle
    u.dropWhere (fun x => match x.latest with | some l => decide (l ≤ u.nowNs) | none => false) txLate txLate)

/-! ### The relay (R388 to R393) -/

/-- What the duplicate cache tells messages by (R390). -/
def relayKey (h : BitVec 128) : Nat × Nat × Nat := (hOrigin h, (hSlot h).val, hCounter h)

/-- The source context whose delivery of the same message the relay has queued in this FAB cycle (Table 10.7). -/
def State.takenNow (s : State) (h : BitVec 128) : Option (Fin 256) :=
  (s.outfall.taken.find? (fun p => p.1 / fabPs == s.clock / fabPs && p.2.2 == relayKey h)).map (fun p => p.2.1)

/-- The condition of R388 that fails first, as a status of Table 10.6; 0 none. A carrier or level that the Outfall does not emit is
refused too (R367, chapter 10, "Level control"). The other of two source contexts that deliver one message in one FAB cycle is refused as
CACHED, whatever its authentication status (Table 10.7). -/
def State.relayRefusal (s : State) (q : Ended) (h : BitVec 128) : Nat :=
  let o := s.outfall
  if (s.takenNow h).isSome then 0x25
  else if q.auth ≠ 0 then 0x20
  else if hVersion h ≠ 2 then 0x21
  else if hHop h = 0 then 0x22
  else if !bit o.rTypes (hType h) then 0x23
  else if hOrigin h = o.txId || hTxId h = o.txId then 0x24
  else if o.cache.contains (relayKey h) then 0x25
  else if !burstCarrier o.rFreq.toNat || 152 < bits o.rCtrl 7 0 then txRefused
  else if o.full then txQueueFull
  else 0

/-- The forwarded burst's header (R389). -/
def relayHeader (h : BitVec 128) (txId : Nat) : BitVec 128 :=
  sealHeader (headerWord (hVersion h) (hType h) txId (hOrigin h) (hHop h - 1) (hRate h) (hCw h - 1) (hSlot h).val (hCounter h)) (hTag h)

/-- The transmission of a relayed message (R389, R391); the jitter is a free value (log entry 9). -/
def State.relayTx (s : State) (c : Fin 256) (q : Ended) (h : BitVec 128) : Tx :=
  let o := s.outfall
  let g := relayHeader h o.txId
  let jitter := Config.jitterDraw s.draws % (bits o.rTiming 19 16 + 1) * 1000000
  { source := .relay c q.endStamp, tone := false, carrier := o.rFreq.toNat, channel := bit o.rTiming 31, level := bits o.rCtrl 7 0
    due := q.endStamp + o.holdoffNs + jitter, latest := some (q.endStamp + o.maxAgeNs)
    txId := o.txId, origin := hOrigin g, vtype := hVtype g, hop := hHop g, format := hFormat g, counter := BitVec.ofNat 32 (hCounter g)
    header := g, bits := burstBits g q.rx.blocks, coex := o.coex }

/-- The relay queues a message (R388 to R391). -/
def State.relayQueue (s : State) (c : Fin 256) (q : Ended) (h : BitVec 128) : State :=
  { s.modOut (fun o => { o.enqueue (s.relayTx c q h) with
      cache := (if 1024 ≤ o.cache.length then o.cache.drop 1 else o.cache) ++ [relayKey h]
      taken := o.taken.filter (fun p => p.1 / fabPs == s.clock / fabPs) ++ [(s.clock, c, relayKey h)] }) with draws := s.draws + 1 }

/-- The relay refuses a message (R388, R394). -/
def State.relayRefuse (s : State) (c : Fin 256) (q : Ended) (h : BitVec 128) (n : Nat) : State :=
  let x : Tx := { source := .relay c q.endStamp, tone := false, carrier := s.outfall.rFreq.toNat, channel := false, level := 0, due := 0
                  latest := none, txId := hTxId h, origin := hOrigin h, vtype := hVtype h, hop := hHop h, format := hFormat h
                  counter := BitVec.ofNat 32 (hCounter h) }
  (s.modOut (fun o => { o with refused := o.refused + 1 })).when s.outfall.reportRefused (fun t => t.txReport x 3 n 0 none none t.nowNs)

/-- The message of a lower context takes the place of the one that `d` delivered before it in the same FAB cycle, which is refused as CACHED
(Table 10.7). -/
def State.relaySwap (s : State) (c d : Fin 256) (q : Ended) (h : BitVec 128) : State :=
  let mine := fun (x : Tx) => (match x.source with | .relay k _ => k == d | _ => false) && x.origin == hOrigin h && x.counter.toNat == hCounter h
  let t := s.modOut (fun o => { o with
    queue := o.queue.map (fun x => if mine x then { s.relayTx c q h with order := x.order, due := x.due } else x)
    taken := o.taken.map (fun p => if p.2.1 = d ∧ p.2.2 = relayKey h then (p.1, c, p.2.2) else p) })
  t.relayRefuse d q h 0x25

/-- The relay takes a message (R388, R390). -/
def State.relayTake (s : State) (c : Fin 256) (q : Ended) (h : BitVec 128) : State :=
  match s.takenNow h with
  | some d => if c < d then s.relaySwap c d q h else s.relayRefuse c q h 0x25
  | none => if s.relayRefusal q h = 0 then s.relayQueue c q h else s.relayRefuse c q h (s.relayRefusal q h)

/-- A message whose instant of R321 is this, which the relay has yet to take: a COMPLETE one that the context or its pair delivers (R388,
R646). -/
def Ended.forRelay (now : Nat) (q : Ended) : Bool := q.handedOver && q.handedPs == now && !q.relayed && q.status == 0 && !q.echo && !q.dup

/-- The oldest such message marked as taken. -/
def markRelayed (now : Nat) : List Ended → List Ended
  | [] => []
  | q :: t => if q.forRelay now then { q with relayed := true } :: t else q :: markRelayed now t

/-- RELAY_INTAKE (R388): a source context, or a member of a pair of which one is named. -/
def execRelayIntake (dt : Nat) (c : Fin 256) (s : State) : Host.Outcome State Fault Refusal :=
  s.occurs dt (fun t => t.serving && t.outfall.relayOn &&
      (t.outfall.isSource c || (match t.partnerOf c with | some p => t.outfall.isSource p | none => false)))
    (fun t => t.withSome (t.ctxs[c].eab.ended.find? (Ended.forRelay t.clock)) (fun q u =>
      let v := u.modEab c (fun e => { e with ended := markRelayed u.clock e.ended })
      v.withSome q.rx.header (fun h w => w.relayTake (w.recordCtx c) q h)))

/-- The decoded copy in CONFIRM_CTX (R393): COMPLETE, of our TX_ID, the same ORIGIN and COUNTER, of this transmission, and ready within 10 ms
after its ramp end. -/
def State.confirming (s : State) (w : Watch) : Option Ended :=
  s.ctxs[s.outfall.confirmCtx].eab.ended.find? (fun q => q.status == 0 && q.handedOver && decide (q.handedPs ≤ w.rampEndPs + 10 * msPs) &&
    decide (w.startNs ≤ q.endStamp) && (match q.rx.header with
    | some h => hTxId h == w.tx.txId && hOrigin h == w.tx.origin && hCounter h == w.tx.counter.toNat
    | none => false))

/-- The report of a decision on the watch (R393 to R395), under the confirming context; the watch ends. -/
def State.watchEnd (s : State) (w : Watch) (event : Nat) (level : Option Int) (stamp : Nat) : State :=
  (s.modOut (fun o => { o with watches := o.watches.erase w })).emit 0x50 s.outfall.confirmCtx.val none stamp
    (w.tx.report event w.status w.tx.txId w.tx.hop 0 level (some w.startNs))

/-- RELAY_CONFIRMED (R393): the oldest watch that a message confirms. -/
def execRelayConfirmed (dt : Nat) (s : State) : Host.Outcome State Fault Refusal :=
  s.occurs dt State.serving (fun t => t.withSome (t.outfall.watches.find? (fun w => (t.confirming w).isSome)) (fun w u =>
    u.withSome (u.confirming w) (fun q v => v.watchEnd w 4 (some q.rx.reported.1) (q.rx.syncStamp.getD q.rx.detectStamp))))

/-- RELAY_NOT_CONFIRMED (R393): the oldest watch whose window has ended without a confirmation. -/
def execRelayNotConfirmed (dt : Nat) (s : State) : Host.Outcome State Fault Refusal :=
  s.occurs dt State.serving (fun t => t.withSome
    (t.outfall.watches.find? (fun w => decide (w.rampEndPs + 10 * msPs ≤ t.clock) && (t.confirming w).isNone)) (fun w u => u.watchEnd w 5 none u.nowNs))

end Sys2Proof.Machine
end

