-- ==== Sys2Proof/Machine/Cal.lean ====
section
/-! DEFINITION. Chapter 11 and the fallow rotation of chapter 03: corrections and calibration sets (R399 to R402, R416, R420,
R421), fallow rotation (R111 to R115, R404 to R406), the maintenance scheduler (R424 to R427), and its runs (R408 to R418,
R422, R428). -/

namespace Sys2Proof.Machine

/-! ### Calibration sets -/

/-- A new set takes its node (R400): the old one becomes the previous generation. The other nodes stay on the sets they have, so that
FACTORY_TRIMS waits for the journal's (R82). -/
def Upkeep.take (u : Upkeep) (n : Fin 5) (c : CalSet) : Upkeep :=
  { u with
    sets := u.sets.set n (some { c with gen := match u.sets[n] with | some o => (o.gen + 1) % 65536 | none => 1 })
    prev := u.prev.set n u.sets[n] }

/-- The largest change by magnitude from `old` at the points of `new`, 0.01 dB (R418). -/
def calDelta (new old : CalSet) : Int :=
  (new.points.map (fun p => p.corr - (old.at_ p.freq).floor - (if (1 : Rat) / 2 ≤ old.at_ p.freq - (old.at_ p.freq).floor then 1 else 0))).foldl
    (fun b d => if b.natAbs < d.natAbs then d else b) 0

/-- A set in the journal: reach, node, generation, temperature, points (R488); an absent set has a point count of 0. -/
def calSetBytes (r : Fin 4) (n : Fin 5) (c : Option CalSet) : List Byte :=
  let k := c.getD { points := [], temp := 0, gen := 0 }
  fit 136 (bytesOf 1 r.val ++ bytesOf 1 n.val ++ bytesOf 2 k.gen ++ [byteOfInt k.temp] ++ bytesOf 1 k.points.length ++ bytesOf 2 0 ++
    k.points.flatMap (fun p => bytesOf 4 p.freq ++ bytesOfInt16 p.corr ++ bytesOf 2 0))

/-- The journal session that stores a node (R419, R488): answers whether it was refused. -/
def State.storeSet (s : State) (r : Fin 4) (n : Fin 5) : State × Bool :=
  let u := s.upkeep[r]
  let (t, res) := s.journalRequest ⟨.append 3 1 (8 * r.val + n.val) (calSetBytes r n u.sets[n] ++ calSetBytes r n u.prev[n]), false⟩
  (t, decide (1 < res))

/-! ### Host operations on sets (R420, R421) -/

/-- Apply or roll back, store when asked, and report. -/
def State.calOp (s : State) (r : Fin 4) : CalOp → State
  | .apply n c store cmd =>
    let t := s.modUpkeep r (fun u => u.take n c)
    let (w, refused) := if store then t.storeSet r n else (t, false)
    w.calReport r { kind := 5, node := some n, notStored := refused, factory := s.onFactoryCal r, host := true
                    points := c.points.length, cmd := cmd }
  | .rollback n store cmd =>
    match s.upkeep[r].prev[n] with
    | none => s.calReport r { kind := 6, status := 2, factory := s.onFactoryCal r, cmd := cmd }
    | some c =>
      let t := s.modUpkeep r (fun u => u.take n c)
      let (w, refused) := if store then t.storeSet r n else (t, false)
      w.calReport r { kind := 6, node := some n, notStored := refused, factory := s.onFactoryCal r, host := c.host
                      points := c.points.length, cmd := cmd }

/-- An operation takes effect at once, or at the commit point when a burst is being received (R403). -/
def State.calOpNow (s : State) (r : Fin 4) (o : CalOp) : State :=
  if s.burstIn r then s.modUpkeep r (fun u => { u with ops := u.ops ++ [o] }) else s.calOp r o

/-- Reach, node and copy that CAL_SET_SEL names (Table 11.11). -/
def Cal.reach (c : Cal) : Fin 4 := Fin.ofNat 4 (bits c.setSel 9 8)
def Cal.node (c : Cal) : Fin 5 := if 4 ≤ bits c.setSel 2 0 then 4 else Fin.ofNat 5 (bits c.setSel 2 0)

/-- The set in the window, when COUNT is 1 to 16 (Table 11.11). -/
def Cal.windowSet (c : Cal) : Option CalSet :=
  let n := c.winCount.toNat
  if n = 0 || 16 < n then none
  else some { points := ((c.setF.toList.zip c.setO.toList).take n).map (fun p => ⟨bits p.1 20 0, signed 16 (bits p.2 15 0)⟩)
              temp := signed 8 c.winTemp.toNat, gen := 0, host := true }

/-- APPLY_SET (R420). -/
def State.applySet (s : State) (store : Bool) (cmd : BitVec 32) : State :=
  s.withSome s.cal.windowSet (fun c t => t.calOpNow t.cal.reach (.apply t.cal.node c store cmd))

/-- ROLLBACK (R421): one node, or every node with NODE 7. -/
def State.rollback (s : State) (r : Fin 4) (node : Nat) (store : Bool) (cmd : BitVec 32) : State :=
  let l : List (Fin 5) := if node = 7 then [0, 1, 2, 3, 4] else if h : node < 5 then [⟨node, h⟩] else []
  s.forEach l (fun n t => t.calOpNow r (.rollback n store cmd))

/-- LOAD (R420): the selected set into the window; an absent one leaves VALID 0 and a COUNT of 0. -/
def State.loadSet (s : State) : State :=
  let u := s.upkeep[s.cal.reach]
  let o := if bit s.cal.setSel 4 then u.prev[s.cal.node] else u.sets[s.cal.node]
  { s with cal :=
    match o with
    | none => { s.cal with winValid := false, winHost := false, winCount := 0, winTemp := 0, winGen := 0
                           setF := Vector.replicate 16 0, setO := Vector.replicate 16 0 }
    | some c => { s.cal with
        winValid := true, winHost := c.host, winCount := BitVec.ofNat 5 c.points.length, winTemp := byteOfInt c.temp
        winGen := BitVec.ofNat 16 c.gen
        setF := Vector.ofFn (fun i => match c.points[i.val]? with | some p => BitVec.ofNat 32 p.freq | none => 0)
        setO := Vector.ofFn (fun i => match c.points[i.val]? with | some p => BitVec.ofNat 32 (unsigned 16 p.corr) | none => 0) } }

/-! ### Fallow rotation -/

/-- A migration into the reach runs (R457): a context placed there has not left MIGRATING. -/
def State.migratingInto (s : State) (r : Fin 4) : Bool :=
  allCtxs.any (fun c => s.ctxs[c].st == .migrating && s.ctxs[c].placed && s.ctxs[c].reachOf == r)

/-- SUSPENDED (R115, R426, R465). -/
def State.fallowSuspended (s : State) (r : Fin 4) : Bool := s.fallow[r].retired.isSome || s.migratingInto r

/-- Each trim moves by a quarter of its measured error (R405; log entry 22). -/
def trimStep (t e : TrimError) : TrimError :=
  ⟨t.offset - e.offset.tdiv 4, t.gain - e.gain.tdiv 4, t.skew - e.skew.tdiv 4⟩

/-- The replica sweep: 93 steps of 0.4 ms (R408). -/
def replicaSweepPs : Nat := 37200000000

/-- The fallow sub-ADC's input is switched to the replica (R408, step 1). -/
def Fallow.onReplica (f : Fallow) (now : Nat) : Bool :=
  match f.sweep with
  | some (t, e) => decide (t ≤ now ∧ now < e)
  | none => false

/-- The measurement of the period that ends now, 4 ms to 36 ms of it, overlapped the replica sweep (R404, R408, R409). -/
def Fallow.swept (f : Fallow) (now : Nat) : Bool :=
  match f.sweep with
  | some (t, e) => decide (t < now - 4 * msPs ∧ now - 36 * msPs < e)
  | none => false

/-- A fallow period (chapter 03). -/
def fallowPs : Nat := 40 * msPs

/-- The last period boundary at or before an instant: boundaries keep their spacing (R114). -/
def Fallow.lastBound (f : Fallow) (now : Nat) : Nat := f.boundPs + (now - f.boundPs) / fallowPs * fallowPs

/-- A period boundary: the fallow sub-ADC returns with new trims, or waits for them, to the slot of the next, which lies fallow (R111,
R113). -/
def Fallow.boundary (f : Fallow) (e : TrimError) (now : Nat) (burst : Bool) : Fallow :=
  let i := f.index
  let t := trimStep f.trims[i] e
  { f with
    trims := if f.swept now || burst then f.trims else f.trims.set i t
    waiting := if f.swept now || !burst then f.waiting else f.waiting ++ [(i, t)]
    lastError := if f.swept now then f.lastError else some (i, e)
    index := i + 1
    slots := f.slots.map (fun k => if k = i + 1 then i else k)
    boundPs := f.lastBound now
    periods := f.periods + 1
    rotations := if (f.periods + 1) % 17 = 0 then f.rotations + 1 else f.rotations }

/-- After a complete rotation of 17 periods: SPUR, and a report after every FALLOW_REP rotations (R406); the rotations are counted from
ready, past the 16 bits that the register shows. -/
def State.rotationDone (s : State) (r : Fin 4) (spur : Int) : State :=
  let t := s.modUpkeep r (fun u => { u with spur := BitVec.ofInt 16 spur })
  let n := bits s.cal.ctrl 23 16
  if n ≠ 0 && s.fallow[r].periods / 17 % n == 0 then t.calReport r { kind := 1, factory := s.onFactoryCal r } else t

/-- FALLOW_BOUNDARY (R111): `spur` is the estimate of R406 that stands at the end of a rotation. -/
def execFallowBoundary (dt : Nat) (r : Fin 4) (err : TrimError) (spur : Int) (s : State) : Host.Outcome State Fault Refusal :=
  s.occurs dt (fun t => t.reachUp r && !t.fallowSuspended r && decide (t.fallow[r].boundPs + fallowPs ≤ t.clock)) (fun t =>
    let u := t.modFallow r (fun f => f.boundary err t.clock (t.burstIn r))
    if u.fallow[r].periods % 17 = 0 then u.rotationDone r spur else u)

/-- FALLOW_TRIM_COMMIT (R113). -/
def execFallowTrimCommit (dt : Nat) (r : Fin 4) (s : State) : Host.Outcome State Fault Refusal :=
  s.occurs dt (fun t => t.reachUp r && !t.burstIn r)
    (fun t => t.modFallow r (fun f => { f with trims := f.waiting.foldl (fun v p => v.set p.1 p.2) f.trims, waiting := [] }))

/-! ### The maintenance scheduler -/

/-- Order of admission (R425). -/
def ActKind.rank : ActKind → Nat
  | .migration => 0
  | .recal => 1
  | .absolute => 2
  | .selftest => 3

/-- An absolute calibration runs in some reach. -/
def State.absoluteRuns (s : State) : Bool :=
  allReaches.any (fun r => match s.upkeep[r].running with | some a => a.kind == .absolute | none => false)

/-- An activity of this kind may start in the reach now (R424, R427). -/
def State.mayStart (s : State) (r : Fin 4) (k : ActKind) : Bool :=
  s.upkeep[r].running.isNone && !s.migratingInto r && !(k == .absolute && s.absoluteRuns)

/-- The replica sweep ends at once. -/
def Fallow.endSweep (f : Fallow) (now : Nat) : Fallow := { f with sweep := f.sweep.map (fun p => (p.1, min p.2 now)) }

/-- The running activity ends ABORTED: nothing it measured is applied, its sweep ends, and its tone ramps down (R428). -/
def State.abortRun (s : State) (r : Fin 4) (reason qrp : Nat) : State :=
  let w := s.calSettle r
  w.withSome w.upkeep[r].running (fun a t =>
    ((t.modFallow r (fun f => f.endSweep t.clock)).modUpkeep r (fun u =>
        { u with running := none, inject := u.inject.map (fun i => i.lower t.clock), anchor := u.anchor.map (fun i => i.lower t.clock) })).endActivity r a
      { kind := 0, status := 1, reason := reason, points := a.measured.length, skipped := a.skipped, factory := t.onFactoryCal r } qrp)

/-- Queued requests that the test names end ABORTED (R545). -/
def State.abortQueued (s : State) (r : Fin 4) (p : Activity → Bool) (reason qrp : Nat) : State :=
  let l := s.upkeep[r].queue
  (s.modUpkeep r (fun u => { u with queue := l.filter (fun a => !p a) })).forEach (l.filter p)
    (fun a t => t.endActivity r a { kind := 0, status := 1, reason := reason, factory := t.onFactoryCal r } qrp)

/-- The pipelines of a reach that have a free slot (R422). -/
def State.freePipelines (s : State) (r : Fin 4) : List (Fin 8) :=
  (List.finRange 8).filter (fun p => (List.range 8).any (fun i => s.room.slotFits r 0 false 1 false (8 * p.val + i)))

/-- The anchor tone from −90 to −60 dBFS, measured over 20 ms and lowered (R408, step 2). -/
def anchorTone (now : Nat) : RampTone := { low := -9000, high := -6000, risePs := now, downPs := some (now + 35 * msPs) }

/-- An activity starts (R408, R412, R422); the first point of an absolute run waits for the switch of an earlier one. -/
def State.startRun (s : State) (r : Fin 4) (a : Activity) : State :=
  let b := { a with startedPs := s.clock, tested := if a.kind == .selftest then s.freePipelines r else [] }
  let t := s.modUpkeep r (fun u => { u with running := some b })
  match a.kind with
  | .absolute => if t.upkeep[r].inject.isSome then t else (t.startPoint r b t.clock).closeSwitch r
  | .recal => (t.modUpkeep r (fun u => { u with anchor := some (anchorTone s.clock) })).modFallow r
      (fun f => { f with sweep := some (s.clock, s.clock + replicaSweepPs) })
  | _ => t

/-- BUSY to the commands of a request that waits (R425, R536). -/
def State.busy (s : State) (a : Activity) : State := s.forEach a.cmds (fun id t => t.respond id 0x0030 stBusy 0 [])

/-- Join the queue of the reach. -/
def State.queueRun (s : State) (r : Fin 4) (a : Activity) : State :=
  (s.modUpkeep r (fun u => { u with queue := u.queue ++ [a] })).busy a

/-- A request accepted by QRP answers ACCEPTED (R536, R543). -/
def State.acceptRun (s : State) (a : Activity) : State := s.forEach a.cmds (fun id t => t.accept id 0x0030 [])

/-- The running activity was admitted in this FAB cycle, and the request stands before it in the order of R425 (Table 11.2). -/
def State.yields (s : State) (r : Fin 4) (k : ActKind) : Bool :=
  match s.upkeep[r].running with
  | some a => a.startedPs == s.clock && decide (k.rank < a.kind.rank)
  | none => false

/-- A request for a reach (R425, R427): answers the QRP reason of a refusal, 0 when taken. -/
def State.request (s0 : State) (r : Fin 4) (a : Activity) : State × Nat :=
  let s := s0.forEach allReaches (fun q t => t.calSettle q)
  let q := s.upkeep[r].queue
  let same := q.findIdx? (fun x => x.kind == a.kind)
  if a.kind == .recal && s.fallow[r].retired.isSome then (s, 3)
  else match same, a.kind with
    | some i, .absolute =>
      let t := (s.acceptRun a).abortQueued r (fun x => x.kind == .absolute) 5 5
      ((t.modUpkeep r (fun u => { u with queue := u.queue.take i ++ a :: u.queue.drop i })).busy a, 0)
    | some _, _ =>
      ((s.acceptRun a).modUpkeep r (fun u => { u with queue := u.queue.map (fun x => if x.kind == a.kind then { x with cmds := x.cmds ++ a.cmds } else x) }), 0)
    | none, _ =>
      if s.mayStart r a.kind && !(q.any (fun x => s.mayStart r x.kind)) then ((s.acceptRun a).startRun r a, 0)
      else if 4 ≤ q.length then (s, 0x86)
      else if s.yields r a.kind && !s.migratingInto r && !(a.kind == .absolute && s.absoluteRuns) then
        let old := s.upkeep[r].running
        let t := (s.acceptRun a).modUpkeep r (fun u => { u with running := none })
        ((t.withSome old (fun o u => u.queueRun r o)).startRun r a, 0)
      else ((s.acceptRun a).queueRun r a, 0)

/-- The queued activity that is admitted next (R425). -/
def State.admissible (s : State) (r : Fin 4) : Option Activity :=
  [ActKind.recal, .absolute, .selftest].findSome? (fun k => if s.mayStart r k then s.upkeep[r].queue.find? (fun a => a.kind == k) else none)

/-- MAINTENANCE_ADMIT (R425). -/
def execMaintenanceAdmit (dt : Nat) (r : Fin 4) (s : State) : Host.Outcome State Fault Refusal :=
  s.occurs dt (fun t => t.reachUp r) (fun s0 =>
    let t := s0.forEach allReaches (fun q u => u.calSettle q)
    t.withSome (t.admissible r) (fun a u => (u.modUpkeep r (fun x => { x with queue := x.queue.erase a })).startRun r a))

/-! ### Commands of CAL_CMD (Table 11.6) -/

/-- The absolute run that CAL_ABS_LEVEL and CAL_ABS_F0 onward describe (R412). -/
def State.absoluteAsked (s : State) (points : Nat) : Activity :=
  { kind := .absolute, points := (s.cal.absF.toList.take (points + 1)).map (fun w => bits w 20 0), level := signed 16 s.cal.absLevel.toNat }

/-- A point lies within the stop edge plus 10 kHz of a context of the reach that is not IDLE (R412). -/
def State.pointBlocked (s : State) (r : Fin 4) (f : Nat) : Bool :=
  allCtxs.any (fun c =>
    let x := s.ctxs[c]
    let e := x.active.stopEdge
    x.st != .idle && x.reachOf == r && decide ((max (f * 1000) x.active.centre - min (f * 1000) x.active.centre) * e.2 ≤ e.1 + 10000 * e.2))

/-- A CAL operation of a ready reach; answers the QRP reason of a refusal, 0 when taken. `cmds` and `cmd` are its CMD_ID. -/
def State.calRun (s : State) (r : Fin 4) (op : Nat) (points : Nat) (cmds : List (BitVec 32)) : State × Nat :=
  match op with
  | 1 => s.request r { kind := .recal, cmds := cmds }
  | 2 =>
    let a := { s.absoluteAsked points with cmds := cmds }
    if a.points.any (s.pointBlocked r) then (s, 0x82) else s.request r a
  | 3 => s.request r { kind := .selftest, cmds := cmds }
  | _ => (s, 0)

/-- A write to CAL_CMD whose reach must be ready, else it is discarded (R79). -/
def State.calTrigger (s : State) (r : Fin 4) (f : State → State) : State :=
  if s.reachUp r then f s else s.writeIgnored 0x1004

/-- CAL_RECALIBRATION (R408). -/
def execCalRecalibration (dt : Nat) (r : Fin 4) (s : State) : Host.Outcome State Fault Refusal :=
  s.occurs dt State.awake (fun t => t.calTrigger r (fun u => (u.calRun r 1 0 []).1))

/-- CAL_ABSOLUTE (R412): `points` is POINTS, the points less one. -/
def execCalAbsolute (dt : Nat) (r : Fin 4) (points : Fin 16) (s : State) : Host.Outcome State Fault Refusal :=
  s.occurs dt State.awake (fun t => t.calTrigger r (fun u => (u.calRun r 2 points.val []).1))

/-- CAL_SELFTEST (R422). -/
def execCalSelftest (dt : Nat) (r : Fin 4) (s : State) : Host.Outcome State Fault Refusal :=
  s.occurs dt State.awake (fun t => t.calTrigger r (fun u => (u.calRun r 3 0 []).1))

/-- CAL_APPLY_SET (R420): the reach of the window. -/
def execCalApplySet (dt : Nat) (store : Bool) (s : State) : Host.Outcome State Fault Refusal :=
  s.occurs dt State.awake (fun t => t.calTrigger t.cal.reach (fun u => u.applySet store 0))

/-- CAL_ROLLBACK (R421). -/
def execCalRollback (dt : Nat) (r : Fin 4) (node : BitVec 3) (store : Bool) (s : State) : Host.Outcome State Fault Refusal :=
  s.occurs dt State.awake (fun t => t.calTrigger r (fun u => u.rollback r node.toNat store 0))

/-- CAL_LOAD (R420). -/
def execCalLoad (dt : Nat) (s : State) : Host.Outcome State Fault Refusal :=
  s.occurs dt State.awake State.loadSet

/-- The activity that an OP of CAL_CMD names; 0 every one (Table 11.6). -/
def opNames (op : Nat) (a : Activity) : Bool :=
  op == 0 || (op == 1 && a.kind == .recal) || (op == 2 && a.kind == .absolute) || (op == 3 && a.kind == .selftest)

/-- Abort of the activities of a reach that a test names, running and queued (R428, R545). -/
def State.calAbort (s0 : State) (r : Fin 4) (p : Activity → Bool) (reason qrp : Nat) : State :=
  let s := s0.calSettle r
  (s.when (match s.upkeep[r].running with | some a => p a | none => false) (fun t => t.abortRun r reason qrp)).abortQueued r p reason qrp

/-- CAL_ABORT (R428). -/
def execCalAbort (dt : Nat) (r : Fin 4) (op : BitVec 3) (s : State) : Host.Outcome State Fault Refusal :=
  s.occurs dt State.awake (fun t => t.calTrigger r (fun u => u.calAbort r (opNames op.toNat) 1 1))

/-- A word of CAL_CMD as a register write gives it (Table 11.6). -/
def State.writeCalCmd (s : State) (v : Word) : State :=
  let r := Fin.ofNat 4 (bits v 9 8)
  let op := bits v 2 0
  let store := bit v 10
  if bit v 31 then s.calTrigger r (fun u => u.calAbort r (opNames op) 1 1)
  else match op with
    | 0 => s
    | 4 => s.calTrigger s.cal.reach (fun u => u.applySet store 0)
    | 5 => s.calTrigger r (fun u => u.rollback r (bits v 14 12) store 0)
    | 6 => s.loadSet
    | 7 => s
    | op => s.calTrigger r (fun u => (u.calRun r op (bits v 19 16) []).1)

/-- QRP CAL (R543, Table 14.14): one word laid out as CAL_CMD. -/
def State.qrpCal (s : State) (id : BitVec 32) (v : Word) : State :=
  let r := Fin.ofNat 4 (bits v 9 8)
  let op := bits v 2 0
  let store := bit v 10
  let done := fun (t : State) => t.respond id 0x0030 stCompleted 0 []
  let ready := fun (q : Fin 4) (f : State → State) => if s.reachUp q then f s else s.refuse id 0x0030 0x83
  if bit v 31 then s.refuse id 0x0030 0x82
  else match op with
    | 0 => done s
    | 7 => done s
    | 4 => ready s.cal.reach (fun t => (done t).applySet store id)
    | 5 => ready r (fun t => (done t).rollback r (bits v 14 12) store id)
    | 6 => done s.loadSet
    | op => ready r (fun t =>
        let (u, n) := t.calRun r op (bits v 19 16) [id]
        if n = 0 then u else t.refuse id 0x0030 n)

/-- QRP_CAL (R543). -/
def execQrpCal (dt : Nat) (src : Peer) (id : BitVec 32) (word : Word) (s : State) : Host.Outcome State Fault Refusal :=
  s.occurs dt (fun _ => true) (fun t => t.command src id 0x0030 (decide (1 ≤ bits word 2 0 ∧ bits word 2 0 ≤ 3)) 1 (fun u => u.qrpCal id word))

/-! ### Requests of the part's own -/

/-- A request without a command. -/
def State.ownRequest (s : State) (r : Fin 4) (k : ActKind) : State := (s.request r { kind := k }).1

/-- SELFTEST_DUE (R422): every SELFTEST_PERIOD minutes, in every ready reach. -/
def execSelftestDue (dt : Nat) (s : State) : Host.Outcome State Fault Refusal :=
  s.occurs dt (fun t => t.serving && bits t.cal.ctrl 15 0 != 0 && decide (t.selftestPs + bits t.cal.ctrl 15 0 * 60 * secPs ≤ t.clock))
    (fun t => ({ t with selftestPs := t.clock } : State).forEach (allReaches.filter t.reachUp) (fun r u => u.ownRequest r .selftest))

/-- TEMP_THRESH in °C (Table 11.5). -/
def Cal.thresh (c : Cal) : Nat := min (max (bits c.ctrl 28 24) 1) 15

/-- Highest junction temperature of the grade (R628). -/
def Part.maxTemp (p : Part) : Int := if p.grade = 2 then 125 else 110

/-- A reading above the grade maximum is posted, again at most once a minute while it stays above (R628). -/
def State.tempPost (s : State) (r : Fin 4) (v : Int) : State :=
  if v ≤ s.part.maxTemp then s.modUpkeep r (fun u => { u with tempPostPs := none })
  else if s.since s.upkeep[r].tempPostPs (60 * secPs) then
    (s.modUpkeep r (fun u => { u with tempPostPs := some s.clock })).post 6 r.val 0xFFFF 0x81 3 (bytesOf 1 r.val ++ [byteOfInt v])
  else s

/-- One reading (R398, R407, R628). -/
def State.tempRead (s0 : State) (r : Fin 4) (v : Int) : State :=
  let s := s0.calSettle r
  let t := (s.modUpkeep r (fun u => { u with temp := v, tempPs := some s.clock })).tempPost r v
  let moved := match s.upkeep[r].tempAtRecal with | some o => decide (s.cal.thresh < (v - o).natAbs) | none => false
  let running := match s.upkeep[r].running with | some a => a.kind == .recal | none => false
  if bit s.cal.ctrl 31 && moved && !running && s.reachUp r then t.ownRequest r .recal else t

/-- TEMP_SENSOR_READ (R398): every 100 ms, in the reaches that the part has. -/
def execTempSensorRead (dt : Nat) (tA tB tC tD : Int) (s : State) : Host.Outcome State Fault Refusal :=
  s.occurs dt (fun t => t.serving && t.since t.upkeep[0].tempPs (100 * msPs)) (fun t => t.forEach ([((0 : Fin 4), tA), (1, tB), (2, tC), (3, tD)].filter (fun p => t.reachExists p.1))
    (fun p u => u.tempRead p.1 p.2))

/-! ### Runs -/

/-- FEGR_COMPLETE (R408): the new step table, after the sweep, and the residual that R410 measures with it. -/
def execFegrComplete (dt : Nat) (r : Fin 4) (table : StepTable) (gainErr : Int) (s : State) : Host.Outcome State Fault Refusal :=
  s.occurs dt (fun t => t.reachUp r) (fun t => t.withSome ((t.runOf r .recal).filter (fun a => !a.ready && decide (a.startedPs + replicaSweepPs ≤ t.clock)))
    (fun a u => u.modUpkeep r (fun x => { x with running := some { a with table := some table, gainErr := some gainErr, ready := true } })))

/-- An EAB burst was being received in the reach during the 10 ms that end now (R414). -/
def State.burstDuring (s : State) (r : Fin 4) : Bool :=
  s.burstIn r || allCtxs.any (fun c =>
    let x := s.ctxs[c]
    x.st != .idle && x.active.std == stdEab && x.reachOf == r &&
      (match x.eab.endPs with | some t => decide (s.clock < t + 10 * msPs) | none => false))

/-- A block of the present point ends in the slot it began in, 10 ms after it began, with the injection at P_c (R413). -/
def State.blockEnds (s : State) (r : Fin 4) (a b : Activity) : Bool :=
  b == a && a.slot.isSome && decide (a.blockPs + 10 * msPs ≤ s.clock) && !s.burstDuring r &&
    (match s.upkeep[r].inject with | some t => t.downPs.isNone | none => false)

/-- A block that ends now is kept, or discarded and repeated: after a burst, a mark, or a move to another slot (R414, R415). -/
def State.absBlock (s : State) (r : Fin 4) (power : Int) (snr : Nat) (marked : Bool) (a : Activity) : State :=
  match a.points with
  | [] => s
  | f :: _ =>
    let b := s.holdSlot r f s.clock a
    if a.outcome.isSome || decide (s.clock < a.blockPs + 10 * msPs) then s
    else s.modUpkeep r (fun u => { u with running := some { b with
      blockPs := s.clock, blocks := if s.blockEnds r a b && !marked && decide (a.blocks.length < 8) then a.blocks ++ [(power, snr)] else a.blocks } })

/-- CAL_ABS_BLOCK (R414): `power` in 0.01 dB, reach-referred; `snr` in 0.5 dB. -/
def execCalAbsBlock (dt : Nat) (r : Fin 4) (power : Int) (snr : Nat) (marked : Bool) (s : State) : Host.Outcome State Fault Refusal :=
  s.occurs dt (fun t => t.reachUp r) (fun s0 =>
    let t := s0.calSettle r
    t.withSome (t.runOf r .absolute) (fun a u => u.absBlock r power snr marked a))

/-- C of a point from P_c and the mean of the eight blocks (R413). -/
def pointCorr (level : Int) (blocks : List (Int × Nat)) : Int := (level - 600) - (roundDiv ((blocks.map Prod.fst).foldl (· + ·) 0) 8 - 4000)

/-- Tone signal-to-noise ratio of a point, the mean of its eight blocks in 0.5 dB (R418; log entry 77). -/
def pointSnr (blocks : List (Int × Nat)) : Nat := (roundDiv ((blocks.map Prod.snd).foldl (· + ·) 0 : Nat) 8).toNat

/-- Residual of a point: the check block referred with the new correction, less P_c − 6 dB (R413). -/
def pointResidual (level corr check : Int) : Int := check - 4000 + corr - (level - 600)

/-- The check block of the present point ends; `none` where a sample of it carries a mark, and it is repeated, as after a burst or a move
(R414, R415). With it the point is measured, and its injection ramps down (R413). -/
def State.pointDone (s : State) (r : Fin 4) (check : Option Int) (a : Activity) : State :=
  match a.points with
  | [] => s
  | f :: _ =>
    let b := s.holdSlot r f s.clock a
    if a.outcome.isSome || a.blocks.length != 8 || decide (s.clock < a.blockPs + 10 * msPs) then s
    else match check.filter (fun _ => s.blockEnds r a b) with
      | none => s.modUpkeep r (fun u => { u with running := some { b with blockPs := s.clock } })
      | some v =>
        let c := pointCorr a.level a.blocks
        s.endPoint r a (some { corr := c, residual := pointResidual a.level c v, snr := pointSnr a.blocks })

/-- CAL_POINT_COMPLETE (R413). -/
def execCalPointComplete (dt : Nat) (r : Fin 4) (check : Option Int) (s : State) : Host.Outcome State Fault Refusal :=
  s.occurs dt (fun t => t.reachUp r) (fun s0 =>
    let t := s0.calSettle r
    t.withSome (t.runOf r .absolute) (fun a u => u.pointDone r check a))

/-- The present point has lasted 2 s, or has waited 1 s for a slot and none is free now (R414, R415). -/
def State.pointOverdue (s : State) (a : Activity) : Bool :=
  !a.points.isEmpty && a.outcome.isNone && (decide (a.pointPs + 2 * secPs ≤ s.clock) || (match a.noSlotPs with | some n => decide (n + secPs ≤ s.clock) | none => false))

/-- CAL_POINT_TIMEOUT (R414, R415). -/
def execCalPointTimeout (dt : Nat) (r : Fin 4) (s : State) : Host.Outcome State Fault Refusal :=
  s.occurs dt (fun t => t.reachUp r) (fun s0 =>
    let t := s0.calSettle r
    t.withSome ((t.runOf r .absolute).filter t.pointOverdue) (fun a u => u.endPoint r a none))

/-- The measurement leaves a slot that is taken (R415). -/
def State.slotTaken (s : State) (r : Fin 4) (a : Activity) : State :=
  match a.points with
  | [] => s
  | f :: _ => (s.modUpkeep r (fun u => { u with running := some (s.holdSlot r f s.clock a) })).closeSwitch r

/-- CAL_SLOT_TAKEN (R415). -/
def execCalSlotTaken (dt : Nat) (r : Fin 4) (s : State) : Host.Outcome State Fault Refusal :=
  s.occurs dt (fun t => t.reachUp r) (fun s0 =>
    let t := s0.calSettle r
    t.withSome (t.runOf r .absolute) (fun a u => u.slotTaken r a))

/-! ### The commit point (R403, R416, R418, R419) -/

/-- The set of an absolute run takes its node and is stored. -/
def State.commitSet (s : State) (r : Fin 4) (a : Activity) : State :=
  let u := s.upkeep[r]
  let n := nodeOf a.temp
  let c : CalSet := { points := sortPoints a.measured, temp := a.temp, gen := 0 }
  let t := s.modUpkeep r (fun u => { u.take n c with running := none, gainErr := BitVec.ofInt 16 (a.gainErr.getD 0) })
  let (w, refused) := t.storeSet r n
  w.endActivity r a { kind := 3, node := some n, notStored := refused, factory := s.onFactoryCal r, gainErr := a.gainErr
                      points := a.measured.length, skipped := a.skipped, snr := a.snr, delta := u.sets[n].map (calDelta c) } 0

/-- A new step table from this instant on; a gain step at the same sample uses it (Table 11.3). -/
def Reach.retable (w : Reach) (t : StepTable) (now : Nat) : Reach :=
  let x := w.settle (now - 1)
  { x with stepTable := t, events := x.events ++ [(now, .gain (stepMult t x.lna x.attn))] }

/-- The step table of a recalibration takes force, and the anchor tone is measured once more with it (R408, R410). -/
def State.commitTable (s : State) (r : Fin 4) (a : Activity) : State :=
  ((s.modReach r (fun x => x.retable (a.table.getD x.stepTable) s.clock)).modUpkeep r (fun u => { u with
      running := none, tempAtRecal := some u.temp, gainErr := BitVec.ofInt 16 (a.gainErr.getD 0)
      anchor := some (anchorTone (max s.clock ((u.anchor.bind RampTone.overPs).getD 0))) })).endActivity r a
    { kind := 2, factory := s.onFactoryCal r, gainErr := a.gainErr } 0

/-- The journal's sets take force where the host has written none (R82, R84). -/
def Upkeep.takeReplayed (u : Upkeep) : Upkeep :=
  u.replayed.foldl (fun v p =>
    if (match v.sets[p.1] with | some c => c.host | none => false) then v
    else { v with sets := v.sets.set p.1 (some p.2.1), prev := v.prev.set p.1 p.2.2 }) { u with replayed := [], onFactory := false }

/-- The commit point of a reach: waiting operations, the journal's sets, and the run whose results are ready. -/
def State.calCommit (s0 : State) (r : Fin 4) : State :=
  let s := s0.calSettle r
  let t := s.when (s.journal.ready && (s.upkeep[r].onFactory || !s.upkeep[r].replayed.isEmpty)) (fun t => t.modUpkeep r Upkeep.takeReplayed)
  let w := (t.modUpkeep r (fun u => { u with ops := [] })).forEach t.upkeep[r].ops (fun o u => u.calOp r o)
  w.withSome (w.upkeep[r].running.filter (fun a => a.ready))
    (fun a u => if a.kind == .absolute then u.commitSet r a else u.commitTable r a)

/-- CAL_COMMIT_POINT (R403): a SAMP sample at which no EAB context of the reach receives a burst. -/
def execCalCommitPoint (dt : Nat) (r : Fin 4) (s : State) : Host.Outcome State Fault Refusal :=
  s.occurs dt (fun t => t.reachUp r && !t.burstIn r) (fun t => t.calCommit r)

/-- The pattern was driven into a pipeline that had a free slot only (R422). -/
def Activity.saw (a : Activity) (m : Mismatch) : Bool := m.block != 0 || a.tested.contains m.pipeline

/-- A self-test ends (R422, R423): a post for each mismatch, its warden's line STEST (R436), and the report. -/
def State.selftestEnd (s : State) (r : Fin 4) (bad : List Mismatch) (a : Activity) : State :=
  let l := bad.filter a.saw
  let t := (s.modUpkeep r (fun x => { x with running := none })).modWarden r (fun w => { w with stest := !l.isEmpty })
  (t.forEach l (fun m w => w.post 6 r.val 0xFFFF 0x25 1 (bytesOf 1 m.block.val ++ bytesOf 1 m.pipeline.val))).endActivity r a
    { kind := 4, mismatch := !l.isEmpty, points := a.tested.length, skipped := 8 - a.tested.length, factory := s.onFactoryCal r } 0

/-- SELFTEST_COMPLETE (R422, R423): the pattern takes 1 ms. -/
def execSelftestComplete (dt : Nat) (r : Fin 4) (bad : List Mismatch) (s : State) : Host.Outcome State Fault Refusal :=
  s.occurs dt (fun t => t.reachUp r) (fun t => t.withSome ((t.runOf r .selftest).filter (fun a => decide (a.startedPs + msPs ≤ t.clock)))
    (fun a u => u.selftestEnd r bad a))

end Sys2Proof.Machine
end

