-- ==== Sys2Proof/Machine/Failure.lean ====
section
/-! DEFINITION. Chapter 12, reach failure: the failure decision, placement, repair and retirement (R451 to R464), and the return of
waiting contexts (R463). -/

namespace Sys2Proof.Machine

def hourPs : Nat := 3600 * secPs

/-- Instants of the last hour, with now (R444, R464). -/
def withNow (l : List Nat) (now : Nat) : List Nat := l.filter (fun t => decide (now < t + hourPs)) ++ [now]

/-- SOURCE of a proposer: a warden, or the TMR control logic (Table 1.9; log entry 23). -/
def proposerSrc : Option (Fin 4) → Nat
  | some w => 1 + w.val
  | none => 0

/-- A reach runs and gives evidence: from the first lock of its PLL until it is stopped (R436). -/
def State.reachRuns (s : State) (r : Fin 4) : Bool :=
  s.serving && s.reaches[r].pll &&
    (s.reaches[r].st == .ready || s.reaches[r].st == .bringup || s.reaches[r].st == .failed)

/-! ### The state a context takes with it -/

/-- What a snapshot carries of DAB (R280): frame timing, CIF count, subchannel organisation and digest table. -/
def Dab.resume (d : Dab) (l : List (Fin 64)) : Dab :=
  ({ frameStamp := d.frameStamp, frameCif := d.frameCif, orgs := d.orgs, classes := d.classes, undefinedPosted := d.undefinedPosted
     digests := d.digests } : Dab).select l

/-- The engine of a placed context: cleared history, then its snapshot, whose lock must be gained again (R457, R458). What the side-data
table holds is not the engine's. -/
def Ctx.arrive (x : Ctx) (e : Entry) (p : Place) (now : Nat) : Ctx :=
  let y := { ({ x with active := e } : Ctx).acquireEngine true now with
    place := some p, waiting := false, placed := true, movedPs := now, movedFrom := some (x.active.reach, x.active.trib), firstAt := none }
  match x.snap with
  | some q => { y with
      fm := { x.fm.loseRds with carrierLock := false, lock := false, pilotWindow := false, pilotKnown := q.fm.pilotKnown, stereo := q.fm.stereo
                                rampPs := none, piLost := q.fm.piLost, piBad := q.fm.piBad, piGood := q.fm.piGood
                                audio := { swaps := [now] } }
      am := { syncDet := syncInUse e.detect false }
      dab := q.dab.resume e.subs
      gain := q.gain }
  | none => { y with dab := ({} : Dab).select e.subs }

/-! ### Placement (R453 to R457) -/

/-- A pending entry of a placed context, with the reach and tributary of the placement where it names those left (Table 1.8). -/
def Entry.follow (e : Entry) (left : Entry) (r : Fin 4) (t : Fin 8) : Entry :=
  if e.reach == left.reach && e.trib == left.trib && !e.idle then e.moveTo r t else e

/-- The pending entry of a placed context is checked again (Table 1.8), the other member of a pair commit still as it is pending (R212). -/
def State.recheck (s : State) (c : Fin 256) (left : Entry) : State :=
  let x := s.ctxs[c]
  match x.pending, x.place with
  | some p, some q =>
    let e := p.entry.follow left q.reach x.active.trib
    match s.check { view := fun k => if k = c then e else s.twinView k, old := some q, keepEngine := !goesAcquire x.active e }
        (s.roomBut [c] [c]) (s.liveBut [c] []) c e with
    | .refused n => s.endPending c n 2
    | .given g => s.modCtx c (fun y => { y with pending := some { p with entry := e, place := g } })
  | _, _ => s

/-- Put a context where placement has found room (R457, R458); a running activity of that reach gives way (Table 11.2). -/
def State.putAt (s : State) (c : Fin 256) (p : Place) (t : Fin 8) : State :=
  let left := s.ctxs[c].active
  let snapOk := s.ctxs[c].snap.isSome
  let u := ((s.abortRun p.reach 4 4).modCtx c (fun x => x.arrive (x.active.moveTo p.reach t) p s.clock)).startChain c (left.moveTo p.reach t)
  (if snapOk then u else u.toState c .acquire).recheck c left

/-- A context without a place waits for its own reach (R456); a commit of an unprotected one ends (Table 1.8). -/
def State.leaveWaiting (s : State) (c : Fin 256) : State :=
  let e := s.ctxs[c].active
  let t := (if e.isReserve then s else s.endPending c 0x0E 2).modCtx c (fun x => { x with waiting := true, placed := false })
  if e.isReserve then t.post 5 e.reach.val c.val 0x32 3 [] else t.post 5 e.reach.val c.val 0x31 1 []

/-- A twin member waits for its reach (R461); when its partner waits too, the pair is without protection (Table 12.5). -/
def State.twinWaits (s : State) (c : Fin 256) : State :=
  let t := s.modCtx c (fun x => { x with waiting := true, placed := false })
  let p := s.ctxs[c].active.partner
  if s.ctxs[p].st == .migrating && s.ctxs[p].waiting then
    t.post 5 s.ctxs[c].active.reach.val (min c.val p.val) 0x32 3 []
  else t

/-- A context that a failure decided earlier in this FAB cycle has placed (Table 12.2). -/
def State.placedNow (s : State) (c : Fin 256) : Bool :=
  let x := s.ctxs[c]
  x.st == .migrating && x.placed && x.movedPs == s.clock && s.reaches[x.reachOf].st == .ready &&
    (match x.movedFrom with | some p => s.reaches[p.1].st != .ready | none => false)

/-- A context that such a failure has left without a place. -/
def State.leftNow (s : State) (c : Fin 256) : Bool :=
  let x := s.ctxs[c]
  x.st == .migrating && x.waiting && !x.active.isTwin && s.upkeep[x.active.reach].failPs.getLast? == some s.clock

/-- It is placed once more as a context of the reach that it left. -/
def State.unplace (s : State) (c : Fin 256) : State :=
  s.modCtx c (fun x => match x.movedFrom with
    | some p => { x with active := x.active.moveTo p.1 p.2, place := none, waiting := true, placed := false }
    | none => x)

/-- Place the contexts of the reaches that fail now in one pass, and with them those of failures decided earlier in this FAB cycle (R443,
R453 to R456, Tables 12.2 and 12.5). -/
def State.placeContexts (s0 : State) (rs : List (Fin 4)) : State :=
  let again := allCtxs.filter s0.leftNow
  let s := s0.forEach (allCtxs.filter s0.placedNow) (fun c t => t.unplace c)
  let l := allCtxs.filter (fun c => s.ctxs[c].st == .migrating && (rs.contains s.ctxs[c].reachOf || s0.placedNow c || s0.leftNow c))
  let entries := l.map (fun c => (c, s.ctxs[c].active))
  let order := byPriority (entries.filter (fun x => x.2.isReserve)) ++ byPriority (entries.filter (fun x => !x.2.isReserve && !x.2.isTwin))
  let bare := s.forEach l (fun c t => t.modCtx c (fun x => { x with place := x.place.filter (fun p => rs.contains p.reach) }))
  let given := s.placeAll (allReaches.filter (fun k => s.reaches[k].st == .ready)) (rs.foldl Room.without bare.room) order
  (s.forEach given (fun g t => match g.2 with
    | some (p, n) => t.putAt g.1 p n
    | none => if again.contains g.1 then t else t.leaveWaiting g.1)).forEach
      (l.filter (fun c => s.ctxs[c].active.isTwin && rs.contains s.ctxs[c].reachOf)) (fun c t => t.twinWaits c)

/-! ### The failure of a reach -/

/-- What a context of the failed reach has formed and not handed over is lost with it; of a pair, its partner takes over from the first sample
that no record left to be sent carries: `l` are the records that R451 discards (R361, R362, R435). -/
def State.giveBack (s : State) (l : List Held) (c : Fin 256) : State :=
  let to_ := s.recordCtx c
  let first := fun (typ : Nat) => l.find? (fun h => h.record.ctx == to_.val && h.record.typ == typ)
  let t := if (s.partnerOf c).isNone then s
    else (s.modCtx to_ (fun x => { x with follow := { x.follow with spans := x.follow.spans.map (fun p =>
        match first p.1 with | some h => (p.1, min p.2 h.record.stamp) | none => p) } })).modCtx c (fun x =>
      let y : Ctx := { x with fm := { x.fm with audio := { x.fm.audio with sentPs := match first 3 with
        | some h => some (s.clockAt h.record.stamp - 1)
        | none => x.fm.audio.sentPs } } }
      match first 4 with
      | some h => { y with iqIndex := BitVec.ofNat 32 (natOf (slice h.record.payload 4 4)), iqEndPs := some (s.clockAt h.record.stamp) }
      | none => if x.iqBuf.isEmpty then y else { y with iqIndex := x.iqFirst, iqEndPs := some (s.clockAt x.iqStamp) })
  t.modCtx c (fun x => { x with fm := { x.fm with audio := { x.fm.audio with frames := [] } }, iqBuf := [], iqMarks := {} })

/-- A context of the failed reach enters MIGRATING (R452); a held image entry does so as a context of that reach (R211). -/
def State.uproot (s : State) (r : Fin 4) (c : Fin 256) : State :=
  let x := s.ctxs[c]
  let held := match x.held with | some e => !e.idle && e.reach == r | none => false
  if held then
    (s.modCtx c (fun y => { y with active := (x.held.getD Entry.zero), held := none, place := none, snap := none, waiting := true })).toState c .migrating
  else if x.st != .idle && x.reachOf == r then
    (s.toState c .migrating).modCtx c (fun y =>
      { y.endFade.stopChain with waiting := true, placed := false, invalid := true, resettle := false, dab := y.dab.syncLost
                                 pending := y.pending.map (fun p => { p with early := true }) })
  else s

/-- A run-out whose old chain's reach fails (Table 9.7): the old chain sends no more, and with the landing in another reach, the landing's
first record of each type whose old records do not reach the switch instant carries DISCONT. -/
def State.loseRunOut (s : State) (r : Fin 4) (c : Fin 256) (o : RunOut) : State :=
  if o.place.reach != r then s
  else if s.ctxs[c].reachOf == r then s.modCtx c (fun x => { x.openGate with follow := { x.follow with runOut := none } })
  else
    let short := (s.ctxs[s.recordCtx c].follow.spans.filter (fun p => decide (p.2 < o.switchNs))).map (fun p => p.1)
    (s.modCtx c (fun x => { x with discont := x.discont ++ short })).endRunOut c []

/-- What sequencer work in the reach comes to: landings, run-outs and checks end (R347, R348, R336). -/
def State.endWork (s : State) (r : Fin 4) (c : Fin 256) : State :=
  let x := s.ctxs[c]
  let t := match x.follow.landing with | some l => if l.place.reach == r then s.endLanding c 7 4 else s | none => s
  let u := match x.follow.runOut with
    | some o => t.loseRunOut r c o
    | none => t
  if x.follow.check.isSome && x.reachOf == r then u.endCheck c 5 none none else u

/-- A pending entry that names the lost reach ends when its context lies elsewhere (R541; log entry 24). -/
def State.endNaming (s : State) (r : Fin 4) (c : Fin 256) : State :=
  let x := s.ctxs[c]
  match x.pending with
  | some p => if !p.entry.idle && p.entry.reach == r && (x.st == .idle || x.reachOf != r) then s.endPending c 0x0E 4 else s
  | none => s

/-- A warden without evidence against its reach, which gives none while it does not run (R436). -/
def Warden.calm (w : Warden) : Warden := { w with subadc := [], stest := false, wdog := [], ue := false }

/-- An engine of a reach that stops. -/
def Engine.calm (e : Engine) : Engine := { e with restarting := false, lostPage := false, ue := false }

/-- The reach stops (R452): its front end and chains, its engines' restarts, and its held records from the evidence instant on
(R451). -/
def State.stopReach (s : State) (r : Fin 4) (st : ReachSt) (evidencePs : Nat) : State :=
  let t := s.modReach r (fun x => { x with
    st := st, pll := false, pllLowPs := none, fifoLowPs := none, adc := false, pass := false, oneShot := false, deferred := none, quietPs := 0, blank := .none, step := none
    events := [], blankLog := [], tribs := x.tribs.map (fun y => { y.restart with spateFlag := false }) })
  let u := ((t.modEngine (Fin.ofNat 8 (2 * r.val)) Engine.calm).modEngine (Fin.ofNat 8 (2 * r.val + 1)) Engine.calm).modWarden r Warden.calm
  { u with held := u.held.filter (fun h => !(h.from_ == r && decide (evidencePs ≤ h.atPs)))
           proposals := u.proposals.filter (fun p => !(p.reach == r && p.act != .wardenRestart)) }

/-- A context that waits for a retired reach ends its migration in IDLE with its entry kept (R464). -/
def State.giveUp (s : State) (r : Fin 4) (c : Fin 256) : State :=
  let x := s.ctxs[c]
  if x.st == .migrating && x.waiting && x.active.reach == r then
    ((s.endPending c 0x0E 4).toState c .idle).modCtx c (fun y =>
      { y.stopChain with place := none, waiting := false, snap := none, invalid := true, paused := false, twin := {} })
  else s

/-- A reach failure decision: SOURCE of its posts, evidence lines and instant, and whether a bring-up timed out (R77, R451, R452). -/
structure ReachFailure where
  reach : Fin 4
  src : Nat
  lines : Nat
  timeout : Bool
  evidencePs : Nat
  deriving DecidableEq, Repr

/-- The failures of a reach within the last hour, with one of now (R464). -/
def State.failures (s : State) (r : Fin 4) : List Nat := withNow s.upkeep[r].failPs s.clock

/-- The records that R451 discards have not been sent (R460). -/
def Ctx.unsend (evidencePs now : Nat) (x : Ctx) : Ctx :=
  { x with sentEnds := x.sentEnds.dropWhile (fun p => decide (evidencePs ≤ p.1) && decide (now < p.1 + 50000000)) }

/-- What the decision does in its reach (R451, R452). -/
def State.stopFailed (s : State) (q : ReachFailure) : State :=
  let r := q.reach
  let fails := s.failures r
  let evidenceNs := s.nowNs - (s.clock - q.evidencePs) / 1000
  let lost := s.held.filter (fun h => h.from_ == r && decide (q.evidencePs ≤ h.atPs))
  let a := ((s.abortRun r 3 3).stopReach r (if 3 ≤ fails.length then .retired else .failed) q.evidencePs).modUpkeep r (fun u => { u with failPs := fails })
  let b := a.post q.src r.val 0xFFFF 0x20 1 (bytesOf 1 0 ++ bytesOf 1 q.lines ++ bytesOf 1 q.timeout.toNat ++ bytesOf 5 0 ++ bytesOf 8 evidenceNs)
  let mine := allCtxs.filter (fun c => b.ctxs[c].st != .idle && b.ctxs[c].reachOf == r)
  ((b.forEach mine (fun c t => (t.giveBack lost c).modCtx c (Ctx.unsend q.evidencePs b.clock))).forEach allCtxs
    (fun c t => t.endWork r c)).forEach allCtxs (fun c t => t.uproot r c)

/-- Its repair, or its retirement after the third failure within an hour (R462, R464). -/
def State.repairOrRetire (s : State) (q : ReachFailure) : State :=
  let r := q.reach
  let n := s.upkeep[r].failPs.length
  let d := (s.forEach allCtxs (fun c t => t.endNaming r c)).modReach r
    (fun x => { x with repair := decide (n < 3), deadlinePs := if 3 ≤ n then none else some (s.clock + 220 * msPs) })
  if 3 ≤ n then
    ((d.post q.src r.val 0xFFFF 0x22 3 (bytesOf 1 n)).forEach allCtxs (fun c t => t.giveUp r c)).abortQueued r (fun _ => true) 3 3
  else d

/-- Reach failure decisions of one FAB cycle: each reach stops, their contexts are placed in one pass, and each is repaired or retired (R443,
R452, R462, R464). -/
def State.failReaches (s : State) (l : List ReachFailure) : State :=
  ((s.forEach l (fun q t => t.stopFailed q)).placeContexts (l.map ReachFailure.reach)).forEach l (fun q t => t.repairOrRetire q)

/-- One reach failure decision. -/
def State.failReach (s : State) (r : Fin 4) (src lines : Nat) (timeout : Bool) (evidencePs : Nat) : State :=
  s.failReaches [⟨r, src, lines, timeout, evidencePs⟩]

/-! ### The return to a repaired reach (R463) -/

/-- A waiting context comes home: its slots and engine by R190 and R202 in its own reach. -/
def State.goHome (s : State) (c : Fin 256) : State :=
  let x := s.ctxs[c]
  let e := x.active
  let p := match (s.roomFor [c]).place e.reach (tribDiv (s.tribOf e)) c true e x.place false with
    | .given p => p
    | .refused _ => x.place.getD { reach := e.reach }
  s.putAt c p e.trib

/-- REACH_RESTORED and the migration home (R462, R463), in the order of R453. -/
def State.restoreReach (s : State) (r : Fin 4) : State :=
  let n := (s.upkeep[r].failPs.filter (fun t => decide (s.clock < t + hourPs))).length
  let l := (allCtxs.filter (fun c => s.ctxs[c].st == .migrating && s.ctxs[c].waiting && s.ctxs[c].active.reach == r)).map
    (fun c => (c, s.ctxs[c].active))
  ((s.modReach r (fun x => { x with repair := false })).post 0 r.val 0xFFFF 0x21 1 (bytesOf 1 n)).forEach (byPriority l) (fun q t => t.goHome q.1)

end Sys2Proof.Machine
end

