-- ==== Sys2Proof/Machine/Voting.lean ====
section
/-! DEFINITION. Chapter 12: wardens, proposals and votes (R436 to R445), the recovery actions (R444, R642, R465), the copies of
the control logic (R446 to R448), and records held for a failure (R451). -/

namespace Sys2Proof.Machine

/-! ### Proposals (R439 to R443) -/

/-- Code of an action (PROPOSAL_DISPUTED of Table 12.7). -/
def actionCode : Action → Nat
  | .wardenRestart => 1
  | .reachFailure => 2
  | .engineRestart => 3
  | .subAdcRetire => 4

/-- A warden that may vote or propose: it exists and is not failed (R437, R439). -/
def State.wardenWorks (s : State) (w : Fin 4) : Bool := s.reachExists w && !s.wardens[w].failed

/-- The voters for a reach (R439). -/
def State.voters (s : State) (r : Fin 4) : List (Option (Fin 4)) :=
  let l := allReaches.filter (fun w => w != r && s.wardenWorks w)
  if l.length < 2 then l.map some ++ [none] else l.map some

/-- DATA of PROPOSAL_DISPUTED and NO_QUORUM. -/
def proposalData (act : Action) (lines : Nat) : List Byte := bytesOf 1 (actionCode act) ++ bytesOf 1 lines

/-- Watchdog events of an engine within 10 s of its last one (R438). -/
def Warden.overrunsOf (w : Warden) (e : Fin 8) : Nat := (w.overruns.filter (fun p => p.1 == e)).length

/-- The engines of a reach. -/
def enginesOf (r : Fin 4) : List (Fin 8) := [Fin.ofNat 8 (2 * r.val), Fin.ofNat 8 (2 * r.val + 1)]

/-- PLL_LOCK has been low for 1 µs (Table 12.1). -/
def pllLostPs : Nat := 1000000

/-- An evidence line of the reach and what Table 12.1 asks of it, with the identity that it carries (R436, R438): 0 PLL_LOCK, 1 FIFO_ALIVE,
2 ECC_UE, 3 WDOG, 4 SUBADC, 5 STEST, 6 HB. A page that the image cannot supply is proposed under bit 2 (log entry 23). -/
def State.lineHolds (s : State) (r : Fin 4) (act : Action) (ident : Nat) (drift : Bool) (line : Nat) : Bool :=
  let w := s.wardens[r]
  let e := Fin.ofNat 8 ident
  let named := w.subadc.any (fun p => p.1.val == ident && p.2 == drift)
  match act, line with
  | .wardenRestart, 6 => w.failed
  | .reachFailure, 0 => match s.reaches[r].pllLowPs with | some t => decide (t + pllLostPs ≤ s.clock) | none => false
  | .reachFailure, 1 => s.reaches[r].fifoLowPs.isSome
  | .reachFailure, 2 => (enginesOf r).any (fun k => s.engines[k].lostPage)
  | .reachFailure, 3 => decide (ident / 2 = r.val) && w.wdog.contains e && decide (2 ≤ w.overrunsOf e)
  | .reachFailure, 4 => s.fallow[r].retired.isSome && named
  | .reachFailure, 5 => w.stest
  | .engineRestart, 2 => w.ue && s.engines[e].ue
  | .engineRestart, 3 => w.wdog.contains e && decide (w.overrunsOf e < 2)
  | .subAdcRetire, 4 => named
  | _, _ => false

/-- The target of a proposal can take its action (R436, R439, R444, R464, R642). -/
def State.canAct (s : State) (r : Fin 4) (act : Action) (ident : Nat) : Bool :=
  match act with
  | .wardenRestart => s.reachExists r && !s.wardens[r].retired && !s.wardens[r].restarting
  | .reachFailure => s.reachRuns r
  | .engineRestart => s.reachRuns r && decide (ident / 2 = r.val) && !s.engines[Fin.ofNat 8 ident].restarting
  | .subAdcRetire => s.reachRuns r && s.fallow[r].retired.isNone

/-- What a proposal rests on is there: it names evidence, and every line named holds (R436, R438, R440). -/
def State.grounds (s : State) (r : Fin 4) (act : Action) (lines : BitVec 7) (ident : Nat) (drift : Bool) : Bool :=
  s.canAct r act ident && lines != 0 && (List.range 7).all (fun k => !lines.getLsbD k || s.lineHolds r act ident drift k)

/-- A proposal on this reach and action, and on this engine or sub-ADC where the action is on one (R436, R440). -/
def Proposal.isOn (p : Proposal) (r : Fin 4) (id : ProposalId) : Bool :=
  p.reach == r && p.act == id.act && (match id.act with | .engineRestart => p.ident == id.ident | .subAdcRetire => p.ident == id.ident | _ => true)

/-- Raise a proposal (R440 to R442); lapses count for its reach and action. -/
def State.propose (s : State) (proposer : Option (Fin 4)) (r : Fin 4) (act : Action) (lines : BitVec 7) (ident : Nat) (drift : Bool)
    (evidencePs : Nat) : State :=
  let old := s.proposals.find? (fun p => p.isOn r ⟨act, ident⟩)
  let like := s.proposals.find? (fun p => p.reach == r && p.act == act)
  if (s.voters r).length < 2 then s.post (proposerSrc proposer) r.val 0xFFFF 0x13 3 (proposalData act lines.toNat)
  else if (match old with | some p => p.live | none => false) then s
  else
    let p : Proposal := { proposer := proposer, reach := r, act := act, lines := lines, ident := ident, drift := drift
                          evidence := (match old with | some q => q.evidence | none => evidencePs), raisedPs := s.clock
                          lapses := (match like with | some q => q.lapses | none => 0)
                          disputed := (match like with | some q => q.disputed | none => false) }
    { s with proposals := s.proposals.filter (fun q => !q.isOn r ⟨act, ident⟩) ++ [p] }

/-- The clocks since which PLL_LOCK and FIFO_ALIVE are low, as a proposal on them finds them; the other lines are judged by what the model
holds (R436). -/
def State.noteLines (s : State) (r : Fin 4) (lines : BitVec 7) (evidencePs : Nat) : State :=
  s.modReach r (fun x => { x with pllLowPs := if lines.getLsbD 0 then some evidencePs else x.pllLowPs
                                  fifoLowPs := if lines.getLsbD 1 then some evidencePs else x.fifoLowPs })

/-- PROPOSAL_RAISE (R440): `evidenceAgoNs` is how long ago the evidence first asserted. -/
def execProposalRaise (dt : Nat) (proposer : Option (Fin 4)) (r : Fin 4) (act : Action) (lines : BitVec 7) (ident : Nat) (drift : Bool)
    (evidenceAgoNs : Nat) (s : State) : Host.Outcome State Fault Refusal :=
  s.occurs dt (fun t => t.awake && (t.noteLines r lines (t.clock - evidenceAgoNs * 1000)).grounds r act lines ident drift &&
      (match proposer with | some w => t.wardenWorks w | none => true))
    (fun t => (t.noteLines r lines (t.clock - evidenceAgoNs * 1000)).propose proposer r act lines ident drift (t.clock - evidenceAgoNs * 1000))

/-! ### Recovery actions -/

/-- A warden restart begins (R444). -/
def State.restartWarden (s : State) (p : Proposal) : State :=
  (s.modWarden p.reach (fun w => { w with restarting := true })).post (proposerSrc p.proposer) 0xFF 0xFFFF 0x10 1 (bytesOf 1 p.reach.val)

/-- An engine restart begins (R642): its contexts' samples are erased until it ends. -/
def State.restartEngine (s : State) (p : Proposal) : State :=
  let e := Fin.ofNat 8 p.ident
  let t := (s.modEngine e (fun x => { x with restarting := true, restartPs := s.clock, ue := false })).modWarden p.reach
    (fun w => { w with wdog := w.wdog.filter (· != e), ue := false })
  (t.forEach (s.unitsOn e) (fun c t => t.modCtx c (fun x => { x with erased := true }))).post
    (proposerSrc p.proposer) p.reach.val 0xFFFF 0x23 1 (bytesOf 1 e.val)

/-- A sub-ADC leaves the interleave: the fallow one takes its slot where it is in service, and rotation stops with the retired one fallow and
the trims in force held (R465, R111). -/
def Fallow.retire (f : Fallow) (n : Fin 17) (drift : Bool) : Fallow :=
  { f with slots := f.slots.map (fun k => if k = n then f.index else k), index := n, retired := some (n, drift), waiting := [] }

/-- A sub-ADC is retired (R465). -/
def State.retireSubAdc (s : State) (p : Proposal) : State :=
  ((s.modFallow p.reach (fun f => f.retire (Fin.ofNat 17 p.ident) p.drift)).modWarden p.reach
    (fun w => { w with subadc := w.subadc.filter (fun q => q.1.val != p.ident) })).post
    (proposerSrc p.proposer) p.reach.val 0xFFFF 0x24 2 (bytesOf 1 (p.ident % 17) ++ bytesOf 1 p.drift.toNat)

/-- The lines of a proposal still hold (R440). -/
def State.stands (s : State) (p : Proposal) : Bool := s.grounds p.reach p.act p.lines p.ident p.drift

/-- A decision other than a reach failure is carried out (R439). -/
def State.recover (s : State) (p : Proposal) : State :=
  match p.act with
  | .wardenRestart => s.restartWarden p
  | .reachFailure => s
  | .engineRestart => s.restartEngine p
  | .subAdcRetire => s.retireSubAdc p

/-- The failure that a proposal has come to. -/
def Proposal.failure (p : Proposal) : ReachFailure := ⟨p.reach, proposerSrc p.proposer, p.lines.toNat, false, p.evidence⟩

/-- The decisions of one kind, from Reach A to Reach D. -/
def ofKind (a : Action) (l : List Proposal) : List Proposal := allReaches.flatMap (fun r => l.filter (fun p => p.act == a && p.reach == r))

/-- The decisions of one FAB cycle are carried out (R439, R443): warden restarts, reach failures, engine restarts, sub-ADC retirements, each kind
from Reach A to Reach D; one whose grounds an earlier one has taken away is none. -/
def State.carryOut (s : State) (l : List Proposal) : State :=
  let t : State := { s with proposals := s.proposals.filter (fun p => !l.contains p) }
  let each := fun (a : Action) (u : State) => u.forEach (ofKind a l) (fun p u => if u.stands p then u.recover p else u)
  let u := each .wardenRestart t
  let v := u.failReaches (((ofKind .reachFailure l).filter u.stands).map Proposal.failure)
  each .subAdcRetire (each .engineRestart v)

/-- A voter agrees where the lines of the proposal hold, with the identity they carry, and it sees each of them (R440). -/
def State.agrees (s : State) (p : Proposal) (lines : BitVec 7) : Bool := s.stands p && p.lines &&& lines == p.lines

/-- A vote counts within 20 µs of the proposal, by a voter that has not agreed already (R440); the second agreeing one decides. Answers the
proposals decided. -/
def State.count (q : State × List Proposal) (v : Vote) : State × List Proposal :=
  let s := q.1
  let found := s.proposals.find? (fun p => p.live && p.isOn v.reach v.id && !p.votes.contains v.voter &&
    decide (p.votes.length < 2) && decide (s.clock ≤ p.raisedPs + 20000000))
  match found with
  | some p =>
    if !(s.voters v.reach).contains v.voter || !s.agrees p v.lines then q
    else
      let n := { p with votes := p.votes ++ [v.voter] }
      ({ s with proposals := s.proposals.map (fun x => if x == p then n else x) }, if 2 ≤ n.votes.length then q.2 ++ [n] else q.2)
  | none => q

/-- Votes of one FAB cycle, and what they decide (R440, R443). -/
def State.votesCome (s : State) (l : List Vote) : State :=
  let q := l.foldl State.count (s, [])
  if q.2.isEmpty then q.1 else q.1.carryOut q.2

/-- WARDEN_VOTE (R440, R443): a vote, with the others of its FAB cycle. -/
def execWardenVote (dt : Nat) (voter : Option (Fin 4)) (r : Fin 4) (id : ProposalId) (sight : Sight) (s : State) :
    Host.Outcome State Fault Refusal :=
  s.occurs dt State.awake (fun t => t.votesCome (⟨voter, r, id, sight.lines⟩ :: sight.more))

/-- A proposal lapses; after three lapses on its reach and action PROPOSAL_DISPUTED is posted once (R441). -/
def State.lapse (s : State) (p : Proposal) : State :=
  let dispute := decide (3 ≤ p.lapses + 1) && !p.disputed
  let q := fun (x : Proposal) => { x with lapses := p.lapses + 1, disputed := p.disputed || dispute }
  let t := { s with proposals := s.proposals.map (fun x =>
    if x == p then { q x with live := false, votes := [] } else if x.reach == p.reach && x.act == p.act then q x else x) }
  if dispute then t.post (proposerSrc p.proposer) p.reach.val 0xFFFF 0x12 2 (proposalData p.act p.lines.toNat) else t

/-- PROPOSAL_LAPSE (R441). -/
def execProposalLapse (dt : Nat) (r : Fin 4) (id : ProposalId) (s : State) : Host.Outcome State Fault Refusal :=
  s.occurs dt State.awake (fun t => t.withSome (t.proposals.find? (fun p => p.live && p.isOn r id &&
    decide (p.raisedPs + 20000000 ≤ t.clock))) (fun p u => u.lapse p))

/-! ### The ends of recoveries -/

/-- Lock judgements have paused for a time (R642): what they measure counts on from it. -/
def Ctx.resumeJudging (x : Ctx) (pausePs : Nat) : Ctx :=
  { x with validPs := x.validPs + pausePs, fm := { x.fm with sincePs := x.fm.sincePs + pausePs } }

/-- A context at the end of the restart of an engine (R642): the samples of the rounds not processed are erased, and then its snapshot, or
ACQUIRE. -/
def State.afterRestart (s : State) (e : Fin 8) (c : Fin 256) : State :=
  let mine := match s.ctxs[c].place with | some p => engineOf p == e | none => false
  ((s.when mine (fun t => t.eraseOuts c)).modCtx c (fun x => { x.resumeJudging (s.clock - s.engines[e].restartPs) with
    erased := false, restoreDue := false, discont := gapTypes })).restoreSnap c

/-- The erasure of a context that has left the restarting engine ends with the restart. -/
def State.endErasure (s : State) (c : Fin 256) : State :=
  s.modCtx c (fun x => { x with erased := x.erased && (match x.place with | some p => (enginesOfPlace p).any (fun e => s.engines[e].restarting) | none => false) })

/-- ENGINE_RESTART_COMPLETE (R642). -/
def execEngineRestartComplete (dt : Nat) (e : Fin 8) (s : State) : Host.Outcome State Fault Refusal :=
  s.occurs dt (fun t => t.awake && t.engines[e].restarting) (fun t =>
    ((t.modEngine e (fun x => { x with restarting := false })).forEach (t.unitsOn e) (fun c u => u.afterRestart e c)).forEach
      (allCtxs.filter (fun c => t.ctxs[c].erased)) (fun c u => u.endErasure c))

/-- WARDEN_RESTART_COMPLETE (R444). -/
def execWardenRestartComplete (dt : Nat) (w : Fin 4) (s : State) : Host.Outcome State Fault Refusal :=
  s.occurs dt (fun t => t.awake && t.wardens[w].restarting)
    (fun t => t.modWarden w (fun x => { x with failed := false, restarting := false }))

/-! ### Wardens (R437, R438, R444) -/

/-- A warden fails; the third time within an hour it is retired (R444). -/
def State.wardenFails (s : State) (w : Fin 4) : State :=
  let l := withNow s.wardens[w].failPs s.clock
  let t := s.modWarden w (fun x => { x with failed := true, failPs := l, retired := x.retired || decide (3 ≤ l.length) })
  if 3 ≤ l.length then t.post 0 0xFF 0xFFFF 0x11 2 (bytesOf 1 w.val) else t

/-- WARDEN_HEARTBEAT_TIMEOUT (R437). -/
def execWardenHeartbeatTimeout (dt : Nat) (w : Fin 4) (s : State) : Host.Outcome State Fault Refusal :=
  s.occurs dt (fun t => t.awake && t.wardenWorks w) (fun t => t.wardenFails w)

/-- WARDEN_MISCOMPARE (R437): its two cores differ, and its heartbeat stops. -/
def execWardenMiscompare (dt : Nat) (w : Fin 4) (s : State) : Host.Outcome State Fault Refusal :=
  s.occurs dt (fun t => t.awake && t.wardenWorks w) (fun t => t.wardenFails w)

/-- A measurement beyond the trim range. -/
def beyondTrim (e : TrimError) : Bool :=
  decide (Config.trimRange.1 < e.offset.natAbs ∨ Config.trimRange.2.1 < e.gain.natAbs ∨ Config.trimRange.2.2 < e.skew.natAbs)

/-- The criterion of Table 12.1 for a sub-ADC: 64 consecutive equal codes, extreme ones excepted; a mean power 3 dB from that of the others; or
a fallow measurement of it beyond the trim range. -/
def Fallow.faulty (f : Fallow) (i : Fin 17) : SubAdcFault → Bool
  | .stuck codes => decide (64 ≤ codes.length) && codes.all (fun k => k == codes.headD 0 && !extremeCode k)
  | .power own others => decide (300 ≤ (decibels 1000 own others).natAbs)
  | .beyond => match f.lastError with | some (j, e) => j == i && beyondTrim e | none => false

/-- The kind of fault that the line SUBADC carries (R436). -/
def isDrift : SubAdcFault → Bool
  | .stuck _ => false
  | _ => true

/-- SUBADC_FAULT_DETECT (R438): the home warden's report, evidence on SUBADC. -/
def execSubadcFaultDetect (dt : Nat) (r : Fin 4) (i : Fin 17) (fault : SubAdcFault) (s : State) : Host.Outcome State Fault Refusal :=
  s.occurs dt (fun t => t.reachRuns r && t.wardenWorks r && t.fallow[r].faulty i fault &&
      (match t.fallow[r].retired with | some q => q.1 != i | none => true))
    (fun t => t.modWarden r (fun w => { w with subadc := w.subadc.filter (fun q => q.1 != i) ++ [(i, isDrift fault)] }))

/-! ### The copies of the control logic (R446 to R448) -/

/-- A copy differs from the majority, and waits for the next tick; or the two remaining copies differ, and the lower is kept. -/
def State.tmrDiffers (s : State) (copy : Fin 3) : State :=
  if s.tmr.retired.getLsbD copy.val then s
  else if s.tmr.retired = 0 then
    { s with tmr := { s.tmr with differs := s.tmr.differs ||| ((1 : BitVec 3) <<< copy.val)
                                 sincePs := if s.tmr.differs.getLsbD copy.val then s.tmr.sincePs else s.tmr.sincePs.set copy s.clock } }
  else s.post 0 0xFF 0xFFFF 0x52 3 (bytesOf 1 (if s.tmr.retired.getLsbD 0 then 1 else 0))

/-- TMR_MISMATCH (R446). -/
def execTmrMismatch (dt : Nat) (copy : Fin 3) (s : State) : Host.Outcome State Fault Refusal :=
  s.occurs dt State.awake (fun t => t.tmrDiffers copy)

/-- A copy is rewritten; a third rewrite within 1 s retires it (R447). -/
def State.tmrRewrite (s : State) (copy : Fin 3) : State :=
  let l := s.tmr.rewrites.filter (fun p => decide (s.clock < p.2 + secPs)) ++ [(copy, s.clock)]
  let retire := decide (3 ≤ (l.filter (fun p => p.1 == copy)).length)
  let t := { s with tmr := { s.tmr with
    differs := s.tmr.differs &&& ~~~((1 : BitVec 3) <<< copy.val)
    rewrites := l
    retired := if retire then s.tmr.retired ||| ((1 : BitVec 3) <<< copy.val) else s.tmr.retired } }
  let u := t.post 0 0xFF 0xFFFF 0x50 1 (bytesOf 1 copy.val)
  if retire then u.post 0 0xFF 0xFFFF 0x51 2 (bytesOf 1 copy.val) else u

/-- TMR_REPAIR (R447): from the tick after a mismatch on. -/
def execTmrRepair (dt : Nat) (copy : Fin 3) (s : State) : Host.Outcome State Fault Refusal :=
  s.occurs dt (fun t => t.awake && t.tmr.differs.getLsbD copy.val && t.tmr.retired == 0 && decide (tickOf t.tmr.sincePs[copy] < tickOf t.clock))
    (fun t => t.tmrRewrite copy)

/-! ### Held records (R451) -/

/-- Release every record that has been held 50 µs, in the order of their hand-over. -/
def State.releaseDue (s : State) : State :=
  let due := fun (h : Held) => decide (h.atPs + 50000000 ≤ s.clock)
  ({ s with held := s.held.filter (fun h => !due h) }).forEach (s.held.filter due) (fun h t => t.release h.record)

/-- RECORD_RELEASE (R451). -/
def execRecordRelease (dt : Nat) (s : State) : Host.Outcome State Fault Refusal := s.occurs dt State.serving State.releaseDue

end Sys2Proof.Machine
end

