-- ==== Sys2Proof/Machine/Ecc.lean ====
section
/-! DEFINITION. Memory errors (R449, R450, Table 12.3). -/

namespace Sys2Proof.Machine

/-- Count corrected errors of a region, and post them at most once a second (R449). -/
def State.eccCount (s : State) (region : Fin 4) (n : Nat) : State :=
  let total := s.ecc.counts[region] + n
  if s.since s.ecc.postPs[region] secPs then
    ({ s with ecc := { s.ecc with counts := s.ecc.counts.set region 0, postPs := s.ecc.postPs.set region (some s.clock) } } : State).post
      0 0xFF 0xFFFF 0x40 0 (bytesOf 1 region.val ++ bytesOf 3 0 ++ bytesOf 4 total)
  else { s with ecc := { s.ecc with counts := s.ecc.counts.set region total } }

/-- ECC_CORRECTED (R449). -/
def execEccCorrected (dt : Nat) (region : Fin 4) (count : Nat) (s : State) : Host.Outcome State Fault Refusal :=
  s.occurs dt State.awake (fun t => t.eccCount region count)

/-- ECC_SCRUB (R449): the scrubber has read every word of every region. -/
def execEccScrub (dt : Nat) (s : State) : Host.Outcome State Fault Refusal :=
  s.occurs dt State.awake (fun t => { t with ecc := { t.ecc with scrubPs := t.clock } })

/-- Region code of Table 12.7. -/
def eccRegion : EccArea → Nat
  | .engineRuntime _ => 0
  | .engineCtx _ => 0
  | .ring _ => 1
  | .softBits _ => 1
  | .program _ => 3
  | _ => 2

/-- An engine's area of one context (Table 12.3): at the next round its state comes from the snapshot, or it enters ACQUIRE where it has none
(log entry 24), and that round's samples are erased for it. -/
def State.restoreCtx (s : State) (c : Fin 256) : State :=
  if s.ctxs[c].st == .idle || s.ctxs[c].st == .migrating then s else s.modCtx c (fun x => { x with restoreDue := true })

/-- The reach whose line ECC_UE an error asserts (R436). -/
def State.ueReach (s : State) : EccArea → Option (Fin 4)
  | .engineRuntime e => some (Fin.ofNat 4 (e.val / 2))
  | .engineCtx c => some s.ctxs[c].reachOf
  | .ring c => some s.ctxs[c].reachOf
  | .softBits c => some s.ctxs[c].reachOf
  | _ => none

/-- The sample that a word of a context's ring holds is marked invalid (R155): the ring's words hold its samples in order (log entry 71). -/
def Ctx.ringLost (address : Nat) (x : Ctx) : Ctx := { x with outs := x.outs.modify (address % max x.outs.length 1) (fun y => { y with invalid := true }) }

/-- Soft bits of the MSC that one word holds, 2 bits each (R266). -/
def wordBits : Nat := 16

/-- Soft bits of a list erased from a place on. -/
def eraseSoft (l : List Soft) (n : Nat) : List Soft :=
  l.take n ++ List.replicate (min wordBits (l.length - n)) .erased ++ l.drop (n + wordBits)

/-- The soft bits that a word of a context's de-interleaver or burst store holds read as erasures (Table 12.3): the words hold them in order,
newest CIF first (log entry 71). -/
def Ctx.softLost (address : Nat) (x : Ctx) : Ctx :=
  let words := 55296 / wordBits
  let n := address % (words * max x.dab.lines.length 1)
  let r := x.eab.rx
  { x with
    dab := { x.dab with lines := x.dab.lines.modify (n / words) (fun k => { k with msc := { k.msc with soft := eraseSoft k.msc.soft (n % words * wordBits) } }) }
    eab := { x.eab with rx := { r with syms := r.syms.set (address % max r.syms.length 1) none, erased := r.erased || !r.syms.isEmpty } } }

/-- A context's side data is cleared and learnt afresh (Table 12.3). -/
def Ctx.sideLost (x : Ctx) : Ctx :=
  { x with
    fm := { x.fm with oda := [], pi := 0, piLast := none, work := {}, items := [], sentItems := [], waiting := [] }
    dab := { x.dab with orgs := [], newOrgs := [], newClasses := [], newComplete := false, occurrence := none, classes := [], eid := none
                        digests := [] } }

/-- What an uncorrectable error does beside its post (Table 12.3). An error in an engine's runtime area is evidence for its restart, and one
in the control area is rebuilt. -/
def State.eccEffect (s : State) (address : Nat) : EccArea → State
  | .engineRuntime e => s.modEngine e (fun x => { x with ue := true })
  | .engineCtx c => s.restoreCtx c
  | .ring c => s.modCtx c (Ctx.ringLost address)
  | .softBits c => s.modCtx c (Ctx.softLost address)
  | .program page => { s with ecc := { s.ecc with badPages := page :: s.ecc.badPages.filter (· != page) } }
  | .replayWindow n => { s with kept := s.kept.eraseIdx n }
  | .recordQueue n =>
    s.withSome s.queue[n]? (fun q t => ({ t with queue := t.queue.eraseIdx n } : State).post 0 q.reach q.ctx 0x42 2
      (bytesOf 4 q.seq.toNat ++ bytesOf 1 q.typ))
  | .snapshot c => s.modCtx c (fun x => { x with snap := none })
  | .sideData c => (s.modCtx c Ctx.sideLost).sideList c []
  | .replayTable n => { s with replay := s.replay.eraseIdx n }
  | .control => s

/-- ECC_UNCORRECTABLE (R450). -/
def execEccUncorrectable (dt : Nat) (area : EccArea) (address : BitVec 32) (s : State) : Host.Outcome State Fault Refusal :=
  s.occurs dt State.awake (fun t => ((t.eccEffect address.toNat area).withSome (t.ueReach area)
    (fun r u => u.modWarden r (fun w => { w with ue := true }))).post 0 0xFF 0xFFFF 0x41 1
    (bytesOf 1 (eccRegion area) ++ bytesOf 3 0 ++ bytesOf 4 address.toNat))

/-- A page that the image can no longer supply (Table 12.3): the engines that need it stop, and their reaches are proposed failed. -/
def State.pageLost (s : State) (page : Nat) : State :=
  let m := s.pageModule page
  let stop := (List.finRange 8).filter (fun e => s.engineUp e && s.engineNeeds e m)
  let t := (s.forEach stop (fun e t => t.modEngine e (fun x => { x with lostPage := true }))).post 0 0xFF 0xFFFF 0x43 3
    (bytesOf 4 0 ++ bytesOf 4 (4096 * page))
  t.forEach (allReaches.filter (fun r => stop.any (fun e => e.val / 2 == r.val))) (fun r u =>
    if u.grounds r .reachFailure 4 0 false then u.propose none r .reachFailure 4 0 false u.clock else u)

/-- PROGRAM_PAGE_RELOAD (R450). After the host has changed the image in flash, the page fails its check (R502). -/
def execProgramPageReload (dt : Nat) (page : Nat) (imageOk : Bool) (s : State) : Host.Outcome State Fault Refusal :=
  s.occurs dt (fun t => t.awake && t.ecc.badPages.contains page) (fun t =>
    let u : State := { t with ecc := { t.ecc with badPages := t.ecc.badPages.filter (· != page) } }
    if imageOk && !u.image.changed then u else u.pageLost page)

end Sys2Proof.Machine
end

