-- ==== Sys2Proof/Machine/Journal.lean ====
section
/-! DEFINITION. The Fen journal (R487 to R502): its records in flash, appends, compactions, replay, reads, and the operations of
JOURNAL_CMD. -/

namespace Sys2Proof.Machine

/-! ### Records and banks in flash -/

/-- A committed record (Table 13.9). -/
structure JRec where
  typ : Nat
  key : Nat
  seq : BitVec 32
  payload : List Byte
  deriving DecidableEq, Repr

/-- Address of a bank (R471). -/
def bankAddr (base : Nat) (bank : Fin 2) : Nat := base * 65536 + bank.val * bankBytes

/-- A record as it is programmed, with its COMMIT byte (R490). -/
def JRec.bytes (r : JRec) (commit : Byte) : List Byte :=
  let a := bytesOf 2 0xFE4A ++ bytesOf 1 r.typ
  let b := bytesOf 2 r.payload.length ++ bytesOf 2 r.key ++ bytesOf 4 r.seq.toNat
  a ++ [commit] ++ b ++ bytesOf 4 (crc32 (a ++ b ++ r.payload)).toNat ++ r.payload

/-- Bytes that a record takes in its bank. -/
def JRec.size (r : JRec) : Nat := 16 + (r.payload.length + 15) / 16 * 16

/-- A bank header (Table 13.8). -/
def bankHeader (gen : BitVec 32) (commit : Byte) : List Byte :=
  let a := bytesOf 4 0x46454E42 ++ bytesOf 4 gen.toNat ++ bytesOf 4 0
  a ++ bytesOf 4 (crc32 a).toNat ++ [commit]

/-- GEN of a committed bank header (R487). -/
def bankGen (m : List Host.Cell) (a : Nat) : Option (BitVec 32) :=
  let h := Memory.readMany m a 17
  if natAt h 0 4 = 0x46454E42 ∧ natAt h 12 4 = (crc32 (h.take 12)).toNat ∧ h.getD 16 0xFF = 0 then some (BitVec.ofNat 32 (natAt h 4 4)) else none

/-- The committed record at an address below `limit` (R487). -/
def recordAt (m : List Host.Cell) (a limit : Nat) : Option JRec :=
  let h := Memory.readMany m a 16
  let n := natAt h 4 2
  let p := Memory.readMany m (a + 16) n
  if natAt h 0 2 = 0xFE4A ∧ h.getD 3 0xFF = 0 ∧ n ≤ 2048 ∧ a + 16 + n ≤ limit ∧
      natAt h 12 4 = (crc32 (h.take 3 ++ (h.drop 4).take 8 ++ p)).toNat then
    some { typ := natAt h 2 1, key := natAt h 6 2, seq := BitVec.ofNat 32 (natAt h 8 4), payload := p }
  else none

/-- Read a bank from an address (R494): the committed records, the address where reading stops, and whether it stops at a torn
record. -/
def scanBank (m : List Host.Cell) (limit : Nat) : Nat → Nat → List JRec × Nat × Bool
  | 0, a => ([], a, false)
  | n + 1, a =>
    if limit < a + 16 || natOf (Memory.readMany m a 2) == 0xFFFF then ([], a, false)
    else match recordAt m a limit with
      | none => ([], a, true)
      | some r =>
        let (l, e, t) := scanBank m limit n (a + r.size)
        (r :: l, e, t)

/-- The records of a bank (R494). -/
def bankRecords (m : List Host.Cell) (base : Nat) (bank : Fin 2) : List JRec × Nat × Bool :=
  scanBank m (bankAddr base bank + bankBytes) 131072 (bankAddr base bank + bankHead)

/-- GEN `a` is newer than `b` (R493). -/
def genNewer (a b : BitVec 32) : Bool := decide (1 ≤ (a - b).toNat ∧ (a - b).toNat ≤ 2147483647)

/-- The active bank and its GEN (R493). -/
def activeBank (m : List Host.Cell) (base : Nat) : Option (Fin 2 × BitVec 32) :=
  match bankGen m (bankAddr base 0), bankGen m (bankAddr base 1) with
  | some a, some b => if genNewer b a then some (1, b) else some (0, a)
  | some a, none => some (0, a)
  | none, some b => some (1, b)
  | none, none => none

/-! ### Liveness (Table 13.10) -/

/-- ORIGIN and KEY_SLOT of the entries in a REPLAY record (log entry 26). -/
def replayKeys (p : List Byte) : List (Nat × Nat) := (List.range (p.length / 16)).map (fun i => (natAt p (16 * i) 2, natAt p (16 * i + 2) 1))

/-- A record is live, given the later ones. -/
def JRec.live (r : JRec) (later : List JRec) : Bool :=
  match r.typ with
  | 3 => (replayKeys r.payload).any (fun k => !later.any (fun x => x.typ == 3 && (replayKeys x.payload).contains k))
  | 4 => !later.any (fun x => x.typ == 4)
  | 5 => decide ((later.filter (fun x => x.typ == 5)).length < 256)
  | 6 => !r.payload.isEmpty && !later.any (fun x => x.typ == 6 && x.key == r.key)
  | _ => !later.any (fun x => x.typ == r.typ && x.key == r.key)

/-- A record put behind those whose SEQ is not above its own. -/
def insertSeq (r : JRec) : List JRec → List JRec
  | [] => [r]
  | x :: t => if r.seq.toNat < x.seq.toNat then r :: x :: t else x :: insertSeq r t

/-- Records in SEQ order (R494, R498), those of one SEQ as they lie in the bank. -/
def bySeq (l : List JRec) : List JRec := l.foldl (fun a r => insertSeq r a) []

/-- The live records of a list in SEQ order. -/
def liveRecords : List JRec → List JRec
  | [] => []
  | r :: t => if r.live t then r :: liveRecords t else liveRecords t

/-! ### Appends and compactions (R490 to R499) -/

/-- Address of the next record. -/
def Journal.next (j : Journal) : Nat := bankAddr j.base j.bank + j.fill

/-- Program a record at the end of the log, its COMMIT byte as given. -/
def State.programRecord (s : State) (typ key : Nat) (p : List Byte) (commit : Byte) : State :=
  let r : JRec := { typ := typ, key := key, seq := s.journal.seq + 1, payload := p }
  { s with flash := Memory.program s.flash s.journal.next (r.bytes commit)
           journal := { s.journal with fill := s.journal.fill + r.size, seq := if commit = 0 then r.seq else s.journal.seq } }

/-- The outcome that the JOURNAL window waits for (R39, Table 13.17). -/
def State.windowOutcome (s : State) (j : Session) (result : Nat) : State :=
  if j.window then { s with journal := { s.journal with busy := false, result := result } } else s

/-- The journal stops (R491): queued sessions end refused. -/
def State.journalStops (s : State) : State :=
  let w := s.journal.queue.any (fun j => j.window)
  ({ s with journal := { s.journal with failed := true, queue := [], compactDue := false, busy := s.journal.busy && !w
                                        result := if w then 9 else s.journal.result } } : State).post 8 0xFF 0xFFFF 0x95 3 []

/-- A session failed at its read-back (R491): JOURNAL_WRITE_FAILED and a compaction. -/
def State.writeFailed (s : State) (addr : Nat) : State :=
  (s.post 8 0xFF 0xFFFF 0x94 2 (bytesOf 4 0 ++ bytesOf 4 addr)).compactionDue

/-- What a failed session was to journal has changed since the last one that succeeded: REPLAY entries and a learned list (R306, R333). -/
def State.changedAgain (s : State) (typ key : Nat) (p : List Byte) : State :=
  if typ = 3 then { s with replay := s.replay.map (fun k => { k with dirty := k.dirty || (replayKeys p).contains (k.origin, k.slot) }) }
  else if typ = 2 then s.modFollow (Fin.ofNat 256 key) (fun f => { f with learnedDirty := true })
  else s

/-- An append ends (R490, R491, R498). -/
def State.appendEnd (s : State) (j : Session) (typ key : Nat) (p : List Byte) (ok : Bool) : State :=
  let addr := s.journal.next
  let t := ({ s with journal := { s.journal with running := none } } : State).programRecord typ key p (if ok then 0 else 0xFF)
  let u := t.windowOutcome j (if ok then 0 else 7)
  if !ok then (u.changedAgain typ key p).writeFailed addr
  else if compactAt ≤ u.journal.fill then u.compactionDue else u

/-- JOURNAL_APPEND (R490). -/
def execJournalAppend (dt : Nat) (readBackOk : Bool) (s : State) : Host.Outcome State Fault Refusal :=
  s.occurs dt State.awake (fun t => t.withSome t.journal.running (fun j u =>
    match j.job with
    | .append _ typ key p => u.appendEnd j typ key p readBackOk
    | _ => u))

/-- The records as the new bank takes them: their own SEQ, or numbered again from 1 (R499). -/
def renumber (again : Bool) (l : List JRec) : List JRec :=
  if again then (l.zip (List.range l.length)).map (fun p => { p.1 with seq := BitVec.ofNat 32 (p.2 + 1) }) else l

/-- Records programmed one after another. -/
def programAll : List Host.Cell → Nat → List JRec → List Host.Cell
  | m, _, [] => m
  | m, a, r :: t => programAll (Memory.program m a (r.bytes 0)) (a + r.size) t

/-- The other bank with the live records and a committed header (R498, steps 1 to 3). -/
def State.newBank (s : State) : List Host.Cell × List JRec :=
  let j := s.journal
  let to_ := bankAddr j.base (j.bank + 1)
  let old := if j.gen = 0 then [] else (bankRecords s.flash j.base j.bank).1
  let l := renumber (j.seq == 0xFFFFFFFF) (liveRecords (bySeq old))
  (Memory.program (programAll (Memory.erase s.flash to_ bankBytes) (to_ + bankHead) l) to_ (bankHeader (j.gen + 1) 0), l)

/-- A compaction ends (R498): the new bank is active and the old one erased. -/
def State.compactEnd (s : State) (j : Session) (ok : Bool) : State :=
  let x := s.journal
  if ok then
    let (m, l) := s.newBank
    let size := l.foldl (fun n r => n + r.size) 0
    let t : State := { s with
      flash := Memory.erase m (bankAddr x.base x.bank) bankBytes
      journal := { x with running := none, bank := x.bank + 1, gen := x.gen + 1, fill := bankHead + size, failedCompactions := 0
                          seq := if x.seq = 0xFFFFFFFF then BitVec.ofNat 32 l.length else x.seq } }
    let u := t.windowOutcome j 0
    if x.gen = 0 then u.post 8 0xFF 0xFFFF 0x96 0 []
    else u.post 8 0xFF 0xFFFF 0x93 0 (bytesOf 4 (x.gen + 1).toNat ++ bytesOf 4 size)
  else
    let to_ := bankAddr x.base (x.bank + 1)
    let t : State := ({ s with flash := Memory.erase s.flash to_ bankBytes
                               journal := { x with running := none, failedCompactions := x.failedCompactions + 1 } } : State).windowOutcome j 7
    if 2 ≤ x.failedCompactions + 1 then (t.post 8 0xFF 0xFFFF 0x94 2 (bytesOf 4 0 ++ bytesOf 4 to_)).journalStops else t.writeFailed to_

/-- JOURNAL_COMPACTION (R498). -/
def execJournalCompaction (dt : Nat) (readBackOk : Bool) (s : State) : Host.Outcome State Fault Refusal :=
  s.occurs dt State.awake (fun t => t.withSome t.journal.running (fun j u =>
    match j.job with
    | .compact _ => u.compactEnd j readBackOk
    | _ => u))

/-- The queued session that is granted next: class order, then order of arrival (R41). -/
def Journal.nextSession (j : Journal) : Option Session :=
  [1, 2, 3, 4, 5].findSome? (fun c => j.queue.find? (fun x => x.job.cls == c))

/-- A grant (R41, R42): the arbiter's own compaction goes first. -/
def State.grant (s : State) : State :=
  if s.journal.compactDue then ({ s with journal := { s.journal with compactDue := false } } : State).journalStart ⟨.compact 1, false⟩
  else s.withSome s.journal.nextSession (fun j t =>
    ({ t with journal := { t.journal with queue := t.journal.queue.erase j } } : State).journalStart j)

/-- JOURNAL_SESSION_GRANT (R41); while doze entry waits, what is queued stays so (Table 1.12). -/
def execJournalSessionGrant (dt : Nat) (s : State) : Host.Outcome State Fault Refusal :=
  s.occurs dt (fun t => t.awake && !t.doze.inDoze && !t.doze.requested && t.journal.ready && t.journal.running.isNone) State.grant

/-! ### Replay (R493 to R497) -/

/-- A set of a CAL_SET record (R488); a point count of 0 is none. -/
def calSetOf (b : List Byte) : Option CalSet :=
  let n := min (natAt b 5 1) 16
  if n = 0 then none
  else some { points := (List.range n).map (fun i => ⟨natAt b (8 + 8 * i) 4, signed 16 (natAt b (12 + 8 * i) 2)⟩)
              temp := signed 8 (natAt b 4 1), gen := natAt b 2 2 }

/-- A CAL_SET record: at the reach's next commit point when it runs already, else at once (R82, R84). -/
def State.replayCal (s : State) (r : JRec) : State :=
  let q : Fin 4 := Fin.ofNat 4 (r.key / 8)
  if h : r.key % 8 < 5 ∧ r.key < 32 then
    match calSetOf (slice r.payload 0 136) with
    | none => s
    | some c =>
      let t := s.modUpkeep q (fun u => { u with replayed := u.replayed ++ [(⟨r.key % 8, h.1⟩, c, calSetOf (slice r.payload 136 136))] })
      if s.reaches[q].st == .ready then t else t.modUpkeep q Upkeep.takeReplayed
  else s

/-- An AF_LEARNED record (R333, log entry 26). -/
def State.replayLearned (s : State) (r : JRec) : State :=
  if h : r.key < 256 then
    let c : Fin 256 := ⟨r.key, h⟩
    let l := (List.range (min (r.payload.length / 12) 16)).map (fun i =>
      ({ std := BitVec.ofNat 4 (natAt r.payload (12 * i) 1), chan := natAt r.payload (12 * i + 1) 1 % 2 == 1
         freq := natAt r.payload (12 * i + 4) 4, ident := natAt r.payload (12 * i + 8) 4 } : Carrier))
    let t := s.modFollow c (fun f => { f with learned := l })
    if t.ctxs[c].active.afLearned then t.applyList c srcLearned l else t
  else s

/-- A REPLAY record: each entry takes the table's place of its key, and the table holds 256 (R304, R306, log entry 26). -/
def State.replayTable (s : State) (r : JRec) : State :=
  s.forEach (List.range (r.payload.length / 16)) (fun i t =>
    let o := natAt r.payload (16 * i) 2
    let k := natAt r.payload (16 * i + 2) 1
    let l := t.replay.filter (fun x => !(x.origin == o && x.slot == k))
    { t with replay := (if 256 ≤ l.length then l.drop 1 else l) ++
        [{ origin := o, slot := k, highest := natAt r.payload (16 * i + 4) 4
           window := BitVec.ofNat 32 (natAt r.payload (16 * i + 8) 4), dirty := false }] })

/-- An RTC_TRIM record (R605): taken when TIME_LOST is set or its window ended later than the domain's. -/
def State.replayTrim (s : State) (r : JRec) : State :=
  let e := natAt r.payload 4 8
  if s.rtc.timeLost || decide (s.rtc.trimEndNs < e) then
    { s with rtc := { s.rtc with trim := signed 16 (natAt r.payload 0 2), trimEndNs := e } }
  else s

/-- Apply a live record (R494). -/
def State.replayRecord (s : State) (r : JRec) : State :=
  match r.typ with
  | 1 => s.replayCal r
  | 2 => s.replayLearned r
  | 3 => s.replayTable r
  | 4 => s.replayTrim r
  | _ => s

/-- Replay of a bank (R494, R495): its records in SEQ order, the address that follows them, and whether the log ends in a record without
a COMMIT. -/
def State.replayRecords (s : State) (bank : Fin 2) (gen : BitVec 32) (l : List JRec) (e : Nat) (torn : Bool) : State :=
  let t := s.forEach (liveRecords (bySeq l)) (fun r u => u.replayRecord r)
  let fill := e - bankAddr s.journal.base bank
  let u : State := { t with journal := { t.journal with
    ready := true, bank := bank, gen := gen, fill := fill, seq := l.foldl (fun n r => if n.toNat < r.seq.toNat then r.seq else n) 0 } }
  let v := if torn then u.post 8 0xFF 0xFFFF 0x92 1 (bytesOf 1 bank.val ++ bytesOf 3 0 ++ bytesOf 4 e) else u
  if torn || decide (compactAt ≤ fill) then v.compactionDue else v

/-- Replay of the active bank. -/
def State.replayBank (s : State) (bank : Fin 2) (gen : BitVec 32) : State :=
  let q := bankRecords s.flash s.journal.base bank
  s.replayRecords bank gen q.1 q.2.1 q.2.2

/-- Replay completes (R494 to R497): without a journal base nothing is replayed; without a committed bank the part formats one. -/
def State.replayDone (s : State) : State :=
  if s.journal.base = 0 then { s with journal := { s.journal with ready := true, noJournal := true } }
  else match activeBank s.flash s.journal.base with
    | some (b, g) => s.replayBank b g
    | none => ({ s with journal := { s.journal with ready := true, bank := 1, gen := 0, fill := bankHead, seq := 0 } } : State).compactionDue

/-- JOURNAL_REPLAY_COMPLETE (R494): after the image has been accepted or refused. -/
def execJournalReplayComplete (dt : Nat) (s : State) : Host.Outcome State Fault Refusal :=
  s.occurs dt (fun t => t.awake && (t.image.accepted || t.image.refused) && !t.journal.ready) State.replayDone

/-! ### JOURNAL_CMD (Tables 13.15 to 13.17) -/

/-- An operation is taken unless the last one runs or is queued. -/
def State.journalOp (s : State) (f : State → State) : State := if s.journal.busy then s.writeIgnored 0x201C else f s

/-- A session for the window: its RESULT now or later (R39, R40). -/
def State.windowSession (s : State) (j : Job) : State :=
  let (t, n) := ({ s with journal := { s.journal with busy := true } } : State).journalRequest ⟨j, true⟩
  match n with
  | 0 => t
  | 1 => { t with journal := { t.journal with result := 1 } }
  | n => { t with journal := { t.journal with busy := false, result := n } }

/-- READ (R43, R81): the committed record with the lowest SEQ at or above ARG, and 256 bytes of its payload from LEN on. -/
def State.journalReadOp (s : State) (off : Nat) : State :=
  let l := if s.journal.ready && !s.journal.noJournal && s.journal.gen != 0 then (bankRecords s.flash s.journal.base s.journal.bank).1 else []
  let best := (l.filter (fun r => decide (s.journal.arg.toNat ≤ r.seq.toNat))).foldl (fun (b : Option JRec) r =>
    match b with | some x => if r.seq.toNat < x.seq.toNat then some r else some x | none => some r) none
  match best with
  | none => { s with journal := { s.journal with result := 2 } }
  | some r => { s with journal := { s.journal with
      result := 0, rTyp := r.typ, rKey := r.key, rLen := r.payload.length, rSeq := r.seq, rd := slice r.payload off 256 } }

/-- The first bytes of the write window; LEN above 256 is taken as 256 (log entry 32). -/
def Journal.wdBytes (j : Journal) (len : Nat) : List Byte := (j.wd.toList.flatMap (fun w => bytesOf 4 w.toNat)).take (min len 256)

/-- Addresses that a flash operation may not touch (R501): a journal bank, or 16 MiB and above. -/
def State.regionRefused (s : State) (a n : Nat) : Bool :=
  decide (16777216 < a + n) ||
    (s.journal.base != 0 && decide (a < s.journal.base * 65536 + 2 * bankBytes) && decide (s.journal.base * 65536 < a + n))

/-- A flash operation over `n` bytes from `a`. That the region is judged before the reasons of R491, R497 and Table 1.12 is the model's choice
(log entry 73). -/
def State.flashOp (s : State) (a n : Nat) (op : FlashOp) : State :=
  if s.regionRefused a n then { s with journal := { s.journal with result := 5 } } else s.windowSession (.flash op)

/-- PROGRAM within one page: bytes past its end go to its beginning, as serial NOR flash does (log entry 32). -/
def programOp (a : Nat) (b : List Byte) : FlashOp :=
  let page := a / 256 * 256
  let off := a % 256
  if off + b.length ≤ 256 then .program a b
  else .program page ((b.drop (256 - off)) ++ List.replicate (off - (b.length - (256 - off))) 0xFF ++ b.take (256 - off))

/-- JOURNAL_READ (R43). -/
def execJournalRead (dt : Nat) (len : BitVec 12) (s : State) : Host.Outcome State Fault Refusal :=
  s.occurs dt State.awake (fun t => t.journalOp (fun u => u.journalReadOp len.toNat))

/-- JOURNAL_WRITE (R490). -/
def execJournalWrite (dt : Nat) (len : BitVec 12) (key : BitVec 8) (s : State) : Host.Outcome State Fault Refusal :=
  s.occurs dt State.awake (fun t => t.journalOp (fun u => u.windowSession (.append 5 6 key.toNat (u.journal.wdBytes len.toNat))))

/-- JOURNAL_FLASH_READ (R501). -/
def execJournalFlashRead (dt : Nat) (s : State) : Host.Outcome State Fault Refusal :=
  s.occurs dt State.awake (fun t => t.journalOp (fun u => u.flashOp u.journal.arg.toNat 256 (.read u.journal.arg.toNat)))

/-- JOURNAL_PROGRAM (R501). -/
def execJournalProgram (dt : Nat) (len : BitVec 12) (s : State) : Host.Outcome State Fault Refusal :=
  s.occurs dt State.awake (fun t => t.journalOp (fun u =>
    u.flashOp u.journal.arg.toNat (min len.toNat 256) (programOp u.journal.arg.toNat (u.journal.wdBytes len.toNat))))

/-- JOURNAL_ERASE_4K (R501). -/
def execJournalErase4k (dt : Nat) (s : State) : Host.Outcome State Fault Refusal :=
  s.occurs dt State.awake (fun t => t.journalOp (fun u =>
    u.flashOp (u.journal.arg.toNat / 4096 * 4096) 4096 (.erase4k u.journal.arg.toNat)))

/-- JOURNAL_ERASE_64K (R501). -/
def execJournalErase64k (dt : Nat) (s : State) : Host.Outcome State Fault Refusal :=
  s.occurs dt State.awake (fun t => t.journalOp (fun u =>
    u.flashOp (u.journal.arg.toNat / 65536 * 65536) 65536 (.erase64k u.journal.arg.toNat)))

/-- JOURNAL_COMPACT (R498): by the host, class 5. -/
def execJournalCompact (dt : Nat) (s : State) : Host.Outcome State Fault Refusal :=
  s.occurs dt State.awake (fun t => t.journalOp (fun u => u.windowSession (.compact 5)))

/-- A word of JOURNAL_CMD (Table 13.16). -/
def State.writeJournalCmd (s : State) (v : Word) : State :=
  let len := bits v 27 16
  let a := s.journal.arg.toNat
  s.journalOp (fun u => match bits v 3 0 with
    | 1 => u.journalReadOp len
    | 2 => u.windowSession (.append 5 6 (bits v 15 8) (u.journal.wdBytes len))
    | 3 => u.flashOp a 256 (.read a)
    | 4 => u.flashOp a (min len 256) (programOp a (u.journal.wdBytes len))
    | 5 => u.flashOp (a / 4096 * 4096) 4096 (.erase4k a)
    | 6 => u.flashOp (a / 65536 * 65536) 65536 (.erase64k a)
    | 7 => u.windowSession (.compact 5)
    | _ => u)

/-! ### A session cut off by a reset or power loss (R500) -/

/-- Bytes of which the cut let `k` be programmed, and of the next one only the bits that `left` has 0. -/
def partBytes (l : List Byte) (k : Nat) (left : Byte) : List Byte := l.take k ++ ((l.drop k).take 1).map (fun b => b ||| left)

/-- A COMMIT byte cut off while it was being programmed: neither 0xFF nor 0. -/
def partCommit (n : Nat) : Byte := BitVec.ofNat 8 (1 + n % 254)

/-- 64 KiB blocks of a bank. -/
def bankBlocks : Nat := bankBytes / 65536

/-- Memory with record bytes programmed up to a cut: `n` chooses one of the steps of Table 13.11. -/
def cutRecord (m : List Host.Cell) (a : Nat) (r : JRec) (n : Nat) : List Host.Cell :=
  let l := r.bytes 0xFF
  match n % 5 with
  | 0 => m
  | 1 => Memory.program m a (partBytes l (n / 5 % (l.length + 1)) (BitVec.ofNat 8 (n / 5)))
  | 2 => Memory.program m a l
  | 3 => Memory.program m a (r.bytes (partCommit (n / 5)))
  | _ => Memory.program m a (r.bytes 0)

/-- The flash as a cut in a compaction leaves it (R498, Table 13.11). -/
def State.cutCompact (s : State) (n : Nat) : List Host.Cell :=
  let j := s.journal
  let to_ := bankAddr j.base (j.bank + 1)
  let q := s.newBank
  let l := q.2
  let bare := Memory.erase s.flash to_ bankBytes
  let k := n / 5 % (l.length + 1)
  match n % 5 with
  | 0 => Memory.erase s.flash to_ (n / 5 % (bankBlocks + 1) * 65536)
  | 1 =>
    let m := programAll bare (to_ + bankHead) (l.take k)
    (match l[k]? with
      | some r => cutRecord m (to_ + bankHead + ((l.take k).map JRec.size).sum) r (n / 7)
      | none => m)
  | 2 => Memory.program (programAll bare (to_ + bankHead) l) to_ (partBytes (bankHeader (j.gen + 1) 0xFF) (n / 5 % 18) (BitVec.ofNat 8 (n / 7)))
  | 3 => Memory.program (programAll bare (to_ + bankHead) l) to_ (bankHeader (j.gen + 1) (partCommit (n / 5)))
  | _ => Memory.erase q.1 (bankAddr j.base j.bank) (n / 5 % (bankBlocks + 1) * 65536)

/-- The flash as a cut leaves it (R500): how far the session had come is a free value (log entry 30). -/
def State.cutFlash (s : State) : List Host.Cell :=
  match s.journal.running with
  | some ⟨.append _ typ key p, _⟩ => cutRecord s.flash s.journal.next { typ := typ, key := key, seq := s.journal.seq + 1, payload := p } (Config.sessionCut s.draws)
  | some ⟨.compact _, _⟩ => s.cutCompact (Config.sessionCut s.draws)
  | _ => s.flash

end Sys2Proof.Machine
end

