-- ==== Sys2Proof/Machine/Keys.lean ====
section
/-! DEFINITION. OTP keys and fuses (R484 to R486): the KEYS block, which only the two-wire bus writes. -/

namespace Sys2Proof.Machine

/-- KEYS_DATA0 to KEYS_DATA3 cleared (R485). -/
def Keys.wipe (k : Keys) : Keys := { k with data := Vector.replicate 4 0, dataPs := none }

/-- A write of a KEYS_DATA word. -/
def State.writeKeyData (s : State) (n : Fin 4) (v : Word) : State :=
  { s with keys := { s.keys with data := s.keys.data.set n v, dataPs := some s.clock } }

/-- KEYS_DATA_WRITE (R485). -/
def execKeysDataWrite (dt : Nat) (n : Fin 4) (value : Word) (s : State) : Host.Outcome State Fault Refusal :=
  s.occurs dt State.awake (fun t => t.writeKeyData n value)

/-- KEYS_DATA_CLEAR (R485): 1 s after the last write, when no operation has begun. -/
def execKeysDataClear (dt : Nat) (s : State) : Host.Outcome State Fault Refusal :=
  s.occurs dt (fun t => t.awake && t.keys.busy.isNone && (match t.keys.dataPs with | some p => decide (p + secPs ≤ t.clock) | none => false))
    (fun t => { t with keys := t.keys.wipe })

/-- The key in KEYS_DATA, word 0 most significant. -/
def Keys.word (k : Keys) : BitVec 128 := k.data[0] ++ k.data[1] ++ k.data[2] ++ k.data[3]

/-- A slot shows as holding a key (SLOT_SET, Table 15.5). -/
def Keys.slotSet (k : Keys) (n : Fin 8) : Bool := k.slots[n].isSome || k.spoiled.getLsbD n.val

/-- What refuses a KEYS_CMD write, as KEY_RESULT of Table 13.18; 0 nothing. -/
def Keys.refusal (k : Keys) (confirm : BitVec 16) (op : Nat) (slot : Fin 8) : Nat :=
  if confirm ≠ 0x4B59 then 3
  else if op = 1 ∧ k.slotSet slot then 1
  else if op = 1 ∧ k.word = 0 then 2
  else 0

/-- A KEYS_CMD write with an operation 1 to 3 (R485): ignored while one runs, refused or begun. An ignored or refused one clears
KEYS_DATA. -/
def Keys.command (k : Keys) (confirm : BitVec 16) (op : Nat) (slot : Fin 8) : Keys :=
  if k.busy.isSome then k.wipe
  else if k.refusal confirm op slot ≠ 0 then { k.wipe with result := k.refusal confirm op slot }
  else { k with busy := some (op, slot, k.word), dataPs := none, result := 0 }

/-- A word of KEYS_CMD (Table 13.19); other operations are ignored. -/
def State.writeKeysCmd (s : State) (v : Word) : State :=
  let op := bits v 7 4
  let c : BitVec 16 := BitVec.ofNat 16 (bits v 31 16)
  if 1 ≤ op ∧ op ≤ 3 then { s with keys := s.keys.command c op (Fin.ofNat 8 (bits v 2 0)) } else { s with keys := s.keys.wipe }

/-- KEYS_PROGRAM_KEY (R485). -/
def execKeysProgramKey (dt : Nat) (confirm : BitVec 16) (slot : Fin 8) (s : State) : Host.Outcome State Fault Refusal :=
  s.occurs dt State.awake (fun t => { t with keys := t.keys.command confirm 1 slot })

/-- KEYS_BLOW_AUTH_REQ (R485). -/
def execKeysBlowAuthReq (dt : Nat) (confirm : BitVec 16) (s : State) : Host.Outcome State Fault Refusal :=
  s.occurs dt State.awake (fun t => { t with keys := t.keys.command confirm 2 0 })

/-- KEYS_BLOW_STILL_OFF (R485). -/
def execKeysBlowStillOff (dt : Nat) (confirm : BitVec 16) (s : State) : Host.Outcome State Fault Refusal :=
  s.occurs dt State.awake (fun t => { t with keys := t.keys.command confirm 3 0 })

/-- An operation ends (R485): KEYS_DATA is cleared, KEY_RESULT shows the outcome, and success is posted. -/
def State.keysEnd (s : State) (op : Nat) (slot : Fin 8) (key : BitVec 128) (ok : Bool) : State :=
  let k := { s.keys.wipe with busy := none, result := if ok then 0 else 4 }
  if !ok then { s with keys := k }
  else match op with
    | 1 => ({ s with keys := { k with slots := k.slots.set slot (some key) } } : State).post 7 0xFF 0xFFFF 0x97 0 (bytesOf 1 slot.val)
    | 2 => ({ s with keys := { k with authBlown := true } } : State).post 7 0xFF 0xFFFF 0x98 0 [0]
    | _ => ({ s with keys := { k with stillBlown := true } } : State).post 7 0xFF 0xFFFF 0x98 0 [1]

/-- KEYS_OPERATION_END (R485). -/
def execKeysOperationEnd (dt : Nat) (ok : Bool) (s : State) : Host.Outcome State Fault Refusal :=
  s.occurs dt State.awake (fun t => t.withSome t.keys.busy (fun b u => u.keysEnd b.1 b.2.1 b.2.2 ok))

end Sys2Proof.Machine
end

