-- ==== Sys2Proof/Machine/HostPort.lean ====
section
/-! DEFINITION. Chapter 14: the link, ARP and ICMP (R503 to R508, R551), sessions (R513 to R517), sending (R511, R512, R524, R534) and
NAKs (R530 to R533). -/

namespace Sys2Proof.Machine

/-! ### Registers -/

/-- MODE, with 0b11 treated as off (Table 14.1). -/
def HPort.mode (h : HPort) : Nat := if bits h.ctrl 31 30 = 3 then 0 else bits h.ctrl 31 30
def HPort.anEn (h : HPort) : Bool := bit h.ctrl 29
/-- TIMEOUT, 0 treated as 1, and FLUSH in ps, 50 to 10,000 µs (Table 14.21). -/
def HPort.timeoutS (h : HPort) : Nat := max 1 (bits h.ctrl 23 16)
def HPort.flushPs (h : HPort) : Nat := max 50 (min 10000 (bits h.ctrl 15 0)) * 1000000
/-- DGRAM_MAX, 576 to 8,960 (Table 14.23). -/
def HPort.dgramMax (h : HPort) : Nat := max 576 (min 8960 (bits h.port 31 16))

/-- The host port works: the part serves, and R78 has not stopped the port. -/
def State.portRuns (s : State) : Bool := s.serving && !s.mgmtOnly

/-! ### Sessions (R513 to R515) -/

/-- The session ends (R515): BYE with the reason, and SESSION_END. Records not yet sent stay queued. -/
def State.endSession (s : State) (reason : Nat) : State :=
  match s.host.session with
  | none => s
  | some q =>
    let t := s.reply (.bye q.peer reason)
    ({ t with host := { t.host with session := none, ackDue := false } } : State).post 7 0xFF 0xFFFF 0xA3 0 (bytesOf 1 reason)

/-- Identity of Table 17.3 (R3). -/
def Part.device (p : Part) : Word := if p.is8120 then 0x56548120 else 0x56548140

/-- HELLO_ACK (Table 14.5); with the next hop unresolved it waits (R507). -/
def State.helloAck (s : State) : State :=
  match s.host.session with
  | none => s
  | some q =>
    if s.maySend then
      let h := s.host
      ({ s with host := { s.host with ackDue := false } } : State).sendDatagram (fun d =>
        .helloAck q.peer q.version d s.part.device (if s.image.accepted then s.image.ident else 0) h.sessions s.nowNs (queueBytes s.queue))
    else { s with host := { s.host with ackDue := true } }

/-- Session timeout of a HELLO (Table 14.4; above 600 s log entry 31). -/
def State.helloTimeout (s : State) (t : BitVec 16) : Nat :=
  if t = 0 then s.host.timeoutS else if t.toNat ≤ 600 then t.toNat else Config.longTimeout t.toNat

/-- A new session begins (R514): HELLO_ACK, DSEQ 0, and SESSION_START. -/
def State.beginSession (s : State) (src : Peer) (v : Nat) (timeout : BitVec 16) (mask : BitVec 128) : State :=
  let n := s.host.sessions + 1
  let t := ({ s with host := { s.host with
    session := some { peer := src, version := v, timeoutS := s.helloTimeout timeout, mask := mask, lastRxPs := s.clock }
    sessions := n, dseq := 0, lastTxPs := s.clock, cmds := [], arpTries := 0 } } : State).helloAck
  t.post 7 0xFF 0xFFFF 0xA2 0 (bytesOf 4 src.ip.toNat ++ bytesOf 2 src.port.toNat ++ bytesOf 1 v ++ bytesOf 1 n)

/-- A HELLO (R513, R514). -/
def State.hello (s : State) (src : Peer) (minVer maxVer : Nat) (takeover : Bool) (timeout : BitVec 16) (mask : BitVec 128) : State :=
  let v := min 3 maxVer
  let t := if s.fromCollector src then s.heard else s
  if maxVer < minVer || maxVer = 0 || v < minVer then t.reply (.helloReject src 1 1 3)
  else match t.host.session with
    | none => t.beginSession src v timeout mask
    | some q =>
      if q.peer == src then
        if q.version = v then t.helloAck else (t.endSession 0).beginSession src v timeout mask
      else if takeover then (t.endSession 2).beginSession src v timeout mask
      else t.reply (.helloReject src 2 1 3)

/-- HELLO (R514). -/
def execHello (dt : Nat) (src : Peer) (minVer maxVer : BitVec 8) (takeover : Bool) (timeout : BitVec 16) (mask : BitVec 128) (s : State) :
    Host.Outcome State Fault Refusal :=
  s.occurs dt State.hostUp (fun t => t.hello src minVer.toNat maxVer.toNat takeover timeout mask)

/-- BYE (R515, R516). -/
def execBye (dt : Nat) (src : Peer) (s : State) : Host.Outcome State Fault Refusal :=
  s.occurs dt State.hostUp (fun t => t.datagram src (fun u => u.endSession 0))

/-- The session's timeout has run out (R515). -/
def State.timedOut (s : State) : Bool :=
  match s.host.session with | some q => decide (q.lastRxPs + q.timeoutS * secPs ≤ s.clock) | none => false

/-- SESSION_TIMEOUT (R515). -/
def execSessionTimeout (dt : Nat) (s : State) : Host.Outcome State Fault Refusal :=
  s.occurs dt (fun t => t.portRuns && t.timedOut) (fun t => t.endSession 1)

/-! ### The link (R503, R504, R551) -/

/-- The link comes up (R504, R507, R551): the MAC address last written is in force, one gratuitous ARP, and LINK_UP. -/
def State.linkUp (s : State) (anDone : Bool) : State :=
  let h := s.host
  let t : State := { s with host := { h with link := true, anDone := anDone && h.mode == 1 && h.anEn, mac := h.macNext, lastTxPs := s.clock } }
  (if h.ip = 0 then t else t.sendFrame .gratuitousArp).post 7 0xFF 0xFFFF 0xA0 0 (bytesOf 1 h.mode)

/-- LINK_UP (R504): the PCS has held synchronisation for 10 ms and, with AN_EN at 1000BASE-X, negotiation has completed. -/
def execLinkUp (dt : Nat) (syncUs : Nat) (anDone : Bool) (s : State) : Host.Outcome State Fault Refusal :=
  s.occurs dt (fun t => t.portRuns && !t.host.link && decide (10000 ≤ syncUs) && t.host.mode != 0 && (anDone || t.host.mode == 2 || !t.host.anEn))
    (fun t => t.linkUp anDone)

/-- The link goes down (R504). -/
def State.linkDown (s : State) : State :=
  if s.host.link then ({ s with host := { s.host with link := false, anDone := false } } : State).post 7 0xFF 0xFFFF 0xA1 0 [] else s

/-- LINK_DOWN (R504). -/
def execLinkDown (dt : Nat) (s : State) : Host.Outcome State Fault Refusal := s.occurs dt State.portRuns State.linkDown

/-- A write to HOSTPORT_CTRL (R515, R551): another MODE ends the session, and another MODE, AN_EN or JUMBO restarts the link. -/
def State.writeHostCtrl (s : State) (v : Word) : State :=
  let old := s.host.ctrl
  let t := if bits old 31 30 ≠ bits v 31 30 then s.endSession 5 else s
  let u := if bits old 31 28 ≠ bits v 31 28 then t.linkDown else t
  { u with host := { u.host with ctrl := v &&& 0xF8FFFFFF } }

/-- HOSTPORT_LINK_WRITE (R551). -/
def execHostportLinkWrite (dt : Nat) (value : Word) (s : State) : Host.Outcome State Fault Refusal :=
  s.occurs dt State.awake (fun t => t.writeHostCtrl value)

/-- A write to an addressing register (R515, R551); HOSTPORT_MAC takes effect at the next link-up. -/
def State.writeHostAddress (s : State) (addr : Addr) (v : Word) : State :=
  let set := fun (f : HPort → HPort) => let t := s.endSession 5; { t with host := f t.host }
  match addr.toNat / 4 * 4 with
  | 0x2408 => { s with host := { s.host with macNext := v.setWidth 16 ++ s.host.macNext.setWidth 32 } }
  | 0x240C => { s with host := { s.host with macNext := (s.host.macNext >>> 32).setWidth 16 ++ v } }
  | 0x2410 => set (fun h => { h with ip := v })
  | 0x2414 => set (fun h => { h with mask := v })
  | 0x2418 => set (fun h => { h with gw := v })
  | 0x241C => set (fun h => { h with port := v })
  | _ => s

/-- HOSTPORT_ADDRESS_WRITE (R515). -/
def execHostportAddressWrite (dt : Nat) (addr : Addr) (value : Word) (s : State) : Host.Outcome State Fault Refusal :=
  s.occurs dt State.awake (fun t => t.writeHostAddress addr value)

/-! ### ARP and ICMP (R507, R508) -/

/-- A mapping of the next hop that a frame brings (RFC 826). -/
def HPort.learn (h : HPort) (ip : Word) (mac : BitVec 48) (now : Nat) : HPort :=
  { h with nextHop := some (ip, mac, now), arpTries := 0 }

/-- A received ARP request for the part's address is answered; a known sender's mapping is refreshed, as RFC 826 gives. -/
def State.arpAnswer (s : State) (sender target : Word) (mac : BitVec 48) : State :=
  let t := if s.host.resolved && s.host.nextHopIp == sender then { s with host := s.host.learn sender mac s.clock } else s
  if target = s.host.ip then t.sendFrame (.arpReply sender mac) else t

/-- ARP_REQUEST (R507). -/
def execArpRequest (dt : Nat) (sender target : BitVec 32) (mac : BitVec 48) (s : State) : Host.Outcome State Fault Refusal :=
  s.occurs dt State.hostUp (fun t => t.arpAnswer sender target mac)

/-- An ARP request for the next hop. -/
def State.arpAsk (s : State) (tries : Nat) : State :=
  ({ s with host := { s.host with arpTries := tries, arpPs := s.clock } } : State).sendFrame (.arpRequest s.host.nextHopIp)

/-- The next request of R507: the first, up to three repeats 1 s apart, and after 10 s again from the start, when the next hop counts
as unresolved (Table 14.19; log entry 33). -/
def State.arpNext (s : State) : State :=
  let n := s.host.arpTries
  if n = 0 then s.arpAsk 1
  else if n ≤ 3 then (if s.host.arpPs + secPs ≤ s.clock then s.arpAsk (n + 1) else s)
  else if s.host.arpPs + 10 * secPs ≤ s.clock then (s.arpAsk 1).post 7 0xFF 0xFFFF 0xA6 0 (bytesOf 4 s.host.nextHopIp.toNat)
  else s

/-- ARP_RESOLVE (R507). -/
def execArpResolve (dt : Nat) (s : State) : Host.Outcome State Fault Refusal :=
  s.occurs dt (fun t => t.hostUp && t.host.nextHopIp != 0 && !t.host.resolved) State.arpNext

/-- ARP_REFRESH (R507): a resolution is kept for 60 s. -/
def execArpRefresh (dt : Nat) (s : State) : Host.Outcome State Fault Refusal :=
  s.occurs dt (fun t => t.hostUp && t.host.resolved && (match t.host.nextHop with | some p => decide (p.2.2 + 60 * secPs ≤ t.clock) | none => false))
    (fun t => ({ t with host := { t.host with nextHop := none } } : State).arpAsk 1)

/-- A resolution arrives; a HELLO_ACK that waited for it leaves. -/
def State.arpResolved (s : State) (sender : Word) (mac : BitVec 48) : State :=
  let t : State := { s with host := s.host.learn sender mac s.clock }
  if t.host.ackDue then t.helloAck else t

/-- ARP_REPLY (R507). -/
def execArpReply (dt : Nat) (sender : BitVec 32) (mac : BitVec 48) (s : State) : Host.Outcome State Fault Refusal :=
  s.occurs dt (fun t => t.hostUp && t.host.nextHopIp == sender && sender != 0) (fun t => t.arpResolved sender mac)

/-- ICMP_ECHO (R508): up to 1,472 data bytes. -/
def execIcmpEcho (dt : Nat) (sender : BitVec 32) (mac : BitVec 48) (ident seq : BitVec 16) (payload : List Byte) (s : State) :
    Host.Outcome State Fault Refusal :=
  s.occurs dt (fun t => t.hostUp && decide (payload.length ≤ 1472)) (fun t => t.sendFrame (.echoReply sender mac ident seq payload))

/-- RX_DISCARDS counts a frame or datagram that is discarded (R510). -/
def State.discardDatagram (s : State) : State := { s with host := { s.host with rxDiscards := s.host.rxDiscards.add 65535 s.clock } }

/-- A COMMAND that no function sees (Table 14.17): reason 0x80 for an OP outside Table 14.14, else 0x81 for its LEN. -/
def State.badCommand (s : State) (b : BadCommand) : State :=
  s.command b.src b.id b.op.toNat false 1 (fun u => u.refuse b.id b.op.toNat (if knownOps.contains b.op then 0x81 else 0x80))

/-- What the reception of a frame does here: one that is not taken is counted; a COMMAND that no function sees is refused; any other is a
command of its own. -/
def State.receive (s : State) (frame : List Byte) : State :=
  match s.host.verdict frame with
  | .discard => s.discardDatagram
  | .bad b => s.badCommand b
  | .taken => s

/-- DATAGRAM_DISCARDED (R505, R508, R510, R537): a frame as it is received, from its destination address to its FCS. -/
def execDatagramDiscarded (dt : Nat) (frame : List Byte) (s : State) : Host.Outcome State Fault Refusal :=
  s.occurs dt (fun t => t.portRuns && t.host.link) (fun t => t.receive frame)

/-! ### Sending (R511, R512, R524, R534) -/

/-- A record that the session does not send (Table 14.6, R534). -/
def QSession.filters (q : QSession) (typ : Nat) : Bool :=
  if q.version = 1 then typ == 0x31 || typ == 0x60 else q.version == 3 && !q.mask.getLsbD typ

/-- The record as the session's version sends it (Table 14.6), with RETRANSMIT when it is sent again. -/
def Record.sentAs (r : Record) (version : Nat) (again : Bool) : Record :=
  let x := if version = 1 then { r with reach := 0, flags := r.flags &&& ~~~8 } else r
  if again then { x with flags := x.flags ||| 0x20 } else x

/-- How many records from the front fit a datagram (R511); the first always does. -/
def packCount (cap : Nat) : List Record → Nat → Nat
  | [], _ => 0
  | r :: t, used => if used = 0 || used + r.size ≤ cap then 1 + packCount cap t (used + r.size) else 0

/-- A RECORDS datagram leaves when the next record would not fit, or the oldest has waited FLUSH (R511). Records that the session
filters enter the replay window unsent (R534). -/
def State.recordsSend (s : State) (q : QSession) : State :=
  let out := s.queue.filter (fun r => q.filters r.typ)
  let t := ({ s with queue := s.queue.filter (fun r => !q.filters r.typ) } : State).forEach out (fun r u => u.keep ⟨r, false⟩)
  let k := packCount (t.host.dgramMax - 8) t.queue 0
  let due := decide (k < t.queue.length) || (match t.queue with | r :: _ => decide (r.relPs + t.host.flushPs ≤ t.clock) | [] => false)
  if !due then t
  else
    let l := t.queue.take k
    (({ t with queue := t.queue.drop k } : State).sendDatagram (fun d => .records q.version d (l.map (fun r => r.sentAs q.version false)))).forEach
      l (fun r u => u.keep ⟨r, true⟩)

/-- Datagrams of records sent again; while more of them wait, a datagram of first sendings that is due alternates with them (R532). -/
def State.sendAgain (s : State) (q : QSession) : Nat → List Record → State
  | 0, _ => s
  | _, [] => s
  | n + 1, l =>
    let k := packCount (s.host.dgramMax - 8) l 0
    let t := s.sendDatagram (fun d => .records q.version d ((l.take k).map (fun r => r.sentAs q.version true)))
    (if l.length ≤ k then t else t.recordsSend q).sendAgain q n (l.drop k)

/-- Records can be sent now (R524). -/
def State.sendable (s : State) : Bool := s.hostUp && s.host.resolved

/-- RECORDS_SEND (R511). -/
def execRecordsSend (dt : Nat) (s : State) : Host.Outcome State Fault Refusal :=
  s.occurs dt State.sendable (fun t => t.withSome t.host.session (fun q u => u.recordsSend q))

/-- RECORDS_KEEPALIVE (R512). -/
def execRecordsKeepalive (dt : Nat) (s : State) : Host.Outcome State Fault Refusal :=
  s.occurs dt (fun t => t.sendable && decide (t.host.lastTxPs + secPs ≤ t.clock))
    (fun t => t.withSome t.host.session (fun q u => u.sendDatagram (fun d => .records q.version d [])))

/-! ### NAKs (R530 to R533) -/

/-- A sequence number of a CONTEXT value has been released since the reset (R520). -/
def State.wasReleased (s : State) (ctx : Nat) (seq : BitVec 32) : Bool :=
  let n := if ctx < 256 ∨ ctx = 0xFFFF then s.releasedOf ctx else 0
  decide (seq.toNat < n) || (decide (2 ^ 32 ≤ n) && decide ((BitVec.ofNat 32 (n - 1) - seq).toNat < 2 ^ 31))

/-- REASON for a number that is not sent again (R531): 1 evicted, 2 filtered, 3 not yet released; a released record still queued
counts as 3 (log entry 34). -/
def State.missReason (s : State) (q : QSession) (ctx : Nat) (seq : BitVec 32) : Nat :=
  let is := fun (r : Record) => r.ctx == ctx && r.seq == seq
  if s.kept.any (fun k => is k.record && q.filters k.record.typ) then 2
  else if s.queue.any is then 3
  else if s.wasReleased ctx seq then 1 else 3

/-- The record that answers a number of a NAK. -/
def State.keptFor (s : State) (q : QSession) (ctx : Nat) (seq : BitVec 32) : Option Record :=
  (s.kept.find? (fun k => k.record.ctx == ctx && k.record.seq == seq && !q.filters k.record.typ)).map (fun k => k.record)

/-- A miss joins the last entry when it continues it (COUNT at most 255). -/
def addMiss (l : List (BitVec 16 × Nat × Nat × BitVec 32)) (ctx : BitVec 16) (reason : Nat) (seq : BitVec 32) :
    List (BitVec 16 × Nat × Nat × BitVec 32) :=
  match l.getLast? with
  | some (c, r, n, f) =>
    if c == ctx && r == reason && decide (n < 255) && f + BitVec.ofNat 32 n == seq then l.dropLast ++ [(c, r, n + 1, f)]
    else l ++ [(ctx, reason, 1, seq)]
  | none => [(ctx, reason, 1, seq)]

/-- The numbers that a NAK names; an entry whose COUNT its version does not allow is ignored (R530, Table 14.6). -/
def nakNumbers (version : Nat) (l : List NakEntry) : List (BitVec 16 × BitVec 32) :=
  l.flatMap (fun e =>
    if 1 ≤ e.count ∧ e.count ≤ (if version = 1 then 1 else 256) then (List.range e.count).map (fun i => (e.ctx, e.first + BitVec.ofNat 32 i))
    else [])

/-- A NAK (R531): records sent again, and NAK_MISS for the rest. -/
def State.nak (s : State) (q : QSession) (entries : List NakEntry) : State :=
  let l := nakNumbers q.version entries
  let again := l.filterMap (fun p => s.keptFor q p.1.toNat p.2)
  let miss := (l.filter (fun p => (s.keptFor q p.1.toNat p.2).isNone)).foldl
    (fun m p => addMiss m p.1 (s.missReason q p.1.toNat p.2) p.2) []
  let t := s.sendAgain q again.length again
  if miss.isEmpty then t
  else
    let n := miss.foldl (fun n e => n + e.2.2.1) 0
    let u := t.sendDatagram (fun d => .nakMiss q.version d miss)
    { u with host := { u.host with nakMisses := u.host.nakMisses.add 65535 u.clock n } }

/-- NAK (R531). -/
def execNak (dt : Nat) (src : Peer) (entries : List NakEntry) (s : State) : Host.Outcome State Fault Refusal :=
  s.occurs dt State.hostUp (fun t => t.datagram src (fun u => u.withSome u.host.session (fun q w => w.nak q (entries.take 64))))

end Sys2Proof.Machine
end

