-- ==== Sys2Proof/Machine/Bringup.lean ====
section
/-! DEFINITION. Chapter 02 but for doze: reset and its release (R74, R75, R625), references and failover (R58 to R69), bring-up of the
Confluence and the reaches (R75 to R86), the supply monitors (R627), and the freeze instant (R577). -/

namespace Sys2Proof.Machine

/-! ### Reset -/

/-- The backup domain, which a reset leaves alone (R74, chapter 16). -/
def Rtc.kept (r : Rtc) : Rtc :=
  { seconds := r.seconds, fracPs := r.fracPs, timeLost := r.timeLost, oscStopped := r.oscStopped, onVbat := r.onVbat
    calWrap := r.calWrap, summer := r.summer, offset := r.offset, trim := r.trim, trimEndNs := r.trimEndNs, swValid := r.swValid
    swStamp := r.swStamp, swCount := r.swCount, returned := r.returned, lastSwitchNs := r.lastSwitchNs, lostReport := r.lostReport
    offsetNext := r.offsetNext, summerNext := r.summerNext }

/-- The OTP store at a reset (R486, Table 15.5): fuses take effect; an operation cut off leaves a slot or fuse either untouched or
marked (log entry 30). -/
def Keys.afterReset (k : Keys) (frozen : Bool) (cut : Nat) : Keys :=
  let marked := cut % 2 = 1
  let spoiled := match k.busy with | some (1, n, _) => if marked then k.spoiled ||| BitVec.ofNat 8 (2 ^ n.val) else k.spoiled | _ => k.spoiled
  let auth := k.authBlown || (match k.busy with | some (2, _, _) => marked | _ => false)
  let still := k.stillBlown || (match k.busy with | some (3, _, _) => marked | _ => false)
  { slots := k.slots, spoiled := spoiled, authBlown := auth, stillBlown := still, authInEffect := auth, stillInEffect := still
    result := if frozen && k.busy.isSome then 4 else 0 }

/-- HOSTPORT_MAC when the image gives none (R506). -/
def Part.macAddress (p : Part) : BitVec 48 := 0x02504D#24 ++ p.serial.setWidth 24

/-- Every function is reset but the backup domain, the flash and the OTP store; the levels that others drive on the pins stay. -/
def State.resetTo (s : State) (cause : BitVec 3) : State :=
  let r := State.reset
  { r with clock := s.clock, pending := s.pending, part := s.part, cause := cause, flash := s.cutFlash, draws := s.draws + 2
           keys := s.keys.afterReset s.still.frozen (Config.sessionCut (s.draws + 1)), rtc := s.rtc.kept
           host := { r.host with mac := s.part.macAddress, macNext := s.part.macAddress }
           pins := { r.pins with blankIn := s.pins.blankIn, cxGnt := s.pins.cxGnt, porHold := s.pins.porHold, resetN := s.pins.resetN
                                 bank18 := s.pins.bank18 } }

/-- Cause of a reset by RESET_N (Table 2.9, R582): one that ends a freeze, one within a reset still held, or PIN. -/
def State.pinCause (s : State) : BitVec 3 := if s.still.frozen then 4 else if s.phase == .held then s.cause else 2

/-- RESET (R74): RESET_N asserted for at least 10 µs. -/
def execReset (dt : Nat) (us : Nat) (s : State) : Host.Outcome State Fault Refusal :=
  s.occurs dt (fun _ => decide (10 ≤ us)) (fun t => ({ t with pins := { t.pins with resetN := true } } : State).resetTo t.pinCause)

/-- A supply that holds the part in reset lies below its threshold, in mV (R625). -/
def belowThreshold (core ana a18 : Nat) : Bool := decide (core < 700 ∨ ana < 880 ∨ a18 < 1550)

/-- POWER_ON_RESET (R625). VBAT is measured again at the next power-up (R589). -/
def execPowerOnReset (dt : Nat) (core ana a18 : Nat) (s : State) : Host.Outcome State Fault Refusal :=
  s.occurs dt (fun _ => belowThreshold core ana a18) (fun t =>
    let u := ({ t with pins := { t.pins with porHold := true } } : State).resetTo 1
    { u with rtc := { u.rtc with vbatPs := none } })

/-- Bring-up starts, when neither the hold nor RESET_N lasts on: the address pins are sampled (R75, R552, R625). -/
def State.released (s : State) (pins : BitVec 3) : State :=
  if s.pins.porHold || s.pins.resetN || s.phase != .held then s
  else { s with phase := .released, releasedPs := s.clock, tw := { s.tw with pins := pins } }

/-- POWER_ON_RESET_RELEASE (R625): the last of the three supplies has been above its threshold for 10 ms. Each I/O bank is classed. -/
def execPowerOnResetRelease (dt : Nat) (pins : BitVec 3) (aboveUs : Nat) (bank18 : BitVec 2) (s : State) : Host.Outcome State Fault Refusal :=
  s.occurs dt (fun t => t.pins.porHold && decide (10000 ≤ aboveUs))
    (fun t => ({ t with pins := { t.pins with porHold := false, bank18 := bank18 } } : State).released pins)

/-- RESET_N_RELEASE (R75). -/
def execResetNRelease (dt : Nat) (pins : BitVec 3) (s : State) : Host.Outcome State Fault Refusal :=
  s.occurs dt (fun t => t.pins.resetN) (fun t => ({ t with pins := { t.pins with resetN := false } } : State).released pins)

/-- The reset of TW_CMD (Table 15.10): RESET_N in every effect, released at once with the address pins as they are. -/
def State.commandReset (s : State) : State := (s.resetTo s.pinCause).released s.tw.pins

/-- QSPI pins are driven (R470, R577), HS_TXP/N is active (R577, Table 2.11), and TW_ALERT_N is asserted (R571, R579, R626). -/
def State.qspiDriven (s : State) : Bool := s.phase != .held && !s.still.frozen
def State.hsActive (s : State) : Bool := s.portRuns && s.host.mode != 0
def State.alertAsserted (s : State) : Bool := s.phase != .held && !s.still.frozen && s.mailbox.alertPending

/-! ### References (R58 to R60) -/

/-- Nominal frequency of a class in Hz. -/
def classHz : RefClass → Nat
  | .absent => 0
  | .mhz10 => 10000000
  | .mhz25 => 25000000
  | .mhz125 => 125000000

/-- A measured frequency lies within 5 % of a class's (R58). -/
def nearClass (hz : Nat) (c : RefClass) : Bool := decide (100 * hz ≤ 105 * classHz c ∧ 95 * classHz c ≤ 100 * hz)

/-- The class of a measured frequency in Hz (R58). -/
def classOf (hz : Nat) : RefClass := ([RefClass.mhz10, .mhz25, .mhz125].find? (nearClass hz)).getD .absent

/-- REF_FREQ (Table 2.8). -/
def refFreq : RefClass → BitVec 2
  | .absent => 0
  | .mhz10 => 1
  | .mhz25 => 2
  | .mhz125 => 3

/-- The inputs as they are classed, REFCLK2 at another frequency than REFCLK absent until the next reset (R59): good inputs, and REF_FREQ of
the one chosen, REFCLK first. -/
def Refs.classed (f : Refs) (a b : RefClass) : Refs :=
  let ignore := f.ignore2 || (a != .absent && b != .absent && a != b)
  let b := if ignore then .absent else b
  { f with ok1 := a != .absent, ok2 := b != .absent, ignore2 := ignore, freq := if a != .absent then refFreq a else refFreq b }

/-- The input that R59 and R68 choose, 0 none. -/
def Refs.choice (f : Refs) : Nat := if f.ok1 then 1 else if f.ok2 then 2 else 0

/-- The choice of R59; with neither present the part waits (R60). -/
def State.classify (s : State) (a b : RefClass) : State :=
  let f := s.refs.classed a b
  if f.choice = 0 then { s with refs := { s.refs with noRef := true } }
  else { s with phase := .classified, releasedPs := if s.refs.noRef then s.clock else s.releasedPs
                refs := { f with active := f.choice, noRef := false } }

/-- REF_CLASSIFY (R58): frequencies in Hz as the part measures them over 20 µs. -/
def execRefClassify (dt : Nat) (hz1 hz2 : Nat) (s : State) : Host.Outcome State Fault Refusal :=
  s.occurs dt (fun t => t.phase == .released && decide (t.releasedPs + 20000000 ≤ t.clock)) (fun t => t.classify (classOf hz1) (classOf hz2))

/-! ### Failover (R61 to R69) -/

/-- An input no longer counts as present and not lost; a wait-to-restore of REFCLK ends with it (Table 2.3). -/
def Refs.drop (f : Refs) (input : Nat) : Refs :=
  if input = 1 then { f with ok1 := false, restoreFrom := none } else { f with ok2 := false }

/-- The active reference no longer counts as present and not lost. -/
def Refs.dropActive (f : Refs) : Refs := f.drop f.active

/-- The other input, when it is good. -/
def Refs.standby (f : Refs) : Nat :=
  if f.active = 1 then (if f.ok2 && !f.ignore2 then 2 else 0) else (if f.ok1 then 1 else 0)

/-- A switch under R64: holdover until the exit, when it is posted. -/
def Refs.switchTo (f : Refs) (input code edge now : Nat) : Refs :=
  { f with active := input, holdover := true, switches := min (f.switches + 1) 255, postCode := code, lastEdge := edge, restoreFrom := none
           switchPs := now }

/-- DATA of the reference posts (Table 12.7). -/
def Refs.data (f : Refs) : List Byte := bytesOf 1 f.active ++ bytesOf 7 0 ++ bytesOf 8 f.lastEdge

/-- The active reference is lost (R62, R63, R66): the PLLs hold their averaged words. Before the Confluence PLL has first locked there is no
holdover (Table 2.3). -/
def State.loseRef (s : State) (agoNs : Nat) (words : Vector Nat 5) : State :=
  let edge := s.nowNs - agoNs
  let f := { s.refs.dropActive with words := if s.phase == Phase.classified then s.refs.words else words }
  let n := s.refs.standby
  if s.phase == .classified then
    if n = 0 then { s with phase := .released, releasedPs := s.clock, refs := { f with active := 0, noRef := true } }
    else { s with releasedPs := s.clock, refs := { f with active := n } }
  else if n ≠ 0 then { s with refs := f.switchTo n 1 edge s.clock }
  else
    let t : State := { s with refs := { f with active := 0, holdover := true, noRef := true, postCode := 0, lastEdge := edge } }
    (if t.rtc.src = 1 then t.discardWindow else t).post 0 0xFF 0xFFFF 2 3 t.refs.data

/-- Nominal reference period in ns of REF_FREQ. -/
def refPeriodNs (freq : BitVec 2) : Nat :=
  match freq.toNat with
  | 1 => 100
  | 2 => 40
  | _ => 8

/-- An input is lost (R61): no edge for four nominal periods, or, of the active one, a phase error above a quarter of a period in the last 16
periods. -/
def Refs.lost (f : Refs) (input sinceLastEdgeNs : Nat) (degrees : List Nat) : Bool :=
  decide (4 * refPeriodNs f.freq ≤ sinceLastEdgeNs) ||
    (f.active == input && decide (16 ≤ degrees.length) && (degrees.drop (degrees.length - 16)).all (fun d => decide (90 < d)))

/-- An input is good (R63, R87). -/
def Refs.good (f : Refs) (input : Nat) : Bool := if input = 1 then f.ok1 else f.ok2

/-- Reference events are met: while the Confluence PLL locks and from then on, in doze too, but not in a freeze (Table 2.3). -/
def State.refsRun (s : State) : Bool := (s.phase == .locked || s.phase == .classified) && !s.still.frozen

/-- The input that an operand names. -/
def inputOf (ref2 : Bool) : Nat := if ref2 then 2 else 1

/-- REF_LOST (R61): `degrees` are the phase errors of the last reference periods, oldest first, and `words` the averages of R62. A loss of the
input that stands by changes no PLL. -/
def execRefLost (dt : Nat) (ref2 : Bool) (sinceLastEdgeNs : Nat) (degrees : List Nat) (words : Vector Nat 5) (s : State) :
    Host.Outcome State Fault Refusal :=
  s.occurs dt (fun t => t.refsRun && t.refs.good (inputOf ref2) && t.refs.lost (inputOf ref2) sinceLastEdgeNs degrees) (fun t =>
    if t.refs.active = inputOf ref2 then t.loseRef sinceLastEdgeNs words else { t with refs := t.refs.drop (inputOf ref2) })

/-- The PLLs leave holdover, and the switch is posted (Table 2.2). -/
def State.exitHoldover (s : State) : State :=
  let t : State := { s with refs := { s.refs with holdover := false, postCode := 0 } }
  if s.refs.postCode = 0 then t else t.post 0 0xFF 0xFFFF s.refs.postCode (if s.refs.postCode = 1 then 1 else 0) s.refs.data

/-- HOLDOVER_EXIT (R64): the phase error has been below 1° for `belowUs` µs, since the switch at most. -/
def execHoldoverExit (dt : Nat) (belowUs : Nat) (s : State) : Host.Outcome State Fault Refusal :=
  s.occurs dt (fun t => t.phase == .locked && !t.still.frozen && t.refs.holdover && t.refs.active != 0 && decide (100 ≤ belowUs) &&
    decide (t.refs.switchPs + 100000000 ≤ t.clock)) State.exitHoldover

/-- REF_REVERT (R67): REFCLK has been good for the wait-to-restore time. -/
def execRefRevert (dt : Nat) (s : State) : Host.Outcome State Fault Refusal :=
  s.occurs dt (fun t => t.phase == .locked && !t.still.frozen && t.image.revertive && t.refs.active == 2 && t.refs.ok1 && !t.refs.holdover &&
      (match t.refs.restoreFrom with | some p => decide (p + t.image.restoreS * secPs ≤ t.clock) | none => false))
    (fun t => { t with refs := t.refs.switchTo 1 3 t.nowNs t.clock })

/-- Inputs that become classed present in holdover without a reference (R68); REFCLK first. -/
def State.recoverRef (s : State) (a b : RefClass) : State :=
  let f := s.refs.classed a b
  if f.choice = 0 then s
  else { s with refs := { f.switchTo f.choice 1 s.nowNs s.clock with noRef := false, noRefEnd := some s.nowNs } }

/-- REF_RECOVERED (R68): frequencies in Hz as measured. -/
def execRefRecovered (dt : Nat) (hz1 hz2 : Nat) (s : State) : Host.Outcome State Fault Refusal :=
  s.occurs dt (fun t => t.phase == .locked && !t.still.frozen && t.refs.holdover && t.refs.active == 0)
    (fun t => t.recoverRef (classOf hz1) (classOf hz2))

/-- The input that is not active is good again, at the nominal frequency in use (log entry 71); for REFCLK the wait-to-restore time runs from
here (R67). -/
def Refs.restored (f : Refs) (input : Nat) (c : RefClass) (now : Nat) : Refs :=
  if f.good input || refFreq c != f.freq then f
  else if input = 1 then { f with ok1 := true, restoreFrom := some now }
  else if f.ignore2 then f
  else { f with ok2 := true }

/-- REFCLK_RESTORED (R67): `hz` as measured. -/
def execRefclkRestored (dt : Nat) (ref2 : Bool) (hz : Nat) (s : State) : Host.Outcome State Fault Refusal :=
  s.occurs dt (fun t => t.refsRun && t.refs.active != 0 && t.refs.active != inputOf ref2)
    (fun t => { t with refs := t.refs.restored (inputOf ref2) (classOf hz) t.clock })

/-! ### Bring-up of the Confluence (R75) -/

/-- CONFLUENCE_PLL_LOCK (R75): FAB runs, the two-wire target answers, and the time reports kept so far are sent (Table 16.5). -/
def execConfluencePllLock (dt : Nat) (s : State) : Host.Outcome State Fault Refusal :=
  s.occurs dt (fun t => t.phase == .classified)
    (fun t => ({ t with phase := .locked, tw := { t.tw with ready := true }, selftestPs := t.clock
                        sync := { t.sync with tick0 := t.clock } } : State).firstReports.sendReports)

/-! ### Bring-up of a reach (R75 to R77, R462, Table 2.12) -/

/-- A bring-up of the reach is in progress. Until the image is accepted every reach that the part has locks and trims (Table 2.5). -/
def State.reachStarts (s : State) (r : Fin 4) : Bool :=
  s.serving && !s.mgmtOnly && s.reachExists r &&
    (s.reaches[r].st == .bringup || (s.reaches[r].st == .failed && s.reaches[r].repair) || (s.reaches[r].st == .disabled && !s.image.accepted))

/-- A bring-up from PLL lock onward, with the deadline of R76 and Table 2.12. -/
def State.startReach (s : State) (r : Fin 4) (deadline : Nat) : State :=
  s.modReach r (fun x => { x with st := if x.repair then .failed else .bringup, pll := false, adc := false, pass := false
                                  deadlinePs := some deadline })

/-- A reach whose PLL locks: its sampling instants take a phase of their own against FAB (R72; log entry 50), and its chains start from
cleared state (R166). -/
def Reach.lockPll (x : Reach) (phase now : Nat) : Reach :=
  { x with pll := true, pllLowPs := none, fifoLowPs := none, gridPs := phase, next := (now + 320 - phase) / 320, syncCount := 0, step := none, events := [], blankLog := []
           blank := .none, tribs := x.tribs.map Trib.restart }

/-- REACH_PLL_LOCK (R71). -/
def execReachPllLock (dt : Nat) (r : Fin 4) (s : State) : Host.Outcome State Fault Refusal :=
  s.occurs dt (fun t => t.reachStarts r && !t.reaches[r].pll) (fun t =>
    { t.modReach r (fun x => x.lockPll (Config.sampPhase t.draws % 320) t.clock) with draws := t.draws + 1 })

/-- A reach whose ADC has settled (R105): the gain starts at −30 dB, and AUTO measures one window. -/
def Reach.settleAdc (x : Reach) (now : Nat) : Reach :=
  let g := realise (-30)
  { x with adc := true, passPs := now, gain := -30, lna := if x.manual then x.lna else g.1, attn := if x.manual then x.attn else g.2
           mult := stepMult x.stepTable g.1 g.2, step := none, events := [], oneShot := x.auto, quietPs := 0, lastRisePs := none
           deferred := none, clipDone := false, ovrThis := false }

/-- The ADC has settled (R76, R105). -/
def State.adcSettles (s : State) (r : Fin 4) : State := (s.modReach r (fun x => x.settleAdc s.clock)).blankUpdate r

/-- ADC_SETTLED (R76). -/
def execAdcSettled (dt : Nat) (r : Fin 4) (s : State) : Host.Outcome State Fault Refusal :=
  s.occurs dt (fun t => t.reachStarts r && t.reaches[r].pll && !t.reaches[r].adc) (fun t => t.adcSettles r)

/-- The initial fallow pass: 17 × 8 ms (R76). -/
def fallowPassPs : Nat := 136 * msPs

/-- The rotation after an initial pass, which tests a retired sub-ADC again (R465): a retired one lies fallow, else sub-ADC 0. -/
def Fallow.afterPass (f : Fallow) (stillBad : Bool) (now : Nat) : Fallow :=
  let kept := if stillBad then f.retired else none
  let i : Fin 17 := match kept with | some p => p.1 | none => 0
  { f with retired := kept, waiting := [], index := i, slots := Vector.ofFn (fun k => if k.val < i.val then ⟨k.val, by omega⟩ else ⟨k.val + 1, by omega⟩)
           rotations := 0, periods := 0, boundPs := now }

/-- INITIAL_FALLOW_PASS_END (R76). -/
def execInitialFallowPassEnd (dt : Nat) (r : Fin 4) (subAdcStillBad : Bool) (s : State) : Host.Outcome State Fault Refusal :=
  s.occurs dt (fun t => t.reachStarts r && t.reaches[r].adc && decide (t.reaches[r].passPs + fallowPassPs ≤ t.clock)) (fun t =>
    (t.modReach r (fun x => { x with pass := true })).modFallow r (fun f => f.afterPass subAdcStillBad t.clock))

/-- The image entries held for a reach are entered as commits, in ascending context order (R211). -/
def State.enterHeld (s : State) (r : Fin 4) : State :=
  s.forEach allCtxs (fun c t => match t.ctxs[c].held with
    | some e => if e.reach == r then (t.commit .image c e).1 else t
    | none => t)

/-- A reach reports ready (R75, R79, R82, R211, R407, R462): the registers written come into force, and its fallow rotation runs. -/
def State.reachReady (s : State) (r : Fin 4) : State :=
  let repair := s.reaches[r].repair
  let t := (s.modReach r (fun x =>
    let y := ({ x with st := .ready, deadlinePs := none } : Reach).loadRegs (s.stepDraw r) s.clock
    { y with discardPeak := y.manual })).modUpkeep r (fun u =>
      if s.journal.ready then u.takeReplayed else { u with onFactory := true })
  let u := ((t.modFallow r (fun f => { f with boundPs := s.clock })).blankUpdate r).enterHeld r
  (if repair then u.restoreReach r else u).ownRequest r .recal

/-- REACH_READY (R75): PLL, ADC, initial fallow pass, and the image's engine firmware. -/
def execReachReady (dt : Nat) (r : Fin 4) (s : State) : Host.Outcome State Fault Refusal :=
  s.occurs dt (fun t => t.reachStarts r && t.image.accepted && t.reaches[r].pll && t.reaches[r].adc && t.reaches[r].pass)
    (fun t => t.reachReady r)

/-- BRINGUP_TIMEOUT (R77, R462). -/
def execBringupTimeout (dt : Nat) (r : Fin 4) (s : State) : Host.Outcome State Fault Refusal :=
  s.occurs dt (fun t => t.reachStarts r && (match t.reaches[r].deadlinePs with | some p => decide (p ≤ t.clock) | none => false))
    (fun t => t.failReach r 0 0 true t.clock)

/-- The Outfall's bring-up: a VCO calibration and the retune to REST (R370, Table 2.5, Table 2.12). -/
def State.startOutfall (s : State) : State :=
  (s.modOut (fun o => { o with ready := false, forceCal := true })).retune s.outfall.rest.toNat

/-! ### The supply monitors (R627) -/

/-- The mailbox takes the monitors' posts: FAB has run, and the part is not frozen. -/
def State.monitors (s : State) : Bool := s.phase == .locked && !s.still.frozen

/-- SUPPLY_OUT_OF_RANGE is posted (Table 12.7). -/
def State.supplyPost (s : State) (k : Fin 6) : State :=
  ({ s with pins := { s.pins with supplyPostPs := s.pins.supplyPostPs.set k (some s.clock) } } : State).post 7 0xFF 0xFFFF 0x80 3 (bytesOf 1 k.val)

/-- An I/O bank outside its window, by its class (Table 18.5), in mV. -/
def bankOut (low : Bool) (mv : Nat) : Bool := if low then decide (mv < 1650 ∨ 1950 < mv) else decide (mv < 3050 ∨ 3550 < mv)

/-- A supply outside its window (Table 18.5), in mV; code 4 is VDD_IOQ, `mv`, or VDD_IOC, `ioc`. -/
def Pins.supplyOut (p : Pins) (k : Fin 6) (mv ioc : Nat) : Bool :=
  match k with
  | 0 => decide (mv < 760 ∨ 840 < mv)
  | 1 => decide (mv < 950 ∨ 1050 < mv)
  | 2 => decide (mv < 1710 ∨ 1890 < mv)
  | 3 => decide (mv < 855 ∨ 945 < mv)
  | 4 => bankOut (p.bank18.getLsbD 0) mv || bankOut (p.bank18.getLsbD 1) ioc
  | 5 => decide (3700 < mv)

/-- SUPPLY_OUT_OF_RANGE (R627): the supply has been outside its window for `us` µs, which a filter of 10 µs passes. -/
def execSupplyOutOfRange (dt : Nat) (k : Fin 6) (mv ioc us : Nat) (s : State) : Host.Outcome State Fault Refusal :=
  s.occurs dt (fun t => t.monitors && !t.pins.supplyNow.getLsbD k.val && t.pins.supplyOut k mv ioc && decide (10 ≤ us)) (fun t =>
    let b : BitVec 6 := BitVec.ofNat 6 (2 ^ k.val)
    ({ t with pins := { t.pins with supplyNow := t.pins.supplyNow ||| b
                                    supplyLatched := t.pins.supplyLatched.set k (t.pins.supplyLatched[k].set t.clock) } } : State).supplyPost k)

/-- SUPPLY_MONITOR_REPEAT (R627). -/
def execSupplyMonitorRepeat (dt : Nat) (k : Fin 6) (s : State) : Host.Outcome State Fault Refusal :=
  s.occurs dt (fun t => t.monitors && t.pins.supplyNow.getLsbD k.val && t.since t.pins.supplyPostPs[k] secPs) (fun t => t.supplyPost k)

/-- SUPPLY_BACK_IN_RANGE (R627). -/
def execSupplyBackInRange (dt : Nat) (k : Fin 6) (mv ioc : Nat) (s : State) : Host.Outcome State Fault Refusal :=
  s.occurs dt (fun t => t.monitors && !t.pins.supplyOut k mv ioc) (fun t => { t with pins := { t.pins with supplyNow := t.pins.supplyNow &&& ~~~(BitVec.ofNat 6 (2 ^ k.val)) } })

/-! ### The freeze instant (R575 to R577) -/

/-- A freeze is permitted (R575). -/
def State.freezePermitted (s : State) : Bool := s.phase == .locked && s.image.accepted && s.image.stillOk && !s.keys.stillInEffect

/-- The freeze instant (R577): every clock stops; keys in registers are cleared, the Outfall driver is off, and the RTC block is kept as
it stands. Every other field keeps its value; BLANK_OUT and CX_REQ keep their level. -/
def State.freeze (s : State) (byCmd : Bool) : State :=
  { s with keys := { s.keys with data := Vector.replicate 4 0, dataPs := none }, pins := { s.pins with driver := false }
           tw := { s.tw with ignoring := false, acked := [], araByte := none }, sync := { s.sync with pending := [] }
           still := { s.still with frozen := true, byCmd := byCmd, time := s.nowNs, rtc := some s.rtc, count := s.still.count + 1 } }

/-- An assertion of STILL_N that lasted so long (R576): 200 ns freeze, less than 50 ns never do, and between these it is open (log entry 72). -/
def State.stillAsserted (s : State) (ns : Nat) : State :=
  if 200 ≤ ns then s.freeze false
  else
    let t : State := { s with draws := s.draws + 1 }
    if Config.stillFilter s.draws then t.freeze false else t

/-- STILL_N_FREEZE (R576): `ns` is how long STILL_N has been asserted. -/
def execStillNFreeze (dt : Nat) (ns : Nat) (s : State) : Host.Outcome State Fault Refusal :=
  s.occurs dt (fun t => !t.still.frozen && t.freezePermitted && decide (50 ≤ ns)) (fun t => t.stillAsserted ns)

end Sys2Proof.Machine
end

