-- ==== Sys2Proof/Machine/Doze.lean ====
section
/-! DEFINITION. Doze (R53 to R56, R88 to R95, R547). -/

namespace Sys2Proof.Machine

/-! ### Requests (R88 to R91) -/

/-- DOZE_ENTER (R89). -/
def execDozeEnter (dt : Nat) (s : State) : Host.Outcome State Fault Refusal := s.occurs dt State.awake State.requestDoze

/-- A request of the host to leave doze; inside a scheduled window the schedule is silent until the next window (R90). -/
def State.hostExit (s : State) : State :=
  (s.when (s.doze.scheduleEn && s.inWindow) (fun t => { t with doze := { t.doze with suppressed := true } })).requestExit

/-- DOZE_EXIT (R89, R90). -/
def execDozeExit (dt : Nat) (s : State) : Host.Outcome State Fault Refusal := s.occurs dt State.awake State.hostExit

/-- A write to READY_DOZE (Table 2.10, R91). Of ENTER and EXIT in one write ENTER comes first: the model's choice (log entry 63). -/
def State.writeDoze (s : State) (v : Word) : State :=
  let was := s.doze.scheduleEn
  let t : State := { s with doze := { s.doze with scheduleEn := bit v 8 } }
  (((t.when (bit v 8 && !was) State.enterWindow).when (bit v 0) State.requestDoze)).when (bit v 1) State.hostExit

/-- The schedule's clock runs: the Confluence PLL has locked and no freeze holds it. -/
def State.scheduleRuns (s : State) : Bool := s.phase == .locked && !s.still.frozen

/-- A minute of the day begins. -/
def State.minuteStarts (s : State) : Bool := decide (s.rtc.seconds % 60 = 0)

/-- DOZE_WINDOW_START (R88, R90): at the START of any configured window. -/
def execDozeWindowStart (dt : Nat) (s : State) : Host.Outcome State Fault Refusal :=
  s.occurs dt (fun t => t.scheduleRuns && t.minuteStarts && t.image.windows.any (fun w => w.1 == minuteOf t.rtc.seconds))
    (fun t => ({ t with doze := { t.doze with suppressed := false } } : State).enterWindow)

/-- DOZE_WINDOW_END (R88, R91): at the end of a window that lies in no other window. -/
def execDozeWindowEnd (dt : Nat) (s : State) : Host.Outcome State Fault Refusal :=
  s.occurs dt (fun t => t.scheduleRuns && t.minuteStarts && !t.inWindow && t.scheduleActs &&
      t.image.windows.any (fun w => (w.1 + w.2) % 1440 == minuteOf t.rtc.seconds)) State.requestExit

/-! ### Entry (R53, R56, R93, Table 1.12, Table 2.6, Table 2.11) -/

/-- The waits of entry have ended: bring-up, a journal session, a transmission on air, a migration. -/
def State.dozeFree (s : State) : Bool :=
  (s.image.accepted || s.image.refused) && s.reaches.toList.all (fun x => x.st != .bringup) && s.journal.running.isNone &&
    (match s.outfall.air with | some a => !a.started | none => true) && s.ctxs.toList.all (fun x => !(x.st == .migrating && x.placed))

/-- A context at doze entry: what reach buffers and engine memory hold is lost (R53), a fade ends with the new configuration (Table 4.10), and
a reception, frames and samples not yet sent are discarded (R245, Table 8.22). -/
def Ctx.sleep (x : Ctx) : Ctx :=
  { x.endFade.stopChain with
    invalid := true, demod := [], iqBuf := [], iqMarks := {}, iqDiscont := true
    fm := { x.fm with pcmDiscont := true, audio := { swaps := x.fm.audio.swaps } }
    eab := { x.eab with st := .off, rx := {}, shadow := none, shadowRestart := none, ended := [], afcFrozen := false }
    follow := { x.follow with check := none, runOut := none } }

/-- What other agents asked for ends (R53, R547, Table 1.12, Table 9.7). A pair commit between its two swaps ends as every pending one: the
model's choice (log entry 62). -/
def State.dozeAborts (s : State) : State :=
  let a := (s.forEach allCtxs (fun c t => t.endPending c 0x10 3)).forEach allCtxs (fun c t => t.endLanding c 6 3)
  let b := (a.dropWhere (fun _ => true) 0x27 0x27).forEach allReaches (fun r t => (t.abortRun r 2 2).abortQueued r (fun _ => true) 2 2)
  b.forEach b.host.open_ (fun q t => t.respond q.id q.op stAborted 0x87 [])

/-- A reach at doze entry. -/
def Reach.sleep (x : Reach) : Reach :=
  if x.st == .disabled || x.st == .retired then x
  else { x with st := .stopped, pll := false, adc := false, pass := false, deadlinePs := none, oneShot := false, deferred := none
                quietPs := 0, blank := .none, step := none, events := [], blankLog := []
                tribs := x.tribs.map (fun t => { t.restart with spateFlag := false }) }

/-- The Outfall off. -/
def Outfall.sleep (o : Outfall) : Outfall := { o with st := .off, ready := false, retuneTo := none, air := none, lbtHeld := [] }

/-- Doze entry from the end of the waits on (Table 2.11). -/
def State.enterDoze (s : State) : State :=
  let a := s.dozeAborts
  let b := ({ a with held := [], ctxs := a.ctxs.map Ctx.sleep } : State).forEach a.held (fun h t => t.release h.record)
  let c := (b.endSession 3).linkDown
  { c with
    reaches := c.reaches.map Reach.sleep
    engines := c.engines.map Engine.calm
    wardens := c.wardens.map Warden.calm
    outfall := c.outfall.sleep
    pins := { c.pins with blankOut := false, cxReq := false, driver := false }
    proposals := [], sync := { c.sync with pending := [], released := 0 }
    doze := { c.doze with inDoze := true, requested := false, fabAwake := false } }

/-- DOZE_ENTRY (R93). -/
def execDozeEntry (dt : Nat) (s : State) : Host.Outcome State Fault Refusal :=
  s.occurs dt (fun t => t.serving && t.doze.requested && t.dozeFree) State.enterDoze

/-! ### Exit (R55, R95, Table 2.12) -/

/-- A context that is not IDLE enters ACQUIRE at doze exit (R55, Table 5.5), one that waited for its reach too (log entry 40). -/
def State.wakeCtx (s : State) (c : Fin 256) : State :=
  (((s.toState c .acquire).startChain c s.ctxs[c].active).modCtx c (fun y =>
    { (y.acquireEngine true s.clock) with paused := false, waiting := false, placed := false, dab := ({} : Dab).select y.active.subs }))

/-- Doze exit (Table 2.12): FAB runs, queued journal sessions start, the Outfall calibrates, and the reaches bring up. -/
def State.leaveDoze (s : State) : State :=
  let a : State := { s with doze := { s.doze with inDoze := false, exitRequested := false, fabAwake := true } }
  let b := a.when (a.journal.ready && a.journal.running.isNone) State.grant
  let c := if b.mgmtOnly then b else
    ((allReaches.filter (fun r => b.reaches[r].st == .stopped)).foldl (fun t r => t.startReach r (t.clock + 220 * msPs)) b).startOutfall
  (c.forEach (allCtxs.filter (fun q => c.ctxs[q].st != .idle)) (fun q t => t.wakeCtx q)).firstReports.sendReports

/-- DOZE_EXIT_SEQUENCE (R95). -/
def execDozeExitSequence (dt : Nat) (s : State) : Host.Outcome State Fault Refusal :=
  s.occurs dt (fun t => t.scheduleRuns && t.doze.inDoze && t.doze.exitRequested) State.leaveDoze

/-! ### FAB in doze (R92, R94) -/

/-- FAB restarts at the START of a transaction addressed to the part. -/
def State.wakeFab (s : State) : State := { s with doze := { s.doze with fabAwake := true, lastTwPs := s.clock } }

/-- DOZE_TW_WAKE (R94). -/
def execDozeTwWake (dt : Nat) (s : State) : Host.Outcome State Fault Refusal :=
  s.occurs dt (fun t => t.scheduleRuns && t.doze.inDoze && !t.doze.fabAwake) State.wakeFab

/-- DOZE_FAB_IDLE_STOP (R94). -/
def execDozeFabIdleStop (dt : Nat) (s : State) : Host.Outcome State Fault Refusal :=
  s.occurs dt (fun t => t.awake && t.doze.inDoze && decide (t.doze.lastTwPs + 10 * msPs ≤ t.clock))
    (fun t => { t with doze := { t.doze with fabAwake := false } })

end Sys2Proof.Machine
end

