-- ==== Sys2Proof/Machine/Registers.lean ====
section
/-! DEFINITION. The register map (chapter 17 and the register tables of the chapters): what a read returns, what it does besides
(R13, R560, R580), and what a write does (R8 to R14, R79, R640). -/

namespace Sys2Proof.Machine

/-! ### Values -/

/-- Word of four bytes, most significant first, at an offset. -/
def wordAt (l : List Byte) (off : Nat) : Word := BitVec.ofNat 32 (natAt l off 4)

/-- IDENT and VERSION (Tables 17.3 to 17.7, 15.6). -/
def State.peekIdent (s : State) (a : Nat) : Word :=
  match a with
  | 0x00 => s.part.device
  | 0x04 => fieldAt (if s.part.is8120 then 2 else 4) 20 ||| fieldAt s.part.grade.toNat 16 ||| 0x4102
  | 0x08 => (s.part.serial >>> 32).setWidth 32
  | 0x0C => s.part.serial.setWidth 32
  | 0x40 => 0x01020003
  | 0x44 => fieldAt s.tw.hostMax.toNat 8 ||| 0x20 ||| fieldAt s.tw.active 0
  | 0x48 => 0x00030103
  | _ =>
    if 0x50 ≤ a ∧ a ≤ 0x64 then
      match s.image.versions.find? (fun m => m.1 == (a - 0x4C) / 4) with
      | some m => flag true 31 ||| fieldAt m.2 0
      | none => 0
    else 0

/-- READY (Tables 2.7 to 2.10). -/
def State.peekReady (s : State) (a : Nat) : Word :=
  let up := fun (r : Fin 4) => s.reaches[r].st == .ready
  match a with
  | 0x100 =>
    flag s.doze.inDoze 15 ||| flag s.mgmtOnly 14 ||| flag s.outfall.ready 13 |||
      flag (s.host.link && s.host.ip != 0 && !s.mgmtOnly) 12 ||| flag (up 3) 11 ||| flag (up 2) 10 ||| flag (up 1) 9 ||| flag (up 0) 8 |||
      flag (allReaches.any (fun r => up r && s.upkeep[r].onFactory)) 5 ||| flag s.journal.ready 4 ||| flag s.image.accepted 3 |||
      flag (s.phase == .locked && !s.rtc.timeLost) 2 ||| flag (s.phase == .locked) 1 ||| flag s.tw.ready 0
  | 0x104 =>
    fieldAt s.refs.switches 16 ||| fieldAt (if s.refs.active = 0 then 0 else s.refs.freq.toNat) 10 ||| flag s.image.revertive 9 ||| flag s.refs.holdover 8 |||
      flag s.refs.ok2 5 ||| flag s.refs.ok1 4 ||| fieldAt s.refs.active 0
  | 0x108 => fieldAt s.cause.toNat 0
  | 0x10C => flag s.doze.scheduleEn 8
  | _ => 0

/-- Bits of a four-way vector of flags. -/
def bitsOf4 (f : Fin 4 → Bool) : Nat := (f 0).toNat + 2 * (f 1).toNat + 4 * (f 2).toNat + 8 * (f 3).toNat

/-- The latched supply bits, one a monitor (Table 17.12). -/
def latchBits (l : Vector Latch 6) : Nat := natOfBits (l.toList.reverse.map (fun x => x.on))

/-- HEALTH (Tables 17.8 to 17.12). -/
def State.peekHealth (s : State) (a : Nat) : Word :=
  let m := s.mailbox
  match a with
  | 0x200 => fieldAt m.alertThreshold.toNat 0
  | 0x204 => flag m.pending.isEmpty 31 ||| fieldAt m.pending.length 16 ||| fieldAt m.rdPtr 0
  | 0x20C => BitVec.ofNat 32 (m.lost.shown s.clock)
  | 0x210 => fieldAt (latchBits s.pins.supplyLatched) 8 ||| fieldAt s.pins.supplyNow.toNat 0
  | 0x214 =>
    fieldAt (bitsOf4 (fun r => s.fallow[r].retired.isSome)) 24 ||| fieldAt (bitsOf4 (fun r => s.reaches[r].st == .retired)) 16 |||
      fieldAt s.tmr.retired.toNat 8 ||| fieldAt (bitsOf4 (fun r => s.wardens[r].retired)) 4 |||
      fieldAt (bitsOf4 (fun r => s.wardens[r].failed)) 0
  | _ => if 0x220 ≤ a ∧ a ≤ 0x23C then wordAt m.captured (a - 0x220) else 0

/-- Code of REACH_x_STATUS (Table 17.13). -/
def ReachSt.code : ReachSt → Nat
  | .disabled => 0
  | .bringup => 1
  | .ready => 2
  | .failed => 3
  | .retired => 4
  | .stopped => 5

/-- Failures declared in the last hour. -/
def State.failsHour (s : State) (r : Fin 4) : Nat := (s.upkeep[r].failPs.filter (fun t => decide (s.clock < t + 3600 * secPs))).length

/-- Cross-fades running in a reach (Table 4.11). -/
def State.fades (s : State) (r : Fin 4) : Nat :=
  (allCtxs.filter (fun c => s.ctxs[c].fade.isSome && s.ctxs[c].reachOf == r)).length

/-- Slots of the entries that count in a reach. -/
def Room.slotsHeld (m : Room) (r : Fin 4) : Nat :=
  m.seats.foldl (fun n x => if x.place.reach == r then n + x.place.slots else n) 0

/-- REACH_x, at an offset from its base (Tables 17.13 to 17.15, 3.5 to 3.12, 4.11 to 4.13). -/
def State.peekReach (s : State) (r : Fin 4) (off : Nat) : Word :=
  let x := s.reaches[r].settle s.clock
  let f := s.fallow[r]
  match off with
  | 0x00 => fieldAt x.st.code 29 ||| fieldAt (min (s.failsHour r) 15) 24 ||| fieldAt (s.room.count r) 16 ||| fieldAt (s.room.slotsHeld r) 0
  | 0x04 => fieldAt (s.room.used r 1) 16 ||| fieldAt (s.room.used r 0) 0
  | 0x08 => if x.st == .disabled then 0 else fieldAt (s.room.buffer r) 0
  | 0x0C => fieldAt x.catch_.length 0
  | 0x10 => x.regs.agc
  | 0x14 => x.regs.agcTime
  | 0x18 =>
    let q := x.regs.attn.getD (x.lna, x.attn)
    fieldAt (unsigned 8 x.gain) 16 ||| fieldAt q.1.toNat 8 ||| fieldAt q.2.toNat 0
  | 0x1C => fieldAt x.peak.toNat 8 ||| fieldAt x.mean.toNat 0
  | 0x20 => fieldAt (x.ovrWindows.shown s.clock) 16 ||| flag x.atMin.on 0
  | 0x24 => x.regs.spate
  | 0x28 => fieldAt x.blankCount.toNat 16 ||| fieldAt x.regs.blankTail.toNat 8 ||| fieldAt x.regs.blankCtl.toNat 0
  | 0x2C => flag (s.fallowSuspended r) 31 ||| flag (!f.waiting.isEmpty) 30 ||| fieldAt f.index.val 16 ||| fieldAt f.rotations.toNat 0
  | 0x30 => fieldAt (x.satEvents.shown s.clock) 16 ||| fieldAt (x.hardChanges.shown s.clock) 8 ||| fieldAt (min (s.fades r) 15) 0
  | 0x34 => fieldAt x.syncCount.toNat 16 ||| flag (r == 0 && s.sync.pinEn) 8
  | _ =>
    if 0x40 ≤ off ∧ off ≤ 0x5C then x.tribs[Fin.ofNat 8 ((off - 0x40) / 4)].reg
    else if 0x60 ≤ off ∧ off ≤ 0x9C then
      match x.catch_[(off - 0x60) / 8]? with
      | some p => fieldAt (if off % 8 = 0 then p.1 else p.2) 0
      | none => 0
    else 0

/-- CTX (Tables 5.9 to 5.15). -/
def State.peekCtx (s : State) (a : Nat) : Word :=
  let w := s.window
  match a with
  | 0x800 => fieldAt w.pairCtx.val 16 ||| fieldAt w.copy.toNat 8 ||| fieldAt w.ctx.val 0
  | 0x808 => flag s.windowBusy 31 ||| fieldAt w.reason 16 ||| fieldAt w.resultCtx.val 8 ||| fieldAt w.count.toNat 0
  | 0x80C => s.ctxs[w.ctx].statusWord
  | 0x810 => flag w.spateFlag 8 ||| fieldAt w.spateLevel.toNat 0
  | 0x814 => w.seq
  | _ =>
    if 0x840 ≤ a ∧ a ≤ 0x87C then w.stage0[Fin.ofNat 16 ((a - 0x840) / 4)]
    else if 0x880 ≤ a ∧ a ≤ 0x8BC then w.stage1[Fin.ofNat 16 ((a - 0x880) / 4)]
    else 0

/-- STATE of an engine (Table 17.16). -/
def State.engineState (s : State) (e : Fin 8) : Nat :=
  let r : Fin 4 := Fin.ofNat 4 (e.val / 2)
  if s.engines[e].lostPage then 3
  else if s.engines[e].restarting then 2
  else match s.reaches[r].st with
    | .ready => 1
    | .disabled => 0
    | .bringup => 0
    | _ => 3

/-- ENGINE_En (Table 17.16, R618). -/
def State.peekEngine (s : State) (a : Nat) : Word :=
  if 0xC1C < a then 0
  else
    let e : Fin 8 := Fin.ofNat 8 ((a - 0xC00) / 4)
    let r : Fin 4 := Fin.ofNat 4 (e.val / 2)
    let g : Fin 2 := Fin.ofNat 2 (e.val % 2)
    if !s.reachExists r then 0
    else
      let n := ((s.room.seats.filter (fun x => x.place.reach == r && (x.place.engine == g || x.place.subs.any (fun q => q.2 == g)))).map
        (fun x => x.ctx)).dedup.length
      fieldAt (s.engineState e) 30 ||| fieldAt n 22 ||| fieldAt (s.engines[e].wdog.shown s.clock) 12 ||| fieldAt (s.room.used r g) 0

/-- A reach's byte of CAL_STATUS (Table 11.7). -/
def State.calByte (s0 : State) (r : Fin 4) : Nat :=
  let s := s0.calSettle r
  let u := s.upkeep[r]
  let k := match u.running with
    | some a => (match a.kind with | .recal => 1 | .absolute => 2 | .selftest => 3 | .migration => 4)
    | none => if s.migratingInto r then 4 else 0
  k * 32 + min u.queue.length 4 * 4

/-- CAL (Tables 11.5 to 11.12). CAL_QUALITY_C and CAL_QUALITY_D exist on the VTN-8120 too: no text says what they read there, and that they
read their reset value is the model's choice (log entry 64). -/
def State.peekCal (s : State) (a : Nat) : Word :=
  let c := s.cal
  match a with
  | 0x1000 => c.ctrl
  | 0x1008 => fieldAt (s.calByte 3) 24 ||| fieldAt (s.calByte 2) 16 ||| fieldAt (s.calByte 1) 8 ||| fieldAt (s.calByte 0) 0
  | 0x100C => fieldAt c.absLevel.toNat 0
  | 0x1020 =>
    fieldAt (unsigned 8 s.upkeep[(3 : Fin 4)].temp) 24 ||| fieldAt (unsigned 8 s.upkeep[(2 : Fin 4)].temp) 16 |||
      fieldAt (unsigned 8 s.upkeep[(1 : Fin 4)].temp) 8 ||| fieldAt (unsigned 8 s.upkeep[(0 : Fin 4)].temp) 0
  | 0x1024 => c.setSel
  | 0x1028 => flag c.winValid 31 ||| flag c.winHost 30 ||| fieldAt c.winCount.toNat 24 ||| fieldAt c.winTemp.toNat 16 ||| fieldAt c.winGen.toNat 0
  | _ =>
    if 0x1010 ≤ a ∧ a ≤ 0x101C then
      let u := s.upkeep[Fin.ofNat 4 ((a - 0x1010) / 4)]
      fieldAt u.spur.toNat 16 ||| fieldAt u.gainErr.toNat 0
    else if 0x1040 ≤ a ∧ a ≤ 0x107C then c.absF[Fin.ofNat 16 ((a - 0x1040) / 4)]
    else if 0x1080 ≤ a ∧ a ≤ 0x10BC then c.setF[Fin.ofNat 16 ((a - 0x1080) / 4)]
    else if 0x10C0 ≤ a ∧ a ≤ 0x10FC then c.setO[Fin.ofNat 16 ((a - 0x10C0) / 4)]
    else 0

/-- Minutes elapsed in the trim window (Table 16.12). -/
def State.trimElapsed (s : State) : Nat :=
  if s.rtc.winState = 0 then 0 else min ((s.nowNs - s.rtc.winStartNs) / 60000000000) 2047

/-- RTC (Tables 16.7 to 16.14) with the block `r`: the freeze instant's in a freeze (R577). -/
def State.peekRtc (s : State) (r : Rtc) (a : Nat) : Word :=
  match a with
  | 0x1400 => r.secondsWord
  | 0x141C => flag r.summer 16 ||| fieldAt (r.offsetNext.getD r.offset).toNat 0
  | 0x1420 =>
    flag r.timeLost 31 ||| flag r.oscStopped 30 ||| flag r.vbatLow 29 ||| flag r.staged.isSome 28 ||| flag r.calWrap.on 27 |||
      fieldAt r.winState 24 ||| fieldAt r.swCount 16 ||| fieldAt (({ s with rtc := r } : State).trimElapsed) 0
  | 0x1424 => flag r.swValid.on 31 ||| fieldAt (r.swStamp / 2 ^ 32 % 256) 0
  | 0x1428 => BitVec.ofNat 32 r.swStamp
  | 0x142C => fieldAt r.setHi.toNat 0
  | 0x1430 => r.setLo
  | 0x1438 => fieldAt r.lastErr.toNat 16 ||| fieldAt (unsigned 16 r.trim) 0
  | 0x143C => r.ctrl
  | _ => if 0x1404 ≤ a ∧ a ≤ 0x1418 then r.holding.getD ((a - 0x1404) / 4) 0 else 0

/-- STATE of the synthesiser and driver (Table 10.2). -/
def TxSt.code : TxSt → Nat
  | .off => 0
  | .calibrating => 1
  | .settling => 2
  | .locked => 3
  | .rampUp => 4
  | .onAir => 5
  | .rampDown => 6

/-- OUTFALL and RELAY (Tables 10.8 to 10.16). -/
def State.peekOutfall (s : State) (a : Nat) : Word :=
  let o := s.outfall
  match a with
  | 0x1800 => o.ctrl
  | 0x1804 => fieldAt (o.stateAt s.clock).code 29 ||| flag o.fallback.on 28 ||| flag o.limit.on 27 ||| fieldAt o.queue.length 16 ||| fieldAt o.lastLevel.toNat 8
  | 0x1808 => o.txdet
  | 0x180C => o.timing
  | 0x1810 => o.rest
  | 0x1814 => fieldAt o.toneLevel.toNat 16 ||| fieldAt o.toneDur.toNat 0
  | 0x1818 => o.toneFreq
  | 0x1A00 => o.rCtrl
  | 0x1A04 => o.rFreq
  | 0x1A08 => o.rTiming
  | 0x1A0C => o.rSrc
  | 0x1A10 => o.rTypes
  | 0x1A14 => fieldAt o.forwarded.toNat 16 ||| fieldAt o.refused.toNat 0
  | _ => 0

/-- The primary address (R552). -/
def Tw.primary (t : Tw) : BitVec 7 := 0x40#7 ||| t.pins.setWidth 7

/-- TW (Tables 15.7 to 15.11). -/
def State.peekTw (s : State) (a : Nat) : Word :=
  let t := s.tw
  match a with
  | 0x1C00 => t.ctrl
  | 0x1C04 => t.addr ||| fieldAt t.primary.toNat 0
  | 0x1C08 => t.attr
  | 0x1C10 => flag s.mailbox.alertPending 31 ||| fieldAt (t.sdaReleases.shown s.clock) 16 ||| fieldAt (t.pecErrors.shown s.clock) 8 |||
      fieldAt (t.araLost.shown s.clock) 0
  | _ => 0

/-- The session that runs is a compaction. -/
def Journal.compacting (j : Journal) : Bool := match j.running with | some ⟨.compact _, _⟩ => true | _ => false

/-- JOURNAL (Tables 13.13 to 13.18). -/
def State.peekJournal (s : State) (a : Nat) : Word :=
  let i := s.image
  let j := s.journal
  let k := s.keys
  match a with
  | 0x2000 =>
    fieldAt i.cause 24 ||| fieldAt i.checkReason 16 ||| fieldAt i.format 8 ||| flag i.discRetry 4 ||| flag i.fast 3 ||| flag i.authOk 2 |||
      flag i.refused 1 ||| flag i.accepted 0
  | 0x2004 => i.ident
  | 0x2008 => BitVec.ofNat 32 i.at_
  | 0x200C =>
    flag j.failed 31 ||| flag j.compacting 30 ||| flag j.noJournal 29 ||| flag (j.gen != 0 && j.bank == 1) 28 |||
      fieldAt (min j.queue.length 16) 16 ||| fieldAt (j.fill / 1024) 0
  | 0x2010 => j.gen
  | 0x2014 => j.seq
  | 0x2018 => j.arg
  | 0x2020 => flag j.busy 31 ||| fieldAt j.result 16 ||| fieldAt j.rTyp 8
  | 0x2024 => fieldAt j.rKey 16 ||| fieldAt j.rLen 0
  | 0x2028 => j.rSeq
  | 0x202C =>
    flag k.authInEffect 31 ||| flag k.stillInEffect 30 ||| flag k.busy.isSome 29 ||| fieldAt k.result 26 |||
      fieldAt ((List.finRange 8).foldl (fun n i => n + (if k.slotSet i then 2 ^ i.val else 0)) 0) 0
  | _ =>
    if 0x2100 ≤ a ∧ a ≤ 0x21FC then wordAt j.rd (a - 0x2100)
    else if 0x2200 ≤ a ∧ a ≤ 0x22FC then j.wd[Fin.ofNat 64 ((a - 0x2200) / 4)]
    else 0

/-- HOSTPORT (Tables 14.21 to 14.23). -/
def State.peekHost (s : State) (a : Nat) : Word :=
  let h := s.host
  match a with
  | 0x2400 => h.ctrl
  | 0x2404 =>
    flag h.link 31 ||| flag h.anDone 30 ||| flag h.session.isSome 29 ||| flag h.resolved 28 ||| fieldAt s.sessionVersion 26 |||
      fieldAt (h.sessions % 256) 16 ||| fieldAt (queueBytes s.queue / 1024) 0
  | 0x2408 => (h.macNext >>> 32).setWidth 32
  | 0x240C => h.macNext.setWidth 32
  | 0x2410 => h.ip
  | 0x2414 => h.mask
  | 0x2418 => h.gw
  | 0x241C => h.port
  | 0x2420 => (match h.session with | some q => q.peer.ip | none => 0)
  | 0x2424 => (match h.session with | some q => q.peer.port.setWidth 32 | none => 0)
  | 0x2428 => fieldAt (h.rxDiscards.shown s.clock) 16 ||| fieldAt (h.nakMisses.shown s.clock) 0
  | 0x242C => BitVec.ofNat 32 h.recordsLost
  | _ => 0

/-- Bytes of a read-out region (Table 15.4, R581); 0 none. -/
def Part.regionBytes (p : Part) (region : Nat) : Nat :=
  if region ≤ 7 then (if p.is8120 && decide (4 ≤ region) then 0 else 262144)
  else if 8 ≤ region ∧ region ≤ 11 then (if p.is8120 && decide (10 ≤ region) then 0 else 2097152)
  else if region = 12 then 6291456
  else if region = 13 then 1048576
  else if 16 ≤ region ∧ region ≤ 19 then (if p.is8120 && decide (18 ≤ region) then 0 else 32768)
  else 0

/-- Word address in its region of a STILL_WIN register, when the region reaches so far (R581). -/
def State.stillWord (s : State) (a : Nat) : Option Nat :=
  let at_ := s.still.offset.toNat * 1024 + (a - 0x3400)
  if at_ + 4 ≤ s.part.regionBytes s.still.region.toNat then some (at_ / 4) else none

/-- STILL, in a freeze only (Tables 15.12 and 15.13); the content of the regions is a free value (log entry 10). -/
def State.peekStill (s : State) (a : Nat) : Word :=
  let t := s.still
  if !t.frozen then 0
  else match a with
    | 0x3000 => flag true 31 ||| flag t.byCmd 30 ||| flag t.ue 29
    | 0x3004 => BitVec.ofNat 32 (t.time / 2 ^ 32)
    | 0x3008 => BitVec.ofNat 32 t.time
    | 0x3010 => fieldAt t.region.toNat 24 ||| fieldAt t.offset.toNat 0
    | _ =>
      if 0x3400 ≤ a ∧ a ≤ 0x37FC then
        match s.stillWord a with
        | some n => Config.sramWord t.region.toNat n t.count
        | none => 0
      else 0

/-- TEST (Table 17.17). -/
def State.peekTest (s : State) (a : Nat) : Word :=
  match a with
  | 0x3F00 => s.scratch
  | 0x3F04 => 0x5AA5C33C
  | 0x3F08 => 1
  | _ => 0

/-- What a read of a register address returns (Tables 17.1 and 17.2, R2, R11, R559). Bits 1:0 of the address are ignored. -/
def State.peek (s : State) (addr : Addr) : Word :=
  let a := addr.toNat / 4 * 4
  if a < 0x100 then s.peekIdent a
  else if a < 0x200 then s.peekReady a
  else if a < 0x400 then s.peekHealth a
  else if a < 0x800 then
    let r : Fin 4 := Fin.ofNat 4 ((a - 0x400) / 0x100)
    if s.reachExists r then s.peekReach r (a % 0x100) else 0
  else if a < 0xC00 then s.peekCtx a
  else if a < 0x1000 then s.peekEngine a
  else if a < 0x1400 then s.peekCal a
  else if a < 0x1800 then s.peekRtc (s.still.rtc.getD s.rtc) a
  else if a < 0x1C00 then s.peekOutfall a
  else if a < 0x2000 then s.peekTw a
  else if a < 0x2400 then s.peekJournal a
  else if a < 0x2800 then s.peekHost a
  else if a < 0x3000 then 0
  else if a < 0x3F00 then s.peekStill a
  else if a < 0x4000 then s.peekTest a
  else 0

/-! ### What a read does besides (R13, R560, R612) -/

/-- A read of HEALTH_STATUS captures the entry at the read pointer (R612). -/
def Mailbox.capture (m : Mailbox) : Mailbox :=
  { m with captured := match m.pending with | e :: _ => e.bytes | [] => List.replicate 32 0 }

/-- A window read in a freeze sets UE (R581). -/
def State.stillRead (s : State) (a : Nat) : State :=
  { s with still := { s.still with ue := match s.stillWord a with
    | some n => Config.sramUe s.still.region.toNat n s.still.count
    | none => false } }

/-- The RC and SNAP fields of a register that has been read whole (R13). A count gives up what the read returned, so that an increment of
the same FAB cycle stays. In a freeze a read has no effect but on UE (R580, R581). -/
def State.readEffect (s : State) (addr : Addr) : State :=
  let a := addr.toNat / 4 * 4
  if s.still.frozen then (if 0x3400 ≤ a ∧ a ≤ 0x37FC then s.stillRead a else s)
  else if a = 0x204 then { s with mailbox := s.mailbox.capture }
  else if a = 0x20C then { s with mailbox := { s.mailbox with lost := s.mailbox.lost.taken s.clock } }
  else if a = 0x80C then s.readCtxStatus.1
  else if a = 0x1400 then s.readRtcSeconds.1
  else if a = 0x1C10 then { s with tw := { s.tw with
    sdaReleases := s.tw.sdaReleases.taken s.clock, pecErrors := s.tw.pecErrors.taken s.clock, araLost := s.tw.araLost.taken s.clock } }
  else if a = 0x2428 then { s with host := { s.host with
    rxDiscards := s.host.rxDiscards.taken s.clock, nakMisses := s.host.nakMisses.taken s.clock } }
  else if 0x400 ≤ a ∧ a < 0x800 then
    let r : Fin 4 := Fin.ofNat 4 ((a - 0x400) / 0x100)
    if !s.reachExists r then s
    else if a % 0x100 = 0x20 then s.modReach r (fun x => { x with ovrWindows := x.ovrWindows.taken s.clock })
    else if a % 0x100 = 0x30 then s.modReach r (fun x => { x with
      satEvents := x.satEvents.taken s.clock, hardChanges := x.hardChanges.taken s.clock })
    else s
  else if 0xC00 ≤ a ∧ a ≤ 0xC1C then
    let e : Fin 8 := Fin.ofNat 8 ((a - 0xC00) / 4)
    if s.reachExists (Fin.ofNat 4 (e.val / 2)) then s.modEngine e (fun x => { x with wdog := x.wdog.taken s.clock }) else s
  else s

/-- Whether a register's side effect waits for its fourth byte on the bus: an RC field; a SNAP field acts at the capture (R560). -/
def readsClear (addr : Addr) : Bool :=
  let a := addr.toNat / 4 * 4
  !(a == 0x204 || a == 0x80C || a == 0x1400 || decide (0x3400 ≤ a ∧ a ≤ 0x37FC))

/-- A whole register read: its value is the last of `readData`. -/
def State.readReg (s : State) (addr : Addr) : State :=
  { s.readEffect addr with readData := s.readData ++ [s.peek addr] }

/-- A single register read as a command of its own. -/
def State.readOne (s : State) (addr : Addr) : State := ({ s with readData := [] } : State).readReg addr

/-! ### Writes -/

/-- A write in a REACH block at an offset (Tables 3.5 to 3.11, 4.12, 4.13). -/
def State.writeReach (s : State) (r : Fin 4) (off : Nat) (v : Word) : State :=
  match off with
  | 0x10 => s.writeAgc r v
  | 0x14 => s.writeFront r (fun f => { f with agcTime := v &&& 0xFFFF })
  | 0x18 => s.writeAttn r v
  | 0x20 => s.modReach r (fun x => { x with atMin := x.atMin.clear (bit v 0) s.clock })
  | 0x24 => s.writeFront r (fun f => { f with spate := v &&& 0x1FF1F })
  | 0x28 => s.writeFront r (fun f => { f with blankTail := BitVec.ofNat 8 (bits v 15 8), blankCtl := BitVec.ofNat 3 (bits v 2 0) })
  | 0x34 =>
    if r = 0 then ({ s with sync := { s.sync with pinEn := bit v 8 } } : State).when (bit v 0) State.writeSyncGo else s
  | _ => if 0x40 ≤ off ∧ off ≤ 0x5C then s.writeTrib r (Fin.ofNat 8 ((off - 0x40) / 4)) v else s

/-- NEXT (R613) and what it does to the alert line (R614). -/
def Mailbox.alertLeft (m : Mailbox) : Mailbox :=
  if m.alertSkip || m.pending.any (fun e => e.alert) then m else { m with alertPending := false, alertSev := 0 }

/-- NEXT: the read pointer passes one entry. -/
def Mailbox.next (m : Mailbox) : Mailbox :=
  match m.pending with
  | [] => m
  | _ :: t => ({ m with pending := t, rdPtr := (m.rdPtr + 1) % 1024 } : Mailbox).alertLeft

/-- FLUSH: the read pointer goes to the write pointer. -/
def Mailbox.flush (m : Mailbox) : Mailbox :=
  ({ m with pending := [], rdPtr := (m.rdPtr + m.pending.length) % 1024 } : Mailbox).alertLeft

/-- A write of HEALTH_CMD (R613, Table 17.18): of both bits FLUSH applies. -/
def Mailbox.command (m : Mailbox) (v : Word) : Mailbox := if bit v 1 then m.flush else if bit v 0 then m.next else m

/-- The alert ends by a won Alert Response Address read or a host write (R571). -/
def Mailbox.alertDone (m : Mailbox) : Mailbox := { m with alertPending := false, alertSev := 0, alertSkip := false }

/-- A written 1 on ALERT_PENDING (R571), unless a post requested the alert line in the same FAB cycle (R13). -/
def Mailbox.alertClear (m : Mailbox) (now : Nat) : Mailbox := if m.alertPending && m.alertPs == now then m else m.alertDone

/-- A written mask on the latched supply bits (R13). -/
def clearLatches (l : Vector Latch 6) (mask now : Nat) : Vector Latch 6 :=
  Vector.ofFn (fun i => l[i].clear (mask.testBit i.val) now)

/-- A write in the READY or HEALTH block. -/
def State.writeReadyHealth (s : State) (a : Nat) (v : Word) : State :=
  match a with
  | 0x108 => { s with cause := s.cause &&& ~~~(v.setWidth 3) }
  | 0x10C => s.writeDoze v
  | 0x200 => { s with mailbox := { s.mailbox with alertThreshold := v.setWidth 3 } }
  | 0x208 => { s with mailbox := s.mailbox.command v }
  | 0x210 => { s with pins := { s.pins with supplyLatched := clearLatches s.pins.supplyLatched (bits v 13 8) s.clock } }
  | _ => s

/-- A write in the CTX block (Tables 5.9, 5.10, 5.15). -/
def State.writeCtx (s : State) (via : Via) (a : Nat) (v : Word) : State :=
  match a with
  | 0x800 => { s with window := { s.window with pairCtx := Fin.ofNat 256 (bits v 23 16), copy := BitVec.ofNat 2 (bits v 9 8), ctx := Fin.ofNat 256 (bits v 7 0) } }
  | 0x804 => s.writeCtxCmd via v
  | _ =>
    if 0x840 ≤ a ∧ a ≤ 0x87C then { s with window := { s.window with stage0 := s.window.stage0.set (Fin.ofNat 16 ((a - 0x840) / 4)) v } }
    else if 0x880 ≤ a ∧ a ≤ 0x8BC then { s with window := { s.window with stage1 := s.window.stage1.set (Fin.ofNat 16 ((a - 0x880) / 4)) v } }
    else s

/-- A write in the CAL block (Tables 11.5 to 11.12); a new SELFTEST_PERIOD starts a period (log entry 35). -/
def State.writeCal (s : State) (a : Nat) (v : Word) : State :=
  let c := s.cal
  match a with
  | 0x1000 => { s with cal := { c with ctrl := v &&& 0x9FFFFFFF }
                       selftestPs := if bits c.ctrl 15 0 = bits v 15 0 then s.selftestPs else s.clock }
  | 0x1004 => s.writeCalCmd v
  | 0x100C => { s with cal := { c with absLevel := v.setWidth 16 } }
  | 0x1024 => { s with cal := { c with setSel := v &&& 0x317 } }
  | 0x1028 => { s with cal := { c with winValid := bit v 31, winCount := BitVec.ofNat 5 (bits v 28 24), winTemp := BitVec.ofNat 8 (bits v 23 16) } }
  | _ =>
    if 0x1040 ≤ a ∧ a ≤ 0x107C then { s with cal := { c with absF := c.absF.set (Fin.ofNat 16 ((a - 0x1040) / 4)) (v &&& 0x1FFFFF) } }
    else if 0x1080 ≤ a ∧ a ≤ 0x10BC then { s with cal := { c with setF := c.setF.set (Fin.ofNat 16 ((a - 0x1080) / 4)) (v &&& 0x1FFFFF) } }
    else if 0x10C0 ≤ a ∧ a ≤ 0x10FC then { s with cal := { c with setO := c.setO.set (Fin.ofNat 16 ((a - 0x10C0) / 4)) (v &&& 0xFFFF) } }
    else s

/-- A write of RTC_CIVIL_CTRL (R601, R602): one that carries both step bits is ignored. -/
def State.writeCivil (s : State) (v : Word) : State :=
  if bit v 31 && bit v 30 then s else (s.writeOffset (v.setWidth 8)).civilStep (bit v 31) (bit v 30)

/-- A write in the RTC block (Tables 16.7 to 16.14); CANCEL is taken before COMMIT (log entry 35). -/
def State.writeRtc (s : State) (a : Nat) (v : Word) : State :=
  match a with
  | 0x141C => s.writeCivil v
  | 0x1420 => { s with rtc := { s.rtc with calWrap := s.rtc.calWrap.clear (bit v 27) s.clock } }
  | 0x1424 => if bit v 31 && !(s.rtc.swValid.on && s.rtc.swValid.atPs == s.clock) then
      { s with rtc := { s.rtc with swValid := {}, swStamp := 0, swCount := 0 } } else s
  | 0x142C => { s with rtc := { s.rtc with setHi := v.setWidth 8 } }
  | 0x1430 => { s with rtc := { s.rtc with setLo := v } }
  | 0x1434 => (s.when (bit v 1) State.rtcCancel).when (bit v 0) State.rtcCommit
  | 0x1438 => s.writeTrim (v.setWidth 16)
  | 0x143C => s.writeTrimCtrl v
  | _ => s

/-- A write of OUTFALL_TONE (Table 10.13): its fields, then ABORT, then TONE (log entry 35). -/
def State.writeTone (s : State) (via : Via) (id : BitVec 32) (v : Word) : State :=
  let t := s.modOut (fun o => { o with toneLevel := BitVec.ofNat 8 (bits v 23 16), toneDur := v.setWidth 16 })
  if bit v 30 then (t.when (bit v 31 && t.outfall.ready) State.outfallAbortAll).startTone via id
  else t.when (bit v 31) State.outfallAbortAll

/-- A write in the OUTFALL or RELAY block (Tables 10.8 to 10.16). -/
def State.writeOutfall (s : State) (via : Via) (id : BitVec 32) (a : Nat) (v : Word) : State :=
  match a with
  | 0x1800 => s.modOut (fun o => { o with ctrl := v &&& 0xFCFF0FFF })
  | 0x1804 => s.modOut (fun o => { o with fallback := o.fallback.clear (bit v 28) s.clock, limit := o.limit.clear (bit v 27) s.clock })
  | 0x1808 => s.modOut (fun o => { o with txdet := v })
  | 0x180C => s.modOut (fun o => { o with timing := v &&& 0xFFFF })
  | 0x1810 => if toneCarrier v.toNat then s.modOut (fun o => { o with rest := v }) else s
  | 0x1814 => s.writeTone via id v
  | 0x1818 => s.modOut (fun o => { o with toneFreq := v })
  | 0x1A00 => s.modOut (fun o => { o with rCtrl := v &&& 0xE0FFFFFF })
  | 0x1A04 => s.modOut (fun o => { o with rFreq := v })
  | 0x1A08 => s.modOut (fun o => { o with rTiming := v &&& 0x8FFFFFFF })
  | 0x1A0C => s.modOut (fun o => { o with rSrc := v })
  | 0x1A10 => s.modOut (fun o => { o with rTypes := v })
  | _ => s

/-- TW_CMD as it takes effect (Table 15.10, R576, R582): at the STOP of the write or in the FAB cycle of a REG_WRITE. -/
def State.twCommand (s : State) (v : Word) : State :=
  let c := bits v 31 16
  match bits v 1 0 with
  | 1 => if c = 0x5253 then s.commandReset else s
  | 2 => if c = 0x5354 then (if s.freezePermitted then s.freeze true else s.writeIgnored 0x1C0C) else s
  | _ => s

/-- ACTIVE follows HOST_MAX, and returns to 1 only at a reset (R561). -/
def Tw.handshake (t : Tw) : Tw := { t with active := if 2 ≤ t.hostMax.toNat then 2 else t.active }

/-- TW_CTRL and TW_ADDR come into force (R556). -/
def Tw.settle (t : Tw) : Tw := { t with liveCtrl := t.ctrl, liveAddr := t.addr }

/-- A write in the VERSION or TW block; what waits for the end of a bus transaction is `busEnd`'s (R556, R561, Table 15.10). -/
def State.writeTw (s : State) (a : Nat) (v : Word) : State :=
  let t := s.tw
  match a with
  | 0x0044 => { s with tw := { t with hostMax := BitVec.ofNat 8 (bits v 15 8) } }
  | 0x1C00 => { s with tw := { t with ctrl := v &&& 0xC0FF3F7F } }
  | 0x1C04 => { s with tw := { t with addr := v &&& 0xFFFFFF00 } }
  | 0x1C08 => { s with tw := { t with attr := v &&& 0x7FF } }
  | 0x1C10 => if bit v 31 then { s with mailbox := s.mailbox.alertClear s.clock } else s
  | _ => s

/-- What a write to the VERSION or TW block does at the end of its transaction: `stop` when a STOP ends it. -/
def State.busEnd (s : State) (stop : Bool) (a : Nat) (v : Word) : State :=
  match a with
  | 0x0044 => if stop then { s with tw := s.tw.handshake } else s
  | 0x1C00 => { s with tw := s.tw.settle }
  | 0x1C04 => { s with tw := s.tw.settle }
  | 0x1C0C => if stop then s.twCommand v else s
  | _ => s

/-- A write in the JOURNAL block (Tables 13.15, 13.16). -/
def State.writeJournal (s : State) (a : Nat) (v : Word) : State :=
  match a with
  | 0x2018 => { s with journal := { s.journal with arg := v } }
  | 0x201C => s.writeJournalCmd v
  | _ => if 0x2200 ≤ a ∧ a ≤ 0x22FC then { s with journal := { s.journal with wd := s.journal.wd.set (Fin.ofNat 64 ((a - 0x2200) / 4)) v } } else s

/-- A write in the KEYS block (Table 13.19). -/
def State.writeKeys (s : State) (a : Nat) (v : Word) : State :=
  if a ≤ 0x280C then s.writeKeyData (Fin.ofNat 4 ((a - 0x2800) / 4)) v else if a = 0x2810 then s.writeKeysCmd v else s

/-- STILL_SEL, in a freeze only (Table 15.13). -/
def State.writeStillSel (s : State) (v : Word) : State :=
  { s with still := { s.still with region := BitVec.ofNat 5 (bits v 28 24), offset := BitVec.ofNat 13 (bits v 12 0) } }

/-- A write of a register (R8 to R14, R79): `via` and `id` tell where a tone comes from (Table 10.5). In a freeze only STILL_SEL is
written (R580). -/
def State.writeReg (s : State) (via : Via) (id : BitVec 32) (addr : Addr) (v : Word) : State :=
  let a := addr.toNat / 4 * 4
  if s.still.frozen then (if a = 0x3010 then s.writeStillSel v else s)
  else if a < 0x100 then s.writeTw a v
  else if a < 0x400 then s.writeReadyHealth a v
  else if a < 0x800 then
    let r : Fin 4 := Fin.ofNat 4 ((a - 0x400) / 0x100)
    if s.reachExists r then s.writeReach r (a % 0x100) v else s
  else if a < 0xC00 then s.writeCtx via a v
  else if a < 0x1000 then s
  else if a < 0x1400 then s.writeCal a v
  else if a < 0x1800 then s.writeRtc a v
  else if a < 0x1C00 then s.writeOutfall via id a v
  else if a < 0x2000 then s.writeTw a v
  else if a < 0x2400 then s.writeJournal a v
  else if a = 0x2400 then s.writeHostCtrl v
  else if a < 0x2800 then s.writeHostAddress addr v
  else if a < 0x3000 then s.writeKeys a v
  else if a = 0x3F00 then { s with scratch := v }
  else s

/-- A block that QRP may not access (R540). -/
def qrpRefused (addr : Addr) : Bool :=
  let a := addr.toNat
  decide ((0x2800 ≤ a ∧ a < 0x3000) ∨ (0x3000 ≤ a ∧ a < 0x3F00))

/-- A write whole: with the STOP of its transaction, or the FAB cycle of its REG_WRITE. -/
def State.writeWhole (s : State) (via : Via) (id : BitVec 32) (addr : Addr) (v : Word) : State :=
  (s.writeReg via id addr v).busEnd (!s.still.frozen) (addr.toNat / 4 * 4) v

/-- A transport that reaches the registers: the two-wire bus also in a freeze, QRP outside the KEYS and STILL blocks (R540, R580). -/
def State.canWrite (s : State) (via : Via) (addr : Addr) : Bool :=
  match via with
  | .twoWire => s.awake || (s.phase == .locked && s.still.frozen)
  | .qrp => s.hostUp && !qrpRefused addr

/-- REGISTER_WRITE (R8). -/
def execRegisterWrite (dt : Nat) (via : Via) (addr : Addr) (value : Word) (s : State) : Host.Outcome State Fault Refusal :=
  s.occurs dt (fun t => t.canWrite via addr) (fun t => t.writeWhole via 0 addr value)

/-! ### Single reads with rows of their own -/

/-- REACH_OVR_READ (R13). -/
def execReachOvrRead (dt : Nat) (r : Fin 4) (s : State) : Host.Outcome State Fault Refusal :=
  s.occurs dt State.awake (fun t => t.readOne (reachAddr r 0x20))

/-- REACH_CHAIN_READ (R13). -/
def execReachChainRead (dt : Nat) (r : Fin 4) (s : State) : Host.Outcome State Fault Refusal :=
  s.occurs dt State.awake (fun t => t.readOne (reachAddr r 0x30))

/-- ENGINE_READ (R13, R618). -/
def execEngineRead (dt : Nat) (e : Fin 8) (s : State) : Host.Outcome State Fault Refusal :=
  s.occurs dt State.awake (fun t => t.readOne (BitVec.ofNat 16 (0xC00 + 4 * e.val)))

/-- HOSTPORT_COUNTS_READ (R13). -/
def execHostportCountsRead (dt : Nat) (s : State) : Host.Outcome State Fault Refusal :=
  s.occurs dt State.awake (fun t => t.readOne 0x2428)

/-- TW_STATUS_READ (R560). -/
def execTwStatusRead (dt : Nat) (s : State) : Host.Outcome State Fault Refusal :=
  s.occurs dt State.awake (fun t => t.readOne 0x1C10)

/-- HEALTH_LOST_READ (R13). -/
def execHealthLostRead (dt : Nat) (s : State) : Host.Outcome State Fault Refusal :=
  s.occurs dt State.awake (fun t => t.readOne 0x20C)

/-- HEALTH_STATUS_READ (R612). -/
def execHealthStatusRead (dt : Nat) (s : State) : Host.Outcome State Fault Refusal :=
  s.occurs dt State.awake (fun t => t.readOne 0x204)

/-- HEALTH_NEXT (R613, R614). -/
def execHealthNext (dt : Nat) (s : State) : Host.Outcome State Fault Refusal :=
  s.occurs dt State.awake (fun t => { t with mailbox := t.mailbox.next })

/-- HEALTH_FLUSH (R613, R614). -/
def execHealthFlush (dt : Nat) (s : State) : Host.Outcome State Fault Refusal :=
  s.occurs dt State.awake (fun t => { t with mailbox := t.mailbox.flush })

/-- The health record of an entry (R467): Table 1.9 without STAMP. -/
def State.healthRecord (s : State) (e : MboxEntry) : State :=
  s.emit 0x40 e.ctx (if h : e.reach < 4 then some ⟨e.reach, h⟩ else none) e.stamp (e.bytes.drop 8)

/-- MAILBOX_CONSUME (R35): record assembly takes the oldest entry that it has not consumed. -/
def execMailboxConsume (dt : Nat) (s : State) : Host.Outcome State Fault Refusal :=
  s.occurs dt State.awake (fun t => match t.mailbox.toConsume with
    | e :: l => ({ t with mailbox := { t.mailbox with toConsume := l } } : State).healthRecord e
    | [] => t)

/-- VERSION_HANDSHAKE (R561): HOST_MAX written over the bus, at its STOP. -/
def execVersionHandshake (dt : Nat) (hostMax : BitVec 8) (s : State) : Host.Outcome State Fault Refusal :=
  s.occurs dt State.awake (fun t => t.writeWhole .twoWire 0 0x44 (fieldAt hostMax.toNat 8))

/-- TW_CMD_RESET (R582, Table 15.10): it does not end a freeze. -/
def execTwCmdReset (dt : Nat) (confirm : BitVec 16) (s : State) : Host.Outcome State Fault Refusal :=
  s.occurs dt State.awake (fun t => t.twCommand (fieldAt confirm.toNat 16 ||| 1))

/-- TW_CMD_FREEZE (R576). -/
def execTwCmdFreeze (dt : Nat) (confirm : BitVec 16) (s : State) : Host.Outcome State Fault Refusal :=
  s.occurs dt State.awake (fun t => t.twCommand (fieldAt confirm.toNat 16 ||| 2))

/-- STILL_SEL_WRITE (R580). -/
def execStillSelWrite (dt : Nat) (value : Word) (s : State) : Host.Outcome State Fault Refusal :=
  s.occurs dt (fun t => t.still.frozen) (fun t => t.writeStillSel value)

end Sys2Proof.Machine
end

