-- ==== Sys2Proof/Machine/Image.lean ====
section
/-! DEFINITION. The configuration image (R469 to R483): its layout in flash, the checks of Table 13.5, acceptance and refusal. -/

namespace Sys2Proof.Machine

/-! ### Layout (Tables 13.2 to 13.4) -/

/-- A TLV of the body: flash address of its head, TYPE, value. -/
structure Tlv where
  at_ : Nat
  typ : Nat
  value : List Byte
  deriving DecidableEq, Repr

/-- The TLVs of a body from an address (R473), and the head of one that overruns it. -/
def tlvsOf : Nat → Nat → List Byte → List Tlv × Option Nat
  | 0, _, _ => ([], none)
  | n + 1, pos, l =>
    if l.isEmpty then ([], none)
    else
      let len := natAt l 4 4
      let size := 8 + (len + 3) / 4 * 4
      if l.length < size then ([], some pos)
      else
        let (t, e) := tlvsOf n (pos + size) (l.drop size)
        (⟨pos, natAt l 0 2, slice l 8 len⟩ :: t, e)

/-- The header fields (Table 13.2). -/
structure Header where
  format : Nat
  fastEn : Bool
  tagged : Bool
  length : Nat
  target : Nat
  base : Nat
  ident : Nat
  deriving DecidableEq, Repr

def headerOf (h : List Byte) : Header :=
  { format := natAt h 4 2, fastEn := natAt h 6 2 % 2 == 1, tagged := natAt h 6 2 / 2 % 2 == 1, length := natAt h 8 4, target := natAt h 12 4
    base := natAt h 16 2, ident := natAt h 20 4 }

/-- Bytes of the image with its CRC and tag (R472). -/
def Header.total (h : Header) : Nat := h.length + 4 + (if h.tagged then 16 else 0)

/-! ### TLV checks (cause 0x09) -/

/-- First byte of a value. -/
def Tlv.first (t : Tlv) : Nat := natAt t.value 0 1

/-- What may occur once only: the reach, context or module that the TLV names; 0 for a type that occurs at most once (Table 13.3). -/
def Tlv.onceKey (format : Nat) (t : Tlv) : Option Nat :=
  match t.typ with
  | 0x8001 => some (if format = 1 then 0 else t.first)
  | 0x8002 => some t.first
  | 0x8003 => some t.first
  | 0x8004 => some t.first
  | 0x8005 => none
  | 0x000C => none
  | _ => some 0

/-- The catchment ranges of a REACH TLV. -/
def Tlv.ranges (t : Tlv) : List (Nat × Nat) :=
  (List.range (natAt t.value 2 1)).map (fun i => (natAt t.value (4 + 8 * i) 4, natAt t.value (8 + 8 * i) 4))

/-- The members of a FOLLOW_SET TLV as 32-byte runs. -/
def Tlv.memberBytes (t : Tlv) : List (List Byte) := (List.range (natAt t.value 1 1)).map (fun i => slice t.value (4 + 32 * i) 32)

/-- A follow-set member keeps to Table 13.4. -/
def memberOk (b : List Byte) : Bool :=
  decide (natAt b 0 1 ≤ 5 ∧ natAt b 1 1 ≤ 1 ∧ natAt b 2 1 < 64) && (natAt b 1 1 == 0 || natAt b 0 1 == 4)

def memberOf (b : List Byte) : Member :=
  { std := BitVec.ofNat 4 (natAt b 0 1), chan := natAt b 1 1 == 1, response := BitVec.ofNat 6 (natAt b 2 1)
    preset := BitVec.ofNat 2 (natAt b 3 1), ownParam := natAt b 3 1 / 128 == 1, centre := natAt b 4 4, ident := natAt b 8 4
    params := [wordAt b 12, wordAt b 16, wordAt b 20, wordAt b 24] }

/-- The windows of a DOZE_SCHEDULE TLV. -/
def Tlv.windows (t : Tlv) : List (Nat × Nat) :=
  (List.range t.first).map (fun i => (natAt t.value (4 + 4 * i) 2, natAt t.value (6 + 4 * i) 2))

/-- The value keeps to Tables 13.3, 13.4 and 13.6 (lengths and ranges: log entry 36). -/
def Tlv.valueOk (p : Part) (format : Nat) (t : Tlv) : Bool :=
  let n := t.value.length
  match t.typ with
  | 0x8001 =>
    (format == 1 || decide (t.first < (if p.is8120 then 2 else 4))) && decide (1 ≤ natAt t.value 2 1 ∧ natAt t.value 2 1 ≤ 8) &&
      n == 4 + 8 * natAt t.value 2 1 && t.ranges.all (fun r => decide (150 ≤ r.1 ∧ r.1 < r.2 ∧ r.2 ≤ 1560000))
  | 0x8002 => n == 68 && (format != 1 || decide (t.first ≤ 63))
  | 0x8003 => decide (1 ≤ natAt t.value 1 1 ∧ natAt t.value 1 1 ≤ 8) && n == 4 + 32 * natAt t.value 1 1 && t.memberBytes.all memberOk
  | 0x8004 => decide (4 ≤ n ∧ 1 ≤ t.first ∧ t.first ≤ 6)
  | 0x8005 => n % 8 == 0
  | 0x8006 => n == 4
  | 0x8007 => decide (t.first ≤ 8) && n == 4 + 4 * t.first && t.windows.all (fun w => decide (w.1 ≤ 1439 ∧ 1 ≤ w.2 ∧ w.2 ≤ 1440))
  | 0x8008 => n == 32
  | 0x8009 => n == 16
  | 0x800A => n == 16
  | 0x800B => decide (1 ≤ n)
  | 0x000C => true
  | _ => true

/-- A type of Table 13.3. -/
def knownTlv (typ : Nat) : Bool := decide (0x8001 ≤ typ ∧ typ ≤ 0x800B) || typ == 0x000C

/-- The TLV, after those before it, breaks a rule: unknown and critical, out of its table, or once too often. -/
def Tlv.breaks (p : Part) (format : Nat) (before : List Tlv) (t : Tlv) : Bool :=
  if !knownTlv t.typ then decide (0x8000 ≤ t.typ)
  else
    !t.valueOk p format ||
      (match t.onceKey format with
        | some k => before.any (fun e => e.typ == t.typ && e.onceKey format == some k)
        | none => false) ||
      (t.typ == 0x8003 && decide (64 ≤ (before.filter (fun e => e.typ == 0x8003)).length))

/-- Head of the first offending TLV. -/
def firstBroken (p : Part) (format : Nat) : List Tlv → List Tlv → Option Nat
  | _, [] => none
  | before, t :: l => if t.breaks p format before then some t.at_ else firstBroken p format (before ++ [t]) l

/-! ### REGISTER pairs (cause 0x0A) -/

/-- The pairs of the image in order: flash address, register address, value. -/
def pairsOf (l : List Tlv) : List (Nat × Nat × Word) :=
  (l.filter (fun t => t.typ == 0x8005)).flatMap (fun t =>
    (List.range (t.value.length / 8)).map (fun i => (t.at_ + 8 + 8 * i, natAt t.value (8 * i) 2, wordAt t.value (8 * i + 4))))

/-- A register with a field that the image may set (R126, R177, R397, R431, R550, R615, Table 2.10): its fields that the image may not. -/
def imageField (p : Part) (format a : Nat) : Option Word :=
  if 0x400 ≤ a ∧ a < 0x800 then
    let r := (a - 0x400) / 0x100
    if (format = 1 ∧ r ≠ 0) ∨ (p.is8120 = true ∧ 2 ≤ r) then none
    else match a % 0x100 with
      | 0x10 => some 0
      | 0x14 => some 0
      | 0x18 => some 0x00FF0000
      | 0x24 => some 0
      | 0x28 => some 0xFFFF0000
      | 0x34 => if r = 0 then some 0xFFFF0001 else none
      | off => if 0x40 ≤ off ∧ off ≤ 0x5C ∧ off % 4 = 0 then some 0 else none
  else match a with
    | 0x010C => some 3
    | 0x0200 => some 0
    | 0x1000 => some 0
    | 0x1800 => some 0
    | 0x1808 => some 0
    | 0x180C => some 0
    | 0x1810 => some 0
    | 0x1814 => some 0xC0000000
    | 0x1818 => some 0
    | 0x1A00 => some 0
    | 0x1A04 => some 0
    | 0x1A08 => some 0
    | 0x1A0C => some 0
    | 0x1A10 => some 0
    | 0x2400 => some 0
    | _ => if 0x2408 ≤ a ∧ a ≤ 0x241C ∧ a % 4 = 0 then some 0 else none

/-- A pair keeps to R474. -/
def pairOk (p : Part) (format : Nat) (q : Nat × Nat × Word) : Bool :=
  match imageField p format q.2.1 with
  | some m => q.2.2 &&& m == 0
  | none => false

/-! ### Contexts and modules (causes 0x0B, 0x0C) -/

/-- The entries of the image in order: head address, context, entry as the part takes it (Table 13.6 for format 1). -/
def entriesOf (format : Nat) (l : List Tlv) : List (Nat × Fin 256 × Entry) :=
  (l.filter (fun t => t.typ == 0x8002)).map (fun t =>
    let c := Fin.ofNat 256 t.first
    let e : Entry := Vector.ofFn (fun i => wordAt t.value (4 + 4 * i.val))
    let f : Entry := if format = 1 then (e.set 3 (setBits e[3] 31 30 0)).set 7 (setBits e[7] 31 30 0) else e
    (t.at_, c, f.stored c))

/-- The modules: head address, ID, version, bytes of code. -/
def modulesOf (l : List Tlv) : List (Nat × Nat × Nat × Nat) :=
  (l.filter (fun t => t.typ == 0x8004)).map (fun t => (t.at_, t.first, natAt t.value 2 2, t.value.length - 4))

/-- Bytes of the program store (chapter 05). -/
def storeBytes : Nat := 1048576

/-- Head of the first MODULE TLV that the store cannot hold. -/
def storeOverflow : List (Nat × Nat × Nat × Nat) → Nat → Option Nat
  | [], _ => none
  | m :: l, used => if storeBytes < used + m.2.2.2 then some m.1 else storeOverflow l (used + m.2.2.2)

/-- Check 11 (R198): where it fails. -/
def moduleFault (format : Nat) (l : List Tlv) : Option Nat :=
  let m := modulesOf l
  match storeOverflow m 0 with
  | some a => some a
  | none => ((entriesOf format l).find? (fun q => !modulesServe (m.map (fun x => (x.2.1, x.2.2.2))) q.2.2)).map (fun q => q.1)

/-! ### What the image sets (R481) -/

/-- REGISTER pairs as writes, in order (R474). -/
def State.applyPairs (s : State) (l : List Tlv) : State :=
  s.forEach (pairsOf l) (fun q t => t.writeWhole .twoWire 0 (BitVec.ofNat 16 q.2.1) q.2.2)

/-- The value of a TLV that occurs at most once. -/
def tlvValue (l : List Tlv) (typ : Nat) : Option (List Byte) := (l.find? (fun t => t.typ == typ)).map (fun t => t.value)

/-- The HOSTPORT TLV (Table 14.20, R506). -/
def State.applyHost (s : State) (b : List Byte) : State :=
  let f := natAt b 0 1
  let mac := natAt b 4 6
  let m : BitVec 48 := if mac = 0 then s.part.macAddress else BitVec.ofNat 48 mac
  let t := s.writeHostCtrl (fieldAt (f % 4) 30 ||| fieldAt (f / 4 % 2) 29 ||| fieldAt (f / 8 % 2) 28 ||| fieldAt (f / 16 % 2) 27 |||
    fieldAt (natAt b 1 1) 16 ||| fieldAt (natAt b 2 2) 0)
  (((({ t with host := { t.host with macNext := m } } : State).writeHostAddress 0x2410 (wordAt b 12)).writeHostAddress 0x2414
    (wordAt b 16)).writeHostAddress 0x2418 (wordAt b 20)).writeHostAddress 0x241C (fieldAt (natAt b 24 2) 16 ||| fieldAt (natAt b 10 2) 0)

/-- The TWO_WIRE TLV (R584). -/
def State.applyBus (s : State) (b : List Byte) : State :=
  let t := ((s.writeReg .twoWire 0 0x1C00 (wordAt b 0)).writeReg .twoWire 0 0x1C04 (wordAt b 4)).writeReg .twoWire 0 0x1C08 (wordAt b 8)
  { t with tw := t.tw.settle }

/-- The RTC TLV (R608). -/
def State.applyRtc (s : State) (b : List Byte) : State :=
  let t := s.writeTrimCtrl (wordAt b 0)
  let off := signed 8 (natAt b 4 1)
  if !t.rtc.timeLost then t
  else { t with rtc := { t.rtc with summer := natAt b 5 1 % 2 == 1, trim := signed 16 (natAt b 8 2)
                                    offset := if -56 ≤ off ∧ off ≤ 56 then BitVec.ofNat 8 (natAt b 4 1) else t.rtc.offset } }

/-- REFERENCE (R67) with DOZE_SCHEDULE (R88), STILL (R575) and the follow sets (R328). -/
def Image.applyValues (i : Image) (l : List Tlv) : Image :=
  let ref := (tlvValue l 0x8006).getD [3]
  let wait := natAt ref 1 1
  { i with
    ref1 := natAt ref 0 1 % 2 == 1, ref2 := natAt ref 0 1 / 2 % 2 == 1, revertive := natAt ref 0 1 / 4 % 2 == 1
    restoreS := if wait = 0 then 10 else wait
    windows := (l.filter (fun t => t.typ == 0x8007)).flatMap Tlv.windows
    stillOk := natAt ((tlvValue l 0x800B).getD [0]) 0 1 % 2 == 1
    modules := (modulesOf l).map (fun m => (m.2.1, m.2.2.2)), versions := (modulesOf l).map (fun m => (m.2.1, m.2.2.1))
    followSets := (l.filter (fun t => t.typ == 0x8003)).map (fun t => (Fin.ofNat 256 t.first, t.memberBytes.map memberOf)) }

/-- Catchments (R616) and which reaches are enabled (R475): one enabled goes on with its bring-up, with the deadline of R76. -/
def State.applyReach (s : State) (format : Nat) (l : List Tlv) (r : Fin 4) : State :=
  let t := l.find? (fun t => t.typ == 0x8001 && t.onceKey format == some r.val)
  let on := match t with | some x => natAt x.value 1 1 % 2 == 1 | none => false
  s.modReach r (fun x =>
    let y := { x with catch_ := match t with | some q => q.ranges | none => [] }
    if on then { y with st := .bringup, deadlinePs := some (max (s.releasedPs + 220 * msPs) (s.clock + 193 * msPs)) }
    else { y with st := .disabled, pll := false, adc := false, pass := false, deadlinePs := none, blank := .none, step := none, deferred := none })

/-- The configuration of an image in place, without its context entries: format 1 sets TX_VERSION 1 unless a pair sets it, and
SCHEDULE_EN is set by a schedule with a window unless a pair sets it (Table 2.10, Table 13.6; log entry 36). -/
def State.applyConfig (s : State) (format : Nat) (l : List Tlv) : State :=
  let a : State := { s with image := s.image.applyValues l }
  let b := a.when (format == 1) (fun t => t.modOut (fun o => { o with ctrl := setBits o.ctrl 28 26 1 }))
  let c : State := { b with doze := { b.doze with scheduleEn := b.doze.scheduleEn || !b.image.windows.isEmpty } }
  let d := c.applyPairs l
  let e := d.withSome (tlvValue l 0x8008) (fun v t => t.applyHost v)
  let f := e.withSome (tlvValue l 0x8009) (fun v t => t.applyBus v)
  let g := f.withSome (tlvValue l 0x800A) (fun v t => t.applyRtc v)
  (allReaches.filter g.reachExists).foldl (fun t r => t.applyReach format l r) g

/-- The entries of an image held (R211), those that are idle entered as commits at once. -/
def State.applyEntries (s : State) (l : List (Nat × Fin 256 × Entry)) : State :=
  let t := s.forEach (l.filter (fun q => !q.2.2.idle)) (fun q t => t.modCtx q.2.1 (fun x => { x with held := some q.2.2 }))
  t.forEach (l.filter (fun q => q.2.2.idle)) (fun q u => (u.commit .image q.2.1 q.2.2).1)

/-! ### The checks of Table 13.5 -/

/-- Check 12 over the entries in order, with the configuration of the image in place (R482): head address and reason of the first
that fails. -/
def State.entryFault (s : State) (view : Fin 256 → Entry) : List (Nat × Fin 256 × Entry) → Room → List (Fin 256 × Entry) → Option (Nat × Nat)
  | [], _, _ => none
  | (a, c, e) :: l, m, live =>
    match s.check { view := view, readiness := false } m live c e with
    | .refused n => some (a, n)
    | .given p =>
      if e.idle then s.entryFault view l m live
      else s.entryFault view l (m.add c e p) (live ++ [(c, e)])

/-- TARGET names a device that this part does not cover, or one of no listed device (log entry 36). -/
def targetRefused (p : Part) (h : Header) : Bool :=
  !((h.target == 0x56548140 && !p.is8120) || h.target == 0x56548120 || (h.target == 0x56546020 && h.format == 1))

/-- The first check of Table 13.5 that fails: CAUSE, CHECK_REASON, and the address recorded. `m` is the flash from address 0. -/
def State.imageFault (s : State) (h : Header) (m : Nat → Nat → List Byte) : Option (Nat × Nat × Nat) :=
  let p := s.part
  if natAt (m 0 4) 0 4 ≠ 0x56544346 then some (0x01, 0, 0)
  else if natAt (m 60 4) 0 4 ≠ (crc32 (m 0 60)).toNat then some (0x02, 0, 60)
  else if h.format ≠ 1 ∧ h.format ≠ 2 then some (0x03, 0, 4)
  else if targetRefused p h then some (0x04, 0, 12)
  else if 16777216 < h.total ∨ (h.base ≠ 0 ∧ h.base * 65536 < h.total) then some (0x05, 0, 8)
  else
    let all := m 0 h.length
    if natAt (m h.length 4) 0 4 ≠ (crc32 all).toNat then some (0x06, 0, h.length)
    else if !h.tagged && s.keys.authInEffect then some (0x07, 0, h.length + 4)
    else if h.tagged && (match s.keys.slots[(0 : Fin 8)] with | some k => m (h.length + 4) 16 != cmac k all | none => true) then
      some (0x08, 0, h.length + 4)
    else
      let ⟨l, ovr⟩ := tlvsOf (h.length / 8 + 1) 64 (all.drop 64)
      match firstBroken p h.format [] l, ovr with
      | some a, _ => some (0x09, 0, a)
      | none, some a => some (0x09, 0, a)
      | none, none =>
        match (pairsOf l).find? (fun q => !pairOk p h.format q) with
        | some q => some (0x0A, 0, q.1)
        | none => match moduleFault h.format l with
          | some a => some (0x0C, 0, a)
          | none =>
            let es := entriesOf h.format l
            let view := fun (c : Fin 256) => match es.find? (fun q => q.2.1 == c) with | some q => q.2.2 | none => Entry.zero
            ((s.applyConfig h.format l).entryFault view es { seats := [], taken := [] } []).map (fun q => (0x0B, q.2, q.1))

/-! ### Acceptance and refusal -/

/-- The image as the JOURNAL block shows it (Table 13.13); the header's fields are shown when the header holds, and fast mode is in
use once the checks of the header have passed (R477). -/
def Image.read (h : Header) (cause : Nat) (retry auth : Bool) : Image :=
  { format := if cause = 1 ∨ cause = 2 then 0 else h.format % 16, ident := if cause = 1 ∨ cause = 2 then 0 else BitVec.ofNat 32 h.ident
    discRetry := retry, fast := h.fastEn && !retry && (cause == 0 || decide (6 ≤ cause)), authOk := auth
    bytes := if cause = 0 then h.total else 0 }

/-- Refusal (R78, R482): the part enters management-only mode; a header that holds still gives the journal's base (log entry 36). -/
def State.refuseImage (s : State) (h : Header) (f : Nat × Nat × Nat) (retry : Bool) : State :=
  let auth := h.tagged && (f.1 == 0x09 || f.1 == 0x0A || f.1 == 0x0B || f.1 == 0x0C)
  let t : State := { s with
    image := { Image.read h f.1 retry auth with refused := true, cause := f.1, checkReason := f.2.1, at_ := f.2.2 }
    mgmtOnly := true
    journal := { s.journal with base := if f.1 = 1 ∨ f.1 = 2 then 0 else h.base }
    reaches := s.reaches.map (fun x => { x with st := .stopped, pll := false, adc := false, pass := false, deadlinePs := none })
    outfall := s.outfall.sleep
    host := { s.host with session := none, ackDue := false } }
  t.linkDown.post 8 0xFF 0xFFFF 0x90 3 (bytesOf 1 f.1 ++ bytesOf 1 f.2.1 ++ [0, 0] ++ bytesOf 4 f.2.2)

/-- Acceptance (R481), in one FAB cycle; the Outfall's bring-up begins, and the schedule may request doze (R91). -/
def State.acceptImage (s : State) (h : Header) (l : List Tlv) (retry : Bool) : State :=
  let a : State := { s with image := { Image.read h 0 retry h.tagged with accepted := true }, journal := { s.journal with base := h.base } }
  (((a.applyConfig h.format l).applyEntries (entriesOf h.format l)).startOutfall).enterWindow

/-- The load ends. A CRC that fails in fast mode has the loader read again in discovery mode (R478): `fastReadOk` tells whether the
fast reads brought the flash's own bytes. -/
def State.loadImage (s : State) (fastReadOk : Bool) : State :=
  let m := fun (a n : Nat) => Memory.readMany s.flash a n
  let h := headerOf (m 0 64)
  let fault := s.imageFault h m
  let cause := match fault with | some f => f.1 | none => 0
  let reached := cause = 0 || 6 ≤ cause
  let retry := reached && h.fastEn && (!fastReadOk || cause == 6)
  let t := s.when retry (fun u => u.post 8 0xFF 0xFFFF 0x91 2 [])
  match fault with
  | some f => t.refuseImage h f retry
  | none => t.acceptImage h (tlvsOf (h.length / 8 + 1) 64 ((m 0 h.length).drop 64)).1 retry

/-- IMAGE_LOAD_COMPLETE (R479). -/
def execImageLoadComplete (dt : Nat) (fastReadOk : Bool) (s : State) : Host.Outcome State Fault Refusal :=
  s.occurs dt (fun t => t.awake && !t.image.accepted && !t.image.refused) (fun t => t.loadImage fastReadOk)

end Sys2Proof.Machine
end

