-- ==== Sys2Proof/Machine/Commands.lean ====
section
/-! DEFINITION. The QRP commands but for TRANSMIT and CAL (R535 to R548, Tables 14.13 to 14.18). -/

namespace Sys2Proof.Machine

/-- COMPLETED for an immediate command (R536). -/
def State.complete (s : State) (id : BitVec 32) (op : Nat) (result : List Byte) : State := s.respond id op stCompleted 0 result

/-- The part runs on: neither reset nor frozen since the command began (R577, Table 15.5). -/
def State.runsOn (s : State) : Bool := s.phase == .locked && !s.still.frozen

/-! ### Registers (R540) -/

/-- The reason for which a count of registers or pairs is refused (Tables 14.6 and 14.17); 0 none. -/
def State.countRefusal (s : State) (n : Nat) : Nat :=
  if n = 0 ∨ 64 < n then 0x82 else if s.sessionVersion = 1 ∧ 1 < n then 0x85 else 0

/-- Addresses of a REG_READ: COUNT registers from ADDR upward. -/
def addrsFrom (a : Addr) (n : Nat) : List Addr := (List.range n).map (fun i => a + BitVec.ofNat 16 (4 * i))

/-- The values of a REG_READ. -/
def State.readAll (s : State) (l : List Addr) : State := l.foldl (fun t a => t.readReg a) { s with readData := [] }

/-- REG_READ once it is taken. -/
def State.qrpRead (s : State) (id : BitVec 32) (a : Addr) (n : Nat) : State :=
  let l := addrsFrom a n
  if s.countRefusal n ≠ 0 then s.refuse id 1 (s.countRefusal n)
  else if l.any qrpRefused then s.refuse id 1 0x84
  else
    let t := s.readAll l
    t.complete id 1 (t.readData.flatMap (fun w => bytesOf 4 w.toNat))

/-- REG_READ (R540). -/
def execRegRead (dt : Nat) (src : Peer) (id : BitVec 32) (addr : Addr) (count : BitVec 16) (s : State) : Host.Outcome State Fault Refusal :=
  s.occurs dt (fun _ => true) (fun t => t.command src id 1 false 1 (fun u => u.qrpRead id addr count.toNat))

/-- The pairs of a REG_WRITE in order, until one of them resets or freezes the part. -/
def State.writeAll (s : State) (id : BitVec 32) : List (Addr × Word) → State
  | [] => s
  | p :: l => if s.runsOn then (s.writeWhole .qrp id p.1 p.2).writeAll id l else s

/-- REG_WRITE once it is taken; a part that it has reset or frozen answers nothing (R544, Table 15.5). -/
def State.qrpWrite (s : State) (id : BitVec 32) (l : List (Addr × Word)) : State :=
  if s.countRefusal l.length ≠ 0 then s.refuse id 2 (s.countRefusal l.length)
  else if l.any (fun p => qrpRefused p.1) then s.refuse id 2 0x84
  else
    let t := s.writeAll id l
    if t.runsOn then t.complete id 2 [] else t

/-- REG_WRITE (R540). -/
def execRegWrite (dt : Nat) (src : Peer) (id : BitVec 32) (pairs : List (Addr × Word)) (s : State) : Host.Outcome State Fault Refusal :=
  s.occurs dt (fun _ => true) (fun t => t.command src id 2 false 1 (fun u => u.qrpWrite id pairs))

/-! ### Contexts (R205, R541) -/

/-- The 64 bytes of an entry. -/
def Entry.bytes (e : Entry) : List Byte := e.toList.flatMap (fun w => bytesOf 4 w.toNat)

/-- CTX_READ (R205, Table 14.14). -/
def execCtxRead (dt : Nat) (src : Peer) (id : BitVec 32) (c : Fin 256) (copy : BitVec 8) (s : State) : Host.Outcome State Fault Refusal :=
  s.occurs dt (fun _ => true) (fun t => t.command src id 0x10 false 1 (fun u =>
    if 1 < copy.toNat then u.refuse id 0x10 0x82 else u.complete id 0x10 (u.ctxs[c].copyOf c copy.toNat).bytes))

/-- RESULT of the ACCEPTED response, as the worked example of chapter 14 shows it. -/
def State.acceptResult (s : State) (c : Fin 256) : List Byte := match s.ctxs[c].pending with | some p => p.result c | none => []

/-- CTX_COMMIT once it is taken (R541). -/
def State.qrpCommit (s : State) (id : BitVec 32) (c p : Fin 256) (pair : Bool) (e1 e2 : Entry) : State :=
  let r := if pair then s.commitPair (.qrp id) c p e1 e2 else s.commit (.qrp id) c e1
  if r.2 = 0 then r.1.accept id 0x11 (r.1.acceptResult c) else r.1.refuse id 0x11 r.2

/-- CTX_COMMIT (R541). -/
def execCtxCommit (dt : Nat) (src : Peer) (id : BitVec 32) (c p : Fin 256) (pair : Bool) (e1 e2 : Vector Word 16) (s : State) :
    Host.Outcome State Fault Refusal :=
  s.occurs dt (fun _ => true) (fun t => t.command src id 0x11 true 1 (fun u => u.qrpCommit id c p pair e1 e2))

/-! ### Requests to the part -/

/-- SYNC_RESET once it is taken (R80, R160): refused while no reach is ready. -/
def State.qrpSync (s : State) (id : BitVec 32) : State :=
  if allReaches.any s.reachUp then (s.syncLater 2).complete id 0x40 [] else s.refuse id 0x40 0x83

/-- SYNC_RESET (R160). -/
def execSyncReset (dt : Nat) (src : Peer) (id : BitVec 32) (s : State) : Host.Outcome State Fault Refusal :=
  s.occurs dt (fun _ => true) (fun t => t.command src id 0x40 false 1 (fun u => u.qrpSync id))

/-- DOZE (R89): it completes when entry is requested. -/
def execDoze (dt : Nat) (src : Peer) (id : BitVec 32) (s : State) : Host.Outcome State Fault Refusal :=
  s.occurs dt (fun _ => true) (fun t => t.command src id 0x41 false 1 (fun u => u.requestDoze.complete id 0x41 []))

/-! ### ABORT and STATUS (R544 to R546) -/

/-- A command of the session by its identifier: one of the last 64, or an unended one. -/
def State.cmdOf (s : State) (id : BitVec 32) : Option Cmd :=
  match s.host.cmds.find? (fun c => c.id == id) with
  | some c => some c
  | none => s.host.open_.find? (fun c => c.id == id && c.session == s.host.sessions)

/-- A lifecycle command that has not ended. -/
def State.unended (s : State) (c : Cmd) : Bool := s.host.open_.any (fun q => q.id == c.id && q.session == c.session)

/-- The transmission of a command. -/
def Tx.ofCmd (x : Tx) (id : BitVec 32) : Bool := match x.source with | .qrp i => i == id && !x.tone | _ => false

/-- A pending entry that a command made and whose first swap has not come (R541). -/
def State.pendingOf (s : State) (id : BitVec 32) : Option (Fin 256) :=
  allCtxs.find? (fun c => match s.ctxs[c].pending with | some p => p.origin == .qrp id && !p.firstSwapped && !s.pairLocked c | none => false)

/-- The test of the activities that a command asked for (R543). -/
def Activity.ofCmd (a : Activity) (id : BitVec 32) : Bool := a.cmds.contains id

/-- An abort of the command comes before its decisive instant (R544). -/
def State.abortable (s : State) (c : Cmd) : Bool :=
  match c.op with
  | 0x11 => (s.pendingOf c.id).isSome
  | 0x20 => s.outfall.queue.any (fun x => x.ofCmd c.id) || (match s.outfall.air with | some a => a.tx.ofCmd c.id && !(a.started && a.ending s.clock) | none => false)
  | 0x30 => allReaches.any (fun r =>
      (match s.upkeep[r].running with | some a => a.ofCmd c.id | none => false) || s.upkeep[r].queue.any (fun a => a.ofCmd c.id))
  | _ => false

/-- The work of a command is aborted by an ABORT command (R386, R428, R541, R545). -/
def State.abortWork (s : State) (c : Cmd) : State :=
  match c.op with
  | 0x11 => match s.pendingOf c.id with | some k => s.endPending k 0x8B 1 | none => s
  | 0x20 => s.abortTx (fun x => x.ofCmd c.id) 0x8B
  | 0x30 => s.forEach allReaches (fun r t => t.calAbort r (fun a => a.ofCmd c.id) 1 0x8B)
  | _ => s

/-- ABORT once it is taken (R546): its response waits for the target's final one; of two aborts the first decides (Table 14.18). -/
def State.qrpAbort (s : State) (id target : BitVec 32) : State :=
  match s.cmdOf target with
  | none => s.respond id 0xF0 stCompleted 0x8A []
  | some c =>
    if !s.unended c then s.respond id 0xF0 stCompleted 0x89 []
    else
      let first := !(s.host.abortWaits.any (fun w => w.1 == target && w.2.2)) && s.abortable c
      ({ s with host := { s.host with abortWaits := s.host.abortWaits ++ [(target, id, first)] } } : State).when first (fun t => t.abortWork c)

/-- ABORT (R546). -/
def execAbort (dt : Nat) (src : Peer) (id target : BitVec 32) (s : State) : Host.Outcome State Fault Refusal :=
  s.occurs dt (fun _ => true) (fun t => t.command src id 0xF0 false 2 (fun u => u.qrpAbort id target))

/-- State byte of STATUS for a status of Table 14.16 (Table 14.14). -/
def statusByte (status : Nat) : Nat :=
  match status with
  | 2 => 1
  | 3 => 2
  | 0 => 3
  | 1 => 4
  | _ => 5

/-- The two bytes of STATUS. -/
def State.statusOf (s : State) (target : BitVec 32) : List Byte :=
  match s.cmdOf target with
  | some c => bytesOf 1 (statusByte c.status) ++ bytesOf 1 c.reason
  | none => [0, 0]

/-- STATUS (R536, Table 14.14). -/
def execStatus (dt : Nat) (src : Peer) (id target : BitVec 32) (s : State) : Host.Outcome State Fault Refusal :=
  s.occurs dt (fun _ => true) (fun t => t.command src id 0xF1 false 2 (fun u => u.complete id 0xF1 (u.statusOf target)))

end Sys2Proof.Machine
end

