-- ==== Sys2Proof/Machine/Bus.lean ====
section
/-! DEFINITION. The two-wire target: addresses, transactions, PEC, and the Alert Response Address (R552 to R574, R579, R580). A
command is one transaction, from its START to the STOP or START that ends it. -/

namespace Sys2Proof.Machine

/-! ### Addresses (R552 to R556) -/

/-- An address that is never answered as an ordinary target (R554). -/
def twForbidden (a : BitVec 7) : Bool := decide (a.toNat ≤ 7) || a == 0x0C || decide (0x78 ≤ a.toNat)

/-- MASK_EN in force. -/
def Tw.masked (t : Tw) : Bool := bit t.liveCtrl 30

/-- An enabled additional address, 1 to 3 (Table 15.8). -/
def Tw.extra (t : Tw) (i : Nat) : Option (BitVec 7) :=
  if bit t.liveAddr (8 * i + 7) then some (BitVec.ofNat 7 (bits t.liveAddr (8 * i + 6) (8 * i))) else none

/-- The addresses answered outside a freeze (R552 to R554). -/
def Tw.answers (t : Tw) (a : BitVec 7) : Bool :=
  !twForbidden a && (if t.masked then (a ^^^ t.primary) &&& ~~~(t.liveCtrl.setWidth 7) == 0 else a == t.primary || [1, 2, 3].any (fun i => t.extra i == some a))

/-- A write through this address is refused (R555). -/
def Tw.readOnly (t : Tw) (a : BitVec 7) : Bool :=
  !t.masked && a != t.primary && [1, 2, 3].any (fun i => t.extra i == some a && bit t.attr (7 + i))

/-! ### The start of a transaction -/

/-- START: a transaction under way is abandoned, and PEC is in force or not from here on (R562, R566). -/
def Tw.start (t : Tw) : Tw :=
  { t with ignoring := false, acked := [], bus := [], sent := [], araByte := none, pec := bit t.ctrl 31 && t.active == 2 }

/-- A transaction to an address: answered by the frozen part at its primary address (R579), unanswered by a part whose FAB is
stopped, which then restarts it (R94), else served. -/
def State.addressed (s : State) (a : BitVec 7) (f : State → State) : State :=
  let t : State := { s with tw := s.tw.start }
  if t.still.frozen then (if a == t.tw.primary then f t else t)
  else if !t.tw.answers a then t
  else if !t.doze.fabAwake then t.wakeFab
  else f { t with doze := { t.doze with lastTwPs := t.clock } }

/-- The bus is served: the Confluence PLL has locked (R79, R580). -/
def State.busUp (s : State) : Bool := s.phase == .locked && s.tw.ready

/-! ### Writes (R12, R555, R557, R563, R580) -/

/-- Address of a register: bits 1:0 are ignored (R559). -/
def regAddr (a : Addr) : Addr := a &&& 0xFFFC

/-- The part acknowledges, or does not, the last byte of a word. -/
def State.ack (s : State) (ok : Bool) : State := { s with tw := { s.tw with acked := s.tw.acked ++ [ok] } }

/-- A register accessed: a later read without a register address continues after it (R558). -/
def State.accessed (s : State) (a : Addr) : State := { s with tw := { s.tw with next := a + 4 } }

/-- Bytes on the bus, sent by the controller. -/
def State.onBus (s : State) (l : List Byte) : State := { s with tw := { s.tw with bus := s.tw.bus ++ l } }

/-- Bytes on the bus, sent by the part. -/
def State.sendBus (s : State) (l : List Byte) : State := { s.onBus l with tw := { (s.onBus l).tw with sent := s.tw.sent ++ l } }

/-- An address byte (R557, R558). -/
def addrByte (a : BitVec 7) (read : Bool) : Byte := a.setWidth 8 <<< 1 ||| (if read then 1 else 0)

/-- The two register-address bytes. -/
def regBytes (a : Addr) : List Byte := bytesOf 2 a.toNat

/-- PEC is in force (R562), which it never is in a freeze (R579). -/
def State.pecOn (s : State) : Bool := s.tw.pec && !s.still.frozen

/-- The words of a write from a register upward, and those applied. Each is four bytes and, with PEC in force, the PEC of every byte since
the START (R562, R563). -/
def State.twWords (s : State) (ro : Bool) (a : Addr) : List TwWord → State × List (Addr × Word)
  | [] => (s, [])
  | w :: l =>
    if ro || (s.still.frozen && a != 0x3010) then (s.ack false, [])
    else if w.bytes < 4 then (s.ack true, [])
    else
      let t := s.onBus (bytesOf 4 w.value.toNat)
      if t.pecOn && crc8 t.tw.bus != w.pec then
        (({ t with tw := { t.tw with pecErrors := t.tw.pecErrors.add 255 t.clock } } : State).ack false, [])
      else
        let u := if t.pecOn then t.onBus [w.pec] else t
        let r := ((((u.writeReg .twoWire 0 a w.value).ack true).accessed a).twWords ro (a + 4) l)
        (r.1, (a, w.value) :: r.2)

/-- What waits for the end of the transaction, register by register (R556, R561, R582); a reset or freeze ends it. -/
def State.twEnd (s : State) (stop : Bool) : List (Addr × Word) → State
  | [] => s
  | p :: l => if s.runsOn then (s.busEnd stop p.1.toNat p.2).twEnd stop l else s

/-- TW_WRITE (R557). -/
def execTwWrite (dt : Nat) (address : BitVec 7) (reg : Addr) (words : List TwWord) (byStop : Bool) (s : State) : Host.Outcome State Fault Refusal :=
  s.occurs dt State.busUp (fun t => t.addressed address (fun u =>
    let v : State := { u.onBus (addrByte address false :: regBytes reg) with tw := { (u.onBus (addrByte address false :: regBytes reg)).tw with next := regAddr reg } }
    let r := v.twWords (!u.still.frozen && u.tw.readOnly address) (regAddr reg) words
    r.1.twEnd byStop r.2))

/-! ### Reads (R558, R560, R580) -/

/-- A register of which the controller took fewer than four bytes: a SNAP field has acted, an RC field is not cleared (R560). -/
def State.readPart (s : State) (a : Addr) : State :=
  if readsClear a then { s with readData := s.readData ++ [s.peek a] } else s.readReg a

/-- The four bytes of a register and, with PEC in force, the PEC of every byte since the START (R562, R563). -/
def State.sendWord (s : State) (w : Word) : State :=
  let t := s.sendBus (bytesOf 4 w.toNat)
  if t.pecOn then t.sendBus [crc8 t.tw.bus] else t

/-- Registers read from one upward; the last may not have been sent whole. -/
def State.twRegs (s : State) (a : Addr) (lastWhole : Bool) : Nat → State
  | 0 => s
  | n + 1 =>
    let t := if n = 0 && !lastWhole then s.readPart a else (s.readReg a).sendWord (s.peek a)
    (t.accessed a).twRegs (a + 4) lastWhole n

/-- TW_READ (R558). -/
def execTwRead (dt : Nat) (address : BitVec 7) (reg : Option Addr) (count : Nat) (lastWhole : Bool) (s : State) : Host.Outcome State Fault Refusal :=
  s.occurs dt State.busUp (fun t => ({ t with readData := [] } : State).addressed address (fun u =>
    let a := match reg with | some r => regAddr r | none => u.tw.next
    let v := u.onBus ((match reg with | some r => addrByte address false :: regBytes r | none => []) ++ [addrByte address true])
    ({ v with tw := { v.tw with next := a } } : State).twRegs a lastWhole count))

/-! ### Bus faults and the Alert Response Address -/

/-- TW_SDA_RELEASE (R568): SDA held low for 35 ms, within 0.1 ms by SLOW and at least 35 ms in a freeze, where the register keeps its value
(R580). -/
def execTwSdaRelease (dt : Nat) (us : Nat) (s : State) : Host.Outcome State Fault Refusal :=
  s.occurs dt (fun t => t.busUp && decide ((if t.still.frozen then 35000 else 34900) ≤ us)) (fun t =>
    { t with tw := { t.tw with ignoring := true, sdaReleases := if t.still.frozen then t.tw.sdaReleases else t.tw.sdaReleases.add 255 t.clock } })

/-- The address answered for the pending alert (R572, R573): an index that names no answered additional address stands for the
primary one. -/
def State.araAddress (s : State) : BitVec 7 :=
  let t := s.tw
  let sev := if s.mailbox.alertSkip then 3 else s.mailbox.alertSev
  let i := bits t.attr (2 * sev + 1) (2 * sev)
  if i = 0 || t.masked then t.primary
  else match t.extra i with
    | some a => if twForbidden a then t.primary else a
    | none => t.primary

/-- TW_ARA_READ (R572, R573): `others` is the lowest byte that other targets send, 0xFF none. -/
def execTwAraRead (dt : Nat) (others : Byte) (s : State) : Host.Outcome State Fault Refusal :=
  s.occurs dt (fun t => t.busUp && !t.still.frozen && t.mailbox.alertPending) (fun t =>
    let u : State := { t with tw := t.tw.start }
    if !u.doze.fabAwake then u.wakeFab
    else
      let b : Byte := u.araAddress.setWidth 8 <<< 1 ||| 1
      let v : State := { u with doze := { u.doze with lastTwPs := u.clock }, tw := { u.tw with araByte := some b } }
      if b ≤ others then { v with mailbox := v.mailbox.alertDone }
      else { v with tw := { v.tw with araLost := v.tw.araLost.add 255 v.clock } })

end Sys2Proof.Machine
end

