-- ==== Sys2Proof/Machine/Dispatch.lean ====
section
/-! DEFINITION. The effect of a command on everything but the queue: one arm per constructor of `Instr`, in the order of
spec/opcode_table.json, each a direct call of its meaning. -/

namespace Sys2Proof.Machine

def exec (i : Instr) (s : State) : Host.Outcome State Fault Refusal :=
  match i with
  | .registerWrite dt via addr value => Sys2Proof.Machine.execRegisterWrite dt via addr value s
  | .reachOvrRead dt r => Sys2Proof.Machine.execReachOvrRead dt r s
  | .reachChainRead dt r => Sys2Proof.Machine.execReachChainRead dt r s
  | .engineRead dt e => Sys2Proof.Machine.execEngineRead dt e s
  | .hostportCountsRead dt => Sys2Proof.Machine.execHostportCountsRead dt s
  | .twStatusRead dt => Sys2Proof.Machine.execTwStatusRead dt s
  | .healthLostRead dt => Sys2Proof.Machine.execHealthLostRead dt s
  | .ctxStatusRead dt => Sys2Proof.Machine.execCtxStatusRead dt s
  | .healthStatusRead dt => Sys2Proof.Machine.execHealthStatusRead dt s
  | .healthNext dt => Sys2Proof.Machine.execHealthNext dt s
  | .healthFlush dt => Sys2Proof.Machine.execHealthFlush dt s
  | .rtcSecondsRead dt => Sys2Proof.Machine.execRtcSecondsRead dt s
  | .mailboxConsume dt => Sys2Proof.Machine.execMailboxConsume dt s
  | .frameBoundary dt c kind => Sys2Proof.Machine.execFrameBoundary dt c kind s
  | .crossFadeEnd dt c => Sys2Proof.Machine.execCrossFadeEnd dt c s
  | .journalSessionGrant dt => Sys2Proof.Machine.execJournalSessionGrant dt s
  | .journalAppend dt readBackOk => Sys2Proof.Machine.execJournalAppend dt readBackOk s
  | .journalCompaction dt readBackOk => Sys2Proof.Machine.execJournalCompaction dt readBackOk s
  | .dozeEnter dt => Sys2Proof.Machine.execDozeEnter dt s
  | .dozeExit dt => Sys2Proof.Machine.execDozeExit dt s
  | .dozeWindowStart dt => Sys2Proof.Machine.execDozeWindowStart dt s
  | .dozeWindowEnd dt => Sys2Proof.Machine.execDozeWindowEnd dt s
  | .dozeEntry dt => Sys2Proof.Machine.execDozeEntry dt s
  | .dozeExitSequence dt => Sys2Proof.Machine.execDozeExitSequence dt s
  | .dozeTwWake dt => Sys2Proof.Machine.execDozeTwWake dt s
  | .dozeFabIdleStop dt => Sys2Proof.Machine.execDozeFabIdleStop dt s
  | .reset dt us => Sys2Proof.Machine.execReset dt us s
  | .powerOnReset dt core ana a18 => Sys2Proof.Machine.execPowerOnReset dt core ana a18 s
  | .powerOnResetRelease dt pins aboveUs bank18 => Sys2Proof.Machine.execPowerOnResetRelease dt pins aboveUs bank18 s
  | .refClassify dt hz1 hz2 => Sys2Proof.Machine.execRefClassify dt hz1 hz2 s
  | .confluencePllLock dt => Sys2Proof.Machine.execConfluencePllLock dt s
  | .reachPllLock dt r => Sys2Proof.Machine.execReachPllLock dt r s
  | .adcSettled dt r => Sys2Proof.Machine.execAdcSettled dt r s
  | .initialFallowPassEnd dt r subAdcStillBad => Sys2Proof.Machine.execInitialFallowPassEnd dt r subAdcStillBad s
  | .reachReady dt r => Sys2Proof.Machine.execReachReady dt r s
  | .bringupTimeout dt r => Sys2Proof.Machine.execBringupTimeout dt r s
  | .refLost dt ref2 sinceLastEdgeNs degrees words => Sys2Proof.Machine.execRefLost dt ref2 sinceLastEdgeNs degrees words s
  | .holdoverExit dt belowUs => Sys2Proof.Machine.execHoldoverExit dt belowUs s
  | .refRevert dt => Sys2Proof.Machine.execRefRevert dt s
  | .refRecovered dt hz1 hz2 => Sys2Proof.Machine.execRefRecovered dt hz1 hz2 s
  | .agcWindowEnd dt r peak mean => Sys2Proof.Machine.execAgcWindowEnd dt r peak mean s
  | .agcClipReduction dt r => Sys2Proof.Machine.execAgcClipReduction dt r s
  | .agcDeferredIncrease dt r => Sys2Proof.Machine.execAgcDeferredIncrease dt r s
  | .reachAgcWrite dt r value => Sys2Proof.Machine.execReachAgcWrite dt r value s
  | .reachAttnWrite dt r value => Sys2Proof.Machine.execReachAttnWrite dt r value s
  | .fallowBoundary dt r err spur => Sys2Proof.Machine.execFallowBoundary dt r err spur s
  | .fallowTrimCommit dt r => Sys2Proof.Machine.execFallowTrimCommit dt r s
  | .spateFlagRaise dt d levels => Sys2Proof.Machine.execSpateFlagRaise dt d levels s
  | .spateFlagClear dt d levels => Sys2Proof.Machine.execSpateFlagClear dt d levels s
  | .blankInAssert dt => Sys2Proof.Machine.execBlankInAssert dt s
  | .blankInRelease dt => Sys2Proof.Machine.execBlankInRelease dt s
  | .blankingIntervalEnd dt r => Sys2Proof.Machine.execBlankingIntervalEnd dt r s
  | .overrangeSample dt r => Sys2Proof.Machine.execOverrangeSample dt r s
  | .reachTribWrite dt r n value => Sys2Proof.Machine.execReachTribWrite dt r n value s
  | .syncNAssert dt levels => Sys2Proof.Machine.execSyncNAssert dt levels s
  | .syncGo dt => Sys2Proof.Machine.execSyncGo dt s
  | .syncResetApply dt => Sys2Proof.Machine.execSyncResetApply dt s
  | .firstValidSample dt c gapStart gapEnd => Sys2Proof.Machine.execFirstValidSample dt c gapStart gapEnd s
  | .ctxLoad dt pair => Sys2Proof.Machine.execCtxLoad dt pair s
  | .ctxCommitWindow dt pair load => Sys2Proof.Machine.execCtxCommitWindow dt pair load s
  | .engineRound dt e codes => Sys2Proof.Machine.execEngineRound dt e codes s
  | .engineWatchdog dt e => Sys2Proof.Machine.execEngineWatchdog dt e s
  | .contextAgcWindow dt c mean held => Sys2Proof.Machine.execContextAgcWindow dt c mean held s
  | .fmCarrierLock dt c lowest overUs => Sys2Proof.Machine.execFmCarrierLock dt c lowest overUs s
  | .fmCarrierLockLost dt c highest overUs => Sys2Proof.Machine.execFmCarrierLockLost dt c highest overUs s
  | .fmPilotDecision dt c lockedUs deviation => Sys2Proof.Machine.execFmPilotDecision dt c lockedUs deviation s
  | .fmStereoToMono dt c unlockedUs => Sys2Proof.Machine.execFmStereoToMono dt c unlockedUs s
  | .fmMonoToStereo dt c lockedUs => Sys2Proof.Machine.execFmMonoToStereo dt c lockedUs s
  | .rdsBlock dt c bits stamp marks => Sys2Proof.Machine.execRdsBlock dt c bits stamp marks s
  | .rdsGroupComplete dt c level cnr => Sys2Proof.Machine.execRdsGroupComplete dt c level cnr s
  | .pcmRecord dt c audio cnr => Sys2Proof.Machine.execPcmRecord dt c audio cnr s
  | .amLockGained dt c lowest overUs => Sys2Proof.Machine.execAmLockGained dt c lowest overUs s
  | .amLockLost dt c highest overUs => Sys2Proof.Machine.execAmLockLost dt c highest overUs s
  | .amDetectorSwitch dt c loopLocked offset => Sys2Proof.Machine.execAmDetectorSwitch dt c loopLocked offset s
  | .dabFrameSync dt c apartMs prs offset => Sys2Proof.Machine.execDabFrameSync dt c apartMs prs offset s
  | .dabFrameSyncLost dt c missed => Sys2Proof.Machine.execDabFrameSyncLost dt c missed s
  | .dabFicDecode dt c fic msc frameStamp combined symbols => Sys2Proof.Machine.execDabFicDecode dt c fic msc frameStamp combined symbols s
  | .dabLogicalFrame dt c sub f => Sys2Proof.Machine.execDabLogicalFrame dt c sub f s
  | .dabSuperframe dt c sub corrected failed => Sys2Proof.Machine.execDabSuperframe dt c sub corrected failed s
  | .dabReconfiguration dt c => Sys2Proof.Machine.execDabReconfiguration dt c s
  | .eabLock dt c samples span => Sys2Proof.Machine.execEabLock dt c samples span s
  | .eabLockLost dt c samples marked => Sys2Proof.Machine.execEabLockLost dt c samples marked s
  | .eabPreambleDetect dt c last level snr foffset stamp => Sys2Proof.Machine.execEabPreambleDetect dt c last level snr foffset stamp s
  | .eabPreambleEnd dt c syms foffset => Sys2Proof.Machine.execEabPreambleEnd dt c syms foffset s
  | .eabFalsePreamble dt c syms => Sys2Proof.Machine.execEabFalsePreamble dt c syms s
  | .eabSyncFound dt c syms stamp => Sys2Proof.Machine.execEabSyncFound dt c syms stamp s
  | .eabNoSync dt c syms => Sys2Proof.Machine.execEabNoSync dt c syms s
  | .eabHeaderDecoded dt c syms decoded iter snr => Sys2Proof.Machine.execEabHeaderDecoded dt c syms decoded iter snr s
  | .eabCodewordDecoded dt c syms decoded iter snr => Sys2Proof.Machine.execEabCodewordDecoded dt c syms decoded iter snr s
  | .eabBurstEnd dt c syms => Sys2Proof.Machine.execEabBurstEnd dt c syms s
  | .eabRecordHandover dt c => Sys2Proof.Machine.execEabRecordHandover dt c s
  | .eabShadowDetect dt c syms main snr foffset stamp now => Sys2Proof.Machine.execEabShadowDetect dt c syms main snr foffset stamp now s
  | .eabShadowDrop dt c syms snrs => Sys2Proof.Machine.execEabShadowDrop dt c syms snrs s
  | .eabLevelRise dt c syms stamp => Sys2Proof.Machine.execEabLevelRise dt c syms stamp s
  | .eabNfBlock dt c power invalid marks => Sys2Proof.Machine.execEabNfBlock dt c power invalid marks s
  | .eabNfReport dt c => Sys2Proof.Machine.execEabNfReport dt c s
  | .eabReplayJournal dt => Sys2Proof.Machine.execEabReplayJournal dt s
  | .scoutCheckStart dt sc => Sys2Proof.Machine.execScoutCheckStart dt sc s
  | .scoutCheckEnd dt sc level cnr lowest heldUs ownLevel => Sys2Proof.Machine.execScoutCheckEnd dt sc level cnr lowest heldUs ownLevel s
  | .afSwitchDecision dt c => Sys2Proof.Machine.execAfSwitchDecision dt c s
  | .landingStart dt c => Sys2Proof.Machine.execLandingStart dt c s
  | .landingReady dt c d => Sys2Proof.Machine.execLandingReady dt c d s
  | .landingFailed dt c => Sys2Proof.Machine.execLandingFailed dt c s
  | .afSwitch dt c other otherBuilt switchStamp d built => Sys2Proof.Machine.execAfSwitch dt c other otherBuilt switchStamp d built s
  | .runOutEnd dt c built => Sys2Proof.Machine.execRunOutEnd dt c built s
  | .twinCombineTimeout dt c => Sys2Proof.Machine.execTwinCombineTimeout dt c s
  | .twinSelectionChange dt c ticks levelL levelH stamp => Sys2Proof.Machine.execTwinSelectionChange dt c ticks levelL levelH stamp s
  | .transmit dt src id a => Sys2Proof.Machine.execTransmit dt src id a s
  | .outfallToneStart dt via id => Sys2Proof.Machine.execOutfallToneStart dt via id s
  | .outfallAbort dt => Sys2Proof.Machine.execOutfallAbort dt s
  | .outfallRetuneStart dt => Sys2Proof.Machine.execOutfallRetuneStart dt s
  | .outfallRetuneLocked dt => Sys2Proof.Machine.execOutfallRetuneLocked dt s
  | .outfallLockTimeout dt => Sys2Proof.Machine.execOutfallLockTimeout dt s
  | .outfallBlankOutAssert dt => Sys2Proof.Machine.execOutfallBlankOutAssert dt s
  | .cxGntAssert dt => Sys2Proof.Machine.execCxGntAssert dt s
  | .cxDenied dt => Sys2Proof.Machine.execCxDenied dt s
  | .cxGntRelease dt => Sys2Proof.Machine.execCxGntRelease dt s
  | .outfallRampStart dt => Sys2Proof.Machine.execOutfallRampStart dt s
  | .outfallLevelLoopEnd dt readings => Sys2Proof.Machine.execOutfallLevelLoopEnd dt readings s
  | .outfallRampDownStart dt => Sys2Proof.Machine.execOutfallRampDownStart dt s
  | .outfallRampEnd dt => Sys2Proof.Machine.execOutfallRampEnd dt s
  | .outfallBlankOutRelease dt => Sys2Proof.Machine.execOutfallBlankOutRelease dt s
  | .outfallLateDrop dt => Sys2Proof.Machine.execOutfallLateDrop dt s
  | .relayIntake dt c => Sys2Proof.Machine.execRelayIntake dt c s
  | .relayLbtCheck dt => Sys2Proof.Machine.execRelayLbtCheck dt s
  | .relayConfirmed dt => Sys2Proof.Machine.execRelayConfirmed dt s
  | .relayNotConfirmed dt => Sys2Proof.Machine.execRelayNotConfirmed dt s
  | .tempSensorRead dt tA tB tC tD => Sys2Proof.Machine.execTempSensorRead dt tA tB tC tD s
  | .calRecalibration dt r => Sys2Proof.Machine.execCalRecalibration dt r s
  | .calAbsolute dt r points => Sys2Proof.Machine.execCalAbsolute dt r points s
  | .calSelftest dt r => Sys2Proof.Machine.execCalSelftest dt r s
  | .calApplySet dt store => Sys2Proof.Machine.execCalApplySet dt store s
  | .calRollback dt r node store => Sys2Proof.Machine.execCalRollback dt r node store s
  | .calLoad dt => Sys2Proof.Machine.execCalLoad dt s
  | .calAbort dt r op => Sys2Proof.Machine.execCalAbort dt r op s
  | .selftestDue dt => Sys2Proof.Machine.execSelftestDue dt s
  | .maintenanceAdmit dt r => Sys2Proof.Machine.execMaintenanceAdmit dt r s
  | .fegrComplete dt r table gainErr => Sys2Proof.Machine.execFegrComplete dt r table gainErr s
  | .calAbsBlock dt r power snr marked => Sys2Proof.Machine.execCalAbsBlock dt r power snr marked s
  | .calPointComplete dt r check => Sys2Proof.Machine.execCalPointComplete dt r check s
  | .calPointTimeout dt r => Sys2Proof.Machine.execCalPointTimeout dt r s
  | .calSlotTaken dt r => Sys2Proof.Machine.execCalSlotTaken dt r s
  | .calCommitPoint dt r => Sys2Proof.Machine.execCalCommitPoint dt r s
  | .selftestComplete dt r bad => Sys2Proof.Machine.execSelftestComplete dt r bad s
  | .proposalRaise dt proposer r act lines ident drift evidenceAgoNs => Sys2Proof.Machine.execProposalRaise dt proposer r act lines ident drift evidenceAgoNs s
  | .wardenVote dt voter r id sight => Sys2Proof.Machine.execWardenVote dt voter r id sight s
  | .proposalLapse dt r id => Sys2Proof.Machine.execProposalLapse dt r id s
  | .engineRestartComplete dt e => Sys2Proof.Machine.execEngineRestartComplete dt e s
  | .wardenRestartComplete dt w => Sys2Proof.Machine.execWardenRestartComplete dt w s
  | .wardenHeartbeatTimeout dt w => Sys2Proof.Machine.execWardenHeartbeatTimeout dt w s
  | .wardenMiscompare dt w => Sys2Proof.Machine.execWardenMiscompare dt w s
  | .subadcFaultDetect dt r n fault => Sys2Proof.Machine.execSubadcFaultDetect dt r n fault s
  | .tmrMismatch dt copy => Sys2Proof.Machine.execTmrMismatch dt copy s
  | .tmrRepair dt copy => Sys2Proof.Machine.execTmrRepair dt copy s
  | .eccCorrected dt region count => Sys2Proof.Machine.execEccCorrected dt region count s
  | .eccScrub dt => Sys2Proof.Machine.execEccScrub dt s
  | .eccUncorrectable dt area address => Sys2Proof.Machine.execEccUncorrectable dt area address s
  | .programPageReload dt page imageOk => Sys2Proof.Machine.execProgramPageReload dt page imageOk s
  | .recordRelease dt => Sys2Proof.Machine.execRecordRelease dt s
  | .imageLoadComplete dt fastReadOk => Sys2Proof.Machine.execImageLoadComplete dt fastReadOk s
  | .journalReplayComplete dt => Sys2Proof.Machine.execJournalReplayComplete dt s
  | .journalRead dt len => Sys2Proof.Machine.execJournalRead dt len s
  | .journalWrite dt len key => Sys2Proof.Machine.execJournalWrite dt len key s
  | .journalFlashRead dt => Sys2Proof.Machine.execJournalFlashRead dt s
  | .journalProgram dt len => Sys2Proof.Machine.execJournalProgram dt len s
  | .journalErase4k dt => Sys2Proof.Machine.execJournalErase4k dt s
  | .journalErase64k dt => Sys2Proof.Machine.execJournalErase64k dt s
  | .journalCompact dt => Sys2Proof.Machine.execJournalCompact dt s
  | .keysDataWrite dt n value => Sys2Proof.Machine.execKeysDataWrite dt n value s
  | .keysDataClear dt => Sys2Proof.Machine.execKeysDataClear dt s
  | .keysProgramKey dt confirm slot => Sys2Proof.Machine.execKeysProgramKey dt confirm slot s
  | .keysBlowAuthReq dt confirm => Sys2Proof.Machine.execKeysBlowAuthReq dt confirm s
  | .keysBlowStillOff dt confirm => Sys2Proof.Machine.execKeysBlowStillOff dt confirm s
  | .keysOperationEnd dt ok => Sys2Proof.Machine.execKeysOperationEnd dt ok s
  | .linkUp dt syncUs anDone => Sys2Proof.Machine.execLinkUp dt syncUs anDone s
  | .linkDown dt => Sys2Proof.Machine.execLinkDown dt s
  | .hostportLinkWrite dt value => Sys2Proof.Machine.execHostportLinkWrite dt value s
  | .hostportAddressWrite dt addr value => Sys2Proof.Machine.execHostportAddressWrite dt addr value s
  | .arpRequest dt sender target mac => Sys2Proof.Machine.execArpRequest dt sender target mac s
  | .arpResolve dt => Sys2Proof.Machine.execArpResolve dt s
  | .arpRefresh dt => Sys2Proof.Machine.execArpRefresh dt s
  | .icmpEcho dt sender mac ident seq payload => Sys2Proof.Machine.execIcmpEcho dt sender mac ident seq payload s
  | .hello dt src minVer maxVer takeover timeout mask => Sys2Proof.Machine.execHello dt src minVer maxVer takeover timeout mask s
  | .bye dt src => Sys2Proof.Machine.execBye dt src s
  | .sessionTimeout dt => Sys2Proof.Machine.execSessionTimeout dt s
  | .nak dt src entries => Sys2Proof.Machine.execNak dt src entries s
  | .recordsSend dt => Sys2Proof.Machine.execRecordsSend dt s
  | .recordsKeepalive dt => Sys2Proof.Machine.execRecordsKeepalive dt s
  | .regRead dt src id addr count => Sys2Proof.Machine.execRegRead dt src id addr count s
  | .regWrite dt src id pairs => Sys2Proof.Machine.execRegWrite dt src id pairs s
  | .ctxRead dt src id c copy => Sys2Proof.Machine.execCtxRead dt src id c copy s
  | .ctxCommit dt src id c p pair e1 e2 => Sys2Proof.Machine.execCtxCommit dt src id c p pair e1 e2 s
  | .qrpCal dt src id word => Sys2Proof.Machine.execQrpCal dt src id word s
  | .syncReset dt src id => Sys2Proof.Machine.execSyncReset dt src id s
  | .doze dt src id => Sys2Proof.Machine.execDoze dt src id s
  | .abort dt src id target => Sys2Proof.Machine.execAbort dt src id target s
  | .status dt src id target => Sys2Proof.Machine.execStatus dt src id target s
  | .twWrite dt address reg words byStop => Sys2Proof.Machine.execTwWrite dt address reg words byStop s
  | .twRead dt address reg count lastWhole => Sys2Proof.Machine.execTwRead dt address reg count lastWhole s
  | .twSdaRelease dt us => Sys2Proof.Machine.execTwSdaRelease dt us s
  | .twAraRead dt others => Sys2Proof.Machine.execTwAraRead dt others s
  | .versionHandshake dt hostMax => Sys2Proof.Machine.execVersionHandshake dt hostMax s
  | .twCmdReset dt confirm => Sys2Proof.Machine.execTwCmdReset dt confirm s
  | .twCmdFreeze dt confirm => Sys2Proof.Machine.execTwCmdFreeze dt confirm s
  | .stillNFreeze dt ns => Sys2Proof.Machine.execStillNFreeze dt ns s
  | .stillSelWrite dt value => Sys2Proof.Machine.execStillSelWrite dt value s
  | .rtcSwitchToVbat dt a18 vbat => Sys2Proof.Machine.execRtcSwitchToVbat dt a18 vbat s
  | .rtcReturnToMain dt a18 vbat aboveUs => Sys2Proof.Machine.execRtcReturnToMain dt a18 vbat aboveUs s
  | .rtcDomainLost dt oscillator outageUs => Sys2Proof.Machine.execRtcDomainLost dt oscillator outageUs s
  | .vbatMeasure dt millivolts => Sys2Proof.Machine.execVbatMeasure dt millivolts s
  | .rtcSecondBoundary dt => Sys2Proof.Machine.execRtcSecondBoundary dt s
  | .rtcCommit dt => Sys2Proof.Machine.execRtcCommit dt s
  | .rtcCancel dt => Sys2Proof.Machine.execRtcCancel dt s
  | .rtcStepUp dt => Sys2Proof.Machine.execRtcStepUp dt s
  | .rtcStepDown dt => Sys2Proof.Machine.execRtcStepDown dt s
  | .rtcOffsetWrite dt value => Sys2Proof.Machine.execRtcOffsetWrite dt value s
  | .rtcTrimWrite dt value => Sys2Proof.Machine.execRtcTrimWrite dt value s
  | .rtcTrimWindowEnd dt deltaS deltaR events => Sys2Proof.Machine.execRtcTrimWindowEnd dt deltaS deltaR events s
  | .supplyOutOfRange dt k mv ioc us => Sys2Proof.Machine.execSupplyOutOfRange dt k mv ioc us s
  | .supplyMonitorRepeat dt k => Sys2Proof.Machine.execSupplyMonitorRepeat dt k s
  | .resetNRelease dt pins => Sys2Proof.Machine.execResetNRelease dt pins s
  | .arpReply dt sender mac => Sys2Proof.Machine.execArpReply dt sender mac s
  | .datagramDiscarded dt frame => Sys2Proof.Machine.execDatagramDiscarded dt frame s
  | .mainsInEdge dt => Sys2Proof.Machine.execMainsInEdge dt s
  | .supplyBackInRange dt k mv ioc => Sys2Proof.Machine.execSupplyBackInRange dt k mv ioc s
  | .refclkRestored dt ref2 hz => Sys2Proof.Machine.execRefclkRestored dt ref2 hz s
  | .sampleClamped dt r => Sys2Proof.Machine.execSampleClamped dt r s
  | .afLearnedJournal dt c => Sys2Proof.Machine.execAfLearnedJournal dt c s

end Sys2Proof.Machine
end

