-- ==== Sys2Proof/Safety.lean ====
section
/-! DEFINITION. What a safe run of the block is: every command finds its effect, and the stores that the manual bounds stay within their
bounds. -/

namespace Sys2Proof.Machine

/-- A step that answers a next state. -/
def Completes (s : State) : Prop := ∃ t, step s = .next t

/-- The bounds that every command keeps: the flash in its canonical form, at most 1,024 entries in the event mailbox with a 10-bit read
pointer (R33, Table 1.9), the part of a second below one second (R596), and no OTP operation that programs a slot which already shows as
holding a key (R485). -/
structure State.Sound (s : State) : Prop where
  flash : Memory.wf s.flash = true
  ring : s.mailbox.pending.length ≤ 1024
  ptr : s.mailbox.rdPtr < 1024
  second : s.rtc.fracPs < secPs
  otp : ∀ n k, s.keys.busy = some (1, n, k) → s.keys.slotSet n = false

end Sys2Proof.Machine

namespace Sys2Proof

/-- The commands that a frozen part answers (R577, R580, R582): resets and their release, the levels that others drive on pins, the
two-wire transactions of a freeze with STILL_SEL, and what the backup domain does of itself. -/
def Instr.actsInFreeze : Instr → Bool
  | .reset .. | .powerOnReset .. | .powerOnResetRelease .. | .resetNRelease .. => true
  | .blankInAssert .. | .blankInRelease .. | .cxGntAssert .. | .cxGntRelease .. => true
  | .registerWrite .. | .stillSelWrite .. | .twWrite .. | .twRead .. | .twSdaRelease .. => true
  | .rtcSwitchToVbat .. | .rtcReturnToMain .. | .rtcDomainLost .. | .rtcSecondBoundary .. => true
  | _ => false

end Sys2Proof
end

