-- ==== Sys2Proof/Certificates/Slice0/Obligations.lean ====
section
/-! DEFINITION. The statements for the provers, chapter by chapter. In each, `u` is the state once the command's FAB cycles have passed. -/

open Sys2Proof Sys2Proof.Machine

/-! ### The machine as a whole -/

/-- For every command and state, a step with the command at the front of its queue is the command on the state with the queue's rest. With no
command waiting the block idles for one FAB cycle: the model's choice (DESIGN CHOICE, log entry 14). -/
def Obligations.StepRunsFrontCommand : Prop :=
  (∀ (c : Instr) (rest : List Instr) (s : State), step { s with pending := c :: rest } = exec c { s with pending := rest }) ∧
  (∀ s : State, s.pending = [] → step s = .next (s.advance 1))

/-- Every command has its effect in every state: none faults, none is refused; and none changes the part or the commands that wait. -/
def Obligations.EveryCommandCompletes : Prop :=
  ∀ (c : Instr) (s : State), ∃ t, exec c s = .next t ∧ t.part = s.part ∧ t.pending = s.pending

/-- The bounds of `State.Sound` hold at reset. -/
def Obligations.ResetIsSound : Prop :=
  State.reset.Sound

/-- Every step keeps the bounds: the flash in its canonical form, at most 1,024 mailbox entries behind a 10-bit read pointer, a part of a second
below one second, and no OTP operation on a slot that shows as holding a key. -/
def Obligations.StepKeepsSound : Prop :=
  ∀ s t : State, s.Sound → step s = .next t → t.Sound

/-- Slots and fuses never return to their unprogrammed state, whatever the command; and a fuse takes effect at a reset: RESET puts into effect
what is blown. -/
def Obligations.OtpOnlyGains : Prop :=
  (∀ s t : State, s.Sound → step s = .next t →
    (∀ (n : Fin 8) (k : BitVec 128), s.keys.slots[n] = some k → t.keys.slots[n] = some k) ∧
    (s.keys.authBlown = true → t.keys.authBlown = true) ∧ (s.keys.stillBlown = true → t.keys.stillBlown = true)) ∧
  (∀ (s : State) (dt us : Nat), 10 ≤ us → ∃ t, exec (.reset dt us) s = .next t ∧
    t.keys.authInEffect = t.keys.authBlown ∧ t.keys.stillInEffect = t.keys.stillBlown)

/-- In a freeze every clock of the part stands: but for resets, the supplies, the pins that others drive, the two-wire reads of the frozen
state, STILL_SEL and the backup domain, a command only lets time pass. -/
def Obligations.FreezeHoldsTheState : Prop :=
  ∀ (c : Instr) (s : State), s.still.frozen = true → s.phase = .locked → c.actsInFreeze = false → ∃ n, exec c s = .next (s.advance n)

/-- The KEYS block is written from the two-wire bus alone, a QRP access to it is refused with reason 0x84, and it reads 0. No register read
shows key material: the KEYS block reads 0, and any other register reads the same whatever the keys are. -/
def Obligations.KeysAreNeverRead : Prop :=
  (∀ (s : State) (dt : Nat) (addr : Addr), 0x2800 ≤ addr.toNat → addr.toNat ≤ 0x2FFF →
    s.peek addr = 0 ∧
    (∀ v : Word, exec (.registerWrite dt .qrp addr v) s = .next (s.advance dt)) ∧
    (∀ (id : BitVec 32) (v : Word), s.qrpWrite id [(addr, v)] = s.refuse id 0x02 0x84) ∧
    (∀ id : BitVec 32, s.qrpRead id addr 1 = s.refuse id 0x01 0x84)) ∧
  (∀ (s : State) (addr : Addr) (data : Vector Word 4) (slots : Vector (Option (BitVec 128)) 8),
    (0x2800 ≤ addr.toNat ∧ addr.toNat ≤ 0x2FFF → s.peek addr = 0) ∧
    ((∀ n : Fin 8, slots[n].isSome = s.keys.slots[n].isSome) →
      ({ s with keys := { s.keys with data := data, slots := slots } } : State).peek addr = s.peek addr))

/-- On the VTN-8120 the REACH_C and REACH_D blocks read 0 and take no write. -/
def Obligations.AbsentReachBlocks : Prop :=
  ∀ (s : State) (dt : Nat) (addr : Addr), s.part.is8120 = true → 0x0600 ≤ addr.toNat → addr.toNat ≤ 0x07FF →
    s.readReg addr = { s with readData := s.readData ++ [0] } ∧
    ∀ (via : Via) (v : Word), exec (.registerWrite dt via addr v) s = .next (s.advance dt)

/-- Registers right after reset, at the values of their tables. -/
def Obligations.ResetRegisterValues : Prop :=
  ∀ p ∈ ([(0x0000, 0x56548140), (0x0040, 0x01020003), (0x0044, 0x00000021), (0x0048, 0x00030103), (0x0100, 0), (0x0108, 1), (0x0200, 2),
      (0x0204, 0x80000000), (0x0410, 0x0060C183), (0x0414, 0x0000640A), (0x0424, 0x0000500A), (0x0428, 0x00000005), (0x0808, 0), (0x1000, 0x84000000),
      (0x100C, 0x0000F060), (0x1404, 0), (0x143C, 0x0000003C), (0x1800, 0x08000000), (0x1808, 0xF06061A8), (0x180C, 0x00000A05), (0x1810, 0x081B3200),
      (0x1A00, 0x0000FF00), (0x1A08, 0x06400019), (0x1A0C, 0xFFFFFFFF), (0x1A10, 0x0000011E), (0x1C00, 0x000A0800), (0x2400, 0x280A03E8),
      (0x241C, 0x05C05152), (0x2800, 0), (0x3F00, 0), (0x3F04, 0x5AA5C33C)] : List (Addr × Word)), State.reset.peek p.1 = p.2

/-- Reset and its release: RESET_N low for 10 µs, a supply below its power-on threshold and TW_CMD reset put every function but the backup
domain, the flash and the OTP store at its reset state, with the cause READY_CAUSE gives; the release of the last hold (the supplies above
their thresholds for 10 ms; RESET_N released) samples the pins and starts bring-up. -/
def Obligations.ResetCommands : Prop :=
  ∀ (s : State) (dt us above core ana a18 : Nat) (pins : BitVec 3) (bank : BitVec 2) (confirm : BitVec 16),
    let u := s.advance dt
    let after (cause : BitVec 3) (por resetN : Bool) : State := { State.reset with
      clock := u.clock, pending := u.pending, part := u.part, cause := cause, flash := u.cutFlash, draws := u.draws + 2
      keys := u.keys.afterReset u.still.frozen (Config.sessionCut (u.draws + 1)), rtc := u.rtc.kept
      host := { State.reset.host with mac := u.part.macAddress, macNext := u.part.macAddress }
      pins := { State.reset.pins with blankIn := u.pins.blankIn, cxGnt := u.pins.cxGnt, porHold := por, resetN := resetN
                                      bank18 := u.pins.bank18 } }
    (10 ≤ us → exec (.reset dt us) s = .next (after (if u.still.frozen then 4 else if u.phase = .held then u.cause else 2) u.pins.porHold true)) ∧
    (core < 700 ∨ ana < 880 ∨ a18 < 1550 → exec (.powerOnReset dt core ana a18) s = .next (after 1 true u.pins.resetN)) ∧
    (u.pins.porHold = true → u.pins.resetN = false → u.phase = .held → 10000 ≤ above → exec (.powerOnResetRelease dt pins above bank) s = .next { u with
      pins := { u.pins with porHold := false, bank18 := bank }, phase := .released, releasedPs := u.clock, tw := { u.tw with pins := pins } }) ∧
    (u.pins.resetN = true → u.pins.porHold = false → u.phase = .held → exec (.resetNRelease dt pins) s = .next { u with
      pins := { u.pins with resetN := false }, phase := .released, releasedPs := u.clock, tw := { u.tw with pins := pins } }) ∧
    (u.awake = true → u.pins.porHold = false → u.pins.resetN = false → exec (.twCmdReset dt 0x5253) s = .next { after 2 false false with
      phase := .released, releasedPs := u.clock, tw := { State.reset.tw with pins := u.tw.pins } }) ∧
    (u.awake = true → confirm ≠ 0x5253 → exec (.twCmdReset dt confirm) s = .next u)

/-- A post: the entry carries ALERT exactly when its SEVERITY reaches the threshold, and then requests the alert line. In a ring that is not
full it stands last but for posts of the same FAB cycle with a higher SOURCE; a full ring first gives up its oldest entry, counts it as
lost, moves the read pointer on and requests the alert line whatever the threshold. -/
def Obligations.PostEntersMailbox : Prop :=
  ∀ (s : State) (src reach ctx code sev : Nat) (data : List Byte),
    let e := s.entryNow src reach ctx code sev data
    let t := s.post src reach ctx code sev data
    let m := s.mailbox
    (e.alert = decide (m.alertThreshold.toNat ≤ sev) ∧ e.stamp = s.nowNs ∧ e.data = fit 16 data) ∧
    (m.pending.length < 1024 → t.mailbox.pending = insertPost m.pending e ∧ t.mailbox.rdPtr = m.rdPtr ∧ t.mailbox.lost = m.lost ∧
      t.mailbox.alertPending = (m.alertPending || e.alert)) ∧
    (1024 ≤ m.pending.length → t.mailbox.pending = insertPost (m.pending.drop 1) e ∧ t.mailbox.rdPtr = (m.rdPtr + 1) % 1024 ∧
      t.mailbox.lost.n = min (m.lost.n + 1) (2 ^ 32 - 1) ∧ t.mailbox.alertPending = true ∧ t.mailbox.alertSkip = true) ∧
    ((∀ x ∈ m.pending, x.atPs ≠ s.clock ∨ x.source ≤ src) → insertPost m.pending e = m.pending ++ [e]) ∧
    t.mailbox.toConsume = insertPost m.toConsume e ∧ t.mailbox.captured = m.captured ∧
    (sev < 2 → t = { s with mailbox := m.post e }) ∧
    (t.ctxs = s.ctxs ∧ t.reaches = s.reaches ∧ t.host = s.host ∧ t.rtc = s.rtc ∧ t.keys = s.keys ∧ t.queue = s.queue)

/-! ### Registers and the HEALTH window -/

/-- A read of a count field that clears on reading returns the count without what the same FAB cycle added, and leaves what that cycle added;
the reads of a reach that the part does not have return 0 and change nothing. The reads that take a snapshot. RTC_SECONDS captures the whole
time in the one FAB cycle; CTX_STATUS captures the selected context. -/
def Obligations.ReadsWithEffects : Prop :=
  (∀ (s : State) (dt : Nat) (r : Fin 4) (e : Fin 8),
    let u := s.advance dt
    let shown (t : Tally) := if t.atPs = u.clock then t.old else t.n
    let rest (t : Tally) : Tally := if t.atPs = u.clock then { t with n := t.new, old := 0 } else {}
    u.awake = true →
    (u.reachExists r = true →
      exec (.reachOvrRead dt r) s = .next { u.modReach r (fun x => { x with ovrWindows := rest x.ovrWindows }) with
        readData := [fieldAt (shown u.reaches[r].ovrWindows) 16 ||| flag u.reaches[r].atMin.on 0] } ∧
      exec (.reachChainRead dt r) s = .next
        { u.modReach r (fun x => { x with satEvents := rest x.satEvents, hardChanges := rest x.hardChanges }) with
          readData := [fieldAt (shown u.reaches[r].satEvents) 16 ||| fieldAt (shown u.reaches[r].hardChanges) 8 |||
            fieldAt (min (u.fades r) 15) 0] }) ∧
    (u.reachExists r = false → exec (.reachOvrRead dt r) s = .next { u with readData := [0] } ∧
      exec (.reachChainRead dt r) s = .next { u with readData := [0] }) ∧
    (u.reachExists (Fin.ofNat 4 (e.val / 2)) = true → exec (.engineRead dt e) s = .next { u.modEngine e (fun x => { x with wdog := rest x.wdog }) with
        readData := [u.peekEngine (0xC00 + 4 * e.val)] }) ∧
    (u.reachExists (Fin.ofNat 4 (e.val / 2)) = false → exec (.engineRead dt e) s = .next { u with readData := [0] }) ∧
    exec (.hostportCountsRead dt) s = .next { u with
      host := { u.host with rxDiscards := rest u.host.rxDiscards, nakMisses := rest u.host.nakMisses }
      readData := [fieldAt (shown u.host.rxDiscards) 16 ||| fieldAt (shown u.host.nakMisses) 0] } ∧
    exec (.twStatusRead dt) s = .next { u with
      tw := { u.tw with sdaReleases := rest u.tw.sdaReleases, pecErrors := rest u.tw.pecErrors, araLost := rest u.tw.araLost }
      readData := [flag u.mailbox.alertPending 31 ||| fieldAt (shown u.tw.sdaReleases) 16 ||| fieldAt (shown u.tw.pecErrors) 8 |||
        fieldAt (shown u.tw.araLost) 0] } ∧
    exec (.healthLostRead dt) s = .next { u with
      mailbox := { u.mailbox with lost := rest u.mailbox.lost }, readData := [BitVec.ofNat 32 (shown u.mailbox.lost)] }) ∧
  (∀ (s : State) (dt : Nat),
    let u := s.advance dt
    u.awake = true →
    exec (.rtcSecondsRead dt) s = .next { u with
      rtc := { u.rtc with holding := [timeWord u.rtc.seconds, dateWord u.rtc.seconds, BitVec.ofNat 32 (u.rtc.seconds / 2 ^ 32),
                                      BitVec.ofNat 32 u.rtc.seconds, timeWord u.rtc.civilSeconds, dateWord u.rtc.civilSeconds] }
      readData := [flag u.rtc.timeLost 31 ||| fieldAt (u.rtc.fracPs * 32768 / 10 ^ 12) 16 ||| fieldAt (u.rtc.seconds % 60) 0] } ∧
    exec (.ctxStatusRead dt) s = .next { u with
      window := { u.window with spateFlag := u.spateShown u.window.ctx
                                spateLevel := BitVec.ofInt 8 (clamp 0 255 (-u.ctxs[u.window.ctx].spateLevel))
                                seq := if u.ctxs[u.window.ctx].released = 0 then 0 else BitVec.ofNat 32 (u.ctxs[u.window.ctx].released - 1) }
      readData := [u.ctxs[u.window.ctx].statusWord] })

/-- A read of HEALTH_STATUS captures the entry at the read pointer, which nothing else but the next such read changes; NEXT passes one entry
when one is pending, and FLUSH passes them all. ALERT_PENDING ends there when no entry left carries ALERT and nothing was skipped. Record
assembly takes the oldest entry that it has not consumed and releases its health record: type 0x40, the entry's STAMP, CONTEXT and REACH,
and Table 1.9 without STAMP as payload. -/
def Obligations.HealthWindow : Prop :=
  (∀ (s : State) (dt : Nat),
    let u := s.advance dt
    let m := u.mailbox
    let left (l : List MboxEntry) := m.alertSkip || l.any (fun e => e.alert)
    u.awake = true →
    exec (.healthStatusRead dt) s = .next { u with
      mailbox := { m with captured := match m.pending with | e :: _ => e.bytes | [] => List.replicate 32 0 }
      readData := [flag m.pending.isEmpty 31 ||| fieldAt m.pending.length 16 ||| fieldAt m.rdPtr 0] } ∧
    (∀ e l, m.pending = e :: l → exec (.healthNext dt) s = .next { u with mailbox := { m with
      pending := l, rdPtr := (m.rdPtr + 1) % 1024
      alertPending := m.alertPending && left l, alertSev := if left l then m.alertSev else 0 } }) ∧
    (m.pending = [] → exec (.healthNext dt) s = .next u) ∧
    exec (.healthFlush dt) s = .next { u with mailbox := { m with
      pending := [], rdPtr := (m.rdPtr + m.pending.length) % 1024
      alertPending := m.alertPending && m.alertSkip, alertSev := if m.alertSkip then m.alertSev else 0 } }) ∧
  (∀ (s : State) (dt : Nat) (e : MboxEntry) (l : List MboxEntry),
    let u := s.advance dt
    u.awake = true →
    (u.mailbox.toConsume = e :: l → exec (.mailboxConsume dt) s = .next
      (({ u with mailbox := { u.mailbox with toConsume := l } } : State).emit 0x40 e.ctx (if h : e.reach < 4 then some ⟨e.reach, h⟩ else none)
        e.stamp (bytesOf 1 e.source ++ bytesOf 1 e.reach ++ bytesOf 2 e.ctx ++ bytesOf 2 e.code ++ bytesOf 1 e.severity ++
          [if e.alert then 1 else 0] ++ fit 16 e.data))) ∧
    (u.mailbox.toConsume = [] → exec (.mailboxConsume dt) s = .next u))

/-- REGISTER_WRITE over a transport that reaches the register completes with the register's own effect. A read-write field takes the value
without its reserved bits, a write-1-to-clear field loses the bits written as 1, and an address that no chapter assigns takes nothing.
HOST_MAX of 2 or more sets ACTIVE to 2; ACTIVE returns to 1 only at a reset. -/
def Obligations.RegisterWrites : Prop :=
  (∀ (s : State) (dt : Nat) (via : Via) (addr : Addr) (v : Word),
    let u := s.advance dt
    (u.canWrite via addr = true → exec (.registerWrite dt via addr v) s = .next (u.writeWhole via 0 addr v)) ∧
    (u.awake = true →
      exec (.registerWrite dt .twoWire 0x3F00 v) s = .next { u with scratch := v } ∧
      exec (.registerWrite dt .twoWire 0x0108 v) s = .next { u with cause := u.cause &&& ~~~(v.setWidth 3) } ∧
      exec (.registerWrite dt .twoWire 0x0200 v) s = .next { u with mailbox := { u.mailbox with alertThreshold := v.setWidth 3 } } ∧
      (∃ t, exec (.registerWrite dt .twoWire 0x0424 v) s = .next t ∧ t.reaches[0].regs.spate = v &&& 0x1FF1F ∧
        (u.reaches[0].st = .ready → t.reaches[0].live.spate = v &&& 0x1FF1F) ∧
        (u.reaches[0].st ≠ .ready → t.reaches[0].live = u.reaches[0].live)) ∧
      (0x4000 ≤ addr.toNat → exec (.registerWrite dt .twoWire addr v) s = .next u))) ∧
  (∀ (s : State) (dt : Nat) (h : BitVec 8),
    let u := s.advance dt
    u.awake = true → exec (.versionHandshake dt h) s = .next { u with
      tw := { u.tw with hostMax := h, active := if 2 ≤ h.toNat then 2 else u.tw.active } })

/-! ### The two-wire bus and Stillwater -/

/-- The freeze instant, by STILL_N or by TW_CMD while a freeze is permitted: KEYS_DATA is cleared, the driver is off, what waits on the bus and
for a sync edge is dropped, and STILL_STATUS tells the source and the time; all else stands. STILL_N low for 200 ns freezes, for less than
50 ns does not, and between the two the part may do either. A freeze that is not permitted is ignored, with a post for TW_CMD. In the freeze
STILL_SEL is the one register that takes a value. -/
def Obligations.FreezeInstant : Prop :=
  ∀ (s : State) (dt ns : Nat) (confirm : BitVec 16) (v : Word),
    let u := s.advance dt
    let frozen (byCmd : Bool) : State := { u with
      keys := { u.keys with data := Vector.replicate 4 0, dataPs := none }, pins := { u.pins with driver := false }
      tw := { u.tw with ignoring := false, acked := [], araByte := none }, sync := { u.sync with pending := [] }
      still := { u.still with frozen := true, byCmd := byCmd, time := u.nowNs, rtc := some u.rtc, count := u.still.count + 1 } }
    let permitted := u.phase = .locked ∧ u.image.accepted = true ∧ u.image.stillOk = true ∧ u.keys.stillInEffect = false
    (u.still.frozen = false → permitted → 200 ≤ ns → exec (.stillNFreeze dt ns) s = .next (frozen false)) ∧
    (u.still.frozen = false → permitted → 50 ≤ ns → ns < 200 → exec (.stillNFreeze dt ns) s = .next { frozen false with draws := u.draws + 1 } ∨
      exec (.stillNFreeze dt ns) s = .next { u with draws := u.draws + 1 }) ∧
    (¬ permitted ∨ ns < 50 → exec (.stillNFreeze dt ns) s = .next u) ∧
    (u.awake = true → permitted → exec (.twCmdFreeze dt 0x5354) s = .next (frozen true)) ∧
    (u.awake = true → ¬ permitted → exec (.twCmdFreeze dt 0x5354) s = .next (u.writeIgnored 0x1C0C)) ∧
    (u.awake = true → confirm ≠ 0x5354 → exec (.twCmdFreeze dt confirm) s = .next u) ∧
    (u.still.frozen = true → exec (.stillSelWrite dt v) s = .next { u with
      still := { u.still with region := BitVec.ofNat 5 (bits v 28 24), offset := BitVec.ofNat 13 (bits v 12 0) } })

/-- A bus write of one word to TEST_SCRATCH: applied and acknowledged; applied nowhere with a PEC byte that is not the CRC-8 of the bytes of the
transaction while PEC is in force, through a read-only additional address, or in a freeze, where only the bytes of STILL_SEL are
acknowledged; and not answered at all at an address that is not the part's. A read returns the register's value, sends it with its PEC byte
while PEC is in force, and leaves the address of the next register behind. SDA held low for the time-out (at most 34.9 ms; 35 ms in a
freeze) is released, counted up to 255; and the part answers the Alert Response Address while its alert is pending: it wins against other
targets with its byte at or below theirs, which ends the alert, and otherwise counts a lost arbitration. -/
def Obligations.BusTransactions : Prop :=
  (∀ (s : State) (dt : Nat) (a : BitVec 7) (v : Word) (pec : Byte) (stop whole : Bool),
    let u := s.advance dt
    let tw := u.tw.start
    let w : State := { u with tw := tw, doze := { u.doze with lastTwPs := u.clock } }
    let head (d : BitVec 7) (reg : Addr) : List Byte := (d.setWidth 8 <<< 1) :: bytesOf 2 reg.toNat
    let sent (a : BitVec 7) : List Byte := head a 0x3F00 ++ bytesOf 4 v.toNat
    u.phase = .locked → u.tw.ready = true →
    (u.still.frozen = false → u.doze.fabAwake = true →
      (tw.answers a = true → tw.readOnly a = false → tw.pec = false →
        exec (.twWrite dt a 0x3F00 [⟨v, 4, pec⟩] stop) s = .next { w with
          scratch := v, tw := { tw with next := 0x3F04, acked := [true], bus := sent a } }) ∧
      (tw.answers a = true → tw.readOnly a = false → tw.pec = true → crc8 (sent a) = pec →
        exec (.twWrite dt a 0x3F00 [⟨v, 4, pec⟩] stop) s = .next { w with
          scratch := v, tw := { tw with next := 0x3F04, acked := [true], bus := sent a ++ [pec] } }) ∧
      (tw.answers a = true → tw.readOnly a = false → tw.pec = true → crc8 (sent a) ≠ pec →
        ∃ t, exec (.twWrite dt a 0x3F00 [⟨v, 4, pec⟩] stop) s = .next t ∧ t.scratch = u.scratch ∧ t.tw.acked = [false] ∧
          t.tw.pecErrors.n = min (tw.pecErrors.n + 1) 255 ∧ t = { w with tw := t.tw }) ∧
      (tw.answers a = true → tw.readOnly a = true →
        exec (.twWrite dt a 0x3F00 [⟨v, 4, pec⟩] stop) s = .next { w with tw := { tw with next := 0x3F00, acked := [false], bus := head a 0x3F00 } }) ∧
      (tw.answers a = false → ∀ (reg : Addr) (l : List TwWord) (r : Option Addr) (n : Nat),
        exec (.twWrite dt a reg l stop) s = .next { u with tw := tw } ∧
        exec (.twRead dt a r n whole) s = .next { u with tw := tw, readData := [] }) ∧
      (tw.answers a = true →
        (∃ t, exec (.twRead dt a (some 0x3F04) 1 whole) s = .next t ∧ t.readData = [0x5AA5C33C] ∧ t.tw.next = 0x3F08 ∧
          t = { w with readData := t.readData, tw := t.tw } ∧
          (whole = true → tw.pec = false → t.tw.sent = [0x5A, 0xA5, 0xC3, 0x3C]) ∧
          (whole = true → tw.pec = true → t.tw.sent = [0x5A, 0xA5, 0xC3, 0x3C,
            crc8 (head a 0x3F04 ++ [a.setWidth 8 <<< 1 ||| 1, 0x5A, 0xA5, 0xC3, 0x3C])])) ∧
        (∃ t, exec (.twRead dt a (some 0x3F00) 2 whole) s = .next t ∧ t.readData = [u.scratch, 0x5AA5C33C] ∧ t.tw.next = 0x3F08 ∧
          t = { w with readData := t.readData, tw := t.tw }))) ∧
    (u.still.frozen = true →
      exec (.twWrite dt tw.primary 0x3F00 [⟨v, 4, pec⟩] stop) s = .next { u with
        tw := { tw with next := 0x3F00, acked := [false], bus := head tw.primary 0x3F00 } } ∧
      exec (.twWrite dt tw.primary 0x3010 [⟨v, 4, pec⟩] stop) s = .next { u with
        tw := { tw with next := 0x3014, acked := [true], bus := head tw.primary 0x3010 ++ bytesOf 4 v.toNat }
        still := { u.still with region := BitVec.ofNat 5 (bits v 28 24), offset := BitVec.ofNat 13 (bits v 12 0) } } ∧
      ∃ t, exec (.twRead dt tw.primary (some 0x3F04) 1 whole) s = .next t ∧ t.readData = [0x5AA5C33C] ∧ t.tw.next = 0x3F08 ∧
        t = { u with readData := t.readData, tw := t.tw })) ∧
  (∀ (s : State) (dt us : Nat) (others : Byte),
    let u := s.advance dt
    let tw := u.tw.start
    let mine : Byte := ({ u with tw := tw } : State).araAddress.setWidth 8 <<< 1 ||| 1
    u.phase = .locked → u.tw.ready = true →
    (u.still.frozen = false → 34900 ≤ us → exec (.twSdaRelease dt us) s = .next { u with tw := { u.tw with
      ignoring := true, sdaReleases := u.tw.sdaReleases.add 255 u.clock } }) ∧
    (∀ c : Tally, (c.add 255 u.clock).n = min (c.n + 1) 255) ∧
    (u.still.frozen = true → 35000 ≤ us → exec (.twSdaRelease dt us) s = .next { u with tw := { u.tw with ignoring := true } }) ∧
    (u.still.frozen = false → u.mailbox.alertPending = true → u.doze.fabAwake = true →
      (mine ≤ others → exec (.twAraRead dt others) s = .next { u with
        tw := { tw with araByte := some mine }, doze := { u.doze with lastTwPs := u.clock }
        mailbox := { u.mailbox with alertPending := false, alertSev := 0, alertSkip := false } }) ∧
      (¬ mine ≤ others → exec (.twAraRead dt others) s = .next { u with
        tw := { tw with araByte := some mine, araLost := tw.araLost.add 255 u.clock }, doze := { u.doze with lastTwPs := u.clock } })) ∧
    (u.still.frozen = false → u.mailbox.alertPending = false → exec (.twAraRead dt others) s = .next u))

/-! ### References and bring-up -/

/-- The reference inputs are measured 20 µs after the release: an input within 5 % of 10, 25 or 125 MHz is present with that class, any other is
absent; REFCLK when present, else REFCLK2; a REFCLK2 found at another frequency than REFCLK is ignored until the next reset; with neither
present the part waits. With a reference chosen the Confluence PLL locks, FAB runs, and the two-wire target answers. Bring-up of a reach:
PLL lock, with the SAMP grid at a phase that nothing fixes; the ADC settled, with the gain at −30 dB and one window to measure in AUTO; the
initial fallow pass of 17 periods, which tests a retired sub-ADC again; then ready, with the values written in the meantime, the image's
entries entered, and a recalibration asked for; or, past its deadline, declared failed. -/
def Obligations.BringUp : Prop :=
  (∀ (s : State) (dt hz1 hz2 : Nat),
    let u := s.advance dt
    let a := classOf hz1
    let b := if u.refs.ignore2 then .absent else classOf hz2
    (∀ hz, (classOf hz = .mhz10 ↔ 9500000 ≤ hz ∧ hz ≤ 10500000) ∧ (classOf hz = .mhz25 ↔ 23750000 ≤ hz ∧ hz ≤ 26250000) ∧
      (classOf hz = .mhz125 ↔ 118750000 ≤ hz ∧ hz ≤ 131250000)) ∧
    (u.phase = .released → u.releasedPs + 20000000 ≤ u.clock →
      (a = .absent → b = .absent → ∃ t, exec (.refClassify dt hz1 hz2) s = .next t ∧ t.phase = .released ∧ t.refs.noRef = true) ∧
      (a ≠ .absent → exec (.refClassify dt hz1 hz2) s = .next { u with
        phase := .classified, releasedPs := if u.refs.noRef then u.clock else u.releasedPs
        refs := { u.refs with ok1 := true, ok2 := b == a, active := 1, freq := refFreq a
                              ignore2 := u.refs.ignore2 || (b != .absent && b != a), noRef := false } }) ∧
      (a = .absent → b ≠ .absent → exec (.refClassify dt hz1 hz2) s = .next { u with
        phase := .classified, releasedPs := if u.refs.noRef then u.clock else u.releasedPs
        refs := { u.refs with ok1 := false, ok2 := true, active := 2, freq := refFreq b, ignore2 := false, noRef := false } })) ∧
    (u.phase = .classified → exec (.confluencePllLock dt) s = .next
      (({ u with phase := .locked, tw := { u.tw with ready := true }, selftestPs := u.clock, sync := { u.sync with tick0 := u.clock } } :
        State).firstReports.sendReports))) ∧
  (∀ (s : State) (dt : Nat) (r : Fin 4) (bad : Bool),
    let u := s.advance dt
    let x := u.reaches[r]
    u.reachStarts r = true →
    (x.pll = false → ∃ t phase, exec (.reachPllLock dt r) s = .next t ∧ phase < 320 ∧ t.reaches[r] = x.lockPll phase u.clock ∧
      t.reaches[r].pll = true) ∧
    (x.pll = true → x.adc = false → ∃ t, exec (.adcSettled dt r) s = .next t ∧ t = (u.modReach r (fun x => x.settleAdc u.clock)).blankUpdate r ∧
      (x.settleAdc u.clock).adc = true ∧ (x.settleAdc u.clock).gain = -30 ∧ (x.settleAdc u.clock).step = none ∧
      ((x.settleAdc u.clock).oneShot = x.auto) ∧ (x.settleAdc u.clock).passPs = u.clock) ∧
    (x.adc = true → x.passPs + fallowPassPs ≤ u.clock → ∃ t, exec (.initialFallowPassEnd dt r bad) s = .next t ∧ t.reaches[r].pass = true ∧
      t.fallow[r].retired = (if bad then u.fallow[r].retired else none) ∧ t.fallow[r].waiting = [] ∧ t.fallow[r].rotations = 0 ∧
      t.fallow[r].periods = 0 ∧ t.fallow[r].boundPs = u.clock) ∧
    (u.image.accepted = true → x.pll = true → x.adc = true → x.pass = true → exec (.reachReady dt r) s = .next (u.reachReady r)) ∧
    (∀ p, x.deadlinePs = some p → p ≤ u.clock → exec (.bringupTimeout dt r) s = .next (u.failReach r 0 0 true u.clock)))

/-- Failover: an input is lost after four nominal periods without an edge, or, the active one, after 16 periods with a phase error above a
quarter period. The loss of the active reference with a good standby switches to it in holdover and counts the switch; without one the part
stays in holdover with the PLL words held and posts SEVERITY 3; the loss of the standby only ends its being good. The holdover ends, with
the post of the switch, once the phase error has been below one degree for 100 µs; REFCLK comes back after the wait-to-restore time in
revertive mode, and from no reference the first present input is taken, REFCLK before REFCLK2. -/
def Obligations.ReferenceFailover : Prop :=
  ∀ (s : State) (dt n below hz hz1 hz2 : Nat) (two : Bool) (degrees : List Nat) (words : Vector Nat 5),
    let u := s.advance dt
    let f := u.refs
    let input := if two then 2 else 1
    let standby := if f.active = 1 then f.ok2 = true ∧ f.ignore2 = false else f.ok1 = true
    let lostRef : Refs := if two then { f with ok2 := false } else { f with ok1 := false, restoreFrom := none }
    let isLost := 4 * refPeriodNs f.freq ≤ n ∨ (f.active = input ∧ 16 ≤ degrees.length ∧ ∀ d ∈ degrees.drop (degrees.length - 16), 90 < d)
    u.phase = .locked → u.still.frozen = false →
    ((if two then f.ok2 else f.ok1) = true → isLost →
      (f.active = input → standby → exec (.refLost dt two n degrees words) s = .next { u with refs := { lostRef with
        words := words, active := if two then 1 else 2, holdover := true, switches := min (f.switches + 1) 255, postCode := 1
        lastEdge := u.nowNs - n, restoreFrom := none, switchPs := u.clock } }) ∧
      (f.active = input → ¬ standby → exec (.refLost dt two n degrees words) s = .next
        (let t : State := { u with refs := { lostRef with
          words := words, active := 0, holdover := true, noRef := true, postCode := 0, lastEdge := u.nowNs - n } }
         (if t.rtc.src = 1 then t.discardWindow else t).post 0 0xFF 0xFFFF 2 3 (bytesOf 1 0 ++ bytesOf 7 0 ++ bytesOf 8 (u.nowNs - n)))) ∧
      (f.active ≠ input → exec (.refLost dt two n degrees words) s = .next { u with refs := lostRef })) ∧
    (f.holdover = true → f.active ≠ 0 → f.postCode = 1 ∨ f.postCode = 3 → 100 ≤ below → f.switchPs + 10 ^ 8 ≤ u.clock →
      exec (.holdoverExit dt below) s = .next
        (({ u with refs := { f with holdover := false, postCode := 0 } } : State).post 0 0xFF 0xFFFF f.postCode (if f.postCode = 1 then 1 else 0)
          (bytesOf 1 f.active ++ bytesOf 7 0 ++ bytesOf 8 f.lastEdge))) ∧
    (f.active ≠ 0 → f.active ≠ input → (if two then f.ok2 else f.ok1) = false → refFreq (classOf hz) = f.freq →
      (two = false → exec (.refclkRestored dt two hz) s = .next { u with refs := { f with ok1 := true, restoreFrom := some u.clock } }) ∧
      (two = true → f.ignore2 = false → exec (.refclkRestored dt two hz) s = .next { u with refs := { f with ok2 := true } }) ∧
      (two = true → f.ignore2 = true → exec (.refclkRestored dt two hz) s = .next u)) ∧
    (∀ p, u.image.revertive = true → f.active = 2 → f.ok1 = true → f.holdover = false → f.restoreFrom = some p →
      p + u.image.restoreS * 10 ^ 12 ≤ u.clock → exec (.refRevert dt) s = .next { u with refs := { f with
        active := 1, holdover := true, switches := min (f.switches + 1) 255, postCode := 3, lastEdge := u.nowNs, restoreFrom := none
        switchPs := u.clock } }) ∧
    (f.holdover = true → f.active = 0 → f.ignore2 = false →
      (classOf hz1 ≠ .absent ∨ classOf hz2 ≠ .absent → ∃ t, exec (.refRecovered dt hz1 hz2) s = .next t ∧
        t.refs.active = (if classOf hz1 ≠ .absent then 1 else 2) ∧ t.refs.switches = min (f.switches + 1) 255 ∧ t.refs.postCode = 1 ∧
        t.refs.holdover = true ∧ t.refs.noRef = false ∧ t.refs.noRefEnd = some u.nowNs ∧ t = { u with refs := t.refs }) ∧
      (classOf hz1 = .absent → classOf hz2 = .absent → exec (.refRecovered dt hz1 hz2) s = .next u))

/-! ### The front end -/

/-- Every gain from −30 to +24 dB is realised by the highest LNA step whose attenuation lies within 0 to 30 dB: G = LNA − ATTN. -/
def Obligations.GainRealisation : Prop :=
  ∀ g : Int, -30 ≤ g → g ≤ 24 →
    gainOf (realise g).1 (realise g).2 = g ∧ (realise g).2.toNat ≤ 30 ∧ (realise g).1.toNat ≤ 2 ∧
    ∀ lna : BitVec 2, (realise g).1.toNat < lna.toNat → lna.toNat ≤ 2 → 30 < 12 * (lna.toNat : Int) - g

/-- The AGC: an extreme code reduces the gain by 6 dB, once per window, in AUTO and not frozen; the end of a window runs the law of the manual
on its peak; an increase that waited for the end of a burst is then made. A gain that is decided takes effect at a step instant at most 64
samples later, one instant for all that is decided before it. `x` is the reach with what was decided before in force. -/
def Obligations.ReachAgcLaw : Prop :=
  ∀ (s : State) (dt mean : Nat) (r : Fin 4) (p : Int),
    let u := s.advance dt
    let x := u.reaches[r].settle u.clock
    let set (y : Reach) (g : Int) : Reach := y.setGain g (u.stepDraw r) u.clock
    let closed : Reach := { x with clipDone := false, ovrThis := false, discardPeak := false }
    let level : Reach := { closed with peak := BitVec.ofInt 8 (clamp 0 255 (roundDiv (-p) 50)), mean := BitVec.ofNat 8 (min mean 255) }
    let answers (y : Reach) : Prop := exec (.agcWindowEnd dt r p mean) s = .next (u.modReach r (fun _ => y))
    u.sampling r = true →
    (∀ g, (set x g).decided = g ∧ ∃ q, (set x g).step = some q ∧ q.gain = g ∧ (q.lna, q.attn) = realise g ∧
      (∀ o, x.step = some o → q.atPs = o.atPs) ∧ (x.step = none → u.clock ≤ q.atPs ∧ q.atPs ≤ u.clock + 64 * 320)) ∧
    (u.reaches[r].auto = true → u.reaches[r].agcFrozen u.clock = false → u.reaches[r].clipDone = false →
      exec (.agcClipReduction dt r) s = .next (u.modReach r (fun _ => { set x (max (x.decided - 6) (-30)) with clipDone := true }))) ∧
    (u.reaches[r].auto = true → u.reaches[r].agcFrozen u.clock = false → u.reaches[r].clipDone = true → exec (.agcClipReduction dt r) s = .next u) ∧
    (u.reaches[r].auto = true → u.reaches[r].agcFrozen u.clock = false → u.burstIn r = false →
      (∀ up, x.deferred = some up → exec (.agcDeferredIncrease dt r) s = .next (u.modReach r (fun _ => { set x (min (x.decided + up) 24) with
        lastRisePs := some u.clock, deferred := none }))) ∧
      (x.deferred = none → exec (.agcDeferredIncrease dt r) s = .next (u.modReach r (fun _ => x)))) ∧
    (x.discardPeak = true → answers closed) ∧
    (x.discardPeak = false → x.auto = false ∨ x.agcFrozen u.clock = true → answers level) ∧
    (x.discardPeak = false → x.auto = true → x.agcFrozen u.clock = false →
      (x.oneShot = true → answers { set level (clamp (-30) 24 (roundDiv (-3000 - 100 * x.target - p) 100)) with oneShot := false }) ∧
      (x.oneShot = false → -100 * x.hi < p →
        answers { set level (max (x.decided - max 1 (ceilDb (p + 100 * x.target))) (-30)) with quietPs := 0, deferred := none }) ∧
      (x.oneShot = false → -100 * x.lo ≤ p → p ≤ -100 * x.hi → answers { level with quietPs := 0, deferred := none }) ∧
      (x.oneShot = false → p < -100 * x.lo → p ≤ -100 * x.hi →
        (x.quietPs + agcWindowPs < x.decayHoldPs ∨ (∃ t, x.lastRisePs = some t ∧ u.clock < t + x.decayPeriodPs) →
          answers { level with quietPs := x.quietPs + agcWindowPs, deferred := none }) ∧
        (x.decayHoldPs ≤ x.quietPs + agcWindowPs → (∀ t, x.lastRisePs = some t → t + x.decayPeriodPs ≤ u.clock) →
          (u.burstIn r = false → answers { set level (min (x.decided + min x.decayStep ((-100 * x.target - p) / 100)) 24) with
            quietPs := x.quietPs + agcWindowPs, lastRisePs := some u.clock, deferred := none }) ∧
          (u.burstIn r = true → answers { level with
            quietPs := x.quietPs + agcWindowPs, deferred := some (min x.decayStep ((-100 * x.target - p) / 100)) }))))

/-- REACH_x_AGC takes a write only with 1 ≤ HI < TARGET < LO ≤ 60; any other write leaves the register and is posted with SEVERITY 0. Before the
reach is ready the value waits. REACH_x_ATTN takes a write in MANUAL only, which is the MODE that stands written: at a step instant in a
ready reach, else for the instant the reach is ready, and its reads show what waits; LNA 0b11 leaves LNA. -/
def Obligations.GainWrites : Prop :=
  (∀ (s : State) (dt : Nat) (r : Fin 4) (v : Word),
    let u := s.advance dt
    let valid := 1 ≤ bits v 11 6 ∧ bits v 11 6 < bits v 17 12 ∧ bits v 17 12 < bits v 23 18 ∧ bits v 23 18 ≤ 60
    u.awake = true → u.reachExists r = true →
    (valid → ∃ t, exec (.reachAgcWrite dt r v) s = .next t ∧ t.reaches[r].regs.agc = v &&& 0xC0FFFFC7 ∧
      (u.reaches[r].st = .ready → t.reaches[r].live.agc = v &&& 0xC0FFFFC7) ∧
      (u.reaches[r].st ≠ .ready → t = u.modReach r (fun x => { x with regs := { x.regs with agc := v &&& 0xC0FFFFC7 } }))) ∧
    (¬ valid → exec (.reachAgcWrite dt r v) s = .next (u.post 7 0xFF 0xFFFF 0x70 0 (bytesOf 2 (0x410 + 0x100 * r.val))))) ∧
  (∀ (s : State) (dt : Nat) (r : Fin 4) (v : Word),
    let u := s.advance dt
    let x := u.reaches[r].settle u.clock
    let lna (old : BitVec 2) : BitVec 2 := if bits v 9 8 = 3 then old else BitVec.ofNat 2 (bits v 9 8)
    u.awake = true → u.reachExists r = true →
    (bits x.regs.agc 31 30 = 1 → x.st = .ready → ∃ t q, exec (.reachAttnWrite dt r v) s = .next t ∧ t.reaches[r].step = some q ∧
      q.lna = lna (match x.step with | some g => g.lna | none => x.lna) ∧ q.attn = BitVec.ofNat 5 (bits v 4 0) ∧
      q.gain = 12 * (q.lna.toNat : Int) - min (bits v 4 0) 30 ∧ (x.step = none → u.clock ≤ q.atPs ∧ q.atPs ≤ u.clock + 64 * 320) ∧
      t = u.modReach r (fun _ => { x with step := some q, discardPeak := true })) ∧
    (bits x.regs.agc 31 30 = 1 → x.st ≠ .ready → exec (.reachAttnWrite dt r v) s = .next (u.modReach r (fun _ => { x with
      regs := { x.regs with attn := some (lna (match x.regs.attn with | some w => w.1 | none => x.lna), BitVec.ofNat 5 (bits v 4 0)) } }))) ∧
    (bits x.regs.agc 31 30 ≠ 1 → exec (.reachAttnWrite dt r v) s = .next (u.modReach r (fun _ => x))))

/-- A tributary takes a write only with its usable bandwidth wholly within 0 to 1,562.5 MHz and with no context on it, and its chain starts
again, with 28 outputs to be marked invalid; a commit of the same FAB cycle is then checked against the new value; any other write leaves
the register and is posted with SEVERITY 0. -/
def Obligations.TributaryWrite : Prop :=
  ∀ (s : State) (dt : Nat) (r : Fin 4) (n : Fin 8) (v : Word),
    let u := s.advance dt
    let written := (u.modTrib r n (fun t => { t with
      reg := v &&& 0xC01FFFFF, nco := 0, pos := 0, lines := [], left := 28, startPs := u.clock })).modReach r (fun x => { x with
        events := x.events ++ [(u.clock, .trib n)] })
    u.awake = true → u.reachExists r = true →
    (tribInRange v = true → u.tribInUse r n = false →
      exec (.reachTribWrite dt r n v) s = .next (written.forEach allCtxs (fun c t => t.checkAgain r n c)) ∧
      ((∀ (c : Fin 256) (p : Pending), u.ctxs[c].pending = some p → p.at_ = u.clock → p.entry.idle = true ∨ p.entry.reach ≠ r ∨ p.entry.trib ≠ n) →
        exec (.reachTribWrite dt r n v) s = .next written)) ∧
    (tribInRange v = false ∨ u.tribInUse r n = true → exec (.reachTribWrite dt r n v) s = .next
      (u.post 7 0xFF 0xFFFF 0x70 0 (bytesOf 2 (0x440 + 0x100 * r.val + 4 * n.val))))

/-- A spate detector that delivers a level E forms the average A with it; a clear flag rises above A plus STEP or above the absolute level, a
set one clears below both less 3 dB, and a context that honours the blanking in force holds its flag clear. An overrange sample counts once
per window, and at −30 dB sets AT_MIN and is posted with SEVERITY 3 at most once a second; a clamp counts. BLANK_IN reaches every reach that
samples: a source that becomes asserted opens an interval and counts it, or goes on with one whose tail runs; the release of the last source
starts the tail; and the interval ends when the tail and the latency have passed, with the spate flags of the contexts that honour it clear. -/
def Obligations.SpateOverrangeBlanking : Prop :=
  (∀ (s : State) (dt : Nat) (r : Fin 4) (n : Fin 8) (c : Fin 256) (e : Int),
    let u := s.advance dt
    let x := u.reaches[r]
    let y := x.settle u.clock
    let counted : Reach := { y with ovrWindows := if y.ovrThis then y.ovrWindows else y.ovrWindows.add 65535 u.clock, ovrThis := true }
    let delivered (flag : Bool) (a : Option Int) : Bool :=
      if flag then !x.spateClears e (spateAverage a e) else x.spateRaises e (spateAverage a e)
    let onTrib : State := u.modTrib r n (fun t => { t with
      spateLevel := e, spateFlag := delivered t.spateFlag t.spateAvg, spateAvg := some (spateAverage t.spateAvg e) })
    (u.spateValid = true → u.sampling r = true →
      exec (.spateFlagRaise dt (.trib r n) [e]) s = .next onTrib ∧ exec (.spateFlagClear dt (.trib r n) [e]) s = .next onTrib ∧
      (u.ctxs[c].st ≠ .idle → u.ctxs[c].reachOf = r → ∀ i ∈ [Instr.spateFlagRaise dt (.ctx c) [e], .spateFlagClear dt (.ctx c) [e]],
        ∃ t, exec i s = .next t ∧ t.ctxs[c].spateLevel = e ∧ t.ctxs[c].spateAvg = some (spateAverage u.ctxs[c].spateAvg e) ∧
          t.ctxs[c].spateFlag = (!(u.ctxs[c].active.honour && x.blanked u.clock) && delivered u.ctxs[c].spateFlag u.ctxs[c].spateAvg) ∧
          t = u.modCtx c (fun _ => t.ctxs[c]))) ∧
    (u.sampling r = true →
      (y.gain ≠ -30 → exec (.overrangeSample dt r) s = .next (u.modReach r (fun _ => counted))) ∧
      (y.gain = -30 → u.since y.ovrPostPs (10 ^ 12) = true → exec (.overrangeSample dt r) s = .next ((u.modReach r (fun _ => { counted with
        atMin := { on := true, atPs := u.clock }, ovrPostPs := some u.clock })).post (0x10 + r.val) r.val 0xFFFF 0x72 3 [])) ∧
      (y.gain = -30 → u.since y.ovrPostPs (10 ^ 12) = false → exec (.overrangeSample dt r) s = .next (u.modReach r (fun _ => { counted with
        atMin := { on := true, atPs := u.clock } }))) ∧
      exec (.sampleClamped dt r) s = .next (u.modReach r (fun x => { x with satEvents := x.satEvents.add 65535 u.clock })))) ∧
  (∀ (s : State) (dt : Nat) (r : Fin 4),
    let u := s.advance dt
    exec (.blankInAssert dt) s = .next (({ u with pins := { u.pins with blankIn := true } } : State).blankAll) ∧
    exec (.blankInRelease dt) s = .next (({ u with pins := { u.pins with blankIn := false } } : State).blankAll) ∧
    (∀ f e, u.sampling r = true → u.reaches[r].blank = .tail f e → e + u.reaches[r].tailPs + blankLatencyPs ≤ u.clock →
      ∃ t, exec (.blankingIntervalEnd dt r) s = .next t ∧ t.reaches[r].blank = .none ∧
        (∀ c : Fin 256, u.ctxs[c].st ≠ .idle → u.ctxs[c].reachOf = r → u.ctxs[c].active.honour = true → t.ctxs[c].spateFlag = false)) ∧
    (∀ x : Reach, ∀ now : Nat,
      (x.blank = .none → x.blankStep true now = { x with blank := .on now, blankCount := x.blankCount + 1 } ∧ x.blankStep false now = x) ∧
      (∀ f, x.blank = .on f → x.blankStep false now = { x with blank := .tail f now } ∧ x.blankStep true now = x) ∧
      (∀ f t, x.blank = .tail f t → now < t + x.tailPs → x.blankStep true now = { x with blank := .on f })))

/-- Synchronising resets: SYNC_N found asserted at a reference tick after at least two ticks released asks for a sync edge four ticks on while
PIN_EN is 1, and GO for one at the first tick at least 1 µs on; a request is merged into one whose edge lies at most four ticks before; with
no reach ready GO is discarded with a post; at the edge the ready reaches are reset and the request is posted. -/
def Obligations.SynchronisingResets : Prop :=
  ∀ (s : State) (dt : Nat),
    let u := s.advance dt
    let tick := u.tickBefore u.clock
    let merged (edge : Nat) := u.sync.pending.any (fun p => decide (p.2 ≤ edge ∧ edge ≤ p.2 + 4 * u.tickPs)) ||
      (match u.sync.lastEdge with | some e => decide (e ≤ edge ∧ edge ≤ e + 4 * u.tickPs) | none => false)
    let asked (who edge : Nat) : State := if merged edge then u else { u with sync := { u.sync with pending := u.sync.pending ++ [(who, edge)] } }
    let found (t : State) (n : Nat) : State := { t with sync := { t.sync with released := n } }
    (u.serving = true →
      (u.sync.pinEn = true → 2 ≤ u.sync.released → exec (.syncNAssert dt [true]) s = .next (found (asked 0 (tick + 4 * u.tickPs)) 0)) ∧
      (u.sync.pinEn = false ∨ u.sync.released < 2 → exec (.syncNAssert dt [true]) s = .next (found u 0)) ∧
      exec (.syncNAssert dt [false]) s = .next (found u (min (u.sync.released + 1) 2))) ∧
    (u.awake = true → (∃ r, u.reachUp r = true) → exec (.syncGo dt) s = .next (asked 1 (u.tickFrom (u.clock + 1000000)))) ∧
    (u.awake = true → (∀ r, u.reachUp r = false) → exec (.syncGo dt) s = .next (u.writeIgnored 0x434)) ∧
    (u.serving = true → ∀ p, u.syncDue = some p → exec (.syncResetApply dt) s = .next
      (let v : State := { u with sync := { u.sync with pending := u.sync.pending.erase p, lastEdge := some p.2 } }
       (v.forEach (allReaches.filter v.reachUp) (fun r t => t.syncReach r p.2)).post 0 0xFF 0xFFFF 4 0
         (bytesOf 8 (u.nowNs - (u.clock - p.2) / 1000) ++ bytesOf 1 p.1)))

/-! ### Time -/

/-- COMMIT stages RTC_SET, in place of an earlier value; a value beyond 2199-12-31 23:59:59 is ignored with a WRITE_IGNORED post; CANCEL drops
the staged value, but for a boundary of the same FAB cycle, which still uses it. A second boundary counts one second and clears the
fraction. A value staged at least 1 ms before becomes the count with fraction 0 and clears TIME_LOST; one staged later waits. With nothing
staged and no autoset nothing else of the count changes; with REFCLK as the source of a window that runs, the boundary is one of its crystal
ticks. -/
def Obligations.StagedTime : Prop :=
  (∀ (s : State) (dt : Nat),
    let u := s.advance dt
    let v := u.rtc.setHi.toNat * 2 ^ 32 + u.rtc.setLo.toNat
    u.awake = true →
    (v ≤ 6311433599 → exec (.rtcCommit dt) s = .next { u with rtc := { u.rtc with staged := some (v, u.clock) } }) ∧
    (6311433599 < v → exec (.rtcCommit dt) s = .next (u.post 7 0xFF 0xFFFF 0x70 0 (bytesOf 2 0x1434))) ∧
    (∃ t, exec (.rtcCancel dt) s = .next t ∧ t.rtc.staged = none ∧ (∀ p, u.rtc.staged = some p → t.stagedNow = some p) ∧
      t = { u with rtc := { u.rtc with staged := none, cancelled := t.rtc.cancelled } } ∧
      (∀ n : Nat, 0 < n → u.rtc.staged ≠ none → (t.advance n).stagedNow = none))) ∧
  (∀ (s : State) (dt : Nat),
    let u := s.advance dt
    ∃ t, exec (.rtcSecondBoundary dt) s = .next t ∧
      (∀ v at_, u.stagedNow = some (v, at_) → at_ + 10 ^ 9 ≤ u.clock →
        t.rtc.seconds = v ∧ t.rtc.fracPs = 0 ∧ t.rtc.staged = none ∧ t.rtc.timeLost = false) ∧
      (∀ v at_, u.stagedNow = some (v, at_) → u.clock < at_ + 10 ^ 9 →
        t.rtc.seconds = (u.rtc.seconds + 1) % 2 ^ 40 ∧ t.rtc.fracPs = 0 ∧ t.rtc.staged = u.rtc.staged ∧ t.rtc.timeLost = u.rtc.timeLost) ∧
      (u.stagedNow = none → u.rtc.autoset = none →
        t.rtc.seconds = (u.rtc.seconds + 1) % 2 ^ 40 ∧ t.rtc.fracPs = 0 ∧ t.rtc.timeLost = u.rtc.timeLost) ∧
      (u.stagedNow = none → u.rtc.autoset = none → u.rtc.offsetNext = none → u.rtc.summerNext = none →
        ((u.rtc.seconds + 1) % 2 ^ 40) % 6311433600 ≠ 0 →
        let v : State := { u with rtc := { u.rtc with seconds := (u.rtc.seconds + 1) % 2 ^ 40, fracPs := 0 } }
        (u.rtc.src ≠ 1 ∨ u.rtc.winState = 0 → t = v) ∧
        (u.rtc.src = 1 → u.rtc.winState ≠ 0 → u.rtc.srcLast = none → t = { v with rtc := { v.rtc with
          srcFirst := some (u.rtc.srcFirst.getD (v.nowNs, 3 * u.clock / 1000)), srcLast := some (v.nowNs, 3 * u.clock / 1000)
          srcCount := u.rtc.srcCount + 1 } })))

/-- OFFSET is taken from −56 to +56 only, any other value is posted and changes nothing; the part takes the last OFFSET written, and the last
step of SUMMER, at the next second boundary. STEP_UP sets SUMMER and STEP_DOWN clears it at the next second boundary; a step that would
leave SUMMER as it is, and a write with both bits, change nothing. -/
def Obligations.CivilTime : Prop :=
  (∀ (s : State) (dt : Nat) (v : BitVec 8),
    let u := s.advance dt
    (u.awake = true →
      (-56 ≤ v.toInt → v.toInt ≤ 56 → exec (.rtcOffsetWrite dt v) s = .next { u with rtc := { u.rtc with offsetNext := some v } }) ∧
      (v.toInt < -56 ∨ 56 < v.toInt → exec (.rtcOffsetWrite dt v) s = .next (u.post 7 0xFF 0xFFFF 0x70 0 (bytesOf 2 0x141C)))) ∧
    (∃ t, exec (.rtcSecondBoundary dt) s = .next t ∧ t.rtc.offset = u.rtc.offsetNext.getD u.rtc.offset ∧ t.rtc.offsetNext = none)) ∧
  (∀ (s : State) (dt : Nat) (v : Word),
    let u := s.advance dt
    (u.awake = true →
      (u.rtc.summer = false → exec (.rtcStepUp dt) s = .next { u with rtc := { u.rtc with summerNext := some true } }) ∧
      (u.rtc.summer = true → exec (.rtcStepUp dt) s = .next u) ∧
      (u.rtc.summer = true → exec (.rtcStepDown dt) s = .next { u with rtc := { u.rtc with summerNext := some false } }) ∧
      (u.rtc.summer = false → exec (.rtcStepDown dt) s = .next u) ∧
      (bit v 31 = true → bit v 30 = true → exec (.registerWrite dt .twoWire 0x141C v) s = .next u)) ∧
    (∃ t, exec (.rtcSecondBoundary dt) s = .next t ∧ t.rtc.summer = u.rtc.summerNext.getD u.rtc.summer ∧ t.rtc.summerNext = none))

/-- Rate trimming: a host write of TRIM applies at once, is reported, and restarts the window; the end of a window measured over at least two
events and half its length moves TRIM by −e, shows e, starts the next window and asks for a class 4 journal session; a shorter one is
discarded; a mains edge is a source event of the mains source alone. The times measured are those of the first and last source event of the
window, and with REFCLK in a window of fewer than two crystal ticks those that the command gives. -/
def Obligations.RateTrimming : Prop :=
  ∀ (s : State) (dt dS dR n : Nat) (v : BitVec 16),
    let u := s.advance dt
    let err (ds dr : Nat) : Int := clamp (-32767) 32767 (roundDiv (((ds : Int) - (dr : Int)) * 64000000) dr)
    let moved (e : Int) : Prop := ∃ t, exec (.rtcTrimWindowEnd dt dS dR n) s = .next t ∧
      t.rtc.trim = clamp (-32768) 32767 (u.rtc.trim - e) ∧ t.rtc.lastErr = BitVec.ofInt 16 e ∧ t.rtc.trimEndNs = u.nowNs ∧
      t.rtc.winState = 3 ∧ t.rtc.winStartNs = u.nowNs
    u.awake = true →
    exec (.rtcTrimWrite dt v) s = .next
      ((({ u with rtc := { u.rtc with trim := signed 16 v.toNat } } : State).timeReport 9 none (bytesOf 8 0) (bytesOf 8 u.nowNs)).newWindow 1) ∧
    (u.rtc.winState ≠ 0 → u.rtc.src ≠ 0 → u.rtc.winStartNs + u.rtc.windowNs ≤ u.nowNs →
      (u.rtc.src = 1 → u.rtc.srcCount < 2 →
        (0 < dR → u.rtc.windowNs ≤ 2 * dR → u.refs.noRef = false → moved (err (3 * dS) (3 * dR))) ∧
        (2 * dR < u.rtc.windowNs ∨ u.refs.noRef = true → exec (.rtcTrimWindowEnd dt dS dR n) s = .next u.discardWindow)) ∧
      (∀ a b, 2 ≤ u.rtc.srcCount → u.rtc.srcFirst = some a → u.rtc.srcLast = some b →
        (a.2 < b.2 → 3 * u.rtc.windowNs ≤ 2 * (b.2 - a.2) → u.rtc.src ≠ 1 ∨ u.refs.noRef = false →
          moved (err (3 * (b.1 - a.1)) (b.2 - a.2))) ∧
        (2 * (b.2 - a.2) < 3 * u.rtc.windowNs → exec (.rtcTrimWindowEnd dt dS dR n) s = .next u.discardWindow)) ∧
      (u.rtc.src ≠ 1 → u.rtc.srcCount < 2 → exec (.rtcTrimWindowEnd dt dS dR n) s = .next u.discardWindow)) ∧
    (u.rtc.src ≠ 4 → exec (.mainsInEdge dt) s = .next u) ∧
    (u.rtc.src = 4 → u.rtc.winState ≠ 0 → u.rtc.mainsLast = none → u.rtc.srcLast = none → exec (.mainsInEdge dt) s = .next { u with
      rtc := { u.rtc with srcFirst := some (u.rtc.srcFirst.getD (u.nowNs, 0)), srcLast := some (u.nowNs, 0), srcCount := u.rtc.srcCount + 1
                          mainsLast := some u.clock } })

/-- With VDD_A18 below 1.55 V and VBAT at 1.5 V or more the domain switches over: the first switch-over stores the seconds count and sets VALID,
a later one adds one to SWITCH_COUNT and leaves the stamp, and a write of 1 to VALID clears both, but in the cycle of a switch-over; the
return to the main supply, above 1.65 V for 1 ms or with VBAT failing at 1.5 V or more, leaves them. Supplies: an outage of the backup
domain of 2 ms or more loses its content, one below 1.8 ms keeps it; VBAT below 1.8 V sets VBAT_LOW at the hourly measurement; a supply out
of its window for 10 µs is latched and posted with SEVERITY 3, and again every second while it is. -/
def Obligations.SuppliesAndDomain : Prop :=
  (∀ (s : State) (dt a18 vbat us : Nat) (v : Word),
    let u := s.advance dt
    (u.rtc.onVbat = false → a18 < 1550 → 1500 ≤ vbat →
      (u.rtc.swValid.on = false → exec (.rtcSwitchToVbat dt a18 vbat) s = .next { u with
        rtc := { u.rtc with onVbat := true, lastSwitchNs := u.nowNs, swValid := { on := true, atPs := u.clock }, swStamp := u.rtc.seconds } }) ∧
      (u.rtc.swValid.on = true → exec (.rtcSwitchToVbat dt a18 vbat) s = .next { u with
        rtc := { u.rtc with onVbat := true, lastSwitchNs := u.nowNs, swValid := { on := true, atPs := u.clock }
                            swCount := min (u.rtc.swCount + 1) 255 } })) ∧
    (u.awake = true → bit v 31 = true → u.rtc.swValid.on = false ∨ u.rtc.swValid.atPs ≠ u.clock →
      exec (.registerWrite dt .twoWire 0x1424 v) s = .next { u with rtc := { u.rtc with swValid := {}, swStamp := 0, swCount := 0 } }) ∧
    (u.rtc.onVbat = true → (1650 < a18 ∧ 1000 ≤ us) ∨ (1500 ≤ a18 ∧ vbat < 1500) → exec (.rtcReturnToMain dt a18 vbat us) s = .next { u with
      rtc := { u.rtc with onVbat := false, returned := some (u.rtc.lastSwitchNs, u.nowNs) } })) ∧
  (∀ (s : State) (dt mv ioc us : Nat) (osc : Bool) (k : Fin 6),
    let u := s.advance dt
    let b : BitVec 6 := BitVec.ofNat 6 (2 ^ k.val)
    let posted (t : State) : State := ({ t with pins := { t.pins with supplyPostPs := t.pins.supplyPostPs.set k (some t.clock) } } : State).post
      7 0xFF 0xFFFF 0x80 3 (bytesOf 1 k.val)
    (2000 ≤ us → exec (.rtcDomainLost dt osc us) s = .next ({ u with rtc := { u.rtc with
      seconds := 0, fracPs := 0, timeLost := true, oscStopped := osc, calWrap := {}, summer := false, offset := 0, trim := 0, trimEndNs := 0
      swValid := {}, swStamp := 0, swCount := 0, lastSwitchNs := 0, lostReport := true
      offsetNext := none, summerNext := none, autoset := none } } : State).discardWindow) ∧
    (us < 1800 → exec (.rtcDomainLost dt osc us) s = .next u) ∧
    (u.still.frozen = false → u.since u.rtc.vbatPs (3600 * 10 ^ 12) = true → exec (.vbatMeasure dt mv) s = .next { u with
      rtc := { u.rtc with vbatLow := decide (mv < 1800), vbatPs := some u.clock } }) ∧
    (u.phase = .locked → u.still.frozen = false →
      (u.pins.supplyNow.getLsbD k.val = false → u.pins.supplyOut k mv ioc = true → 10 ≤ us →
        exec (.supplyOutOfRange dt k mv ioc us) s = .next (posted { u with pins := { u.pins with
          supplyNow := u.pins.supplyNow ||| b, supplyLatched := u.pins.supplyLatched.set k { on := true, atPs := u.clock } } })) ∧
      (u.pins.supplyNow.getLsbD k.val = true → u.since u.pins.supplyPostPs[k] (10 ^ 12) = true → exec (.supplyMonitorRepeat dt k) s = .next (posted u)) ∧
      (u.pins.supplyOut k mv ioc = false → exec (.supplyBackInRange dt k mv ioc) s = .next { u with
        pins := { u.pins with supplyNow := u.pins.supplyNow &&& ~~~b } })))

/-! ### Doze -/

/-- Doze requests: ENTER asks for entry, EXIT for exit, which inside a scheduled window silences the schedule; the start of a window asks for
entry, and the end of the last one that runs for exit, while SCHEDULE_EN is 1 and TIME_LOST is clear. FAB in doze: the START of a
transaction addressed to the part restarts it, 10 ms without one stop it, and neither ends doze. Exit brings the reaches up again, sends the
reports kept, and has every context that is not IDLE enter ACQUIRE. -/
def Obligations.DozeRequestsAndExit : Prop :=
  (∀ (s : State) (dt : Nat),
    let u := s.advance dt
    let d := u.doze
    let acts (d : Doze) := d.scheduleEn = true ∧ u.rtc.timeLost = false ∧ d.suppressed = false
    let enter (d : Doze) : State := { u with doze := if d.inDoze && !d.exitRequested then d else { d with requested := true } }
    (u.awake = true →
      exec (.dozeEnter dt) s = .next (enter d) ∧
      (d.scheduleEn = false ∨ u.inWindow = false → exec (.dozeExit dt) s = .next { u with
        doze := if d.inDoze || d.requested then { d with exitRequested := true } else d }) ∧
      (d.scheduleEn = true → u.inWindow = true → exec (.dozeExit dt) s = .next { u with
        doze := if d.inDoze || d.requested then { d with exitRequested := true, suppressed := true } else { d with suppressed := true } })) ∧
    (u.phase = .locked → u.still.frozen = false → u.rtc.seconds % 60 = 0 →
      ((∃ w ∈ u.image.windows, w.1 = minuteOf u.rtc.seconds) →
        (d.scheduleEn = true → u.rtc.timeLost = false → u.inWindow = true → exec (.dozeWindowStart dt) s = .next (enter { d with suppressed := false })) ∧
        (d.scheduleEn = false ∨ u.rtc.timeLost = true → exec (.dozeWindowStart dt) s = .next { u with doze := { d with suppressed := false } })) ∧
      ((∃ w ∈ u.image.windows, (w.1 + w.2) % 1440 = minuteOf u.rtc.seconds) → u.inWindow = false →
        (acts d → exec (.dozeWindowEnd dt) s = .next { u with doze := if d.inDoze || d.requested then { d with exitRequested := true } else d }) ∧
        (¬ acts d → exec (.dozeWindowEnd dt) s = .next u)))) ∧
  (∀ (s : State) (dt : Nat),
    let u := s.advance dt
    (u.phase = .locked → u.still.frozen = false → u.doze.inDoze = true →
      (u.doze.fabAwake = false → exec (.dozeTwWake dt) s = .next { u with doze := { u.doze with fabAwake := true, lastTwPs := u.clock } }) ∧
      (u.doze.fabAwake = true → u.doze.lastTwPs + 10 ^ 10 ≤ u.clock → exec (.dozeFabIdleStop dt) s = .next { u with doze := { u.doze with fabAwake := false } }) ∧
      (u.doze.exitRequested = true → exec (.dozeExitSequence dt) s = .next
        (let a : State := { u with doze := { u.doze with inDoze := false, exitRequested := false, fabAwake := true } }
         let b := if u.journal.ready = true ∧ u.journal.running = none then a.grant else a
         let v := if b.mgmtOnly then b else
           ((allReaches.filter (fun r => b.reaches[r].st == .stopped)).foldl (fun t r => t.startReach r (t.clock + 220 * 10 ^ 9)) b).startOutfall
         (v.forEach (allCtxs.filter (fun q => v.ctxs[q].st != .idle)) (fun q t => t.wakeCtx q)).firstReports.sendReports))))

/-- Doze entry, once its waits have ended: host commits and commands end, held records are released, the session ends and the driver, BLANK_OUT
and CX_REQ are off; no proposal or sync request is left; then the reaches that run stop, and FAB stops. -/
def Obligations.DozeEntry : Prop :=
  ∀ (s : State) (dt : Nat),
    let u := s.advance dt
    u.serving = true → u.doze.requested = true → u.dozeFree = true →
    ∃ t, exec (.dozeEntry dt) s = .next t ∧
      t.doze.inDoze = true ∧ t.doze.requested = false ∧ t.doze.fabAwake = false ∧
      t.host.session = none ∧ t.held = [] ∧ t.proposals = [] ∧ t.sync.pending = [] ∧
      t.pins.blankOut = false ∧ t.pins.cxReq = false ∧ t.pins.driver = false ∧ t.outfall.st = .off ∧ t.outfall.air = none ∧
      (∀ r : Fin 4, t.reaches[r].st = .stopped ∨ t.reaches[r].st = .disabled ∨ t.reaches[r].st = .retired)

/-! ### The flash journal and the keys -/

/-- A journal session: refused in doze, without a journal, after a failure and with 16 sessions queued; started at once when none runs, else
queued; and granted, but not while doze entry waits, in class order, first come first served within a class, the arbiter's own compaction
before all. The session granted next is a queued one of the lowest class there is, and the first of its class. -/
def Obligations.JournalSessions : Prop :=
  (∀ (s : State) (dt : Nat) (j : Session),
    let u := s.advance dt
    (s.journalRefusal j.job ≠ 0 → s.journalRequest j = (s, s.journalRefusal j.job)) ∧
    (s.journalRefusal j.job = 0 → s.journalFree = true → (s.journalRequest j).1 = s.journalStart j) ∧
    (s.journalRefusal j.job = 0 → s.journalFree = false →
      s.journalRequest j = ({ s with journal := { s.journal with queue := s.journal.queue ++ [j] } }, 1)) ∧
    (u.awake = true → u.doze.inDoze = false → u.doze.requested = false → u.journal.ready = true → u.journal.running = none →
      (u.journal.compactDue = true → exec (.journalSessionGrant dt) s = .next
        (({ u with journal := { u.journal with compactDue := false } } : State).journalStart ⟨.compact 1, false⟩)) ∧
      (u.journal.compactDue = false → ∀ k, u.journal.nextSession = some k → exec (.journalSessionGrant dt) s = .next
        (({ u with journal := { u.journal with queue := u.journal.queue.erase k } } : State).journalStart k)) ∧
      (u.journal.compactDue = false → u.journal.queue = [] → exec (.journalSessionGrant dt) s = .next u))) ∧
  (∀ (j : Journal) (k : Session), (∀ x ∈ j.queue, 1 ≤ x.job.cls ∧ x.job.cls ≤ 5) → j.nextSession = some k →
    ∃ a b, j.queue = a ++ k :: b ∧ (∀ x ∈ j.queue, k.job.cls ≤ x.job.cls) ∧ (∀ x ∈ a, x.job.cls ≠ k.job.cls))

/-- An append programs its record behind the last one, commits it when the read-back agrees, and asks for a compaction when the bank is full to
1,536 KiB; a read-back that fails leaves it uncommitted, is posted with SEVERITY 2, asks for a compaction, and leaves what was to be
journalled changed. A compaction makes the other bank, with the live records and the next generation, the active one, and erases the old;
one whose read-back fails erases the bank it wrote and leaves the active one. Replay completes once the image has been accepted or refused:
nothing to replay without a journal base; the committed bank of the newer generation otherwise; and a part without a committed bank formats
one. -/
def Obligations.JournalAppendAndCompaction : Prop :=
  (∀ (s : State) (dt cls typ key : Nat) (p : List Byte) (w ok : Bool),
    let u := s.advance dt
    let idle : State := { u with journal := { u.journal with running := none } }
    u.awake = true →
    (u.journal.running = some ⟨.append cls typ key p, w⟩ →
      (let t := (idle.programRecord typ key p 0).windowOutcome ⟨.append cls typ key p, w⟩ 0
       exec (.journalAppend dt true) s = .next (if 1572864 ≤ t.journal.fill then t.compactionDue else t)) ∧
      exec (.journalAppend dt false) s = .next
        ((((((idle.programRecord typ key p 0xFF).windowOutcome ⟨.append cls typ key p, w⟩ 7).changedAgain typ key p).post 8 0xFF 0xFFFF 0x94 2
          (bytesOf 4 0 ++ bytesOf 4 (bankAddr u.journal.base u.journal.bank + u.journal.fill)))).compactionDue)) ∧
    (u.journal.running = some ⟨.compact cls, w⟩ →
      ∃ t, exec (.journalCompaction dt true) s = .next t ∧ t.journal.bank = u.journal.bank + 1 ∧ t.journal.gen = u.journal.gen + 1 ∧
        t.journal.running = none ∧ t.flash = Memory.erase u.newBank.1 (bankAddr u.journal.base u.journal.bank) bankBytes) ∧
    (u.journal.running = some ⟨.compact cls, w⟩ → u.journal.failedCompactions = 0 →
      ∃ t, exec (.journalCompaction dt false) s = .next t ∧ t.journal.bank = u.journal.bank ∧ t.journal.gen = u.journal.gen ∧
        t.journal.failedCompactions = 1 ∧ t.flash = Memory.erase u.flash (bankAddr u.journal.base (u.journal.bank + 1)) bankBytes) ∧
    (u.journal.running = none → exec (.journalAppend dt ok) s = .next u ∧ exec (.journalCompaction dt ok) s = .next u)) ∧
  (∀ (s : State) (dt : Nat),
    let u := s.advance dt
    u.awake = true → u.image.accepted = true ∨ u.image.refused = true → u.journal.ready = false →
    (u.journal.base = 0 → exec (.journalReplayComplete dt) s = .next { u with journal := { u.journal with ready := true, noJournal := true } }) ∧
    (u.journal.base ≠ 0 → ∀ b g, activeBank u.flash u.journal.base = some (b, g) → exec (.journalReplayComplete dt) s = .next (u.replayBank b g)) ∧
    (u.journal.base ≠ 0 → activeBank u.flash u.journal.base = none → exec (.journalReplayComplete dt) s = .next
      (({ u with journal := { u.journal with ready := true, bank := 1, gen := 0, fill := 32, seq := 0 } } : State).compactionDue)))

/-- The bytes of an append: MAGIC, TYPE, COMMIT, LENGTH, KEY, SEQ, the CRC over all but COMMIT, and the payload, programmed at the end of the
log; every byte of the flash outside them keeps its value. -/
def Obligations.AppendedRecordBytes : Prop :=
  ∀ (s : State) (typ key a : Nat) (p : List Byte) (commit : Byte),
    let t := s.programRecord typ key p commit
    let head := bytesOf 2 0xFE4A ++ bytesOf 1 typ
    let rest := bytesOf 2 p.length ++ bytesOf 2 key ++ bytesOf 4 (s.journal.seq + 1).toNat
    let start := bankAddr s.journal.base s.journal.bank + s.journal.fill
    let bytes : List Byte := head ++ [commit] ++ rest ++ bytesOf 4 (crc32 (head ++ rest ++ p)).toNat ++ p
    Memory.wf s.flash = true →
    (a < start ∨ start + 16 + p.length ≤ a → Memory.read t.flash a = Memory.read s.flash a) ∧
    (∀ i : Nat, (h : i < bytes.length) → Memory.read t.flash (start + i) = Memory.read s.flash (start + i) &&& bytes[i]) ∧
    t.journal.fill = s.journal.fill + 16 + (p.length + 15) / 16 * 16 ∧ t.journal.seq = if commit = 0 then s.journal.seq + 1 else s.journal.seq

/-- The operations of JOURNAL_CMD: ignored with a post while one runs; READ needs no session; WRITE appends a record of class 5; the flash
operations are refused with RESULT 5 where they touch a journal bank or reach 16 MiB, and else are sessions of class 5 over their sector,
block, page or window; COMPACT is a compaction of class 5. -/
def Obligations.JournalCommands : Prop :=
  ∀ (s : State) (dt : Nat) (len : BitVec 12) (key : BitVec 8),
    let u := s.advance dt
    let a := u.journal.arg.toNat
    let ignored := u.post 7 0xFF 0xFFFF 0x70 0 (bytesOf 2 0x201C)
    let flash (at_ n : Nat) (op : FlashOp) : State :=
      if 16777216 < at_ + n ∨ (u.journal.base ≠ 0 ∧ at_ < u.journal.base * 65536 + 2 * bankBytes ∧ u.journal.base * 65536 < at_ + n)
      then { u with journal := { u.journal with result := 5 } } else u.windowSession (.flash op)
    u.awake = true →
    (u.journal.busy = true → ∀ i ∈ [Instr.journalRead dt len, .journalWrite dt len key, .journalFlashRead dt, .journalProgram dt len,
      .journalErase4k dt, .journalErase64k dt, .journalCompact dt], exec i s = .next ignored) ∧
    (u.journal.busy = false →
      exec (.journalRead dt len) s = .next (u.journalReadOp len.toNat) ∧
      exec (.journalWrite dt len key) s = .next (u.windowSession (.append 5 6 key.toNat (u.journal.wdBytes len.toNat))) ∧
      exec (.journalFlashRead dt) s = .next (flash a 256 (.read a)) ∧
      exec (.journalProgram dt len) s = .next (flash a (min len.toNat 256) (programOp a (u.journal.wdBytes len.toNat))) ∧
      exec (.journalErase4k dt) s = .next (flash (a / 4096 * 4096) 4096 (.erase4k a)) ∧
      exec (.journalErase64k dt) s = .next (flash (a / 65536 * 65536) 65536 (.erase64k a)) ∧
      exec (.journalCompact dt) s = .next (u.windowSession (.compact 5)))

/-- The KEYS block: a word of KEYS_DATA, cleared 1 s after the last write; a command with CONFIRM 0x4B59 begins its operation unless the slot
holds a key or the key is zero, and otherwise shows why not and clears KEYS_DATA; a command while one runs only clears KEYS_DATA; the end of
the operation programs the slot, or blows the fuse, clears KEYS_DATA, shows the outcome and posts it. -/
def Obligations.KeysBlock : Prop :=
  ∀ (s : State) (dt : Nat) (n : Fin 4) (v : Word) (confirm : BitVec 16) (slot : Fin 8) (key : BitVec 128),
    let u := s.advance dt
    let k := u.keys
    let wiped : Keys := { k with data := Vector.replicate 4 0, dataPs := none }
    u.awake = true →
    exec (.keysDataWrite dt n v) s = .next { u with keys := { k with data := k.data.set n v, dataPs := some u.clock } } ∧
    (∀ p, k.busy = none → k.dataPs = some p → p + 10 ^ 12 ≤ u.clock → exec (.keysDataClear dt) s = .next { u with keys := wiped }) ∧
    (k.busy = none →
      (k.slotSet slot = false → k.word ≠ 0 → exec (.keysProgramKey dt 0x4B59 slot) s = .next { u with
        keys := { k with busy := some (1, slot, k.word), dataPs := none, result := 0 } }) ∧
      (k.slotSet slot = true → exec (.keysProgramKey dt 0x4B59 slot) s = .next { u with keys := { wiped with result := 1 } }) ∧
      (k.slotSet slot = false → k.word = 0 → exec (.keysProgramKey dt 0x4B59 slot) s = .next { u with keys := { wiped with result := 2 } }) ∧
      exec (.keysBlowAuthReq dt 0x4B59) s = .next { u with keys := { k with busy := some (2, 0, k.word), dataPs := none, result := 0 } } ∧
      exec (.keysBlowStillOff dt 0x4B59) s = .next { u with keys := { k with busy := some (3, 0, k.word), dataPs := none, result := 0 } } ∧
      (confirm ≠ 0x4B59 →
        exec (.keysProgramKey dt confirm slot) s = .next { u with keys := { wiped with result := 3 } } ∧
        exec (.keysBlowAuthReq dt confirm) s = .next { u with keys := { wiped with result := 3 } } ∧
        exec (.keysBlowStillOff dt confirm) s = .next { u with keys := { wiped with result := 3 } })) ∧
    (k.busy.isSome = true → exec (.keysProgramKey dt confirm slot) s = .next { u with keys := wiped } ∧
      exec (.keysBlowAuthReq dt confirm) s = .next { u with keys := wiped } ∧ exec (.keysBlowStillOff dt confirm) s = .next { u with keys := wiped }) ∧
    (k.busy = some (1, slot, key) → exec (.keysOperationEnd dt true) s = .next
      (({ u with keys := { wiped with busy := none, result := 0, slots := k.slots.set slot (some key) } } : State).post 7 0xFF 0xFFFF 0x97 0 (bytesOf 1 slot.val))) ∧
    (k.busy = some (2, slot, key) → exec (.keysOperationEnd dt true) s = .next
      (({ u with keys := { wiped with busy := none, result := 0, authBlown := true } } : State).post 7 0xFF 0xFFFF 0x98 0 [0])) ∧
    (k.busy = some (3, slot, key) → exec (.keysOperationEnd dt true) s = .next
      (({ u with keys := { wiped with busy := none, result := 0, stillBlown := true } } : State).post 7 0xFF 0xFFFF 0x98 0 [1])) ∧
    (k.busy.isSome = true → exec (.keysOperationEnd dt false) s = .next { u with keys := { wiped with busy := none, result := 4 } })

/-! ### The host port -/

/-- The link: it comes up with the MAC address last written, one gratuitous ARP and a post, and goes down with a post; a write to MODE ends the
session and, as one to AN_EN or JUMBO, restarts the link; the addressing registers end the session and take effect at once, HOSTPORT_MAC at
the next link-up; a received frame that is not taken is counted as discarded, and one that is no matter of this command changes nothing. ARP
and ICMP: a request for the part's address is answered; an unresolved next hop is asked for, up to three times more 1 s apart, and again 10
s later; a resolution is kept for 60 s; a reply of the next hop resolves it; an echo request of up to 1,472 bytes is answered. -/
def Obligations.HostPortLink : Prop :=
  (∀ (s : State) (dt syncUs : Nat) (an : Bool) (v : Word) (frame : List Byte),
    let u := s.advance dt
    let h := u.host
    let addressed (f : HPort → HPort) : State := { u.endSession 5 with host := f (u.endSession 5).host }
    (u.portRuns = true →
      (h.link = false → 10000 ≤ syncUs → h.mode ≠ 0 → an = true ∨ h.mode = 2 ∨ h.anEn = false → exec (.linkUp dt syncUs an) s = .next
        (let t : State := { u with host := { h with link := true, anDone := an && h.mode == 1 && h.anEn, mac := h.macNext, lastTxPs := u.clock } }
         (if h.ip = 0 then t else t.sendFrame .gratuitousArp).post 7 0xFF 0xFFFF 0xA0 0 (bytesOf 1 h.mode))) ∧
      (h.link = true → exec (.linkDown dt) s = .next
        (({ u with host := { h with link := false, anDone := false } } : State).post 7 0xFF 0xFFFF 0xA1 0 [])) ∧
      (h.link = false → exec (.linkDown dt) s = .next u) ∧
      (h.link = true → h.verdict frame = .discard → exec (.datagramDiscarded dt frame) s = .next
        { u with host := { h with rxDiscards := h.rxDiscards.add 65535 u.clock } }) ∧
      (h.link = true → h.verdict frame = .taken → exec (.datagramDiscarded dt frame) s = .next u)) ∧
    (u.awake = true →
      (let t := if bits h.ctrl 31 30 ≠ bits v 31 30 then u.endSession 5 else u
       let w := if bits h.ctrl 31 28 ≠ bits v 31 28 then t.linkDown else t
       exec (.hostportLinkWrite dt v) s = .next { w with host := { w.host with ctrl := v &&& 0xF8FFFFFF } }) ∧
      exec (.hostportAddressWrite dt 0x2408 v) s = .next { u with host := { h with macNext := v.setWidth 16 ++ h.macNext.setWidth 32 } } ∧
      exec (.hostportAddressWrite dt 0x240C v) s = .next { u with host := { h with macNext := (h.macNext >>> 32).setWidth 16 ++ v } } ∧
      exec (.hostportAddressWrite dt 0x2410 v) s = .next (addressed (fun h => { h with ip := v })) ∧
      exec (.hostportAddressWrite dt 0x2414 v) s = .next (addressed (fun h => { h with mask := v })) ∧
      exec (.hostportAddressWrite dt 0x2418 v) s = .next (addressed (fun h => { h with gw := v })) ∧
      exec (.hostportAddressWrite dt 0x241C v) s = .next (addressed (fun h => { h with port := v })))) ∧
  (∀ (s : State) (dt : Nat) (ip target : BitVec 32) (mac : BitVec 48) (ident seq : BitVec 16) (p : List Byte),
    let u := s.advance dt
    let h := u.host
    let asked (tries : Nat) : State := ({ u with host := { h with arpTries := tries, arpPs := u.clock } } : State).sendFrame (.arpRequest h.nextHopIp)
    u.hostUp = true →
    ((h.resolved = false ∨ h.nextHopIp ≠ ip) →
      (target = h.ip → exec (.arpRequest dt ip target mac) s = .next (u.sendFrame (.arpReply ip mac))) ∧
      (target ≠ h.ip → exec (.arpRequest dt ip target mac) s = .next u)) ∧
    (h.resolved = true → h.nextHopIp = ip → target ≠ h.ip → exec (.arpRequest dt ip target mac) s = .next { u with
      host := { h with nextHop := some (ip, mac, u.clock), arpTries := 0 } }) ∧
    (h.nextHopIp ≠ 0 → h.resolved = false →
      (h.arpTries = 0 → exec (.arpResolve dt) s = .next (asked 1)) ∧
      (1 ≤ h.arpTries → h.arpTries ≤ 3 → h.arpPs + 10 ^ 12 ≤ u.clock → exec (.arpResolve dt) s = .next (asked (h.arpTries + 1))) ∧
      (1 ≤ h.arpTries → h.arpTries ≤ 3 → u.clock < h.arpPs + 10 ^ 12 → exec (.arpResolve dt) s = .next u) ∧
      (3 < h.arpTries → u.clock < h.arpPs + 10 ^ 13 → exec (.arpResolve dt) s = .next u) ∧
      (3 < h.arpTries → h.arpPs + 10 ^ 13 ≤ u.clock → ∃ t, exec (.arpResolve dt) s = .next t ∧
        t.host.arpTries = 1 ∧ t.host.arpPs = u.clock ∧ t.host.sent = h.sent ++ [.arpRequest h.nextHopIp])) ∧
    (∀ q, h.resolved = true → h.nextHop = some q → q.2.2 + 60 * 10 ^ 12 ≤ u.clock → exec (.arpRefresh dt) s = .next
      (({ u with host := { h with nextHop := none, arpTries := 1, arpPs := u.clock } } : State).sendFrame (.arpRequest h.nextHopIp))) ∧
    (h.nextHopIp = ip → ip ≠ 0 → h.ackDue = false → exec (.arpReply dt ip mac) s = .next { u with
      host := { h with nextHop := some (ip, mac, u.clock), arpTries := 0 } }) ∧
    (p.length ≤ 1472 → exec (.icmpEcho dt ip mac ident seq p) s = .next (u.sendFrame (.echoReply ip mac ident seq p))))

/-- HELLO: the version is the lesser of 3 and MAX_VER; a range that does not hold it is rejected with reason 1; with no session one begins; a
second collector takes it over only when it asks to, and is rejected with reason 2 otherwise; the same collector with the same version is
answered again. A session begins with its number, DSEQ 0 (1 once its HELLO_ACK has left), no commands, and a post; it ends by BYE of its
collector, by its timeout, or as other rules give, with a BYE, a post, and its records still queued. A BYE from another address is answered
with BYE reason 4, at most once per second and address. -/
def Obligations.Sessions : Prop :=
  (∀ (s : State) (dt : Nat) (src : Peer) (lo hi : BitVec 8) (take : Bool) (timeout : BitVec 16) (mask : BitVec 128),
    let u := s.advance dt
    let v := min 3 hi.toNat
    let heard := if u.fromCollector src then u.heard else u
    u.hostUp = true →
    (hi.toNat < lo.toNat ∨ hi.toNat = 0 ∨ v < lo.toNat → exec (.hello dt src lo hi take timeout mask) s = .next (heard.reply (.helloReject src 1 1 3))) ∧
    (1 ≤ hi.toNat → lo.toNat ≤ v →
      (u.host.session = none → exec (.hello dt src lo hi take timeout mask) s = .next (u.beginSession src v timeout mask)) ∧
      (∀ q, u.host.session = some q → q.peer = src → q.version = v → exec (.hello dt src lo hi take timeout mask) s = .next u.heard.helloAck) ∧
      (∀ q, u.host.session = some q → q.peer = src → q.version ≠ v → exec (.hello dt src lo hi take timeout mask) s = .next
        ((u.heard.endSession 0).beginSession src v timeout mask)) ∧
      (∀ q, u.host.session = some q → q.peer ≠ src → take = true → exec (.hello dt src lo hi take timeout mask) s = .next
        ((u.endSession 2).beginSession src v timeout mask)) ∧
      (∀ q, u.host.session = some q → q.peer ≠ src → take = false → exec (.hello dt src lo hi take timeout mask) s = .next
        (u.reply (.helloReject src 2 1 3))))) ∧
  (∀ (s : State) (dt : Nat) (src : Peer) (q : QSession),
    let u := s.advance dt
    (∀ (x : State) (v : Nat) (timeout : BitVec 16) (mask : BitVec 128),
      (x.beginSession src v timeout mask).host.session = some { peer := src, version := v, timeoutS := x.helloTimeout timeout, mask := mask, lastRxPs := x.clock } ∧
      (x.beginSession src v timeout mask).host.sessions = x.host.sessions + 1 ∧ (x.beginSession src v timeout mask).host.cmds = [] ∧
      (x.beginSession src v timeout mask).host.dseq ≤ 1) ∧
    (∀ (x : State) (reason : Nat), (x.endSession reason).host.session = none ∧ (x.endSession reason).queue = x.queue ∧
      (x.endSession reason).kept = x.kept ∧ (x.endSession reason).ctxs = x.ctxs) ∧
    (u.hostUp = true → u.host.session = some q → q.peer = src → exec (.bye dt src) s = .next (u.heard.endSession 0)) ∧
    (u.hostUp = true → u.fromCollector src = false →
      ((u.host.byeSent.any (fun p => p.1 == src && decide (u.clock < p.2 + 10 ^ 12))) = true → exec (.bye dt src) s = .next u) ∧
      ((u.host.byeSent.any (fun p => p.1 == src && decide (u.clock < p.2 + 10 ^ 12))) = false → exec (.bye dt src) s = .next
        (({ u with host := { u.host with byeSent := (src, u.clock) :: u.host.byeSent.filter (fun p => p.1 != src) } } : State).reply (.bye src 4)))) ∧
    (u.portRuns = true → u.host.session = some q → q.lastRxPs + q.timeoutS * 10 ^ 12 ≤ u.clock → exec (.sessionTimeout dt) s = .next (u.endSession 1)))

/-- Records: held 50 µs by record assembly and then released in the order they were handed over; sent in a datagram when the next one does not
fit or the oldest has waited FLUSH µs, those that the session filters going to the replay window unsent; an empty datagram after 1 s of
silence; and a NAK answered with the records still kept and a miss for the rest. A record is released under its CONTEXT with the next
sequence number, counted from 0 modulo 2^32, and joins the record queue; no other context's count changes. -/
def Obligations.RecordFlow : Prop :=
  (∀ (s : State) (dt : Nat) (src : Peer) (q : QSession) (l : List NakEntry) (h : Held) (rest : List Held),
    let u := s.advance dt
    (u.serving = true → u.held = h :: rest → h.atPs + 50000000 ≤ u.clock → (∀ x ∈ rest, u.clock < x.atPs + 50000000) →
      exec (.recordRelease dt) s = .next (({ u with held := rest } : State).release h.record)) ∧
    (u.hostUp = true → u.host.resolved = true → u.host.session = some q →
      exec (.recordsSend dt) s = .next (u.recordsSend q) ∧
      (u.host.lastTxPs + 10 ^ 12 ≤ u.clock → exec (.recordsKeepalive dt) s = .next { u with host := { u.host with
        sent := u.host.sent ++ [.records q.version u.host.dseq []], dseq := (u.host.dseq + 1) % 2 ^ 32, lastTxPs := u.clock } }) ∧
      (u.clock < u.host.lastTxPs + 10 ^ 12 → exec (.recordsKeepalive dt) s = .next u)) ∧
    (u.hostUp = true → u.host.session = some q → q.peer = src → exec (.nak dt src l) s = .next
      (u.heard.nak { q with lastRxPs := u.clock } (l.take 64)))) ∧
  (∀ (s : State) (r : Record),
    let t := s.release r
    t.releasedOf r.ctx = s.releasedOf r.ctx + 1 ∧
    (∀ n, n ≠ r.ctx → (n < 256 ∨ r.ctx < 256) → t.releasedOf n = s.releasedOf n) ∧
    (r.size ≤ queueMax → ∃ x, x ∈ t.queue ∧ x.ctx = r.ctx ∧ x.typ = r.typ ∧ x.payload = r.payload ∧ x.stamp = r.stamp ∧
      x.seq = BitVec.ofNat 32 (s.releasedOf r.ctx)))

/-- A QRP command of the session's collector: refused with 0x88 while commands are disabled, with 0x82 without an identifier, with 0x85 in a
version without it, and a lifecycle one with 0x86 with 32 unended; one that repeats an identifier of the session is not executed again but
answered with its status and REPEAT; else it joins the last 64 and has its effect. A datagram of another sender never has it. A COMMAND
whose OP is not one of Table 14.14 is refused with 0x80, and one whose LEN does not fit its ARGS with 0x81; once admitted neither has
another effect. -/
def Obligations.CommandAdmission : Prop :=
  (∀ (s : State) (src : Peer) (id : BitVec 32) (op minVersion : Nat) (life : Bool) (f : State → State),
    let t := s.heard
    let joined := t.remember id op
    (s.hostUp = false → s.command src id op life minVersion f = s) ∧
    (s.hostUp = true → s.fromCollector src = false → s.command src id op life minVersion f = s.byeNoSession src) ∧
    (s.hostUp = true → s.fromCollector src = true →
      (s.host.cmdEn = false → s.command src id op life minVersion f = t.response id op 4 0x88 false []) ∧
      (s.host.cmdEn = true → id = 0 → s.command src id op life minVersion f = t.response id op 4 0x82 false []) ∧
      (s.host.cmdEn = true → id ≠ 0 →
        (∀ c, s.host.cmds.find? (fun c => c.id == id) = some c → s.command src id op life minVersion f = t.response id c.op c.status c.reason true []) ∧
        (s.host.cmds.find? (fun c => c.id == id) = none →
          (s.sessionVersion < minVersion → s.command src id op life minVersion f = joined.refuse id op 0x85) ∧
          (minVersion ≤ s.sessionVersion → life = true → 32 ≤ s.host.open_.length → s.command src id op life minVersion f = joined.refuse id op 0x86) ∧
          (minVersion ≤ s.sessionVersion → life = false ∨ s.host.open_.length < 32 → s.command src id op life minVersion f = f joined))))) ∧
  (∀ (s : State) (dt : Nat) (frame : List Byte) (b : BadCommand),
    let u := s.advance dt
    let w := u.heard.remember b.id b.op.toNat
    u.host.verdict frame = .bad b →
    u.hostUp = true → u.fromCollector b.src = true → u.host.cmdEn = true → b.id ≠ 0 → u.host.cmds.find? (fun c => c.id == b.id) = none →
    1 ≤ u.sessionVersion →
      ((b.op = 0x01 ∨ b.op = 0x02 ∨ b.op = 0x10 ∨ b.op = 0x11 ∨ b.op = 0x20 ∨ b.op = 0x30 ∨ b.op = 0x40 ∨ b.op = 0x41 ∨ b.op = 0xF0 ∨ b.op = 0xF1) →
        exec (.datagramDiscarded dt frame) s = .next (w.refuse b.id b.op.toNat 0x81)) ∧
      (b.op ∉ ([0x01, 0x02, 0x10, 0x11, 0x20, 0x30, 0x40, 0x41, 0xF0, 0xF1] : List (BitVec 16)) →
        exec (.datagramDiscarded dt frame) s = .next (w.refuse b.id b.op.toNat 0x80)))

/-- QRP register access, context reads, commits and doze, once admitted: 1 to 64 registers, one alone in version 1, else refused; any address in
the KEYS or STILL block refuses the whole command with 0x84; the pairs of a REG_WRITE are applied in order; a COPY above 1 is refused; a
commit answers ACCEPTED or its reason; DOZE completes when entry is requested; SYNC_RESET with no reach ready is refused with 0x83. ABORT
and STATUS: an ABORT of an identifier that the session does not know is answered 0x8A, of an ended command 0x89; of an unended one it waits
for the target's final response, and before the decisive instant it ends the target's work. STATUS answers the target's state. -/
def Obligations.QrpCommands : Prop :=
  (∀ (s : State) (dt : Nat) (src : Peer) (id : BitVec 32) (a : Addr) (n : BitVec 16) (l : List (Addr × Word)) (c p : Fin 256) (copy : BitVec 8)
    (pair : Bool) (e1 e2 : Entry),
    let u := s.advance dt
    let w := u.heard.remember id
    let many (k : Nat) := k = 0 ∨ 64 < k
    u.hostUp = true → u.fromCollector src = true → u.host.cmdEn = true → id ≠ 0 → u.host.cmds.find? (fun c => c.id == id) = none →
    1 ≤ u.sessionVersion →
    (many n.toNat → exec (.regRead dt src id a n) s = .next ((w 0x01).refuse id 0x01 0x82)) ∧
    (¬ many n.toNat → (u.sessionVersion ≠ 1 ∨ n.toNat = 1) → (addrsFrom a n.toNat).any qrpRefused = true →
      exec (.regRead dt src id a n) s = .next ((w 0x01).refuse id 0x01 0x84)) ∧
    (¬ many n.toNat → (u.sessionVersion ≠ 1 ∨ n.toNat = 1) → (addrsFrom a n.toNat).any qrpRefused = false →
      exec (.regRead dt src id a n) s = .next
        (let t := (w 0x01).readAll (addrsFrom a n.toNat)
         t.respond id 0x01 0 0 (t.readData.flatMap (fun x => bytesOf 4 x.toNat)))) ∧
    (many l.length → exec (.regWrite dt src id l) s = .next ((w 0x02).refuse id 0x02 0x82)) ∧
    (¬ many l.length → (u.sessionVersion ≠ 1 ∨ l.length = 1) → l.any (fun x => qrpRefused x.1) = true →
      exec (.regWrite dt src id l) s = .next ((w 0x02).refuse id 0x02 0x84)) ∧
    (¬ many l.length → (u.sessionVersion ≠ 1 ∨ l.length = 1) → l.any (fun x => qrpRefused x.1) = false →
      ((w 0x02).writeAll id l).runsOn = true → exec (.regWrite dt src id l) s = .next (((w 0x02).writeAll id l).respond id 0x02 0 0 [])) ∧
    (copy.toNat ≤ 1 → exec (.ctxRead dt src id c copy) s = .next
      ((w 0x10).respond id 0x10 0 0 (((w 0x10).ctxs[c].copyOf c copy.toNat).toList.flatMap (fun x => bytesOf 4 x.toNat)))) ∧
    (1 < copy.toNat → exec (.ctxRead dt src id c copy) s = .next ((w 0x10).refuse id 0x10 0x82)) ∧
    (u.host.open_.length < 32 →
      let r := if pair then (w 0x11).commitPair (.qrp id) c p e1 e2 else (w 0x11).commit (.qrp id) c e1
      exec (.ctxCommit dt src id c p pair e1 e2) s = .next (if r.2 = 0 then r.1.accept id 0x11 (r.1.acceptResult c) else r.1.refuse id 0x11 r.2)) ∧
    exec (.doze dt src id) s = .next ((w 0x41).requestDoze.respond id 0x41 0 0 []) ∧
    ((∃ r, u.reachUp r = true) → exec (.syncReset dt src id) s = .next (((w 0x40).syncLater 2).respond id 0x40 0 0 [])) ∧
    ((∀ r, u.reachUp r = false) → exec (.syncReset dt src id) s = .next ((w 0x40).refuse id 0x40 0x83))) ∧
  (∀ (s : State) (dt : Nat) (src : Peer) (id target : BitVec 32) (c : Cmd),
    let u := s.advance dt
    let w := u.heard.remember id
    u.hostUp = true → u.fromCollector src = true → u.host.cmdEn = true → id ≠ 0 → u.host.cmds.find? (fun c => c.id == id) = none →
    2 ≤ u.sessionVersion →
    ((w 0xF0).cmdOf target = none → exec (.abort dt src id target) s = .next ((w 0xF0).respond id 0xF0 0 0x8A [])) ∧
    ((w 0xF0).cmdOf target = some c → (w 0xF0).unended c = false → exec (.abort dt src id target) s = .next ((w 0xF0).respond id 0xF0 0 0x89 [])) ∧
    ((w 0xF0).cmdOf target = some c → (w 0xF0).unended c = true →
      let first := !((w 0xF0).host.abortWaits.any (fun x => x.1 == target && x.2.2)) && (w 0xF0).abortable c
      let waits : State := { w 0xF0 with host := { (w 0xF0).host with abortWaits := (w 0xF0).host.abortWaits ++ [(target, id, first)] } }
      exec (.abort dt src id target) s = .next (if first then waits.abortWork c else waits)) ∧
    exec (.status dt src id target) s = .next ((w 0xF1).respond id 0xF1 0 0 ((w 0xF1).statusOf target)))

/-! ### Contexts -/

/-- The CTX window. LOAD copies the selected copy of the selected contexts into the staging words. COMMIT checks what is staged, shows the
reason, the context and one more in COUNT, and is BUSY for as long as the check takes (a free value, log entry 16); with both bits LOAD is
done first; and a command while BUSY is ignored and posted. A commit that is refused changes no context, single or of a pair. -/
def Obligations.ContextWindow : Prop :=
  ∀ (s : State) (dt : Nat) (pair : Bool) (o : Origin) (c p : Fin 256) (e f : Entry),
    let u := s.advance dt
    let w := u.window
    let loaded : State := { u with window := { w with
      stage0 := u.ctxs[w.ctx].copyOf w.ctx w.copy.toNat
      stage1 := if pair then u.ctxs[w.pairCtx].copyOf w.pairCtx w.copy.toNat else w.stage1 } }
    let committed (t : State) : State :=
      let r := if pair then t.commitPair (.window .twoWire) w.ctx w.pairCtx t.window.stage0 t.window.stage1
        else t.commit (.window .twoWire) w.ctx t.window.stage0
      { r.1 with draws := r.1.draws + 1
                 window := { r.1.window with reason := r.2, resultCtx := w.ctx, count := w.count + 1
                                             busyUntil := u.clock + (Config.checkCycles u.draws % 7812) * 2560 } }
    (u.awake = true → w.busyUntil ≤ u.clock →
      exec (.ctxLoad dt pair) s = .next loaded ∧
      exec (.ctxCommitWindow dt pair false) s = .next (committed u) ∧
      exec (.ctxCommitWindow dt pair true) s = .next (committed loaded)) ∧
    (u.awake = true → u.clock < w.busyUntil →
      exec (.ctxLoad dt pair) s = .next (u.post 7 0xFF 0xFFFF 0x70 0 (bytesOf 2 0x804)) ∧
      ∀ load, exec (.ctxCommitWindow dt pair load) s = .next (u.post 7 0xFF 0xFFFF 0x70 0 (bytesOf 2 0x804))) ∧
    (u.awake = true → exec (.ctxStatusRead dt) s = .next { u.readCtxStatus.1 with readData := [u.ctxs[w.ctx].statusWord] }) ∧
    ((s.commit o c e).2 ≠ 0 → (s.commit o c e).1 = s) ∧
    ((s.commitPair o c p e f).2 ≠ 0 → (s.commitPair o c p e f).1 = s)

/-- A frame boundary writes the snapshot, ends a run-out whose second is over and swaps in the pending entry, unless the commit came after it, a
fade still runs, or the context or its pair migrates, where only an entry that a waiting context was given since the failure and that names
another reach swaps; a boundary that is not one of the context's leaves its clock, if it is a tick, and nothing else. The end of a fade's
last output leaves the new configuration alone, in the slot that was borrowed for it. The first valid sample, once the chain's own delay has
passed, takes a context out of ACQUIRE: to HOLD when it is paused by command, to VALID for I/Q pass-through, else to SETTLING; and a
SETTLING that was only for a hard change to VALID with lock and to HOLD without. -/
def Obligations.FrameBoundaries : Prop :=
  (∀ (s : State) (dt : Nat) (c : Fin 256) (k : BoundaryKind) (f : Fade),
    let u := s.advance dt
    let x := u.ctxs[c]
    let tick (t : State) : State := if k == .tick then t.modCtx c (fun y => { y with tickPs := some u.clock }) else t
    let kept : State := (tick ((u.snapshot c).expireRunOut c)).modCtx c (fun y => { y with boundaryPs := some u.clock })
    u.serving = true →
    (x.boundaryIs u.clock k = true →
      (x.pending = none → exec (.frameBoundary dt c k) s = .next kept) ∧
      (∀ p, x.pending = some p → x.st ≠ .migrating → (∀ q, p.pair = some q → u.ctxs[q].st ≠ .migrating) → x.fade = none → p.at_ < u.clock →
        exec (.frameBoundary dt c k) s = .next (kept.swap c p)) ∧
      (∀ p, x.pending = some p → x.st = .migrating → x.waiting = true → p.early = false → p.entry.idle = false → p.entry.reach ≠ x.reachOf →
        p.pair = none → x.fade = none → p.at_ < u.clock → exec (.frameBoundary dt c k) s = .next (kept.swap c p)) ∧
      (∀ p, x.pending = some p → x.fade.isSome = true ∨ u.clock ≤ p.at_ ∨ (x.st = .migrating ∧ (x.waiting = false ∨ p.early = true)) →
        exec (.frameBoundary dt c k) s = .next kept)) ∧
    (x.boundaryIs u.clock k = false → exec (.frameBoundary dt c k) s = .next (tick u)) ∧
    (x.fade = some f → f.endPs ≤ u.clock →
      exec (.crossFadeEnd dt c) s = .next (u.modCtx c (fun x => { x with fade := none, place := some f.spare }))) ∧
    (x.fade = none ∨ (x.fade = some f ∧ u.clock < f.endPs) → exec (.crossFadeEnd dt c) s = .next u)) ∧
  (∀ (s : State) (dt : Nat) (c : Fin 256) (a b : Nat),
    let u := s.advance dt
    let x := u.ctxs[c]
    let valid : State := u.modCtx c (fun y => { y with invalid := false, resettle := false, paused := y.active.req == 2 })
    u.chainRuns c = true → x.invalid = true → x.placed = false →
    (u.clock < x.validPs → exec (.firstValidSample dt c a b) s = .next u) ∧
    (x.validPs ≤ u.clock →
      (x.st = .acquire →
        (x.active.req = 2 → exec (.firstValidSample dt c a b) s = .next (valid.toState c .hold)) ∧
        (x.active.req ≠ 2 → x.active.std = 5 → exec (.firstValidSample dt c a b) s = .next (valid.toState c .valid)) ∧
        (x.active.req ≠ 2 → x.active.std ≠ 5 → exec (.firstValidSample dt c a b) s = .next (valid.toState c .settling))) ∧
      (x.st = .settling → x.resettle = true → exec (.firstValidSample dt c a b) s = .next (valid.toState c (if x.locked then .valid else .hold))) ∧
      (x.st = .valid ∨ x.st = .hold → exec (.firstValidSample dt c a b) s = .next (valid.toState c x.st))))

/-- A service round takes the ADC codes of the engine's reach through its tributaries and chains, and then the engine's contexts by descending
PRIORITY; an overrun is counted up to 255 and is evidence for the warden unless a page is being read again; and the context AGC sets its
gain at the end of a window by the mode in force, or discards the window in a hold. -/
def Obligations.EngineService : Prop :=
  ∀ (s : State) (dt : Nat) (e : Fin 8) (codes : List Int) (c : Fin 256) (mean : Int) (held : Bool),
    let u := s.advance dt
    let x := u.ctxs[c]
    let r : Fin 4 := Fin.ofNat 4 (e.val / 2)
    let fed := u.feed r codes
    let counted : State := u.modEngine e (fun x => { x with wdog := x.wdog.add 255 u.clock })
    let hold := held || x.agcHeld (u.reaches[x.reachOf].blanked u.clock)
    let target : Int := (4 * x.active.cagcTarget : Nat)
    let levels := if hold then x.levels else (u.clock, levelOf mean x.gain) :: x.levels.filter (fun p => decide (u.clock ≤ p.1 + 10 ^ 11))
    let gain (g : Int) : State := u.modCtx c (fun y => { y with levels := levels, gain := g.toNat })
    (u.engineUp e = true →
      exec (.engineRound dt e codes) s = .next (fed.forEach (fed.roundOrder (allCtxs.filter (fun c => fed.onEngine e c && (!fed.ctxs[c].outs.isEmpty ||
        fed.ctxs[c].restoreDue || (match fed.ctxs[c].follow.landing with | some l => !l.outs.isEmpty | none => false))))) (fun c t => t.serveCtx c)) ∧
      (u.pageWait e = true → exec (.engineWatchdog dt e) s = .next counted) ∧
      (u.pageWait e = false → exec (.engineWatchdog dt e) s = .next (counted.modWarden r (fun w => { w with
        overruns := (e, u.clock) :: w.overruns.filter (fun p => decide (u.clock < p.2 + 10 ^ 13)), wdog := e :: w.wdog.filter (· != e) })))) ∧
    (u.chainRuns c = true →
      (x.active.cagcNow = 0 → exec (.contextAgcWindow dt c mean held) s = .next (gain (4 * x.active.cagcGain : Nat))) ∧
      (x.active.cagcNow = 1 → hold = false → mean < target → exec (.contextAgcWindow dt c mean held) s = .next
        (gain (max 0 ((x.gain : Int) - min (target - mean) 24)))) ∧
      (x.active.cagcNow = 1 → hold = false → target ≤ mean → exec (.contextAgcWindow dt c mean held) s = .next
        (gain (min 384 ((x.gain : Int) + min (roundDiv (mean - target) 4) 4)))) ∧
      (x.active.cagcNow = 2 → hold = false → exec (.contextAgcWindow dt c mean held) s = .next
        (gain (clamp 0 384 ((x.gain : Int) + clamp (-48) 48 (mean - target))))) ∧
      (x.active.cagcNow = 1 ∨ x.active.cagcNow = 2 → hold = true → exec (.contextAgcWindow dt c mean held) s = .next u))

/-! ### FM, AM and DAB -/

/-- FM lock: a carrier-to-noise ratio at or above LOCK_CNR for 8 ms locks a mono context at once and opens the pilot decision window of an auto
context, whose end 150 ms later locks it; 50 ms more than 3 dB below end FM lock and block synchronisation; stereo follows the pilot in a
VALID auto context. AM lock comes with the ratio, or with DETECT synchronous with the carrier loop, which pulls in within 200 Hz; the
detector in use follows the loop. What a change of lock does to the context: SETTLING and HOLD lead to VALID, SETTLING and VALID to HOLD. -/
def Obligations.FmAmLock : Prop :=
  ∀ (s : State) (dt : Nat) (c : Fin 256) (v : Bool) (cnr us dev : Nat) (offset : Int),
    let u := s.advance dt
    let x := u.ctxs[c]
    let held (least : Nat) := least ≤ us ∧ x.validPs + us * 10 ^ 6 ≤ u.clock
    let on := v && decide (offset.natAbs ≤ 200)
    (u.engineServes c 1 = true →
      (x.fm.carrierLock = false → x.fm.pilotKnown = false → x.active.lockCnr ≤ cnr → held 8000 →
        exec (.fmCarrierLock dt c cnr us) s = .next ((u.modFm c (fun f => { f with
          carrierLock := true, sincePs := u.clock, cnr := cnr, rampPs := none, pilotWindow := x.active.stereoAuto, pilotKnown := false, stereo := false
          lock := !x.active.stereoAuto && !f.piLost })).judgeLock c x.locked)) ∧
      (cnr < x.active.lockCnr → exec (.fmCarrierLock dt c cnr us) s = .next u) ∧
      (x.fm.carrierLock = true → cnr + 6 < x.active.lockCnr → held 50000 →
        exec (.fmCarrierLockLost dt c cnr us) s = .next ((u.modFm c (fun f => { f with
          carrierLock := false, cnr := cnr, pilotWindow := false, pilotKnown := false, lock := false, rampPs := none, rdsSync := false, rdsPrev := none
          rdsClasses := [], group := [], rdsCands := [], rdsPos := 0, rdsReg := 0, rdsMarks := [] })).judgeLock c x.locked)) ∧
      (x.fm.pilotWindow = true → x.fm.sincePs + 150 * 10 ^ 9 ≤ u.clock →
        exec (.fmPilotDecision dt c us dev) s = .next ((u.modFm c (fun f => { f with
          pilotWindow := false, pilotKnown := true, stereo := decide (50000 ≤ us ∧ 3750 ≤ dev), rampPs := none, lock := !f.piLost })).judgeLock c x.locked)) ∧
      (x.fm.pilotWindow = true → u.clock < x.fm.sincePs + 150 * 10 ^ 9 → exec (.fmPilotDecision dt c us dev) s = .next u) ∧
      (x.st = .valid → x.active.stereoAuto = true → x.fm.pilotKnown = true →
        (x.fm.stereo = true → 20000 ≤ us → exec (.fmStereoToMono dt c us) s = .next
          (u.modFm c (fun f => { f with stereo := false, rampPs := some u.clock }))) ∧
        (x.fm.stereo = false → 100000 ≤ us → exec (.fmMonoToStereo dt c us) s = .next
          (u.modFm c (fun f => { f with stereo := true, rampPs := some u.clock }))))) ∧
    (u.engineServes c 2 = true →
      (x.am.lock = false → (x.active.detect ≠ 1 ∧ x.active.lockCnr ≤ cnr ∧ held 20000) ∨
          (x.active.detect = 1 ∧ x.am.loopLocked = true ∧ x.am.loopPs + 20 * 10 ^ 9 ≤ u.clock) →
        exec (.amLockGained dt c cnr us) s = .next (((u.modAm c (fun a => { a with
          lock := true, blendPs := none, syncDet := x.active.detect == 1 || (x.active.detect == 2 && a.loopLocked) })).modFm c (fun f => { f with
            cnr := cnr })).judgeLock c false)) ∧
      (x.am.lock = true → (x.active.detect ≠ 1 ∧ cnr + 6 < x.active.lockCnr ∧ held 100000) ∨
          (x.active.detect = 1 ∧ x.am.loopLocked = false ∧ x.am.loopPs + 100 * 10 ^ 9 ≤ u.clock) →
        exec (.amLockLost dt c cnr us) s = .next ((u.modAm c (fun a => { a with lock := false, blendPs := none })).judgeLock c true)) ∧
      (x.am.loopLocked = on → x.am.lock = false → exec (.amDetectorSwitch dt c v offset) s = .next u) ∧
      (x.am.loopLocked ≠ on → x.am.lock = false → exec (.amDetectorSwitch dt c v offset) s = .next
        (u.modAm c (fun a => { a with loopLocked := on, loopPs := u.clock }))) ∧
      (x.am.loopLocked ≠ on → x.am.lock = true → exec (.amDetectorSwitch dt c v offset) s = .next
        (u.modAm c (fun a => ({ a with loopLocked := on, loopPs := u.clock } : Am).use (x.active.detect == 1 || (x.active.detect == 2 && on)) u.clock)))) ∧
    (x.locked = true → (x.st = .settling ∧ x.resettle = false) ∨ (x.st = .hold ∧ x.active.req = 1) → u.judgeLock c false = u.toState c .valid) ∧
    (x.locked = false → x.st = .valid ∨ (x.st = .settling ∧ x.resettle = false) → u.judgeLock c true = u.toState c .hold)

/-- RDS: the bits up to the end of a block are searched or taken block by block; synchronisation is gained with two blocks of zero syndrome, the
second 26 bits after the first and in the sequence of the offsets, and lost with more than 20 of the last 50 of class 3; a block whose
syndrome is its offset word is taken as it is, with class 0. A completed group gives its items and map first, then its record, an MMBS group
its record alone; and PCM goes out once a record's frames are full, but what a switch or a change of selection holds back. -/
def Obligations.RdsAndPcm : Prop :=
  ∀ (s : State) (dt : Nat) (c : Fin 256) (bits : List Bool) (stamp cnr w : Nat) (level : Int) (m : Marks) (audio : List AudioIn) (off : RdsOffset)
    (k : RdsCand) (e : Entry) (f : Fm),
    let u := s.advance dt
    let x := u.ctxs[c]
    let done (t : State) : State := (t.groupRecord c level cnr).modFm c (fun f => { f with group := [], cnr := cnr })
    let heard := u.modCtx c (fun x => audio.foldl (Ctx.hear · true) { x with fm := { x.fm with cnr := cnr } })
    (u.engineServes c 1 = true →
      (x.active.rdsEn = true → x.fm.carrierLock = true → exec (.rdsBlock dt c bits stamp m) s = .next
        ((u.modFm c (fun f => f.bits x.active bits stamp m)).judgeLock c x.locked)) ∧
      (x.fm.rdsSync = true → x.fm.group.length = 4 →
        (x.fm.mmbs = true → exec (.rdsGroupComplete dt c level cnr) s = .next (done u)) ∧
        (x.fm.mmbs = false → x.fm.isCt = false → exec (.rdsGroupComplete dt c level cnr) s = .next (done (u.groupItems c))) ∧
        (x.fm.mmbs = false → x.fm.isCt = true → exec (.rdsGroupComplete dt c level cnr) s = .next
          (done ((u.groupItems c).ctItem c x.fm.ctNs (x.fm.groupStamp + groupNs)))))) ∧
    (u.engineServes c 1 = true ∨ u.engineServes c 2 = true → x.active.outPcm = true → x.active.scout = false → x.st = .valid →
      exec (.pcmRecord dt c audio cnr) s = .next (u.pcm c audio cnr) ∧ (x.gate = none → u.turnTo c = none →
      (heard.ctxs[c].fm.audio.frames.length < (pcmFormat x.active.pcmMode).1 → exec (.pcmRecord dt c audio cnr) s = .next heard) ∧
      ((pcmFormat x.active.pcmMode).1 ≤ heard.ctxs[c].fm.audio.frames.length → exec (.pcmRecord dt c audio cnr) s = .next (heard.pcmSend c)))) ∧
    (matchOffset e.rbds f.rdsReg.toNat = none → (f.search e stamp m).rdsSync = f.rdsSync) ∧
    (26 ≤ f.rdsMarks.length → matchOffset e.rbds f.rdsReg.toNat = some off → k ∈ f.rdsCands → k.age = 25 → follows e.rbds k.off off = true →
      (f.search e stamp m).rdsSync = true) ∧
    (21 ≤ ((f.rdsClasses.take 49).filter (· == 3)).length → (f.flywheel e stamp m).rdsSync = false) ∧
    (rdsRem w = offsetWord off → correctBlock off w = (w, 0))

/-- DAB: two null symbols 96 ms apart with a correlating PRS synchronise, and three frames without one lose synchronisation; lock asks for
synchronisation, 6 good FIBs in a frame and the expected EId, and is lost after ten frames without a good FIB; the FIC of a CIF, decoded
from the sum where the partner's soft bits are held, has its effect while synchronisation holds, in a scout for one transmission frame, and
bits that the Viterbi decoder would not return have none; the first logical frame needs 16 stored CIFs; a superframe without its fire code
is counted lost; and a reconfiguration discards 15 frames of every subchannel it changes. -/
def Obligations.DabReception : Prop :=
  ∀ (s : State) (dt : Nat) (c : Fin 256) (offset : Int) (missed stamp : Nat) (fic : Fic) (msc : Option MscCif) (symbols : List DabSym) (q : Fin 64)
    (f : LogicalFrame) (y : DabSub) (corrected : List Byte) (failed : List Nat) (k : MscCif) (now : Nat) (d : Dab) (service : Nat),
    let u := s.advance dt
    let x := u.ctxs[c]
    let combined := (u.partnerFic c (x.dab.ficCount stamp fic.cif)).isSome
    (u.engineServes c 3 = true →
      (x.dab.sync = false → offset.natAbs ≤ 10000 → exec (.dabFrameSync dt c 96 true offset) s = .next
        ((u.modDab c (fun d => { d with
          sync := true, frameGood := 0, badFrames := 0, lines := [], stored := 0, inFrame := 0, frameStamp := none })).judgeLock c x.locked)) ∧
      (exec (.dabFrameSync dt c 96 false offset) s = .next u) ∧
      (x.dab.sync = true →
        (3 ≤ missed → x.dab.occurrence = none → exec (.dabFrameSyncLost dt c missed) s = .next ((u.modDab c (fun d => { d with
          sync := false, lock := false, frameStamp := none, frameCif := none, inFrame := 0, lines := [], stored := 0, frameGood := 0, badFrames := 0
          newOrgs := [], newClasses := [], newComplete := false, occurrence := none, reached := false, passed := false, relock := false
          fic := [], alone := [] })).judgeLock c x.locked)) ∧
        (missed < 3 → exec (.dabFrameSyncLost dt c missed) s = .next u) ∧
        (x.active.scout = false ∨ x.dab.onlyFrame = none ∨ x.dab.onlyFrame = some stamp → u.ficWaited c fic stamp = true →
          u.ficReturned c fic stamp symbols = true →
          exec (.dabFicDecode dt c fic msc stamp combined symbols) s = .next (u.ficDecode c fic msc stamp symbols)) ∧
        (u.ficReturned c fic stamp symbols = false → exec (.dabFicDecode dt c fic msc stamp combined symbols) s = .next u) ∧
        (∀ o, x.active.scout = true → x.dab.onlyFrame = some o → o ≠ stamp →
          exec (.dabFicDecode dt c fic msc stamp combined symbols) s = .next u) ∧
        (16 ≤ x.dab.stored → u.frameWaited c = true → u.frameReturned c q f = true →
          exec (.dabLogicalFrame dt c q f) s = .next (u.logicalFrame c q f)) ∧
        (x.dab.stored < 16 → exec (.dabLogicalFrame dt c q f) s = .next u) ∧
        (x.dab.newComplete = true → x.dab.reached = true → exec (.dabReconfiguration dt c) s = .next (u.modDab c (fun d => { d with
          orgs := d.newOrgs, classes := mergeClasses d.classes d.newClasses, newOrgs := [], newClasses := [], newComplete := false
          occurrence := none, reached := false, passed := false
          subs := d.subs.map (fun y => if orgIn d.orgs y.sub == orgIn d.newOrgs y.sub then y
            else { y with discard := 15, discont := true, groups := [], frames := [] }) })))) ∧
      (x.dab.yields q = true → x.dab.classOf q = .dabPlus → x.dab.sub? q = some y → y.frames.length = 5 → rsReturns y.raw corrected failed = true →
        (fireOk corrected = false → exec (.dabSuperframe dt c q corrected failed) s = .next
          ((u.modSub c q (fun y => { y with frames := [] })).modSub c q (fun y => { y with sfLost := min (y.sfLost + 1) 255 }))) ∧
        exec (.dabSuperframe dt c q corrected failed) s = .next (u.superframe c q y corrected))) ∧
    (d.sync = true → d.eidLost = false → 6 ≤ d.frameGood → service % 65536 = 0 ∨ d.eid = some (service % 65536) → d.gain service = { d with lock := true }) ∧
    (d.sync = false ∨ d.frameGood < 6 → d.gain service = d) ∧
    (d.frameGood = 0 → 9 ≤ d.badFrames → d.endFrame.lock = false) ∧
    (d.frameGood ≠ 0 → d.endFrame.lock = d.lock ∧ d.endFrame.badFrames = 0) ∧
    ((d.store k now).stored = min (d.stored + 1) 16 ∧ (d.store k now).lines.length ≤ 16)

/-! ### EAB -/

/-- The states of a reception: lock over 20 ms of valid samples, whose power is the first noise estimate; 16 alternating decisions at or above
the detection threshold, the preamble's end, the sync word with at most 3 errors, the header, the codewords, the end of the burst; each way
of giving up ends it with its STATUS; a header of another TX_ID than SERVICE_ID is received without output; the member of a matched pair
that does not decode hears its symbols and no more; and the records of the oldest reception that has ended are handed over. -/
def Obligations.EabReceptionStates : Prop :=
  ∀ (s : State) (dt : Nat) (c : Fin 256) (level foffset : Int) (snr stamp iter samples marked : Nat) (span : EabSpan) (syms : List EabSym)
    (d : List Bool) (g : BitVec 128),
    let u := s.advance dt
    let x := u.ctxs[c]
    let e := x.eab
    let on (f : Eab → Eab) : State := u.modEab c f
    let hearing := u.hearSymbols c syms
    let rx := x.heard syms
    let ended (t : State) (status : Nat) : State :=
      t.eabFinish c status t.ctxs[c].eab.st.stage 0 t.ctxs[c].eab.rx.count none t.nowNs false false true
    let h : BitVec 128 := BitVec.ofNat 128 (natOfBits (d.take 128))
    u.engineServes c 4 = true →
    (e.lock = false → lockSamples x.active.eabChannel ≤ samples → e.lockLost = false ∨ 2 * span.marked ≤ samples →
      exec (.eabLock dt c samples span) s = .next (((on (fun e => { e with noise := span.power })).modEab c (fun e => { e with
        lock := true })).judgeLock c x.locked)) ∧
    (e.lock = true → x.eabLoses samples marked = true → exec (.eabLockLost dt c samples marked) s = .next
      ((on (fun e => { e with lockLost := true })).eabStep c false)) ∧
    (e.st = .armed → x.detects syms level snr = true → exec (.eabPreambleDetect dt c syms level snr foffset stamp) s = .next
      ((u.calSettle x.reachOf).modEab c (fun e => { e with
        st := .preamble, rxPs := u.clock, burstPs := u.clock, spateAtDetect := x.spateLevel, afcFrozen := false, shadow := none
        shadowRestart := none, bursts := e.bursts + 1
        rx := ({ level := level, foffset := foffset, detectStamp := stamp, noise := e.noise } : Reception).take x syms }))) ∧
    (snr < x.active.detSnr → exec (.eabPreambleDetect dt c syms level snr foffset stamp) s = .next u) ∧
    (x.detects syms level snr = true → level = x.agcLevel ∧ snr = snrOver (x.kept syms) e.noise) ∧
    (e.st = .preamble →
      (endsPreamble rx.syms = true → exec (.eabPreambleEnd dt c syms foffset) s = .next (hearing.modEab c (fun e => { e with
        st := .syncWait, afcFrozen := true, rx := { e.rx with foffset := clamp (-2000) 2000 foffset } }))) ∧
      (falsePreamble rx.syms = true → exec (.eabFalsePreamble dt c syms) s = .next (ended hearing 1))) ∧
    (e.st = .syncWait →
      (rx.finds x.active.eabChannel stamp = true → exec (.eabSyncFound dt c syms stamp) s = .next (hearing.modEab c (fun e => { e with
        st := .header, rx := { e.rx with syncErr := syncErrors e.rx.syms ((syncStart e.rx.syms).getD 0), syncStamp := some stamp } }))) ∧
      (missesSync rx.syms = true → exec (.eabNoSync dt c syms) s = .next (ended hearing 2))) ∧
    (e.st = .header → rx.arrived 152 syms = true →
      (u.echoes c = false → u.mayDecode c 152 = true → hearing.headerReturns c d iter = true →
        exec (.eabHeaderDecoded dt c syms d iter (hearing.decodingSnr c 152)) s = .next ((hearing.headerDecoded c d iter).combineDone c)) ∧
      (u.echoes c = true → exec (.eabHeaderDecoded dt c syms d iter snr) s = .next hearing)) ∧
    (∀ (t : State), let z := t.headerDecoded c d iter
      (headerChecks d = false ∨ hCrcOk h = false → z.ctxs[c].eab.ended.getLast?.map (fun q => q.status) = some 3) ∧
      (headerChecks d = true → hCrcOk h = true →
        (hBadFormat t.ctxs[c].active h = true → z.ctxs[c].eab.ended.getLast?.map (fun q => q.status) = some 4) ∧
        (hBadFormat t.ctxs[c].active h = false → z.ctxs[c].eab.rx.header = some h ∧
          z.ctxs[c].eab.st = if t.ctxs[c].active.service % 4096 ≠ 0 ∧ t.ctxs[c].active.service % 4096 ≠ hTxId h then .filtered else .payload))) ∧
    (e.st = .payload → u.echoes c = false → u.heardHeader c = some g → e.rx.cwDone < hCw g → rx.arrived (syncToEnd (e.rx.cwDone + 1) (hRate g)) syms = true →
      u.mayDecode c (syncToEnd (e.rx.cwDone + 1) (hRate g)) = true → hearing.codewordReturns c g d iter = true →
      exec (.eabCodewordDecoded dt c syms d iter (hearing.decodingSnr c (syncToEnd (e.rx.cwDone + 1) (hRate g)))) s = .next
        ((hearing.codewordDecoded c g d iter).combineDone c)) ∧
    (∀ (t : State), let z := (t.codewordDecoded c g d iter).ctxs[c].eab.rx
      let r := t.ctxs[c].eab.rx
      z.iter = max r.iter iter ∧ z.cwDone = r.cwDone + 1 ∧ z.blocks = r.blocks ++ bytesOfBits 64 d ∧
        z.combined = (r.combined || (t.addend c (syncToEnd (r.cwDone + 1) (hRate g))).isSome) ∧
        z.cwFail = if payloadChecks r.rate d then r.cwFail else r.cwFail + 1) ∧
    (u.heardHeader c = some g → u.burstEnds c syms = true →
      (let t := hearing.ctxs[c].eab
       let stamp := t.rx.endNs x.active.eabChannel g
       (hearing.echoes c = true → exec (.eabBurstEnd dt c syms) s = .next (hearing.eabFinish c 0 4 0 t.rx.count none stamp true false true)) ∧
       (hearing.echoes c = false → e.st = .filtered → exec (.eabBurstEnd dt c syms) s = .next
         (hearing.eabFinish c 8 4 0 t.rx.count none stamp false false true)) ∧
       (hearing.echoes c = false → e.st ≠ .filtered → exec (.eabBurstEnd dt c syms) s = .next (hearing.payloadEnd c g t.rx.count stamp)))) ∧
    (u.reachUp x.reachOf = true → x.st ≠ .migrating →
      (∀ q, e.toHandOver = some q → exec (.eabRecordHandover dt c) s = .next
        ((on (fun e => { e with ended := markHanded u.clock e.ended })).eabRecords c q)) ∧
      (e.toHandOver = none → exec (.eabRecordHandover dt c) s = .next u))

/-- The shadow detector: it holds the candidate of the higher level, and goes on with the one it holds; one at least 6 dB above the reception
captures, and ends the reception with STATUS 6; a rise of more than 6 dB over 32 symbols ends it with STATUS 7. The noise floor: a block
that qualifies joins the period as a density and renews the noise estimate; the end of the period reports it and begins the next. The replay
table is journalled at most once a second. -/
def Obligations.EabShadowAndNoise : Prop :=
  ∀ (s : State) (dt : Nat) (c : Fin 256) (foffset : Int) (power stamp now : Nat) (syms main : List EabSym) (snrs : List Nat) (invalid : Bool) (m : Marks),
    let u := s.advance dt
    let x := u.ctxs[c]
    let e := x.eab
    let k := x.candidate syms foffset stamp
    let held := match e.shadow with
      | some o => if o.stamp == k.stamp then k else if o.level < k.level then k else o
      | none => k
    let seen : State := (u.hearSymbols c main).modEab c (fun e => { e with
      shadow := some held, bursts := if (match e.shadow with | some o => o.stamp != k.stamp | none => true) then e.bursts + 1 else e.bursts })
    let ended (t : State) (status symbols : Nat) (other : Option Int) : State :=
      t.eabFinish c status t.ctxs[c].eab.st.stage 0 symbols other t.nowNs false false true
    (u.engineServes c 4 = true →
      (e.receiving = true →
        (x.shadowGoesOn k = true ∨ x.shadowFinds k = true →
          (held.level < e.rx.level + 60 → exec (.eabShadowDetect dt c syms main (x.candidateSnr k) foffset stamp now) s = .next seen) ∧
          (e.rx.level + 60 ≤ held.level → exec (.eabShadowDetect dt c syms main (x.candidateSnr k) foffset stamp now) s = .next
            (ended seen 6 (seen.symbolsTo c now) (some held.level)))) ∧
        (x.shadowGoesOn k = false → x.candidateSnr k < x.active.detSnr →
          exec (.eabShadowDetect dt c syms main (x.candidateSnr k) foffset stamp now) s = .next u) ∧
        (x.shadowDrops syms snrs = true → exec (.eabShadowDrop dt c syms snrs) s = .next (u.modEab c (fun e => { e with shadow := none })))) ∧
      (e.st = .header ∨ e.st = .payload ∨ e.st = .filtered →
        ((x.heard syms).levelRose = true → exec (.eabLevelRise dt c syms stamp) s = .next
          (ended (u.hearSymbols c syms) 7 (u.symbolsTo c stamp) (x.heard syms).riseLevel)) ∧
        (e.rx.raw.length + syms.length < 32 → exec (.eabLevelRise dt c syms stamp) s = .next u)) ∧
      (invalid = false → m = {} → e.receiving = false → e.shadow = none → x.spateFlag = false →
        (∀ p, e.endPs = some p → p + 10 ^ 10 ≤ u.clock) → (∀ p, e.spatePs = some p → p + 10 ^ 10 ≤ u.clock) →
        exec (.eabNfBlock dt c power invalid m) s = .next (u.modEab c (fun e => { e with
          noise := power, nfBlocks := e.nfBlocks ++ [u.densityAt x.reachOf power x.active.eabChannel x.active.centre] }))) ∧
      (invalid = true ∨ m.overrange = true ∨ e.receiving = true ∨ x.spateFlag = true → exec (.eabNfBlock dt c power invalid m) s = .next u) ∧
      (let last := e.nfStartPs + x.active.nfPeriod * 10 ^ 12
       x.active.nfPeriod ≠ 0 → last ≤ u.clock →
        (let t := u.modEab c (fun e => { e with nfBlocks := [], nfStartPs := last, bursts := 0, busyPs := 0, rxPs := max e.rxPs last })
         (u.dataOn c = false → exec (.eabNfReport dt c) s = .next t) ∧
         (u.dataOn c = true → exec (.eabNfReport dt c) s = .next (t.deliver c x.reachOf
           { typ := 0x60, stamp := u.sampleTime c last, spanEnd := u.sampleTime c last
             payload := nfPayload e.nfBlocks (1000 * x.active.nfPeriod) x.busyMs e.bursts }))))) ∧
    (u.serving = true → (∀ p, u.replayJournalPs = some p → p + 10 ^ 12 ≤ u.clock) →
      (u.replay.all (fun k => !k.dirty) = true → exec (.eabReplayJournal dt) s = .next u) ∧
      (let l := (u.replay.filter (fun k => k.dirty)).take 128
       let q := u.journalRequest ⟨.append 4 3 0 (l.flatMap ReplayKey.bytes), false⟩
       l ≠ [] → q.2 ≤ 1 → exec (.eabReplayJournal dt) s = .next { q.1 with
         replay := q.1.replay.map (fun k => if l.contains k then { k with dirty := false } else k), replayJournalPs := some u.clock })) ∧
    (∀ p, u.replayJournalPs = some p → u.clock < p + 10 ^ 12 → exec (.eabReplayJournal dt) s = .next u)

/-- A message that was VERIFIED once is not VERIFIED again: the entry it leaves in the replay table answers REPLAYED or DUPLICATE to its
COUNTER, and the highest accepted counter of its key never falls. -/
def Obligations.ReplayProtection : Prop :=
  ∀ (l : List ReplayKey) (h : BitVec 128),
    replayStatus (l.find? (fun k => k.isFor h)) (hCounter h) = 0 →
    ∃ k, (replayAccept l h).find? (fun k => k.isFor h) = some k ∧ replayStatus (some k) (hCounter h) ≠ 0 ∧ hCounter h ≤ k.highest ∧
      ∀ o, l.find? (fun k => k.isFor h) = some o → o.highest ≤ k.highest

/-! ### Service following and twins -/

/-- Scouts and twins: a free scout begins the next check; a check ends once it has a result, VERIFIED or the reason of its rejection, with the
level that the followed context reports; a changed learned list asks for a session at most once in 60 s; soft bits of the partner that are
overdue leave the decoding to the decoding member; and a selection changes at once when the selected member leaves VALID, else only for 3 dB
over 1,000 ticks. Switches: a decision lands the context, or its pair while both its members are in VALID or HOLD, where the checks give a
place; the landing starts at the boundary with a cleared chain, takes what its demodulator receives and is judged anew each time, or fails
at its limit; the switch at a frame boundary takes the landing's place and lets the old chain run out; and the end of the run-out frees it,
with the records that it has built within 1 s. -/
def Obligations.FollowingAndTwins : Prop :=
  (∀ (s : State) (dt : Nat) (c : Fin 256) (level own la lb : Int) (cnr lowest us stamp : Nat) (ticks : List (Nat × Nat)),
    let u := s.advance dt
    let x := u.ctxs[c]
    u.serving = true →
    (u.scoutFree c = true → exec (.scoutCheckStart dt c) s = .next (u.startCheck c)) ∧
    (∀ q, x.follow.check = some q → x.sequencerPending = false →
      (u.checkResult c q.1 q.2 cnr lowest us = none → exec (.scoutCheckEnd dt c level cnr lowest us own) s = .next u) ∧
      (∀ n, u.checkResult c q.1 q.2 cnr lowest us = some n → u.ownLevel q.1 = some own ∨ u.ownLevel q.1 = none →
        exec (.scoutCheckEnd dt c level cnr lowest us own) s = .next (u.endCheck c n (some level) (some cnr))) ∧
      (x.invalid = false → u.ctxs[q.1].active.belowCnr cnr = true → u.checkResult c q.1 q.2 cnr lowest us = some 1)) ∧
    (x.follow.learnedDirty = false ∨ u.since x.follow.learnedAt (60 * 10 ^ 12) = false → exec (.afLearnedJournal dt c) s = .next u) ∧
    (x.follow.learnedDirty = true → u.since x.follow.learnedAt (60 * 10 ^ 12) = true →
      (let q := u.journalRequest ⟨.append 4 2 c.val (x.follow.learned.flatMap learnedBytes), false⟩
       exec (.afLearnedJournal dt c) s = .next (if 1 < q.2 then u else q.1.modFollow c (fun f => { f with
         learnedDirty := false, learnedAt := some u.clock })))) ∧
    ((u.partnerOf c).isSome = true →
      (let d := u.decodingMember c
       (x.active.std = 4 → u.combineOverdue d = true → u.ctxs[d].active.std = 4 → exec (.twinCombineTimeout dt c) s = .next
         (u.modCtx (u.recordCtx d) (fun x => { x with twin := { x.twin with aloneNext := true } }))) ∧
       (x.active.std = 3 → u.combineOverdue d = true → u.ctxs[d].active.std = 3 → exec (.twinCombineTimeout dt c) s = .next
         (u.modDab d (fun b => { b with alone := ((b.lines.head?.bind (fun k => k.count)).toList ++ b.alone).take 4 }))) ∧
       (u.combineOverdue d = false → exec (.twinCombineTimeout dt c) s = .next u)) ∧
      (x.active.std = 1 ∨ x.active.std = 2 → u.ownLevel (u.recordCtx c) = some la → u.ownLevel (u.higherCtx c) = some lb →
        u.atOutput (u.switchMember c) stamp = true →
        exec (.twinSelectionChange dt c ticks la lb stamp) s = .next (u.selectTwin c ticks stamp) ∧
        (let now := u.ctxs[u.recordCtx c].twin.selected
         selectionAt now (u.isValid (u.recordCtx c)) (u.isValid (u.higherCtx c)) ticks = now →
          exec (.twinSelectionChange dt c ticks la lb stamp) s = .next u))) ∧
    (selectionAt (some true) true false ticks = some false ∧ selectionAt (some false) false true ticks = some true ∧
      (ticks.length < 1000 → selectionAt (some false) true true ticks = some false ∧ selectionAt (some true) true true ticks = some true))) ∧
  (∀ (s : State) (dt : Nat) (c : Fin 256) (stamp : Nat) (d other : Landed) (built otherBuilt : List Built) (l : Landing),
    let u := s.advance dt
    let x := u.ctxs[c]
    let limit := (if l.entry.std = 3 then 3 else 2) * 10 ^ 12
    u.serving = true →
    (x.follow.landing = none → x.follow.hard = none → x.sequencerPending = false →
      (u.chosen c = none → exec (.afSwitchDecision dt c) s = .next u) ∧
      (∀ k, u.chosen c = some k → u.partnerOf c = none → exec (.afSwitchDecision dt c) s = .next (u.landSingle c k)) ∧
      (∀ k p, u.chosen c = some k → u.partnerOf c = some p →
        (u.ctxs[p].st = .valid ∨ u.ctxs[p].st = .hold → exec (.afSwitchDecision dt c) s = .next (u.landPair c p k)) ∧
        (u.ctxs[p].st ≠ .valid → u.ctxs[p].st ≠ .hold → exec (.afSwitchDecision dt c) s = .next u))) ∧
    (x.follow.landing = some l →
      (l.started = false → l.pair = none → l.decidedPs < u.clock → x.boundaryPs = some u.clock → exec (.landingStart dt c) s = .next
        ((u.modFollow c (fun f => { f with landing := some { l with
          started := true, startedPs := u.clock, chain := some (Chain.fresh l.entry (u.tribOf l.entry) (u.clock + 2560))
          dab := ({} : Dab).select l.entry.subs } })).afEvent 4 0 c c 0xFF l.place.reach.val l.cand 0 none none none u.nowNs)) ∧
      (x.boundaryPs ≠ some u.clock → exec (.landingStart dt c) s = .next u) ∧
      (l.started = true →
        (u.clock ≤ l.startedPs + limit →
          exec (.landingReady dt c d) s = .next (u.modFollow c (fun f => { f with landing := some (u.landingTakes c l d) }))) ∧
        ((u.landingTakes c l d).ready = u.landingIsReady c (u.landingTakes c l d)) ∧
        (u.clock < l.startedPs + limit → exec (.landingFailed dt c) s = .next u) ∧
        (l.ready = false → l.startedPs + limit ≤ u.clock → l.pair = none →
          exec (.landingFailed dt c) s = .next ((u.modFollow c (fun f => { f with cands := f.cands.map (fun y =>
            if sameCarrier y.carrier l.cand then { y with checks := match y.checks with | k :: r => (false, k.2) :: r | [] => [] } else y) })).endLanding c 7 3)) ∧
        (l.pair = none → (u.landingTakes c l d).ready = true → d.burst = false → x.fade = none → x.eab.receiving = false → x.pending = none →
          x.boundaryPs = some u.clock → u.atOutput c stamp = true →
          exec (.afSwitch dt c other otherBuilt stamp d built) s = .next (u.switchOne c stamp d built)) ∧
        (l.pair = none → x.eab.receiving = true ∨ d.burst = true ∨ x.boundaryPs ≠ some u.clock →
          exec (.afSwitch dt c other otherBuilt stamp d built) s = .next u))) ∧
    (x.follow.landing = none → exec (.afSwitch dt c other otherBuilt stamp d built) s = .next u) ∧
    (x.follow.runOut = none → exec (.runOutEnd dt c built) s = .next u) ∧
    (∀ o, x.follow.runOut = some o →
      (u.clock ≤ o.sincePs + 10 ^ 12 → exec (.runOutEnd dt c built) s = .next (u.endRunOut c built)) ∧
      (o.sincePs + 10 ^ 12 < u.clock → exec (.runOutEnd dt c built) s = .next (u.endRunOut c []))))

/-! ### The Outfall and the relay -/

/-- TRANSMIT of the session's collector, once admitted: a burst that the Outfall takes joins the queue and is ACCEPTED, any other is refused
with its status. A tone that the Outfall takes is queued, any other ends in a relay report. ABORT names every transmission once the Outfall
is ready, and is discarded with a post before. The synthesiser: an idle one retunes to the carrier of the head, the first entry that LBT
does not hold, when it differs, with a VCO calibration where one is due, and BLANK_OUT stands for no entry any more; locked, it stands on
the carrier and the Outfall is ready; after LOCK_TIMEOUT without lock the entries that wait on the carrier are dropped with LOCK_TIMEOUT,
and the next retune calibrates; a retune on which none waits runs on. -/
def Obligations.TransmitAndTone : Prop :=
  (∀ (s : State) (dt : Nat) (src : Peer) (id : BitVec 32) (a : TxArgs) (via : Via),
    let u := s.advance dt
    let w := u.heard.remember id 0x20
    let x := u.toneTx via id
    let ignored := u.post 7 0xFF 0xFFFF 0x70 0 (bytesOf 2 0x1814)
    (u.hostUp = true → u.fromCollector src = true → u.host.cmdEn = true → id ≠ 0 → u.host.cmds.find? (fun c => c.id == id) = none →
      1 ≤ u.sessionVersion → u.host.open_.length < 32 →
      (w.transmitRefusal a = 0 → exec (.transmit dt src id a) s = .next
        (({ w with outfall := w.outfall.enqueue (w.buildTx id a) } : State).accept id 0x20 [])) ∧
      (w.transmitRefusal a ≠ 0 → exec (.transmit dt src id a) s = .next (w.refuse id 0x20 (w.transmitRefusal a)))) ∧
    (u.awake = true →
      (u.toneRefusal = 0 → exec (.outfallToneStart dt via id) s = .next { u with outfall := u.outfall.enqueue x }) ∧
      (u.outfall.ready = false → exec (.outfallToneStart dt via id) s = .next (ignored.txReport x 6 8 0 none none u.nowNs)) ∧
      (u.outfall.ready = true → u.toneRefusal ≠ 0 → exec (.outfallToneStart dt via id) s = .next (u.txReport x 6 u.toneRefusal 0 none none u.nowNs)) ∧
      (u.outfall.ready = true → exec (.outfallAbort dt) s = .next (u.abortTx (fun _ => true) 1)) ∧
      (u.outfall.ready = false → exec (.outfallAbort dt) s = .next ignored))) ∧
  (∀ (s : State) (dt f : Nat) (x : Tx) (l : List Tx),
    let u := s.advance dt
    let o := u.outfall
    u.serving = true → u.mgmtOnly = false → o.st ≠ .off →
    (o.idle = true → o.head = some x →
      (x.carrier ≠ o.carrier ∨ o.st ≠ .locked → exec (.outfallRetuneStart dt) s = .next { u with outfall := { o with
        st := if u.needsCal x.carrier then .calibrating else .settling, retuneTo := some x.carrier, retunePs := u.clock, air := none } }) ∧
      (x.carrier = o.carrier → o.st = .locked → exec (.outfallRetuneStart dt) s = .next u)) ∧
    (o.queue = [] → exec (.outfallRetuneStart dt) s = .next u) ∧
    (o.queue = x :: l → o.lbtHeld = [] → o.head = some x) ∧
    (o.queue = x :: l → o.lbtHeld.contains x.order = true → o.head = l.find? (fun y => !o.lbtHeld.contains y.order)) ∧
    (o.retuneTo = some f →
      (o.st = .settling → exec (.outfallRetuneLocked dt) s = .next { u with outfall := { o with
        st := .locked, carrier := f, retuneTo := none, ready := true, lockPs := u.clock } }) ∧
      (o.st = .calibrating → exec (.outfallRetuneLocked dt) s = .next { u with outfall := { o with
        st := .locked, carrier := f, retuneTo := none, ready := true, lockPs := u.clock, calCarrier := f, calTemp := u.upkeep[(0 : Fin 4)].temp, forceCal := false } }) ∧
      (o.retunePs + o.lockTimeoutPs ≤ u.clock → o.queue.any (fun x => x.carrier == f) = true → exec (.outfallLockTimeout dt) s = .next
        (({ u with outfall := { o with st := .settling, retuneTo := none, carrier := 0, forceCal := true } } : State).dropWhere
          (fun x => x.carrier == f) 2 2)) ∧
      (o.queue.any (fun x => x.carrier == f) = false → exec (.outfallLockTimeout dt) s = .next u) ∧
      (u.clock < o.retunePs + o.lockTimeoutPs → exec (.outfallLockTimeout dt) s = .next u)))

/-- Coexistence: BLANK_OUT is asserted for the head entry, with CX_REQ where COEX asks for it, unless doze entry waits; the grant allows its
ramp; a grant that does not come within CX_WAIT drops the transmission with CX_DENIED; one that goes away on air ends a burst at its next
symbol boundary and a tone at once; and both lines are released 20 µs after the last transmission. On air: the ramp starts at the due time,
not after the latest start, with the driver on and the entry out of the queue; the level loop compares its readings, stores the correction
and falls back with a post; the ramp-down starts at its instant; and its end keeps the correction for the band and reports the transmission.
An entry whose latest start has come is dropped with LATE. -/
def Obligations.OutfallOnAir : Prop :=
  (∀ (s : State) (dt : Nat) (x : Tx) (a : OnAir),
    let u := s.advance dt
    let o := u.outfall
    let lines (t : State) (on cx : Bool) : State := ({ t with pins := { t.pins with blankOut := on, cxReq := cx } } : State).blankAll
    exec (.cxGntAssert dt) s = .next { u with
      pins := { u.pins with cxGnt := true }, outfall := { o with air := o.air.map (fun a => { a with cxOk := true }) } } ∧
    (o.air = none → exec (.cxGntRelease dt) s = .next { u with pins := { u.pins with cxGnt := false } }) ∧
    (o.air = some a →
      (a.started = false → exec (.cxGntRelease dt) s = .next { u with
        pins := { u.pins with cxGnt := false }, outfall := { o with air := some { a with cxOk := false } } }) ∧
      (a.started = true → a.ending u.clock = false → a.tx.coex = true → a.status = 0 →
        exec (.cxGntRelease dt) s = .next { u with
          pins := { u.pins with cxGnt := false }
          outfall := { o with st := if a.tx.tone then .rampDown else o.st
                              air := some { a with status := 6, abortReason := 6, downPs := min a.downPs (a.boundary u.clock), down := a.tx.tone } } }) ∧
      (a.started = true → a.ending u.clock = true → exec (.cxGntRelease dt) s = .next { u with pins := { u.pins with cxGnt := false } })) ∧
    (u.serving = true → u.mgmtOnly = false → o.st ≠ .off →
      (o.airFree = true → o.lbtHeld = [] → u.doze.requested = false →
        (u.headReady 20000 = some x → exec (.outfallBlankOutAssert dt) s = .next
          (lines { u with outfall := { o with
            air := some { tx := x, blankPs := u.clock, cxAsked := u.clock, cxOk := x.coex && u.pins.cxGnt }
            blankPs := if u.pins.blankOut then o.blankPs else u.clock } } true (x.coex || u.pins.cxReq))) ∧
        (u.headReady 20000 = none → exec (.outfallBlankOutAssert dt) s = .next u)) ∧
      (u.doze.requested = true ∨ (∃ a, o.air = some a ∧ a.started = true) → exec (.outfallBlankOutAssert dt) s = .next u) ∧
      (o.air = none → u.pins.blankOut = true →
        (o.lastEndPs + 20000000 ≤ u.clock → u.rampNear = false ∨ u.doze.requested = true →
          exec (.outfallBlankOutRelease dt) s = .next (lines u false false)) ∧
        (u.clock < o.lastEndPs + 20000000 → exec (.outfallBlankOutRelease dt) s = .next u)) ∧
      (o.air = some a → a.started = false → a.tx.coex = true → a.cxOk = false →
        (a.cxAsked + o.cxWaitPs ≤ u.clock → exec (.cxDenied dt) s = .next ((lines u false false).dropWhere (fun y => y.order == a.tx.order) 5 5)) ∧
        (u.clock < a.cxAsked + o.cxWaitPs → exec (.cxDenied dt) s = .next u)))) ∧
  (∀ (s : State) (dt : Nat) (a : OnAir) (readings : List DetReading),
    let u := s.advance dt
    let o := u.outfall
    let q := o.loop a.tx readings
    let looped : State := { u with outfall := { o with
      st := .onAir, fallback := o.fallback.setIf q.fell u.clock, limit := o.limit.setIf q.limited u.clock
      air := some { a with level := q.level.map (fun p => clamp (-127) 127 (roundDiv p 25)), corr := some (q.driver - (25 * (a.tx.level : Int) - 3000))
                           fallback := q.fell, limited := q.limited } } }
    let w := u.rampEnd a
    u.serving = true → u.mgmtOnly = false → o.st ≠ .off →
    (u.doze.requested = false → o.air = some a → a.started = false → a.tx.coex = false ∨ a.cxOk = true →
        a.blankPs + 20000000 ≤ u.clock → (u.headReady 0).map (fun x => x.order) = some a.tx.order →
      ((∀ l, a.tx.latest = some l → u.nowNs ≤ l) → exec (.outfallRampStart dt) s = .next { u with
        pins := { u.pins with driver := true }
        outfall := { o with st := .rampUp, queue := o.queue.filter (fun y => y.order != a.tx.order)
                            air := some { a with started := true, startNs := u.nowNs, startPs := u.clock, downPs := u.clock + a.tx.onPs } } }) ∧
      (∀ l, a.tx.latest = some l → l < u.nowNs → exec (.outfallRampStart dt) s = .next u)) ∧
    (∀ x, u.headReady 0 = some x → o.head = some x ∧ o.st = .locked ∧ x.carrier = o.carrier ∧ x.due ≤ u.nowNs ∧ o.rampFrom ≤ u.clock) ∧
    (o.air = some a → (u.headReady 0).map (fun x => x.order) ≠ some a.tx.order ∨ u.clock < a.blankPs + 20000000 →
      exec (.outfallRampStart dt) s = .next u) ∧
    (o.air = none → u.blankHeld = false → exec (.outfallRampStart dt) s = .next u) ∧
    (o.air = some a → a.started = true → a.down = false →
      (a.corr = none → readings ≠ [] → a.startPs + a.tx.loopPs ≤ u.clock →
        (q.fell = false → exec (.outfallLevelLoopEnd dt readings) s = .next looped) ∧
        (q.fell = true → exec (.outfallLevelLoopEnd dt readings) s = .next (looped.post 7 0xFF 0xFFFF 0x71 2 []))) ∧
      (u.clock < a.startPs + a.tx.loopPs → exec (.outfallLevelLoopEnd dt readings) s = .next u) ∧
      (a.downPs ≤ u.clock → exec (.outfallRampDownStart dt) s = .next { u with outfall := { o with st := .rampDown, air := some { a with down := true } } }) ∧
      (u.clock < a.downPs → exec (.outfallRampDownStart dt) s = .next u)) ∧
    (o.air = some a → a.started = true → a.down = true →
      (a.downPs + a.tx.rampPs ≤ u.clock → exec (.outfallRampEnd dt) s = .next w ∧
        w.outfall.air = none ∧ w.outfall.st = .locked ∧ w.outfall.lastEndPs = u.clock ∧ w.pins.driver = false ∧ w.outfall.queue = o.queue ∧
        w.outfall.forwarded = (if a.tx.isRelay ∧ a.status = 0 then o.forwarded + 1 else o.forwarded) ∧
        (∀ c, a.corr = some c → 136000000 ≤ a.tx.carrier → a.tx.carrier ≤ 174000000 → w.outfall.corr.1 = c)) ∧
      (u.clock < a.downPs + a.tx.rampPs → exec (.outfallRampEnd dt) s = .next u)) ∧
    (o.lbtHeld = [] → exec (.outfallLateDrop dt) s = .next
      (u.dropWhere (fun y => match y.latest with | some l => decide (l ≤ u.nowNs) | none => false) 3 3)))

/-- The relay: the COMPLETE message of a source context whose instant of R321 this is, is taken or refused by the first condition that fails;
the other of two source contexts that deliver it in one FAB cycle is refused as CACHED; a relayed head waits while the LBT context receives
a burst, and the others pass it; the copy decoded within 10 ms of the ramp end confirms it, and the end of that window without one does not. -/
def Obligations.RelayDecisions : Prop :=
  ∀ (s : State) (dt : Nat) (c d : Fin 256) (q : Ended) (h : BitVec 128) (w : Watch) (x : Tx),
    let u := s.advance dt
    let o := u.outfall
    let taken := u.modEab c (fun e => { e with ended := markRelayed u.clock e.ended })
    u.serving = true →
    (o.relayOn = true → o.isSource c = true → u.ctxs[c].eab.ended.find? (Ended.forRelay u.clock) = some q → q.rx.header = some h →
      exec (.relayIntake dt c) s = .next (taken.relayTake (taken.recordCtx c) q h)) ∧
    (o.relayOn = false ∨ u.ctxs[c].eab.ended.find? (Ended.forRelay u.clock) = none → exec (.relayIntake dt c) s = .next u) ∧
    (u.takenNow h = none → u.relayRefusal q h ≠ 0 →
      (u.relayTake c q h).outfall.queue = o.queue ∧ (u.relayTake c q h).outfall.refused = o.refused + 1) ∧
    (u.takenNow h = some d → (u.relayTake c q h).outfall.refused = o.refused + 1 ∧ (u.relayTake c q h).outfall.cache = o.cache ∧
      (u.relayTake c q h).outfall.queue.length = o.queue.length) ∧
    (u.takenNow h = none → u.relayRefusal q h = 0 →
      (u.relayTake c q h).outfall.cache.contains (hOrigin h, (hSlot h).val, hCounter h) = true ∧ (u.relayTake c q h).outfall.refused = o.refused) ∧
    (u.mgmtOnly = false → o.st ≠ .off → o.air = none → o.lbtHeld = [] → o.head = some x →
      (x.isRelay = false ∨ u.lbtBusy = false → exec (.relayLbtCheck dt) s = .next u) ∧
      (x.isRelay = true → u.lbtBusy = true → exec (.relayLbtCheck dt) s = .next
        ({ u with outfall := { o with lbtHeld := [x.order] } } : State).lbtSettle)) ∧
    (o.watches = [w] →
      (u.confirming w = some q → exec (.relayConfirmed dt) s = .next
        (u.watchEnd w 4 (some q.rx.reported.1) (q.rx.syncStamp.getD q.rx.detectStamp))) ∧
      (u.confirming w = none → exec (.relayConfirmed dt) s = .next u) ∧
      (u.confirming w = none → w.rampEndPs + 10 ^ 10 ≤ u.clock → exec (.relayNotConfirmed dt) s = .next (u.watchEnd w 5 none u.nowNs)) ∧
      ((u.confirming w).isSome = true ∨ u.clock < w.rampEndPs + 10 ^ 10 → exec (.relayNotConfirmed dt) s = .next u))

/-! ### Calibration and maintenance -/

/-- Temperatures, self-tests and the fallow rotation: the sensors of the reaches that the part has are read every 100 ms; the self-test falls
due in every ready reach, takes 1 ms and posts each mismatch; at the end of each 40 ms period the rotation gives the fallow sub-ADC its new
trims at once, or keeps them for the end of a burst, puts it into the slot of the next one and lets that lie fallow; and the kept trims then
take force. -/
def Obligations.MaintenanceEvents : Prop :=
  ∀ (s : State) (dt n : Nat) (r : Fin 4) (tA tB tC tD spur : Int) (e : TrimError) (bad : List Mismatch) (a : Activity),
    let u := s.advance dt
    let f := u.fallow[r]
    let l := bad.filter a.saw
    let bounded : State := u.modFallow r (fun f => f.boundary e u.clock (u.burstIn r))
    let trim : TrimError := ⟨f.trims[f.index].offset - e.offset.tdiv 4, f.trims[f.index].gain - e.gain.tdiv 4, f.trims[f.index].skew - e.skew.tdiv 4⟩
    (u.serving = true → (∀ p, u.upkeep[(0 : Fin 4)].tempPs = some p → p + 10 ^ 11 ≤ u.clock) →
      (u.part.is8120 = true → exec (.tempSensorRead dt tA tB tC tD) s = .next ((u.tempRead 0 tA).tempRead 1 tB)) ∧
      (u.part.is8120 = false → exec (.tempSensorRead dt tA tB tC tD) s = .next ((((u.tempRead 0 tA).tempRead 1 tB).tempRead 2 tC).tempRead 3 tD))) ∧
    (u.serving = true → bits u.cal.ctrl 15 0 ≠ 0 → u.selftestPs + bits u.cal.ctrl 15 0 * 60 * 10 ^ 12 ≤ u.clock → exec (.selftestDue dt) s = .next
      (({ u with selftestPs := u.clock } : State).forEach (allReaches.filter u.reachUp) (fun r t => t.ownRequest r .selftest))) ∧
    (u.clock < u.selftestPs + bits u.cal.ctrl 15 0 * 60 * 10 ^ 12 → exec (.selftestDue dt) s = .next u) ∧
    (u.reachUp r = true →
      (let t := u.forEach allReaches (fun q t => t.calSettle q)
       t.admissible r = some a → exec (.maintenanceAdmit dt r) s = .next
        ((t.modUpkeep r (fun x => { x with queue := x.queue.erase a })).startRun r a)) ∧
      (u.runOf r .selftest = some a →
        (a.startedPs + 10 ^ 9 ≤ u.clock → exec (.selftestComplete dt r bad) s = .next
          ((((u.modUpkeep r (fun x => { x with running := none })).modWarden r (fun w => { w with stest := !l.isEmpty })).forEach l
            (fun m w => w.post 6 r.val 0xFFFF 0x25 1 (bytesOf 1 m.block.val ++ bytesOf 1 m.pipeline.val))).endActivity r a
              { kind := 4, mismatch := !l.isEmpty, points := a.tested.length, skipped := 8 - a.tested.length, factory := u.onFactoryCal r } 0)) ∧
        (u.clock < a.startedPs + 10 ^ 9 → exec (.selftestComplete dt r bad) s = .next u)) ∧
      (u.burstIn r = false → exec (.calCommitPoint dt r) s = .next (u.calCommit r)) ∧
      (u.burstIn r = true → exec (.calCommitPoint dt r) s = .next u) ∧
      (u.fallowSuspended r = false → f.boundPs + 4 * 10 ^ 10 ≤ u.clock →
        ((f.periods + 1) % 17 ≠ 0 → exec (.fallowBoundary dt r e spur) s = .next bounded) ∧
        ((f.periods + 1) % 17 = 0 → exec (.fallowBoundary dt r e spur) s = .next (bounded.rotationDone r spur))) ∧
      (u.fallowSuspended r = true ∨ u.clock < f.boundPs + 4 * 10 ^ 10 → exec (.fallowBoundary dt r e spur) s = .next u) ∧
      (u.burstIn r = false → exec (.fallowTrimCommit dt r) s = .next (u.modFallow r (fun f => { f with
        trims := f.waiting.foldl (fun v p => v.set p.1 p.2) f.trims, waiting := [] })))) ∧
    (f.swept n = false →
      (f.boundary e n false).trims = f.trims.set f.index trim ∧ (f.boundary e n true).trims = f.trims ∧
      (f.boundary e n true).waiting = f.waiting ++ [(f.index, trim)]) ∧
    ((f.boundary e n true).index = f.index + 1 ∧ (f.boundary e n true).slots = f.slots.map (fun k => if k = f.index + 1 then f.index else k))

/-- The operations of CAL_CMD: in a ready reach each is taken as the scheduler takes it; in one that is not ready it is discarded with a post;
LOAD needs no reach; and a QRP CAL, once admitted, answers 0x83 for a reach that is not ready. -/
def Obligations.CalCommands : Prop :=
  ∀ (s : State) (dt : Nat) (r : Fin 4) (n : Fin 16) (node op : BitVec 3) (store : Bool) (src : Peer) (id : BitVec 32) (v : Word),
    let u := s.advance dt
    let w := u.heard.remember id 0x30
    let ignored := u.post 7 0xFF 0xFFFF 0x70 0 (bytesOf 2 0x1004)
    (u.awake = true →
      (u.reachUp r = true →
        exec (.calRecalibration dt r) s = .next (u.request r { kind := .recal }).1 ∧
        ((u.absoluteAsked n.val).points.any (u.pointBlocked r) = false →
          exec (.calAbsolute dt r n) s = .next (u.request r (u.absoluteAsked n.val)).1) ∧
        ((u.absoluteAsked n.val).points.any (u.pointBlocked r) = true → exec (.calAbsolute dt r n) s = .next u) ∧
        exec (.calSelftest dt r) s = .next (u.request r { kind := .selftest }).1 ∧
        exec (.calRollback dt r node store) s = .next (u.rollback r node.toNat store 0) ∧
        exec (.calAbort dt r op) s = .next (u.calAbort r (opNames op.toNat) 1 1)) ∧
      (u.reachUp r = false → ∀ i ∈ [Instr.calRecalibration dt r, .calAbsolute dt r n, .calSelftest dt r, .calRollback dt r node store, .calAbort dt r op],
        exec i s = .next ignored) ∧
      (u.reachUp u.cal.reach = true → exec (.calApplySet dt store) s = .next (u.applySet store 0)) ∧
      (u.reachUp u.cal.reach = false → exec (.calApplySet dt store) s = .next ignored) ∧
      exec (.calLoad dt) s = .next u.loadSet) ∧
    (u.hostUp = true → u.fromCollector src = true → u.host.cmdEn = true → id ≠ 0 → u.host.cmds.find? (fun c => c.id == id) = none →
      1 ≤ u.sessionVersion → u.host.open_.length < 32 → bit v 31 = false →
      (bits v 2 0 = 6 → exec (.qrpCal dt src id v) s = .next (w.loadSet.respond id 0x30 0 0 [])) ∧
      (bits v 2 0 = 1 → w.reachUp (Fin.ofNat 4 (bits v 9 8)) = false → exec (.qrpCal dt src id v) s = .next (w.refuse id 0x30 0x83)) ∧
      (bits v 2 0 = 1 → w.reachUp (Fin.ofNat 4 (bits v 9 8)) = true → exec (.qrpCal dt src id v) s = .next
        (let q := w.request (Fin.ofNat 4 (bits v 9 8)) { kind := .recal, cmds := [id] }
         if q.2 = 0 then q.1 else w.refuse id 0x30 q.2)))

/-- A calibration run: after the sweep of 37.2 ms the gain fit makes a recalibration ready; a block of the present point, 10 ms after its start,
is kept unless it was marked, a burst was received, the injection was not at P_c or the measurement had to move to another slot, and the
next one begins; eight blocks and an unmarked check block complete the point, whose correction is C = (P_c − 6 dB) − (mean − 40 dB), and
ramp its injection down; a point is lost 2 s after its start, or after 1 s without a slot; a slot that is taken moves the measurement or has
it wait; and the switch closes and opens only while no burst is being received. -/
def Obligations.CalibrationRuns : Prop :=
  ∀ (s : State) (dt snr : Nat) (r : Fin 4) (a : Activity) (table : StepTable) (g power : Int) (check : Option Int) (marked : Bool) (f : Nat)
    (rest : List Nat) (i : RampTone),
    let u := s.advance dt
    let v := u.calSettle r
    let run (b : Activity) : State := v.modUpkeep r (fun x => { x with running := some b })
    let b := v.holdSlot r f v.clock a
    let kept := b = a ∧ a.slot.isSome = true ∧ v.burstDuring r = false ∧ v.upkeep[r].inject = some i ∧ i.downPs = none
    u.reachUp r = true →
    (∀ a, u.upkeep[r].running = some a → a.kind = .recal → a.ready = false →
      (a.startedPs + 372 * 10 ^ 8 ≤ u.clock → exec (.fegrComplete dt r table g) s = .next
        (u.modUpkeep r (fun x => { x with running := some { a with table := some table, gainErr := some g, ready := true } }))) ∧
      (u.clock < a.startedPs + 372 * 10 ^ 8 → exec (.fegrComplete dt r table g) s = .next u)) ∧
    (v.upkeep[r].running = some a → a.kind = .absolute → a.points = f :: rest → a.outcome = none →
      (v.clock < a.blockPs + 10 ^ 10 →
        exec (.calAbsBlock dt r power snr marked) s = .next v ∧ exec (.calPointComplete dt r check) s = .next v) ∧
      (a.blockPs + 10 ^ 10 ≤ v.clock →
        (kept → marked = false → a.blocks.length < 8 → exec (.calAbsBlock dt r power snr marked) s = .next
          (run { a with blockPs := v.clock, blocks := a.blocks ++ [(power, snr)] })) ∧
        (marked = true ∨ v.burstDuring r = true ∨ b ≠ a ∨ 8 ≤ a.blocks.length → exec (.calAbsBlock dt r power snr marked) s = .next
          (run { b with blockPs := v.clock, blocks := a.blocks })) ∧
        (a.blocks.length = 8 →
          (∀ p, kept → check = some p →
            (let c := (a.level - 600) - (roundDiv ((a.blocks.map Prod.fst).foldl (· + ·) 0) 8 - 4000)
             exec (.calPointComplete dt r check) s = .next (v.endPoint r a (some
               { corr := c, residual := p - 4000 + c - (a.level - 600), snr := pointSnr a.blocks })))) ∧
          (check = none ∨ v.burstDuring r = true ∨ b ≠ a → exec (.calPointComplete dt r check) s = .next (run { b with blockPs := v.clock })))) ∧
      (a.blocks.length ≠ 8 → exec (.calPointComplete dt r check) s = .next v) ∧
      (a.pointPs + 2 * 10 ^ 12 ≤ v.clock ∨ (∃ n, a.noSlotPs = some n ∧ n + 10 ^ 12 ≤ v.clock) → exec (.calPointTimeout dt r) s = .next
        (v.endPoint r a none)) ∧
      (v.clock < a.pointPs + 2 * 10 ^ 12 → a.noSlotPs = none → exec (.calPointTimeout dt r) s = .next v) ∧
      exec (.calSlotTaken dt r) s = .next ((run b).closeSwitch r)) ∧
    (∀ t : State, t.burstIn r = true → t.openSwitch r = t ∧ (t.closeSwitch r = t)) ∧
    (∀ (t : State) (o : Option PointResult), t.upkeep[r].inject = some i → i.downPs = none →
      (t.endPoint r a o).upkeep[r].inject = some { i with downPs := some t.clock })

/-! ### Voting, recovery, memory errors and the image -/

/-- Proposals and votes: a proposal with grounds is raised, or posted as NO_QUORUM with fewer than two voters; one that is live already stays as
it is; the second agreeing vote of two different voters carries it out, and no other vote does; a voter agrees where the lines hold for it
with the proposal's identity; 20 µs without it lets the proposal lapse. -/
def Obligations.ProposalsAndVotes : Prop :=
  ∀ (s : State) (dt ago : Nat) (r : Fin 4) (voter : Option (Fin 4)) (id : ProposalId) (lines seen : BitVec 7) (drift : Bool) (p : Proposal),
    let u := s.advance dt
    let n := u.noteLines r lines (u.clock - ago * 1000)
    let vote := Instr.wardenVote dt voter r id { lines := seen }
    u.awake = true →
    (n.grounds r id.act lines id.ident drift = true →
      (2 ≤ (n.voters r).length → n.proposals.find? (fun q => q.reach == r && q.act == id.act) = none →
        exec (.proposalRaise dt none r id.act lines id.ident drift ago) s = .next { n with
          proposals := n.proposals.filter (fun q => !q.isOn r id) ++
            [{ proposer := none, reach := r, act := id.act, lines := lines, ident := id.ident, drift := drift
               evidence := u.clock - ago * 1000, raisedPs := u.clock }] }) ∧
      ((n.voters r).length < 2 → exec (.proposalRaise dt none r id.act lines id.ident drift ago) s = .next
        (n.post 0 r.val 0xFFFF 0x13 3 (proposalData id.act lines.toNat))) ∧
      (2 ≤ (n.voters r).length → n.proposals.find? (fun q => q.isOn r id) = some p → p.live = true →
        exec (.proposalRaise dt none r id.act lines id.ident drift ago) s = .next n)) ∧
    (n.grounds r id.act lines id.ident drift = false → exec (.proposalRaise dt none r id.act lines id.ident drift ago) s = .next u) ∧
    (let found := u.proposals.find? (fun q => q.live && q.isOn r id && !q.votes.contains voter && decide (q.votes.length < 2) &&
       decide (u.clock ≤ q.raisedPs + 20000000))
     (found = none → exec vote s = .next u) ∧
     (found = some p →
      ((u.voters r).contains voter = true → u.stands p = true → p.lines &&& seen = p.lines →
        (p.votes.length = 1 → exec vote s = .next
          (({ u with proposals := u.proposals.map (fun x => if x == p then { p with votes := p.votes ++ [voter] } else x) } : State).carryOut
            [{ p with votes := p.votes ++ [voter] }])) ∧
        (p.votes = [] → exec vote s = .next { u with
          proposals := u.proposals.map (fun x => if x == p then { p with votes := [voter] } else x) })) ∧
      ((u.voters r).contains voter = false ∨ u.stands p = false ∨ p.lines &&& seen ≠ p.lines → exec vote s = .next u))) ∧
    (u.proposals.find? (fun q => q.live && q.isOn r id && decide (q.raisedPs + 20000000 ≤ u.clock)) = some p → p.lapses < 2 →
      exec (.proposalLapse dt r id) s = .next { u with proposals := u.proposals.map (fun x =>
        let y := { x with lapses := p.lapses + 1, disputed := p.disputed }
        if x == p then { y with live := false, votes := [] } else if x.reach == p.reach && x.act == p.act then y else x) })

/-- Wardens and the control logic: a warden that stops its heartbeat, or whose cores differ, has failed, and after the third time in an hour is
retired with a post; the end of a restart brings it back; a sub-ADC fault by the criterion is evidence once; an engine's restart ends for
all contexts on it; a copy that differs is rewritten at the next tick with a post. Memory errors: corrected errors are counted per region,
and posted with the count at most once a second; a scrub covers every region; an uncorrectable error has its area's effect, asserts the line
of the reach that it lies in and is posted with SEVERITY 1; a page that an image not changed by the host supplies is loaded again, and one
that it cannot supply is lost. -/
def Obligations.WardensAndMemory : Prop :=
  (∀ (s : State) (dt : Nat) (w : Fin 4) (i : Fin 17) (fault : SubAdcFault) (e : Fin 8) (k : Fin 3),
    let u := s.advance dt
    let l := u.wardens[w].failPs.filter (fun t => decide (u.clock < t + 3600 * 10 ^ 12)) ++ [u.clock]
    let failed : State := u.modWarden w (fun x => { x with failed := true, failPs := l, retired := x.retired || decide (3 ≤ l.length) })
    u.awake = true →
    (u.wardenWorks w = true →
      (l.length < 3 → exec (.wardenHeartbeatTimeout dt w) s = .next failed ∧ exec (.wardenMiscompare dt w) s = .next failed) ∧
      (3 ≤ l.length → exec (.wardenHeartbeatTimeout dt w) s = .next (failed.post 0 0xFF 0xFFFF 0x11 2 (bytesOf 1 w.val)) ∧
        exec (.wardenMiscompare dt w) s = .next (failed.post 0 0xFF 0xFFFF 0x11 2 (bytesOf 1 w.val))) ∧
      (u.reachRuns w = true → u.fallow[w].retired = none → u.fallow[w].faulty i fault = true → exec (.subadcFaultDetect dt w i fault) s = .next
        (u.modWarden w (fun x => { x with subadc := x.subadc.filter (fun q => q.1 != i) ++ [(i, isDrift fault)] }))) ∧
      (u.fallow[w].faulty i fault = false → exec (.subadcFaultDetect dt w i fault) s = .next u)) ∧
    (u.wardens[w].restarting = true → exec (.wardenRestartComplete dt w) s = .next
      (u.modWarden w (fun x => { x with failed := false, restarting := false }))) ∧
    (u.engines[e].restarting = true → exec (.engineRestartComplete dt e) s = .next
      (((u.modEngine e (fun x => { x with restarting := false })).forEach (u.unitsOn e) (fun c v => v.afterRestart e c)).forEach
        (allCtxs.filter (fun c => u.ctxs[c].erased)) (fun c v => v.endErasure c))) ∧
    (u.tmr.retired = 0 → exec (.tmrMismatch dt k) s = .next { u with tmr := { u.tmr with
      differs := u.tmr.differs ||| ((1 : BitVec 3) <<< k.val)
      sincePs := if u.tmr.differs.getLsbD k.val then u.tmr.sincePs else u.tmr.sincePs.set k u.clock } }) ∧
    (u.tmr.differs.getLsbD k.val = true → u.tmr.retired = 0 → tickOf u.clock ≤ tickOf u.tmr.sincePs[k] → exec (.tmrRepair dt k) s = .next u) ∧
    (u.tmr.differs.getLsbD k.val = true → u.tmr.retired = 0 → u.tmr.rewrites = [] → tickOf u.tmr.sincePs[k] < tickOf u.clock → exec (.tmrRepair dt k) s = .next
      (({ u with tmr := { u.tmr with differs := u.tmr.differs &&& ~~~((1 : BitVec 3) <<< k.val), rewrites := [(k, u.clock)] } } : State).post
        0 0xFF 0xFFFF 0x50 1 (bytesOf 1 k.val)))) ∧
  (∀ (s : State) (dt n page : Nat) (region : Fin 4) (area : EccArea) (addr : BitVec 32),
    let u := s.advance dt
    let e := u.ecc
    u.awake = true →
    (u.since e.postPs[region] (10 ^ 12) = true → exec (.eccCorrected dt region n) s = .next
      (({ u with ecc := { e with counts := e.counts.set region 0, postPs := e.postPs.set region (some u.clock) } } : State).post
        0 0xFF 0xFFFF 0x40 0 (bytesOf 1 region.val ++ bytesOf 3 0 ++ bytesOf 4 (e.counts[region] + n)))) ∧
    (u.since e.postPs[region] (10 ^ 12) = false → exec (.eccCorrected dt region n) s = .next { u with
      ecc := { e with counts := e.counts.set region (e.counts[region] + n) } }) ∧
    exec (.eccScrub dt) s = .next { u with ecc := { e with scrubPs := u.clock } } ∧
    (let posted (t : State) : State := t.post 0 0xFF 0xFFFF 0x41 1 (bytesOf 1 (eccRegion area) ++ bytesOf 3 0 ++ bytesOf 4 addr.toNat)
     let done := u.eccEffect addr.toNat area
     (u.ueReach area = none → exec (.eccUncorrectable dt area addr) s = .next (posted done)) ∧
     (∀ r, u.ueReach area = some r → exec (.eccUncorrectable dt area addr) s = .next (posted (done.modWarden r (fun w => { w with ue := true }))))) ∧
    (∀ e, u.eccEffect n (.engineRuntime e) = u.modEngine e (fun x => { x with ue := true })) ∧
    (∀ c, u.ctxs[c].st ≠ .idle → u.ctxs[c].st ≠ .migrating → (u.eccEffect n (.engineCtx c)).ctxs[c].restoreDue = true) ∧
    (u.eccEffect n (.program page)).ecc.badPages = page :: e.badPages.filter (· != page) ∧
    (∀ c, (u.eccEffect n (.snapshot c)).ctxs[c].snap = none) ∧
    (e.badPages.contains page = true →
      (let t : State := { u with ecc := { e with badPages := e.badPages.filter (· != page) } }
       (u.image.changed = false → exec (.programPageReload dt page true) s = .next t) ∧
       (u.image.changed = true → exec (.programPageReload dt page true) s = .next (t.pageLost page)) ∧
       exec (.programPageReload dt page false) s = .next (t.pageLost page))))

/-- The image's load ends once, with acceptance or with the first check that fails: the cause and the address are shown, the part is in
management-only mode, its reaches and the Outfall stop, and the refusal is posted with SEVERITY 3. Flash without the magic fails with cause
1. -/
def Obligations.ImageLoad : Prop :=
  ∀ (s : State) (dt : Nat) (ok : Bool),
    let u := s.advance dt
    let m := fun (a n : Nat) => Memory.readMany u.flash a n
    let h := headerOf (m 0 64)
    u.awake = true →
    (u.image.accepted = true ∨ u.image.refused = true → exec (.imageLoadComplete dt ok) s = .next u) ∧
    (u.image.accepted = false → u.image.refused = false →
      (∀ f, u.imageFault h m = some f → ∃ t, exec (.imageLoadComplete dt ok) s = .next t ∧
        t.image.refused = true ∧ t.image.accepted = false ∧ t.image.cause = f.1 ∧ t.image.checkReason = f.2.1 ∧ t.image.at_ = f.2.2 ∧
        t.mgmtOnly = true ∧ (∀ r : Fin 4, t.reaches[r].st = .stopped) ∧ t.host.session = none ∧ t.flash = u.flash) ∧
      (u.imageFault h m = none → h.fastEn = false → exec (.imageLoadComplete dt ok) s = .next
        (u.acceptImage h (tlvsOf (h.length / 8 + 1) 64 ((m 0 h.length).drop 64)).1 false)) ∧
      (u.flash = [] → u.imageFault h m = some (1, 0, 0)))

/-! ### Completion -/

/-- For every state and operands, each of the 228 commands completes: when the conditions of its own effect hold, which are conditions on the
state and the operands alone, exec answers the next state that the effect gives. The conditions are those that the chapters give for normal
execution: of the part (awake, serving), of the unit (a reach that is up, an engine that runs, a session of the sender that admits the
command) and of the operands. The results themselves are stated chapter by chapter above. -/
def Obligations.CommandsComplete : Prop :=
  ∀ (s : State) (dt : Nat),
  let u := s.advance dt
  (∀ (us : Nat), 10 ≤ us → exec (.reset dt us) s = .next (({ u with pins := { u.pins with resetN := true } } : State).resetTo u.pinCause)) ∧
  (∀ (core ana a18 : Nat), core < 700 ∨ ana < 880 ∨ a18 < 1550 → exec (.powerOnReset dt core ana a18) s = .next
    (let t := ({ u with pins := { u.pins with porHold := true } } : State).resetTo 1
     { t with rtc := { t.rtc with vbatPs := none } })) ∧
  (∀ (pins : BitVec 3) (aboveUs : Nat) (bank18 : BitVec 2), u.pins.porHold = true → 10000 ≤ aboveUs →
    exec (.powerOnResetRelease dt pins aboveUs bank18) s = .next (({ u with pins := { u.pins with porHold := false, bank18 := bank18 } } :
    State).released pins)) ∧
  (∀ (pins : BitVec 3), u.pins.resetN = true →
    exec (.resetNRelease dt pins) s = .next (({ u with pins := { u.pins with resetN := false } } : State).released pins)) ∧
  (∀ (hz1 hz2 : Nat), u.phase = .released → u.releasedPs + 20000000 ≤ u.clock → classOf hz1 ≠ .absent →
    exec (.refClassify dt hz1 hz2) s = .next (u.classify (classOf hz1) (classOf hz2))) ∧
  (∀ (ref2 : Bool) (sinceLastEdgeNs : Nat) (degrees : List Nat) (words : Vector Nat 5), u.refsRun = true → u.refs.good (inputOf ref2) = true →
    u.refs.lost (inputOf ref2) sinceLastEdgeNs degrees = true →
    exec (.refLost dt ref2 sinceLastEdgeNs degrees words) s = .next (if u.refs.active = inputOf ref2 then u.loseRef sinceLastEdgeNs words else
    { u with refs := u.refs.drop (inputOf ref2) })) ∧
  (∀ (belowUs : Nat), u.phase = .locked → u.still.frozen = false → u.refs.holdover = true → u.refs.active ≠ 0 → 100 ≤ belowUs →
    u.refs.switchPs + 100000000 ≤ u.clock → exec (.holdoverExit dt belowUs) s = .next (u.exitHoldover)) ∧
  (u.phase = .locked → u.still.frozen = false → u.image.revertive = true → u.refs.active = 2 → u.refs.ok1 = true → u.refs.holdover = false →
    ∀ p, u.refs.restoreFrom = some p → p + u.image.restoreS * secPs ≤ u.clock →
    exec (.refRevert dt) s = .next ({ u with refs := u.refs.switchTo 1 3 u.nowNs u.clock })) ∧
  (∀ (hz1 hz2 : Nat), u.phase = .locked → u.still.frozen = false → u.refs.holdover = true → u.refs.active = 0 →
    exec (.refRecovered dt hz1 hz2) s = .next (u.recoverRef (classOf hz1) (classOf hz2))) ∧
  (∀ (ref2 : Bool) (hz : Nat), u.refsRun = true → u.refs.active ≠ 0 → u.refs.active ≠ inputOf ref2 →
    exec (.refclkRestored dt ref2 hz) s = .next ({ u with refs := u.refs.restored (inputOf ref2) (classOf hz) u.clock })) ∧
  (u.phase = .classified →
    exec (.confluencePllLock dt) s = .next
    (({ u with phase := .locked, tw := { u.tw with ready := true }, selftestPs := u.clock, sync := { u.sync with tick0 := u.clock } } :
    State).firstReports.sendReports)) ∧
  (∀ (r : Fin 4), u.reachStarts r = true → u.reaches[r].pll = false →
    exec (.reachPllLock dt r) s = .next ({ u.modReach r (fun x => x.lockPll (Config.sampPhase u.draws % 320) u.clock) with draws := u.draws + 1 })) ∧
  (∀ (r : Fin 4), u.reachStarts r = true → u.reaches[r].pll = true → u.reaches[r].adc = false → exec (.adcSettled dt r) s = .next (u.adcSettles r)) ∧
  (∀ (r : Fin 4) (subAdcStillBad : Bool), u.reachStarts r = true → u.reaches[r].adc = true → u.reaches[r].passPs + fallowPassPs ≤ u.clock →
    exec (.initialFallowPassEnd dt r subAdcStillBad) s = .next ((u.modReach r (fun x => { x with pass := true })).modFallow r (fun f => f.afterPass
    subAdcStillBad u.clock))) ∧
  (∀ (r : Fin 4), u.reachStarts r = true → u.image.accepted = true → u.reaches[r].pll = true → u.reaches[r].adc = true → u.reaches[r].pass = true →
    exec (.reachReady dt r) s = .next (u.reachReady r)) ∧
  (∀ (r : Fin 4), u.reachStarts r = true → ∀ p, u.reaches[r].deadlinePs = some p → p ≤ u.clock →
    exec (.bringupTimeout dt r) s = .next (u.failReach r 0 0 true u.clock)) ∧
  (∀ (k : Fin 6) (mv ioc us : Nat), u.monitors = true → u.pins.supplyNow.getLsbD k.val = false → u.pins.supplyOut k mv ioc = true → 10 ≤ us →
    exec (.supplyOutOfRange dt k mv ioc us) s = .next
    (({ u with pins := { u.pins with supplyNow := u.pins.supplyNow ||| BitVec.ofNat 6 (2 ^ k.val), supplyLatched := u.pins.supplyLatched.set k (u.pins.supplyLatched[k].set u.clock) } }
    : State).supplyPost k)) ∧
  (∀ (k : Fin 6), u.monitors = true → u.pins.supplyNow.getLsbD k.val = true → u.since u.pins.supplyPostPs[k] secPs = true →
    exec (.supplyMonitorRepeat dt k) s = .next (u.supplyPost k)) ∧
  (∀ (k : Fin 6) (mv ioc : Nat), u.monitors = true → u.pins.supplyOut k mv ioc = false →
    exec (.supplyBackInRange dt k mv ioc) s = .next
    ({ u with pins := { u.pins with supplyNow := u.pins.supplyNow &&& ~~~(BitVec.ofNat 6 (2 ^ k.val)) } })) ∧
  (∀ (ns : Nat), u.still.frozen = false → u.freezePermitted = true → 50 ≤ ns → 200 ≤ ns → exec (.stillNFreeze dt ns) s = .next (u.stillAsserted ns)) ∧
  (∀ (address : BitVec 7) (reg : Addr) (words : List TwWord) (byStop : Bool), u.busUp = true → u.still.frozen = false → u.doze.fabAwake = true →
    u.tw.start.answers address = true → exec (.twWrite dt address reg words byStop) s = .next
    (let w : State := ({ u with tw := u.tw.start, doze := { u.doze with lastTwPs := u.clock } } : State).onBus (addrByte address false :: regBytes reg)
     let q := ({ w with tw := { w.tw with next := regAddr reg } } : State).twWords (u.tw.start.readOnly address) (regAddr reg) words
     q.1.twEnd byStop q.2)) ∧
  (∀ (address : BitVec 7) (reg : Addr) (count : Nat) (whole : Bool), u.busUp = true → u.still.frozen = false → u.doze.fabAwake = true →
    u.tw.start.answers address = true → exec (.twRead dt address (some reg) count whole) s = .next
    (let w : State := ({ u with readData := [], tw := u.tw.start, doze := { u.doze with lastTwPs := u.clock } } : State).onBus (addrByte address false :: regBytes reg ++ [addrByte address true])
     ({ w with tw := { w.tw with next := regAddr reg } } : State).twRegs (regAddr reg) whole count)) ∧
  (∀ (us : Nat), u.busUp = true → u.still.frozen = false → 34900 ≤ us →
    exec (.twSdaRelease dt us) s = .next ({ u with tw := { u.tw with ignoring := true, sdaReleases := u.tw.sdaReleases.add 255 u.clock } })) ∧
  (∀ (others : Byte), u.busUp = true → u.still.frozen = false → u.mailbox.alertPending = true → u.doze.fabAwake = true →
    exec (.twAraRead dt others) s = .next
    (let b : Byte := ({ u with tw := u.tw.start } : State).araAddress.setWidth 8 <<< 1 ||| 1
     let v : State := { u with tw := { u.tw.start with araByte := some b }, doze := { u.doze with lastTwPs := u.clock } }
     if b ≤ others then { v with mailbox := v.mailbox.alertDone } else { v with tw := { v.tw with araLost := v.tw.araLost.add 255 u.clock } })) ∧
  (∀ (r : Fin 4) (err : TrimError) (spur : Int), u.reachUp r = true → u.fallowSuspended r = false → u.fallow[r].boundPs + fallowPs ≤ u.clock →
    exec (.fallowBoundary dt r err spur) s = .next
    (let v := u.modFallow r (fun f => f.boundary err u.clock (u.burstIn r))
     if v.fallow[r].periods % 17 = 0 then v.rotationDone r spur else v)) ∧
  (∀ (r : Fin 4), u.reachUp r = true → u.burstIn r = false →
    exec (.fallowTrimCommit dt r) s = .next (u.modFallow r (fun f =>
    { f with trims := f.waiting.foldl (fun v p => v.set p.1 p.2) f.trims, waiting := [] }))) ∧
  (∀ (r : Fin 4), u.reachUp r = true → ∀ a, (u.forEach allReaches (fun q v => v.calSettle q)).admissible r = some a →
    exec (.maintenanceAdmit dt r) s = .next (((u.forEach allReaches (fun q v => v.calSettle q)).modUpkeep r (fun x =>
    { x with queue := x.queue.erase a })).startRun r a)) ∧
  (∀ (r : Fin 4), u.awake = true → u.reachUp r = true → exec (.calRecalibration dt r) s = .next ((u.calRun r 1 0 []).1)) ∧
  (∀ (r : Fin 4) (points : Fin 16), u.awake = true → u.reachUp r = true → exec (.calAbsolute dt r points) s = .next ((u.calRun r 2 points.val []).1)) ∧
  (∀ (r : Fin 4), u.awake = true → u.reachUp r = true → exec (.calSelftest dt r) s = .next ((u.calRun r 3 0 []).1)) ∧
  (∀ (store : Bool), u.awake = true → u.reachUp u.cal.reach = true → exec (.calApplySet dt store) s = .next (u.applySet store 0)) ∧
  (∀ (r : Fin 4) (node : BitVec 3) (store : Bool), u.awake = true → u.reachUp r = true →
    exec (.calRollback dt r node store) s = .next (u.rollback r node.toNat store 0)) ∧
  (u.awake = true → exec (.calLoad dt) s = .next (u.loadSet)) ∧
  (∀ (r : Fin 4) (op : BitVec 3), u.awake = true → u.reachUp r = true → exec (.calAbort dt r op) s = .next (u.calAbort r (opNames op.toNat) 1 1)) ∧
  (∀ (src : Peer) (id : BitVec 32) (word : Word), u.hostUp = true → u.fromCollector src = true → u.host.cmdEn = true → id ≠ 0 →
    u.host.cmds.find? (fun c => c.id == id) = none → 1 ≤ u.sessionVersion → u.host.open_.length < 32 → bit word 31 = false →
    bits word 2 0 = 6 ∨ u.reachUp (Fin.ofNat 4 (bits word 9 8)) = true →
    exec (.qrpCal dt src id word) s = .next ((u.heard.remember id 0x0030).qrpCal id word)) ∧
  (u.serving = true → bits u.cal.ctrl 15 0 ≠ 0 → u.selftestPs + bits u.cal.ctrl 15 0 * 60 * secPs ≤ u.clock →
    exec (.selftestDue dt) s = .next (({ u with selftestPs := u.clock } : State).forEach (allReaches.filter u.reachUp) (fun r u => u.ownRequest r
    .selftest))) ∧
  (∀ (tA tB tC tD : Int), u.serving = true → u.since u.upkeep[0].tempPs (100 * msPs) = true →
    exec (.tempSensorRead dt tA tB tC tD) s = .next (u.forEach ([((0 : Fin 4), tA), (1, tB), (2, tC), (3, tD)].filter (fun p => u.reachExists p.1))
    (fun p u => u.tempRead p.1 p.2))) ∧
  (∀ (r : Fin 4) (table : StepTable) (gainErr : Int) (a : Activity), u.reachUp r = true → u.runOf r .recal = some a → a.ready = false →
    a.startedPs + replicaSweepPs ≤ u.clock →
    exec (.fegrComplete dt r table gainErr) s = .next (u.modUpkeep r (fun x =>
    { x with running := some { a with table := some table, gainErr := some gainErr, ready := true } }))) ∧
  (∀ (r : Fin 4) (power : Int) (snr : Nat) (marked : Bool), u.reachUp r = true → ∀ a, (u.calSettle r).runOf r .absolute = some a →
    exec (.calAbsBlock dt r power snr marked) s = .next ((u.calSettle r).absBlock r power snr marked a)) ∧
  (∀ (r : Fin 4) (check : Option Int), u.reachUp r = true → ∀ a, (u.calSettle r).runOf r .absolute = some a →
    exec (.calPointComplete dt r check) s = .next ((u.calSettle r).pointDone r check a)) ∧
  (∀ (r : Fin 4) (a : Activity), u.reachUp r = true → (u.calSettle r).runOf r .absolute = some a → (u.calSettle r).pointOverdue a = true →
    exec (.calPointTimeout dt r) s = .next ((u.calSettle r).endPoint r a none)) ∧
  (∀ (r : Fin 4), u.reachUp r = true → ∀ a, (u.calSettle r).runOf r .absolute = some a →
    exec (.calSlotTaken dt r) s = .next ((u.calSettle r).slotTaken r a)) ∧
  (∀ (r : Fin 4), u.reachUp r = true → u.burstIn r = false → exec (.calCommitPoint dt r) s = .next (u.calCommit r)) ∧
  (∀ (r : Fin 4) (bad : List Mismatch) (a : Activity), u.reachUp r = true → u.runOf r .selftest = some a → a.startedPs + msPs ≤ u.clock →
    exec (.selftestComplete dt r bad) s = .next (u.selftestEnd r bad a)) ∧
  (∀ (c : Fin 256) (mean : Int) (held : Bool), u.chainRuns c = true → exec (.contextAgcWindow dt c mean held) s = .next (u.cagcWindow c mean held)) ∧
  (∀ (e : Fin 8) (codes : List Int), u.engineUp e = true → exec (.engineRound dt e codes) s = .next (u.round e codes)) ∧
  (∀ (e : Fin 8), u.engineUp e = true → exec (.engineWatchdog dt e) s = .next (u.watchdog e)) ∧
  (∀ (src : Peer) (id : BitVec 32) (addr : Addr) (count : BitVec 16), u.hostUp = true → u.fromCollector src = true → u.host.cmdEn = true → id ≠ 0 →
    u.host.cmds.find? (fun c => c.id == id) = none → 1 ≤ u.sessionVersion → 1 ≤ count.toNat → count.toNat ≤ 64 →
    (u.sessionVersion ≠ 1 ∨ count.toNat = 1) → (addrsFrom addr count.toNat).any qrpRefused = false →
    exec (.regRead dt src id addr count) s = .next ((u.heard.remember id 1).qrpRead id addr count.toNat)) ∧
  (∀ (src : Peer) (id : BitVec 32) (pairs : List (Addr × Word)), u.hostUp = true → u.fromCollector src = true → u.host.cmdEn = true → id ≠ 0 →
    u.host.cmds.find? (fun c => c.id == id) = none → 1 ≤ u.sessionVersion → 1 ≤ pairs.length → pairs.length ≤ 64 →
    (u.sessionVersion ≠ 1 ∨ pairs.length = 1) → pairs.any (fun x => qrpRefused x.1) = false →
    exec (.regWrite dt src id pairs) s = .next ((u.heard.remember id 2).qrpWrite id pairs)) ∧
  (∀ (src : Peer) (id : BitVec 32) (c : Fin 256) (copy : BitVec 8), u.hostUp = true → u.fromCollector src = true → u.host.cmdEn = true → id ≠ 0 →
    u.host.cmds.find? (fun c => c.id == id) = none → 1 ≤ u.sessionVersion → copy.toNat ≤ 1 →
    exec (.ctxRead dt src id c copy) s = .next ((u.heard.remember id 0x10).complete id 0x10 ((u.heard.remember id 0x10).ctxs[c].copyOf c
    copy.toNat).bytes)) ∧
  (∀ (src : Peer) (id : BitVec 32) (c p : Fin 256) (pair : Bool) (e1 e2 : Vector Word 16), u.hostUp = true → u.fromCollector src = true →
    u.host.cmdEn = true → id ≠ 0 → u.host.cmds.find? (fun c => c.id == id) = none → 1 ≤ u.sessionVersion → u.host.open_.length < 32 →
    exec (.ctxCommit dt src id c p pair e1 e2) s = .next ((u.heard.remember id 0x11).qrpCommit id c p pair e1 e2)) ∧
  (∀ (src : Peer) (id : BitVec 32), u.hostUp = true → u.fromCollector src = true → u.host.cmdEn = true → id ≠ 0 →
    u.host.cmds.find? (fun c => c.id == id) = none → 1 ≤ u.sessionVersion → (∃ r, u.reachUp r = true) →
    exec (.syncReset dt src id) s = .next ((u.heard.remember id 0x40).qrpSync id)) ∧
  (∀ (src : Peer) (id : BitVec 32), u.hostUp = true → u.fromCollector src = true → u.host.cmdEn = true → id ≠ 0 →
    u.host.cmds.find? (fun c => c.id == id) = none → 1 ≤ u.sessionVersion →
    exec (.doze dt src id) s = .next ((u.heard.remember id 0x41).requestDoze.complete id 0x41 [])) ∧
  (∀ (src : Peer) (id target : BitVec 32), u.hostUp = true → u.fromCollector src = true → u.host.cmdEn = true → id ≠ 0 →
    u.host.cmds.find? (fun c => c.id == id) = none → 2 ≤ u.sessionVersion → u.host.cmds.any (fun c => c.id == target) = true →
    exec (.abort dt src id target) s = .next ((u.heard.remember id 0xF0).qrpAbort id target)) ∧
  (∀ (src : Peer) (id target : BitVec 32), u.hostUp = true → u.fromCollector src = true → u.host.cmdEn = true → id ≠ 0 →
    u.host.cmds.find? (fun c => c.id == id) = none → 2 ≤ u.sessionVersion →
    exec (.status dt src id target) s = .next ((u.heard.remember id 0xF1).complete id 0xF1 ((u.heard.remember id 0xF1).statusOf target))) ∧
  (∀ (c : Fin 256) (apartMs : Nat) (prs : Bool) (offset : Int), u.engineServes c stdDab = true → u.ctxs[c].dab.sync = false →
    u.ctxs[c].dab.nullFits apartMs = true → prs = true → offset.natAbs ≤ 10000 →
    exec (.dabFrameSync dt c apartMs prs offset) s = .next (u.dabStep c Dab.synced)) ∧
  (∀ (c : Fin 256) (missed : Nat), u.engineServes c stdDab = true → u.ctxs[c].dab.sync = true → 3 ≤ missed →
    exec (.dabFrameSyncLost dt c missed) s = .next (u.dabStep c Dab.syncLost)) ∧
  (∀ (c : Fin 256) (fic : Fic) (msc : Option MscCif) (frameStamp : Nat) (symbols : List DabSym), u.engineServes c stdDab = true →
    u.ctxs[c].dab.sync = true → u.ficOpen c frameStamp = true → u.ficWaited c fic frameStamp = true → u.ficReturned c fic frameStamp symbols = true →
    exec (.dabFicDecode dt c fic msc frameStamp (u.partnerFic c (u.ctxs[c].dab.ficCount frameStamp fic.cif)).isSome symbols) s =
    .next (u.ficDecode c fic msc frameStamp symbols)) ∧
  (∀ (c : Fin 256) (sub : Fin 64) (f : LogicalFrame), u.engineServes c stdDab = true → u.ctxs[c].dab.sync = true → u.ctxs[c].dab.frameReady = true →
    u.frameWaited c = true → u.frameReturned c sub f = true → exec (.dabLogicalFrame dt c sub f) s = .next (u.logicalFrame c sub f)) ∧
  (∀ (c : Fin 256) (sub : Fin 64) (corrected : List Byte) (failed : List Nat) (x : DabSub), u.engineServes c stdDab = true →
    u.ctxs[c].dab.yields sub = true → u.ctxs[c].dab.classOf sub = .dabPlus → u.ctxs[c].dab.sub? sub = some x → x.frames.length = 5 →
    rsReturns x.raw corrected failed = true → exec (.dabSuperframe dt c sub corrected failed) s = .next (u.superframe c sub x corrected)) ∧
  (∀ (c : Fin 256), u.engineServes c stdDab = true → u.ctxs[c].dab.sync = true → u.ctxs[c].dab.newComplete = true → u.ctxs[c].dab.reached = true →
    exec (.dabReconfiguration dt c) s = .next (u.modDab c Dab.reconfigure)) ∧
  (u.awake = true → exec (.dozeEnter dt) s = .next (u.requestDoze)) ∧
  (u.awake = true → exec (.dozeExit dt) s = .next (u.hostExit)) ∧
  (u.scheduleRuns = true → u.minuteStarts = true → u.image.windows.any (fun w => w.1 == minuteOf u.rtc.seconds) = true →
    exec (.dozeWindowStart dt) s = .next (({ u with doze := { u.doze with suppressed := false } } : State).enterWindow)) ∧
  (u.scheduleRuns = true → u.minuteStarts = true → u.inWindow = false → u.scheduleActs = true →
    u.image.windows.any (fun w => (w.1 + w.2) % 1440 == minuteOf u.rtc.seconds) = true → exec (.dozeWindowEnd dt) s = .next (u.requestExit)) ∧
  (u.serving = true → u.doze.requested = true → u.dozeFree = true → exec (.dozeEntry dt) s = .next (u.enterDoze)) ∧
  (u.scheduleRuns = true → u.doze.inDoze = true → u.doze.exitRequested = true → exec (.dozeExitSequence dt) s = .next (u.leaveDoze)) ∧
  (u.scheduleRuns = true → u.doze.inDoze = true → u.doze.fabAwake = false → exec (.dozeTwWake dt) s = .next (u.wakeFab)) ∧
  (u.awake = true → u.doze.inDoze = true → u.doze.lastTwPs + 10 * msPs ≤ u.clock →
    exec (.dozeFabIdleStop dt) s = .next ({ u with doze := { u.doze with fabAwake := false } })) ∧
  (∀ (c : Fin 256) (samples : Nat) (span : EabSpan), u.eabServes c = true → u.ctxs[c].eab.lock = false →
    u.ctxs[c].eabGains samples span.marked = true →
    exec (.eabLock dt c samples span) s = .next ((u.modEab c (fun e => { e with noise := span.power })).eabStep c true)) ∧
  (∀ (c : Fin 256) (samples marked : Nat), u.eabServes c = true → u.ctxs[c].eab.lock = true → u.ctxs[c].eabLoses samples marked = true →
    exec (.eabLockLost dt c samples marked) s = .next ((u.modEab c (fun e => { e with lockLost := true })).eabStep c false)) ∧
  (∀ (c : Fin 256) (last : List EabSym) (level : Int) (snr : Nat) (foffset : Int) (stamp : Nat), u.eabServes c = true → u.ctxs[c].eab.st = .armed →
    u.ctxs[c].detects last level snr = true →
    exec (.eabPreambleDetect dt c last level snr foffset stamp) s = .next ((u.calSettle u.ctxs[c].reachOf).modEab c (fun e =>
    e.detect u.ctxs[c].spateLevel u.clock
    (({ level := level, foffset := foffset, detectStamp := stamp, noise := e.noise } : Reception).take u.ctxs[c] last)))) ∧
  (∀ (c : Fin 256) (syms : List EabSym) (foffset : Int), u.eabServes c = true → u.ctxs[c].eab.st = .preamble →
    endsPreamble (u.ctxs[c].heard syms).syms = true →
    exec (.eabPreambleEnd dt c syms foffset) s = .next ((u.hearSymbols c syms).modEab c (fun e =>
    { e with st := .syncWait, afcFrozen := true, rx := { e.rx with foffset := afcEstimate foffset } }))) ∧
  (∀ (c : Fin 256) (syms : List EabSym), u.eabServes c = true → u.ctxs[c].eab.st = .preamble → falsePreamble (u.ctxs[c].heard syms).syms = true →
    exec (.eabFalsePreamble dt c syms) s = .next (u.eabFail c 1 syms)) ∧
  (∀ (c : Fin 256) (syms : List EabSym) (stamp : Nat), u.eabServes c = true → u.ctxs[c].eab.st = .syncWait →
    (u.ctxs[c].heard syms).finds u.ctxs[c].active.eabChannel stamp = true →
    exec (.eabSyncFound dt c syms stamp) s = .next ((u.hearSymbols c syms).modEab c (fun e =>
    { e with st := .header, rx := { e.rx with syncErr := syncErrors e.rx.syms ((syncStart e.rx.syms).getD 0), syncStamp := some stamp } }))) ∧
  (∀ (c : Fin 256) (syms : List EabSym), u.eabServes c = true → u.ctxs[c].eab.st = .syncWait → missesSync (u.ctxs[c].heard syms).syms = true →
    exec (.eabNoSync dt c syms) s = .next (u.eabFail c 2 syms)) ∧
  (∀ (c : Fin 256) (syms : List EabSym) (decoded : List Bool) (iter : Nat), u.eabServes c = true → u.ctxs[c].eab.st = .header → u.echoes c = false →
    (u.ctxs[c].heard syms).arrived (24 + 128) syms = true → u.mayDecode c (24 + 128) = true → (u.hearSymbols c syms).headerReturns c decoded iter = true →
    exec (.eabHeaderDecoded dt c syms decoded iter ((u.hearSymbols c syms).decodingSnr c (24 + 128))) s =
    .next (((u.hearSymbols c syms).headerDecoded c decoded iter).combineDone c)) ∧
  (∀ (c : Fin 256) (syms : List EabSym) (decoded : List Bool) (iter : Nat) (h : BitVec 128), u.eabServes c = true → u.ctxs[c].eab.st = .payload →
    u.echoes c = false → u.heardHeader c = some h → u.ctxs[c].eab.rx.cwDone < hCw h →
    (u.ctxs[c].heard syms).arrived (u.ctxs[c].eab.rx.nextEnd h) syms = true → u.mayDecode c (u.ctxs[c].eab.rx.nextEnd h) = true →
    (u.hearSymbols c syms).codewordReturns c h decoded iter = true →
    exec (.eabCodewordDecoded dt c syms decoded iter ((u.hearSymbols c syms).decodingSnr c (u.ctxs[c].eab.rx.nextEnd h))) s =
    .next (((u.hearSymbols c syms).codewordDecoded c h decoded iter).combineDone c)) ∧
  (∀ (c : Fin 256) (syms : List EabSym), u.eabServes c = true → u.burstEnds c syms = true → ∀ h, u.heardHeader c = some h →
    exec (.eabBurstEnd dt c syms) s = .next ((u.hearSymbols c syms).burstEnd c h)) ∧
  (∀ (c : Fin 256), u.serving = true → u.reachUp u.ctxs[c].reachOf = true → u.ctxs[c].st ≠ .migrating → ∀ q, u.ctxs[c].eab.toHandOver = some q →
    exec (.eabRecordHandover dt c) s = .next ((u.modEab c (fun e => { e with ended := markHanded u.clock e.ended })).eabRecords c q)) ∧
  (∀ (c : Fin 256) (syms main : List EabSym) (foffset : Int) (stamp now : Nat), u.eabServes c = true → u.ctxs[c].eab.receiving = true →
    u.ctxs[c].shadowGoesOn (u.ctxs[c].candidate syms foffset stamp) = true ∨ u.ctxs[c].shadowFinds (u.ctxs[c].candidate syms foffset stamp) = true →
    exec (.eabShadowDetect dt c syms main (u.ctxs[c].candidateSnr (u.ctxs[c].candidate syms foffset stamp)) foffset stamp now) s =
    .next ((u.hearSymbols c main).shadowDetect c (u.ctxs[c].candidate syms foffset stamp) now)) ∧
  (∀ (c : Fin 256) (syms : List EabSym) (snrs : List Nat), u.eabServes c = true → u.ctxs[c].eab.receiving = true →
    u.ctxs[c].shadowDrops syms snrs = true → exec (.eabShadowDrop dt c syms snrs) s = .next (u.modEab c (fun e => { e with shadow := none }))) ∧
  (∀ (c : Fin 256) (syms : List EabSym) (stamp : Nat), u.eabServes c = true → u.ctxs[c].eab.st.rises = true →
    (u.ctxs[c].heard syms).levelRose = true →
    exec (.eabLevelRise dt c syms stamp) s = .next ((u.hearSymbols c syms).eabAbandon c 7 (u.symbolsTo c stamp) (u.ctxs[c].heard syms).riseLevel)) ∧
  (∀ (c : Fin 256) (power : Nat) (invalid : Bool) (marks : Marks), u.eabServes c = true → u.nfQualifies c invalid marks = true →
    exec (.eabNfBlock dt c power invalid marks) s = .next (u.modEab c (fun e =>
    { e with noise := power
             nfBlocks := e.nfBlocks ++ [u.densityAt u.ctxs[c].reachOf power u.ctxs[c].active.eabChannel u.ctxs[c].active.centre] }))) ∧
  (∀ (c : Fin 256), u.eabServes c = true → u.ctxs[c].active.nfPeriod ≠ 0 → u.ctxs[c].eab.nfStartPs + u.ctxs[c].active.nfPeriod * secPs ≤ u.clock →
    exec (.eabNfReport dt c) s = .next (u.nfReport c)) ∧
  (u.serving = true → u.since u.replayJournalPs secPs = true → exec (.eabReplayJournal dt) s = .next (u.replaySession)) ∧
  (∀ (region : Fin 4) (count : Nat), u.awake = true → exec (.eccCorrected dt region count) s = .next (u.eccCount region count)) ∧
  (u.awake = true → exec (.eccScrub dt) s = .next ({ u with ecc := { u.ecc with scrubPs := u.clock } })) ∧
  (∀ (area : EccArea) (address : BitVec 32), u.awake = true →
    exec (.eccUncorrectable dt area address) s = .next
    (((u.eccEffect address.toNat area).withSome (u.ueReach area) (fun r v => v.modWarden r (fun w =>
    { w with ue := true }))).post 0 0xFF 0xFFFF 0x41 1 (bytesOf 1 (eccRegion area) ++ bytesOf 3 0 ++ bytesOf 4 address.toNat))) ∧
  (∀ (page : Nat) (imageOk : Bool), u.awake = true → u.ecc.badPages.contains page = true → exec (.programPageReload dt page imageOk) s = .next
    (let v : State := { u with ecc := { u.ecc with badPages := u.ecc.badPages.filter (· != page) } }
     if imageOk && !u.image.changed then v else v.pageLost page)) ∧
  (∀ (c : Fin 256) (lowest overUs : Nat), u.engineServes c stdFm = true → u.ctxs[c].fm.carrierLock = false → u.cnrHeld c lowest overUs 8000 = true →
    exec (.fmCarrierLock dt c lowest overUs) s = .next (u.fmStep c (fun f => f.carrierGained u.ctxs[c].active.stereoAuto lowest u.clock))) ∧
  (∀ (c : Fin 256) (highest overUs : Nat), u.engineServes c stdFm = true → u.ctxs[c].fm.carrierLock = true → u.cnrFailed c highest overUs 50000 = true →
    exec (.fmCarrierLockLost dt c highest overUs) s = .next (u.fmStep c (fun f => f.carrierLost highest))) ∧
  (∀ (c : Fin 256) (lockedUs deviation : Nat), u.engineServes c stdFm = true → u.ctxs[c].fm.pilotWindow = true →
    u.ctxs[c].fm.sincePs + 150 * msPs ≤ u.clock →
    exec (.fmPilotDecision dt c lockedUs deviation) s = .next (u.fmStep c (fun f => f.pilotDecided (pilotPresent lockedUs deviation)))) ∧
  (∀ (c : Fin 256) (unlockedUs : Nat), u.followsPilot c = true → u.ctxs[c].fm.stereo = true → 20000 ≤ unlockedUs →
    exec (.fmStereoToMono dt c unlockedUs) s = .next (u.modFm c (fun f => f.turnStereo false u.clock))) ∧
  (∀ (c : Fin 256) (lockedUs : Nat), u.followsPilot c = true → u.ctxs[c].fm.stereo = false → 100000 ≤ lockedUs →
    exec (.fmMonoToStereo dt c lockedUs) s = .next (u.modFm c (fun f => f.turnStereo true u.clock))) ∧
  (∀ (c : Fin 256) (lowest overUs : Nat), u.engineServes c stdAm = true → u.ctxs[c].am.lock = false → u.amGains c lowest overUs = true →
    exec (.amLockGained dt c lowest overUs) s = .next (((u.modAm c (fun a =>
    { a with lock := true, blendPs := none, syncDet := syncInUse u.ctxs[c].active.detect a.loopLocked })).modFm c (fun f => { f with cnr := lowest })).judgeLock c false)) ∧
  (∀ (c : Fin 256) (highest overUs : Nat), u.engineServes c stdAm = true → u.ctxs[c].am.lock = true → u.amLoses c highest overUs = true →
    exec (.amLockLost dt c highest overUs) s = .next ((u.modAm c (fun a => { a with lock := false, blendPs := none })).judgeLock c true)) ∧
  (∀ (c : Fin 256) (loopLocked : Bool) (offset : Int), u.engineServes c stdAm = true →
    exec (.amDetectorSwitch dt c loopLocked offset) s = .next (u.modAm c (fun a => a.loop u.ctxs[c].active.detect loopLocked offset u.clock))) ∧
  (∀ (c : Fin 256) (bits : List Bool) (stamp : Nat) (marks : Marks), u.engineServes c stdFm = true → u.ctxs[c].active.rdsEn = true →
    u.ctxs[c].fm.carrierLock = true →
    exec (.rdsBlock dt c bits stamp marks) s = .next (u.fmStep c (fun f => f.bits u.ctxs[c].active bits stamp marks))) ∧
  (∀ (c : Fin 256) (level : Int) (cnr : Nat), u.engineServes c stdFm = true → u.ctxs[c].fm.rdsSync = true → u.ctxs[c].fm.group.length = 4 →
    exec (.rdsGroupComplete dt c level cnr) s = .next (u.groupComplete c level cnr)) ∧
  (∀ (c : Fin 256) (audio : List AudioIn) (cnr : Nat), (u.engineServes c stdFm || u.engineServes c stdAm) = true → u.ctxs[c].pcmOn = true →
    exec (.pcmRecord dt c audio cnr) s = .next (u.pcm c audio cnr)) ∧
  (∀ (sc : Fin 256), u.serving = true → u.scoutFree sc = true → exec (.scoutCheckStart dt sc) s = .next (u.startCheck sc)) ∧
  (∀ (c : Fin 256), u.serving = true → u.ctxs[c].follow.learnedDirty = true → u.since u.ctxs[c].follow.learnedAt (60 * secPs) = true →
    exec (.afLearnedJournal dt c) s = .next (u.journalLearned c)) ∧
  (∀ (sc : Fin 256) (level : Int) (cnr lowest heldUs : Nat) (ownLevel : Int), u.serving = true → u.ctxs[sc].sequencerPending = false →
    ∀ q, u.ctxs[sc].follow.check = some q → (u.ownLevel q.1).getD ownLevel = ownLevel → ∀ n, u.checkResult sc q.1 q.2 cnr lowest heldUs = some n →
    exec (.scoutCheckEnd dt sc level cnr lowest heldUs ownLevel) s = .next (u.endCheck sc n (some level) (some cnr))) ∧
  (∀ (c : Fin 256), u.serving = true → u.ctxs[c].decides = true → (∃ k, u.chosen c = some k) →
    exec (.afSwitchDecision dt c) s = .next (u.decideSwitch c)) ∧
  (∀ (c : Fin 256) (l : Landing), u.serving = true → u.ctxs[c].follow.landing = some l → l.started = false → l.decidedPs < u.clock →
    u.ctxs[c].boundaryPs = some u.clock →
    exec (.landingStart dt c) s = .next (u.forEach (u.ctxs[c].landers c) (fun q v => v.startLanding q))) ∧
  (∀ (c : Fin 256) (d : Landed) (l : Landing), u.serving = true → u.ctxs[c].follow.landing = some l → l.started = true →
    l.ready = true ∨ u.clock ≤ l.startedPs + landingLimitPs l.entry.std →
    exec (.landingReady dt c d) s = .next (u.modFollow c (fun f => { f with landing := some (u.landingTakes c l d) }))) ∧
  (∀ (c : Fin 256) (l : Landing), u.serving = true → u.ctxs[c].follow.landing = some l → l.started = true → l.ready = false →
    l.startedPs + landingLimitPs l.entry.std ≤ u.clock → exec (.landingFailed dt c) s = .next (u.failLanding c)) ∧
  (∀ (c : Fin 256) (other : Landed) (otherBuilt : List Built) (switchStamp : Nat) (d : Landed) (built : List Built), u.serving = true →
    u.ctxs[c].follow.landing.isSome = true → u.switchDue c d other = true → u.atOutput c switchStamp = true →
    exec (.afSwitch dt c other otherBuilt switchStamp d built) s = .next (u.forEach (u.ctxs[c].landers c) (fun q v =>
    v.switchOne q switchStamp (landedOf c d other q) (if q = c then built else otherBuilt)))) ∧
  (∀ (c : Fin 256) (built : List Built), u.serving = true → ∀ o, u.ctxs[c].follow.runOut = some o → u.clock ≤ o.sincePs + secPs →
    exec (.runOutEnd dt c built) s = .next (u.endRunOut c built)) ∧
  (∀ (c : Fin 256), u.serving = true → (u.partnerOf c).isSome = true → (u.ctxs[c].active.std == stdEab || u.ctxs[c].active.std == stdDab) = true →
    u.combineOverdue (u.decodingMember c) = true →
    exec (.twinCombineTimeout dt c) s = .next (u.decodeAlone (u.decodingMember c))) ∧
  (∀ (c : Fin 256) (ticks : List (Nat × Nat)) (levelL levelH : Int) (stamp : Nat), u.serving = true → (u.partnerOf c).isSome = true →
    selects u.ctxs[c].active.std = true → (u.ownLevel (u.recordCtx c)).getD levelL = levelL → (u.ownLevel (u.higherCtx c)).getD levelH = levelH →
    u.atOutput (u.switchMember c) stamp = true →
    exec (.twinSelectionChange dt c ticks levelL levelH stamp) s = .next (u.selectTwin c ticks stamp)) ∧
  (∀ (r : Fin 4) (peak : Int) (mean : Nat), u.sampling r = true →
    exec (.agcWindowEnd dt r peak mean) s = .next (u.modReach r (fun x => x.windowEnd peak mean (u.stepDraw r) u.clock (u.burstIn r)))) ∧
  (∀ (r : Fin 4), u.sampling r = true → u.reaches[r].auto = true → u.reaches[r].agcFrozen u.clock = false → u.reaches[r].clipDone = false →
    exec (.agcClipReduction dt r) s = .next (u.modReach r (fun w =>
    { ((w.settle u.clock).setGain (max ((w.settle u.clock).decided - 6) (-30)) (u.stepDraw r) u.clock) with clipDone := true }))) ∧
  (∀ (r : Fin 4), u.sampling r = true → u.reaches[r].auto = true → u.reaches[r].agcFrozen u.clock = false → u.burstIn r = false →
    exec (.agcDeferredIncrease dt r) s = .next (u.modReach r (fun x => x.raiseDeferred (u.stepDraw r) u.clock))) ∧
  (∀ (r : Fin 4) (value : Word), u.reachAccess r = true → 1 ≤ bits value 11 6 → bits value 11 6 < bits value 17 12 →
    bits value 17 12 < bits value 23 18 → bits value 23 18 ≤ 60 → exec (.reachAgcWrite dt r value) s = .next (u.writeAgc r value)) ∧
  (∀ (r : Fin 4) (value : Word), u.reachAccess r = true → bits u.reaches[r].regs.agc 31 30 = 1 →
    exec (.reachAttnWrite dt r value) s = .next (u.writeAttn r value)) ∧
  (∀ (d : SpateDet) (levels : List Int), u.spateValid = true → exec (.spateFlagRaise dt d levels) s = .next (u.spateDeliver d levels)) ∧
  (∀ (d : SpateDet) (levels : List Int), u.spateValid = true → exec (.spateFlagClear dt d levels) s = .next (u.spateDeliver d levels)) ∧
  (exec (.blankInAssert dt) s = .next (({ u with pins := { u.pins with blankIn := true } } : State).blankAll)) ∧
  (exec (.blankInRelease dt) s = .next (({ u with pins := { u.pins with blankIn := false } } : State).blankAll)) ∧
  (∀ (r : Fin 4), u.sampling r = true → u.reaches[r].blankOver u.clock = true → exec (.blankingIntervalEnd dt r) s = .next (u.blankEnd r)) ∧
  (∀ (r : Fin 4), u.sampling r = true → exec (.overrangeSample dt r) s = .next (u.overrange r)) ∧
  (∀ (r : Fin 4), u.sampling r = true → exec (.sampleClamped dt r) s = .next (u.countClamps r 1)) ∧
  (∀ (r : Fin 4) (n : Fin 8) (value : Word), u.reachAccess r = true → tribInRange value = true → u.tribInUse r n = false →
    exec (.reachTribWrite dt r n value) s = .next (u.writeTrib r n value)) ∧
  (∀ (levels : List Bool), u.serving = true → u.sync.pinEn = true →
    exec (.syncNAssert dt levels) s = .next (u.syncLevels (u.tickBefore u.clock - (levels.length - 1) * u.tickPs) levels)) ∧
  (u.awake = true → (∃ r, u.reachUp r = true) → exec (.syncGo dt) s = .next (u.writeSyncGo)) ∧
  (u.serving = true → u.syncDue.isSome = true → exec (.syncResetApply dt) s = .next (u.syncApply)) ∧
  (∀ (src : Peer) (minVer maxVer : BitVec 8) (takeover : Bool) (timeout : BitVec 16) (mask : BitVec 128), u.hostUp = true → 1 ≤ maxVer.toNat →
    minVer.toNat ≤ min 3 maxVer.toNat → u.host.session = none →
    exec (.hello dt src minVer maxVer takeover timeout mask) s = .next (u.hello src minVer.toNat maxVer.toNat takeover timeout mask)) ∧
  (∀ (src : Peer), u.hostUp = true → u.fromCollector src = true → exec (.bye dt src) s = .next (u.heard.endSession 0)) ∧
  (u.portRuns = true → u.timedOut = true → u.host.session.isSome = true → exec (.sessionTimeout dt) s = .next (u.endSession 1)) ∧
  (∀ (syncUs : Nat), u.portRuns = true → u.host.link = false → 10000 ≤ syncUs → u.host.mode ≠ 0 →
    exec (.linkUp dt syncUs true) s = .next (u.linkUp true)) ∧
  (u.portRuns = true → u.host.link = true → exec (.linkDown dt) s = .next (u.linkDown)) ∧
  (∀ (value : Word), u.awake = true → exec (.hostportLinkWrite dt value) s = .next (u.writeHostCtrl value)) ∧
  (∀ (addr : Addr) (value : Word), u.awake = true → exec (.hostportAddressWrite dt addr value) s = .next (u.writeHostAddress addr value)) ∧
  (∀ (sender target : BitVec 32) (mac : BitVec 48), u.hostUp = true → target = u.host.ip →
    exec (.arpRequest dt sender target mac) s = .next (u.arpAnswer sender target mac)) ∧
  (u.hostUp = true → u.host.nextHopIp ≠ 0 → u.host.resolved = false → u.host.arpTries = 0 → exec (.arpResolve dt) s = .next (u.arpNext)) ∧
  (u.hostUp = true → u.host.resolved = true → ∀ p, u.host.nextHop = some p → p.2.2 + 60 * secPs ≤ u.clock →
    exec (.arpRefresh dt) s = .next (({ u with host := { u.host with nextHop := none } } : State).arpAsk 1)) ∧
  (∀ (sender : BitVec 32) (mac : BitVec 48), u.hostUp = true → u.host.nextHopIp = sender → sender ≠ 0 →
    exec (.arpReply dt sender mac) s = .next (u.arpResolved sender mac)) ∧
  (∀ (sender : BitVec 32) (mac : BitVec 48) (ident seq : BitVec 16) (payload : List Byte), u.hostUp = true → payload.length ≤ 1472 →
    exec (.icmpEcho dt sender mac ident seq payload) s = .next (u.sendFrame (.echoReply sender mac ident seq payload))) ∧
  (∀ (frame : List Byte), u.portRuns = true → u.host.link = true → u.host.verdict frame = .discard →
    exec (.datagramDiscarded dt frame) s = .next (u.receive frame)) ∧
  (u.sendable = true → ∀ q, u.host.session = some q → exec (.recordsSend dt) s = .next (u.recordsSend q)) ∧
  (u.sendable = true → u.host.lastTxPs + secPs ≤ u.clock → ∀ q, u.host.session = some q →
    exec (.recordsKeepalive dt) s = .next (u.sendDatagram (fun d => .records q.version d []))) ∧
  (∀ (src : Peer) (entries : List NakEntry) (q : QSession), u.hostUp = true → u.host.session = some q → q.peer = src →
    exec (.nak dt src entries) s = .next (u.heard.nak { q with lastRxPs := u.clock } (entries.take 64))) ∧
  (∀ (fastReadOk : Bool), u.awake = true → u.image.accepted = false → u.image.refused = false →
    exec (.imageLoadComplete dt fastReadOk) s = .next (u.loadImage fastReadOk)) ∧
  (∀ (ok w : Bool) (cls typ key : Nat) (p : List Byte), u.awake = true → u.journal.running = some ⟨.append cls typ key p, w⟩ →
    exec (.journalAppend dt ok) s = .next (u.appendEnd ⟨.append cls typ key p, w⟩ typ key p ok)) ∧
  (∀ (ok w : Bool) (cls : Nat), u.awake = true → u.journal.running = some ⟨.compact cls, w⟩ →
    exec (.journalCompaction dt ok) s = .next (u.compactEnd ⟨.compact cls, w⟩ ok)) ∧
  (u.awake = true → u.doze.inDoze = false → u.doze.requested = false → u.journal.ready = true → u.journal.running.isNone = true →
    (u.journal.compactDue = true ∨ ∃ k, u.journal.nextSession = some k) → exec (.journalSessionGrant dt) s = .next (u.grant)) ∧
  (u.awake = true → (u.image.accepted || u.image.refused) = true → u.journal.ready = false →
    exec (.journalReplayComplete dt) s = .next (u.replayDone)) ∧
  (∀ (len : BitVec 12), u.awake = true → u.journal.busy = false → exec (.journalRead dt len) s = .next (u.journalReadOp len.toNat)) ∧
  (∀ (len : BitVec 12) (key : BitVec 8), u.awake = true → u.journal.busy = false →
    exec (.journalWrite dt len key) s = .next (u.windowSession (.append 5 6 key.toNat (u.journal.wdBytes len.toNat)))) ∧
  (u.awake = true → u.journal.busy = false → exec (.journalFlashRead dt) s = .next (u.flashOp u.journal.arg.toNat 256 (.read u.journal.arg.toNat))) ∧
  (∀ (len : BitVec 12), u.awake = true → u.journal.busy = false →
    exec (.journalProgram dt len) s = .next (u.flashOp u.journal.arg.toNat (min len.toNat 256) (programOp u.journal.arg.toNat (u.journal.wdBytes
    len.toNat)))) ∧
  (u.awake = true → u.journal.busy = false →
    exec (.journalErase4k dt) s = .next (u.flashOp (u.journal.arg.toNat / 4096 * 4096) 4096 (.erase4k u.journal.arg.toNat))) ∧
  (u.awake = true → u.journal.busy = false →
    exec (.journalErase64k dt) s = .next (u.flashOp (u.journal.arg.toNat / 65536 * 65536) 65536 (.erase64k u.journal.arg.toNat))) ∧
  (u.awake = true → u.journal.busy = false → exec (.journalCompact dt) s = .next (u.windowSession (.compact 5))) ∧
  (∀ (n : Fin 4) (value : Word), u.awake = true → exec (.keysDataWrite dt n value) s = .next (u.writeKeyData n value)) ∧
  (u.awake = true → u.keys.busy.isNone = true → ∀ p, u.keys.dataPs = some p → p + secPs ≤ u.clock →
    exec (.keysDataClear dt) s = .next ({ u with keys := u.keys.wipe })) ∧
  (∀ (slot : Fin 8), u.awake = true → u.keys.busy = none → u.keys.slotSet slot = false → u.keys.word ≠ 0 →
    exec (.keysProgramKey dt 0x4B59 slot) s = .next ({ u with keys := u.keys.command 0x4B59 1 slot })) ∧
  (u.awake = true → u.keys.busy = none → exec (.keysBlowAuthReq dt 0x4B59) s = .next ({ u with keys := u.keys.command 0x4B59 2 0 })) ∧
  (u.awake = true → u.keys.busy = none → exec (.keysBlowStillOff dt 0x4B59) s = .next ({ u with keys := u.keys.command 0x4B59 3 0 })) ∧
  (∀ (ok : Bool), u.awake = true → ∀ b, u.keys.busy = some b → exec (.keysOperationEnd dt ok) s = .next (u.keysEnd b.1 b.2.1 b.2.2 ok)) ∧
  (∀ (src : Peer) (id : BitVec 32) (a : TxArgs), u.hostUp = true → u.fromCollector src = true → u.host.cmdEn = true → id ≠ 0 →
    u.host.cmds.find? (fun c => c.id == id) = none → 1 ≤ u.sessionVersion → u.host.open_.length < 32 →
    (u.heard.remember id 0x20).transmitRefusal a = 0 →
    exec (.transmit dt src id a) s = .next (((u.heard.remember id 0x20).modOut (fun o => o.enqueue ((u.heard.remember id 0x20).buildTx id a))).accept
    id 0x20 [])) ∧
  (∀ (via : Via) (id : BitVec 32), u.awake = true → u.toneRefusal = 0 → exec (.outfallToneStart dt via id) s = .next (u.startTone via id)) ∧
  (u.awake = true → u.outfall.ready = true → exec (.outfallAbort dt) s = .next (u.outfallAbortAll)) ∧
  (u.outfallRuns = true → u.outfall.idle = true → ∀ x, u.outfall.head = some x → x.carrier ≠ u.outfall.carrier →
    exec (.outfallRetuneStart dt) s = .next (u.retune x.carrier)) ∧
  (u.outfallRuns = true → ∀ f, u.outfall.retuneTo = some f → exec (.outfallRetuneLocked dt) s = .next (u.retuneLocked f)) ∧
  (∀ (f : Nat), u.outfallRuns = true → u.outfall.retuneTo = some f → u.outfall.retunePs + u.outfall.lockTimeoutPs ≤ u.clock →
    u.outfall.queue.any (fun x => x.carrier == f) = true → exec (.outfallLockTimeout dt) s = .next (u.lockFailed f)) ∧
  (∀ (x : Tx), u.outfallRuns = true → u.outfall.air = none → u.lbtSettle.outfall.head = some x → x.isRelay = true → u.lbtSettle.lbtBusy = true →
    exec (.relayLbtCheck dt) s = .next ((u.lbtSettle.modOut (fun o => { o with lbtHeld := o.lbtHeld ++ [x.order] })).lbtSettle)) ∧
  (∀ (x : Tx), u.sends = true → u.outfall.airFree = true → u.lbtSettle.headReady 20000 = some x →
    exec (.outfallBlankOutAssert dt) s = .next (u.lbtSettle.blankFor x)) ∧
  (exec (.cxGntAssert dt) s = .next (({ u with pins := { u.pins with cxGnt := true } } : State).modOut (fun o =>
    { o with air := o.air.map (fun a => { a with cxOk := true }) }))) ∧
  (∀ (a : OnAir), u.outfallRuns = true → u.outfall.air = some a → a.started = false → a.tx.coex = true → a.cxOk = false →
    a.cxAsked + u.outfall.cxWaitPs ≤ u.clock →
    exec (.cxDenied dt) s = .next ((u.driveBlank false false).dropWhere (fun x => x.order == a.tx.order) txCxDenied txCxDenied)) ∧
  (exec (.cxGntRelease dt) s = .next (({ u with pins := { u.pins with cxGnt := false } } : State).modOut (fun o => o.revoke u.clock))) ∧
  (∀ (a : OnAir), u.sends = true → u.toRamp = some a → (∀ l, a.tx.latest = some l → u.nowNs ≤ l) →
    exec (.outfallRampStart dt) s = .next (u.rampStart a)) ∧
  (∀ (readings : List DetReading) (a : OnAir), u.outfallRuns = true → u.outfall.air = some a → a.started = true → a.down = false → a.corr = none →
    readings ≠ [] → a.startPs + a.tx.loopPs ≤ u.clock → exec (.outfallLevelLoopEnd dt readings) s = .next (u.levelLoopEnd readings a)) ∧
  (∀ (a : OnAir), u.outfallRuns = true → u.outfall.air = some a → a.started = true → a.down = false → a.downPs ≤ u.clock →
    exec (.outfallRampDownStart dt) s = .next (u.modOut (fun o => { o with st := .rampDown, air := some { a with down := true } }))) ∧
  (∀ (a : OnAir), u.outfallRuns = true → u.outfall.air = some a → a.started = true → a.down = true → a.downPs + a.tx.rampPs ≤ u.clock →
    exec (.outfallRampEnd dt) s = .next (u.rampEnd a)) ∧
  (u.outfallRuns = true → u.outfall.air.isNone = true → u.pins.blankOut = true → u.outfall.lastEndPs + 20000000 ≤ u.clock →
    (u.rampNear && u.sends) = false → exec (.outfallBlankOutRelease dt) s = .next (u.driveBlank false false)) ∧
  (u.outfallRuns = true → exec (.outfallLateDrop dt) s = .next
    (let v := u.lbtSettle
     v.dropWhere (fun x => match x.latest with | some l => decide (l ≤ v.nowNs) | none => false) txLate txLate)) ∧
  (∀ (c : Fin 256) (q : Ended) (h : BitVec 128), u.serving = true → u.outfall.relayOn = true → u.outfall.isSource c = true →
    u.ctxs[c].eab.ended.find? (Ended.forRelay u.clock) = some q → q.rx.header = some h → exec (.relayIntake dt c) s = .next
    (let v := u.modEab c (fun e => { e with ended := markRelayed u.clock e.ended })
     v.relayTake (v.recordCtx c) q h)) ∧
  (∀ (w : Watch) (q : Ended), u.serving = true → u.outfall.watches.find? (fun w => (u.confirming w).isSome) = some w → u.confirming w = some q →
    exec (.relayConfirmed dt) s = .next (u.watchEnd w 4 (some q.rx.reported.1) (q.rx.syncStamp.getD q.rx.detectStamp))) ∧
  (∀ (w : Watch), u.serving = true →
    u.outfall.watches.find? (fun w => decide (w.rampEndPs + 10 * msPs ≤ u.clock) && (u.confirming w).isNone) = some w →
    exec (.relayNotConfirmed dt) s = .next (u.watchEnd w 5 none u.nowNs)) ∧
  (∀ (via : Via) (addr : Addr) (value : Word), u.canWrite via addr = true →
    exec (.registerWrite dt via addr value) s = .next (u.writeWhole via 0 addr value)) ∧
  (∀ (r : Fin 4), u.awake = true → exec (.reachOvrRead dt r) s = .next (u.readOne (reachAddr r 0x20))) ∧
  (∀ (r : Fin 4), u.awake = true → exec (.reachChainRead dt r) s = .next (u.readOne (reachAddr r 0x30))) ∧
  (∀ (e : Fin 8), u.awake = true → exec (.engineRead dt e) s = .next (u.readOne (BitVec.ofNat 16 (0xC00 + 4 * e.val)))) ∧
  (u.awake = true → exec (.hostportCountsRead dt) s = .next (u.readOne 0x2428)) ∧
  (u.awake = true → exec (.twStatusRead dt) s = .next (u.readOne 0x1C10)) ∧
  (u.awake = true → exec (.healthLostRead dt) s = .next (u.readOne 0x20C)) ∧
  (u.awake = true → exec (.healthStatusRead dt) s = .next (u.readOne 0x204)) ∧
  (u.awake = true → u.mailbox.pending ≠ [] → exec (.healthNext dt) s = .next ({ u with mailbox := u.mailbox.next })) ∧
  (u.awake = true → exec (.healthFlush dt) s = .next ({ u with mailbox := u.mailbox.flush })) ∧
  (∀ (e : MboxEntry) (l : List MboxEntry), u.awake = true → u.mailbox.toConsume = e :: l →
    exec (.mailboxConsume dt) s = .next (({ u with mailbox := { u.mailbox with toConsume := l } } : State).healthRecord e)) ∧
  (∀ (hostMax : BitVec 8), u.awake = true → exec (.versionHandshake dt hostMax) s = .next (u.writeWhole .twoWire 0 0x44 (fieldAt hostMax.toNat 8))) ∧
  (∀ (confirm : BitVec 16), u.awake = true → confirm = 0x5253 →
    exec (.twCmdReset dt confirm) s = .next (u.twCommand (fieldAt confirm.toNat 16 ||| 1))) ∧
  (∀ (confirm : BitVec 16), u.awake = true → u.freezePermitted = true → confirm = 0x5354 →
    exec (.twCmdFreeze dt confirm) s = .next (u.twCommand (fieldAt confirm.toNat 16 ||| 2))) ∧
  (∀ (value : Word), u.still.frozen = true → exec (.stillSelWrite dt value) s = .next (u.writeStillSel value)) ∧
  (u.awake = true → exec (.rtcSecondsRead dt) s = .next ({ u.readRtcSeconds.1 with readData := [u.readRtcSeconds.2] })) ∧
  (u.awake = true → u.rtc.src = 4 → exec (.mainsInEdge dt) s = .next (u.mainsEdge)) ∧
  (∀ (deltaS deltaR : Nat) (events : Nat), u.awake = true → u.rtc.winState ≠ 0 → u.rtc.winStartNs + u.rtc.windowNs ≤ u.nowNs →
    exec (.rtcTrimWindowEnd dt deltaS deltaR events) s = .next (u.windowEnd deltaS deltaR events)) ∧
  (∀ (value : BitVec 16), u.awake = true → exec (.rtcTrimWrite dt value) s = .next (u.writeTrim value)) ∧
  (u.awake = true → u.rtc.setHi.toNat * 2 ^ 32 + u.rtc.setLo.toNat ≤ 6311433599 → exec (.rtcCommit dt) s = .next (u.rtcCommit)) ∧
  (u.awake = true → exec (.rtcCancel dt) s = .next (u.rtcCancel)) ∧
  (u.awake = true → u.rtc.summer = false → exec (.rtcStepUp dt) s = .next (u.civilStep true false)) ∧
  (u.awake = true → u.rtc.summer = true → exec (.rtcStepDown dt) s = .next (u.civilStep false true)) ∧
  (∀ (value : BitVec 8), u.awake = true → -56 ≤ value.toInt → value.toInt ≤ 56 → exec (.rtcOffsetWrite dt value) s = .next (u.writeOffset value)) ∧
  (exec (.rtcSecondBoundary dt) s = .next (u.secondBoundary)) ∧
  (∀ (a18 vbat : Nat), u.rtc.onVbat = false → a18 < 1550 ∧ 1500 ≤ vbat → exec (.rtcSwitchToVbat dt a18 vbat) s = .next (u.toVbat)) ∧
  (∀ (a18 vbat aboveUs : Nat), u.rtc.onVbat = true → returnsToMain a18 vbat aboveUs = true →
    exec (.rtcReturnToMain dt a18 vbat aboveUs) s = .next
    ({ u with rtc := { u.rtc with onVbat := false, returned := some (u.rtc.lastSwitchNs, u.nowNs) } })) ∧
  (∀ (oscillator : Bool) (outageUs : Nat), 2000 ≤ outageUs →
    exec (.rtcDomainLost dt oscillator outageUs) s = .next (u.domainOutage oscillator outageUs)) ∧
  (∀ (millivolts : Nat), u.still.frozen = false → u.since u.rtc.vbatPs (3600 * secPs) = true →
    exec (.vbatMeasure dt millivolts) s = .next ({ u with rtc := { u.rtc with vbatLow := decide (millivolts < 1800), vbatPs := some u.clock } })) ∧
  (∀ (c : Fin 256) (kind : BoundaryKind), u.serving = true → u.ctxs[c].boundaryIs u.clock kind = true →
    exec (.frameBoundary dt c kind) s = .next (u.frameBoundary c kind)) ∧
  (∀ (c : Fin 256) (f : Fade), u.serving = true → u.ctxs[c].fade = some f → f.endPs ≤ u.clock →
    exec (.crossFadeEnd dt c) s = .next (u.modCtx c Ctx.endFade)) ∧
  (∀ (c : Fin 256) (gapStart gapEnd : Nat), u.chainRuns c = true → u.ctxs[c].invalid = true → u.ctxs[c].validPs ≤ u.clock → u.ctxs[c].st ≠ .migrating →
    exec (.firstValidSample dt c gapStart gapEnd) s = .next (u.firstValid c gapStart gapEnd)) ∧
  (∀ (r : Fin 4) (act : Action) (lines : BitVec 7) (ident : Nat) (drift : Bool) (ago : Nat), u.awake = true →
    (u.noteLines r lines (u.clock - ago * 1000)).grounds r act lines ident drift = true →
    2 ≤ ((u.noteLines r lines (u.clock - ago * 1000)).voters r).length →
    exec (.proposalRaise dt none r act lines ident drift ago) s = .next ((u.noteLines r lines (u.clock - ago * 1000)).propose none r act lines ident
    drift (u.clock - ago * 1000))) ∧
  (∀ (voter : Option (Fin 4)) (r : Fin 4) (id : ProposalId) (sight : Sight) (p : Proposal), u.awake = true → (u.voters r).contains voter = true →
    u.proposals.find? (fun q => q.live && q.isOn r id && !q.votes.contains voter && decide (q.votes.length < 2) &&
    decide (u.clock ≤ q.raisedPs + 20000000)) = some p → u.agrees p sight.lines = true →
    exec (.wardenVote dt voter r id sight) s = .next (u.votesCome (⟨voter, r, id, sight.lines⟩ :: sight.more))) ∧
  (∀ (r : Fin 4) (id : ProposalId) (p : Proposal), u.awake = true →
    u.proposals.find? (fun q => q.live && q.isOn r id && decide (q.raisedPs + 20000000 ≤ u.clock)) = some p →
    exec (.proposalLapse dt r id) s = .next (u.lapse p)) ∧
  (∀ (e : Fin 8), u.awake = true → u.engines[e].restarting = true →
    exec (.engineRestartComplete dt e) s = .next (((u.modEngine e (fun x => { x with restarting := false })).forEach (u.unitsOn e) (fun c u =>
    u.afterRestart e c)).forEach (allCtxs.filter (fun c => u.ctxs[c].erased)) (fun c u => u.endErasure c))) ∧
  (∀ (w : Fin 4), u.awake = true → u.wardens[w].restarting = true →
    exec (.wardenRestartComplete dt w) s = .next (u.modWarden w (fun x => { x with failed := false, restarting := false }))) ∧
  (∀ (w : Fin 4), u.awake = true → u.wardenWorks w = true → exec (.wardenHeartbeatTimeout dt w) s = .next (u.wardenFails w)) ∧
  (∀ (w : Fin 4), u.awake = true → u.wardenWorks w = true → exec (.wardenMiscompare dt w) s = .next (u.wardenFails w)) ∧
  (∀ (r : Fin 4) (i : Fin 17) (fault : SubAdcFault), u.reachRuns r = true → u.wardenWorks r = true → u.fallow[r].faulty i fault = true →
    u.fallow[r].retired = none → exec (.subadcFaultDetect dt r i fault) s = .next (u.modWarden r (fun w =>
    { w with subadc := w.subadc.filter (fun q => q.1 != i) ++ [(i, isDrift fault)] }))) ∧
  (∀ (copy : Fin 3), u.awake = true → exec (.tmrMismatch dt copy) s = .next (u.tmrDiffers copy)) ∧
  (∀ (copy : Fin 3), u.awake = true → u.tmr.differs.getLsbD copy.val = true → u.tmr.retired = 0 → tickOf u.tmr.sincePs[copy] < tickOf u.clock →
    exec (.tmrRepair dt copy) s = .next (u.tmrRewrite copy)) ∧
  (u.serving = true → exec (.recordRelease dt) s = .next (u.releaseDue)) ∧
  (u.awake = true → exec (.ctxStatusRead dt) s = .next ({ u.readCtxStatus.1 with readData := [u.readCtxStatus.2] })) ∧
  (∀ (pair : Bool), u.awake = true → u.window.busyUntil ≤ u.clock → exec (.ctxLoad dt pair) s = .next (u.writeCtxCmd .twoWire (flag pair 2 ||| 1))) ∧
  (∀ (pair load : Bool), u.awake = true → u.window.busyUntil ≤ u.clock →
    exec (.ctxCommitWindow dt pair load) s = .next (u.writeCtxCmd .twoWire (flag pair 2 ||| 2 ||| flag load 0)))
end

