-- ==== Sys2Proof/Laws/State.lean ====
section
/-! SUPPORT. The updates of `State` and the fields they leave alone, one lemma per field per update, and what the changed field holds. -/

namespace Sys2Proof.Machine

/-! ### `modReach` -/

@[simp] theorem State.modReach_same (s : State) (r : Fin 4) (f : Reach → Reach) : (s.modReach r f).reaches[r] = f s.reaches[r] := by
  simp [State.modReach]

theorem State.modReach_other (s : State) (r : Fin 4) (f : Reach → Reach) (q : Fin 4) (h : q ≠ r) : (s.modReach r f).reaches[q] = s.reaches[q] := by
  have : r.val ≠ q.val := fun e => h (Fin.ext e.symm)
  simp [State.modReach, this]

@[simp] theorem State.modReach_clock (s : State) (r : Fin 4) (f : Reach → Reach) : (s.modReach r f).clock = s.clock := rfl
@[simp] theorem State.modReach_pending (s : State) (r : Fin 4) (f : Reach → Reach) : (s.modReach r f).pending = s.pending := rfl
@[simp] theorem State.modReach_part (s : State) (r : Fin 4) (f : Reach → Reach) : (s.modReach r f).part = s.part := rfl
@[simp] theorem State.modReach_phase (s : State) (r : Fin 4) (f : Reach → Reach) : (s.modReach r f).phase = s.phase := rfl
@[simp] theorem State.modReach_releasedPs (s : State) (r : Fin 4) (f : Reach → Reach) : (s.modReach r f).releasedPs = s.releasedPs := rfl
@[simp] theorem State.modReach_cause (s : State) (r : Fin 4) (f : Reach → Reach) : (s.modReach r f).cause = s.cause := rfl
@[simp] theorem State.modReach_mgmtOnly (s : State) (r : Fin 4) (f : Reach → Reach) : (s.modReach r f).mgmtOnly = s.mgmtOnly := rfl
@[simp] theorem State.modReach_doze (s : State) (r : Fin 4) (f : Reach → Reach) : (s.modReach r f).doze = s.doze := rfl
@[simp] theorem State.modReach_refs (s : State) (r : Fin 4) (f : Reach → Reach) : (s.modReach r f).refs = s.refs := rfl
@[simp] theorem State.modReach_sync (s : State) (r : Fin 4) (f : Reach → Reach) : (s.modReach r f).sync = s.sync := rfl
@[simp] theorem State.modReach_rtc (s : State) (r : Fin 4) (f : Reach → Reach) : (s.modReach r f).rtc = s.rtc := rfl
@[simp] theorem State.modReach_image (s : State) (r : Fin 4) (f : Reach → Reach) : (s.modReach r f).image = s.image := rfl
@[simp] theorem State.modReach_keys (s : State) (r : Fin 4) (f : Reach → Reach) : (s.modReach r f).keys = s.keys := rfl
@[simp] theorem State.modReach_flash (s : State) (r : Fin 4) (f : Reach → Reach) : (s.modReach r f).flash = s.flash := rfl
@[simp] theorem State.modReach_journal (s : State) (r : Fin 4) (f : Reach → Reach) : (s.modReach r f).journal = s.journal := rfl
@[simp] theorem State.modReach_mailbox (s : State) (r : Fin 4) (f : Reach → Reach) : (s.modReach r f).mailbox = s.mailbox := rfl
@[simp] theorem State.modReach_fallow (s : State) (r : Fin 4) (f : Reach → Reach) : (s.modReach r f).fallow = s.fallow := rfl
@[simp] theorem State.modReach_upkeep (s : State) (r : Fin 4) (f : Reach → Reach) : (s.modReach r f).upkeep = s.upkeep := rfl
@[simp] theorem State.modReach_wardens (s : State) (r : Fin 4) (f : Reach → Reach) : (s.modReach r f).wardens = s.wardens := rfl
@[simp] theorem State.modReach_engines (s : State) (r : Fin 4) (f : Reach → Reach) : (s.modReach r f).engines = s.engines := rfl
@[simp] theorem State.modReach_ctxs (s : State) (r : Fin 4) (f : Reach → Reach) : (s.modReach r f).ctxs = s.ctxs := rfl
@[simp] theorem State.modReach_proposals (s : State) (r : Fin 4) (f : Reach → Reach) : (s.modReach r f).proposals = s.proposals := rfl
@[simp] theorem State.modReach_window (s : State) (r : Fin 4) (f : Reach → Reach) : (s.modReach r f).window = s.window := rfl
@[simp] theorem State.modReach_cal (s : State) (r : Fin 4) (f : Reach → Reach) : (s.modReach r f).cal = s.cal := rfl
@[simp] theorem State.modReach_selftestPs (s : State) (r : Fin 4) (f : Reach → Reach) : (s.modReach r f).selftestPs = s.selftestPs := rfl
@[simp] theorem State.modReach_outfall (s : State) (r : Fin 4) (f : Reach → Reach) : (s.modReach r f).outfall = s.outfall := rfl
@[simp] theorem State.modReach_replay (s : State) (r : Fin 4) (f : Reach → Reach) : (s.modReach r f).replay = s.replay := rfl
@[simp] theorem State.modReach_replayJournalPs (s : State) (r : Fin 4) (f : Reach → Reach) : (s.modReach r f).replayJournalPs = s.replayJournalPs := rfl
@[simp] theorem State.modReach_held (s : State) (r : Fin 4) (f : Reach → Reach) : (s.modReach r f).held = s.held := rfl
@[simp] theorem State.modReach_queue (s : State) (r : Fin 4) (f : Reach → Reach) : (s.modReach r f).queue = s.queue := rfl
@[simp] theorem State.modReach_kept (s : State) (r : Fin 4) (f : Reach → Reach) : (s.modReach r f).kept = s.kept := rfl
@[simp] theorem State.modReach_devReleased (s : State) (r : Fin 4) (f : Reach → Reach) : (s.modReach r f).devReleased = s.devReleased := rfl
@[simp] theorem State.modReach_host (s : State) (r : Fin 4) (f : Reach → Reach) : (s.modReach r f).host = s.host := rfl
@[simp] theorem State.modReach_tw (s : State) (r : Fin 4) (f : Reach → Reach) : (s.modReach r f).tw = s.tw := rfl
@[simp] theorem State.modReach_still (s : State) (r : Fin 4) (f : Reach → Reach) : (s.modReach r f).still = s.still := rfl
@[simp] theorem State.modReach_tmr (s : State) (r : Fin 4) (f : Reach → Reach) : (s.modReach r f).tmr = s.tmr := rfl
@[simp] theorem State.modReach_ecc (s : State) (r : Fin 4) (f : Reach → Reach) : (s.modReach r f).ecc = s.ecc := rfl
@[simp] theorem State.modReach_pins (s : State) (r : Fin 4) (f : Reach → Reach) : (s.modReach r f).pins = s.pins := rfl
@[simp] theorem State.modReach_scratch (s : State) (r : Fin 4) (f : Reach → Reach) : (s.modReach r f).scratch = s.scratch := rfl
@[simp] theorem State.modReach_readData (s : State) (r : Fin 4) (f : Reach → Reach) : (s.modReach r f).readData = s.readData := rfl
@[simp] theorem State.modReach_draws (s : State) (r : Fin 4) (f : Reach → Reach) : (s.modReach r f).draws = s.draws := rfl

/-! ### `modFallow` -/

@[simp] theorem State.modFallow_same (s : State) (r : Fin 4) (f : Fallow → Fallow) : (s.modFallow r f).fallow[r] = f s.fallow[r] := by
  simp [State.modFallow]

theorem State.modFallow_other (s : State) (r : Fin 4) (f : Fallow → Fallow) (q : Fin 4) (h : q ≠ r) : (s.modFallow r f).fallow[q] = s.fallow[q] := by
  have : r.val ≠ q.val := fun e => h (Fin.ext e.symm)
  simp [State.modFallow, this]

@[simp] theorem State.modFallow_clock (s : State) (r : Fin 4) (f : Fallow → Fallow) : (s.modFallow r f).clock = s.clock := rfl
@[simp] theorem State.modFallow_pending (s : State) (r : Fin 4) (f : Fallow → Fallow) : (s.modFallow r f).pending = s.pending := rfl
@[simp] theorem State.modFallow_part (s : State) (r : Fin 4) (f : Fallow → Fallow) : (s.modFallow r f).part = s.part := rfl
@[simp] theorem State.modFallow_phase (s : State) (r : Fin 4) (f : Fallow → Fallow) : (s.modFallow r f).phase = s.phase := rfl
@[simp] theorem State.modFallow_releasedPs (s : State) (r : Fin 4) (f : Fallow → Fallow) : (s.modFallow r f).releasedPs = s.releasedPs := rfl
@[simp] theorem State.modFallow_cause (s : State) (r : Fin 4) (f : Fallow → Fallow) : (s.modFallow r f).cause = s.cause := rfl
@[simp] theorem State.modFallow_mgmtOnly (s : State) (r : Fin 4) (f : Fallow → Fallow) : (s.modFallow r f).mgmtOnly = s.mgmtOnly := rfl
@[simp] theorem State.modFallow_doze (s : State) (r : Fin 4) (f : Fallow → Fallow) : (s.modFallow r f).doze = s.doze := rfl
@[simp] theorem State.modFallow_refs (s : State) (r : Fin 4) (f : Fallow → Fallow) : (s.modFallow r f).refs = s.refs := rfl
@[simp] theorem State.modFallow_sync (s : State) (r : Fin 4) (f : Fallow → Fallow) : (s.modFallow r f).sync = s.sync := rfl
@[simp] theorem State.modFallow_rtc (s : State) (r : Fin 4) (f : Fallow → Fallow) : (s.modFallow r f).rtc = s.rtc := rfl
@[simp] theorem State.modFallow_image (s : State) (r : Fin 4) (f : Fallow → Fallow) : (s.modFallow r f).image = s.image := rfl
@[simp] theorem State.modFallow_keys (s : State) (r : Fin 4) (f : Fallow → Fallow) : (s.modFallow r f).keys = s.keys := rfl
@[simp] theorem State.modFallow_flash (s : State) (r : Fin 4) (f : Fallow → Fallow) : (s.modFallow r f).flash = s.flash := rfl
@[simp] theorem State.modFallow_journal (s : State) (r : Fin 4) (f : Fallow → Fallow) : (s.modFallow r f).journal = s.journal := rfl
@[simp] theorem State.modFallow_mailbox (s : State) (r : Fin 4) (f : Fallow → Fallow) : (s.modFallow r f).mailbox = s.mailbox := rfl
@[simp] theorem State.modFallow_reaches (s : State) (r : Fin 4) (f : Fallow → Fallow) : (s.modFallow r f).reaches = s.reaches := rfl
@[simp] theorem State.modFallow_upkeep (s : State) (r : Fin 4) (f : Fallow → Fallow) : (s.modFallow r f).upkeep = s.upkeep := rfl
@[simp] theorem State.modFallow_wardens (s : State) (r : Fin 4) (f : Fallow → Fallow) : (s.modFallow r f).wardens = s.wardens := rfl
@[simp] theorem State.modFallow_engines (s : State) (r : Fin 4) (f : Fallow → Fallow) : (s.modFallow r f).engines = s.engines := rfl
@[simp] theorem State.modFallow_ctxs (s : State) (r : Fin 4) (f : Fallow → Fallow) : (s.modFallow r f).ctxs = s.ctxs := rfl
@[simp] theorem State.modFallow_proposals (s : State) (r : Fin 4) (f : Fallow → Fallow) : (s.modFallow r f).proposals = s.proposals := rfl
@[simp] theorem State.modFallow_window (s : State) (r : Fin 4) (f : Fallow → Fallow) : (s.modFallow r f).window = s.window := rfl
@[simp] theorem State.modFallow_cal (s : State) (r : Fin 4) (f : Fallow → Fallow) : (s.modFallow r f).cal = s.cal := rfl
@[simp] theorem State.modFallow_selftestPs (s : State) (r : Fin 4) (f : Fallow → Fallow) : (s.modFallow r f).selftestPs = s.selftestPs := rfl
@[simp] theorem State.modFallow_outfall (s : State) (r : Fin 4) (f : Fallow → Fallow) : (s.modFallow r f).outfall = s.outfall := rfl
@[simp] theorem State.modFallow_replay (s : State) (r : Fin 4) (f : Fallow → Fallow) : (s.modFallow r f).replay = s.replay := rfl
@[simp] theorem State.modFallow_replayJournalPs (s : State) (r : Fin 4) (f : Fallow → Fallow) : (s.modFallow r f).replayJournalPs = s.replayJournalPs := rfl
@[simp] theorem State.modFallow_held (s : State) (r : Fin 4) (f : Fallow → Fallow) : (s.modFallow r f).held = s.held := rfl
@[simp] theorem State.modFallow_queue (s : State) (r : Fin 4) (f : Fallow → Fallow) : (s.modFallow r f).queue = s.queue := rfl
@[simp] theorem State.modFallow_kept (s : State) (r : Fin 4) (f : Fallow → Fallow) : (s.modFallow r f).kept = s.kept := rfl
@[simp] theorem State.modFallow_devReleased (s : State) (r : Fin 4) (f : Fallow → Fallow) : (s.modFallow r f).devReleased = s.devReleased := rfl
@[simp] theorem State.modFallow_host (s : State) (r : Fin 4) (f : Fallow → Fallow) : (s.modFallow r f).host = s.host := rfl
@[simp] theorem State.modFallow_tw (s : State) (r : Fin 4) (f : Fallow → Fallow) : (s.modFallow r f).tw = s.tw := rfl
@[simp] theorem State.modFallow_still (s : State) (r : Fin 4) (f : Fallow → Fallow) : (s.modFallow r f).still = s.still := rfl
@[simp] theorem State.modFallow_tmr (s : State) (r : Fin 4) (f : Fallow → Fallow) : (s.modFallow r f).tmr = s.tmr := rfl
@[simp] theorem State.modFallow_ecc (s : State) (r : Fin 4) (f : Fallow → Fallow) : (s.modFallow r f).ecc = s.ecc := rfl
@[simp] theorem State.modFallow_pins (s : State) (r : Fin 4) (f : Fallow → Fallow) : (s.modFallow r f).pins = s.pins := rfl
@[simp] theorem State.modFallow_scratch (s : State) (r : Fin 4) (f : Fallow → Fallow) : (s.modFallow r f).scratch = s.scratch := rfl
@[simp] theorem State.modFallow_readData (s : State) (r : Fin 4) (f : Fallow → Fallow) : (s.modFallow r f).readData = s.readData := rfl
@[simp] theorem State.modFallow_draws (s : State) (r : Fin 4) (f : Fallow → Fallow) : (s.modFallow r f).draws = s.draws := rfl

/-! ### `modUpkeep` -/

@[simp] theorem State.modUpkeep_same (s : State) (r : Fin 4) (f : Upkeep → Upkeep) : (s.modUpkeep r f).upkeep[r] = f s.upkeep[r] := by
  simp [State.modUpkeep]

theorem State.modUpkeep_other (s : State) (r : Fin 4) (f : Upkeep → Upkeep) (q : Fin 4) (h : q ≠ r) : (s.modUpkeep r f).upkeep[q] = s.upkeep[q] := by
  have : r.val ≠ q.val := fun e => h (Fin.ext e.symm)
  simp [State.modUpkeep, this]

@[simp] theorem State.modUpkeep_clock (s : State) (r : Fin 4) (f : Upkeep → Upkeep) : (s.modUpkeep r f).clock = s.clock := rfl
@[simp] theorem State.modUpkeep_pending (s : State) (r : Fin 4) (f : Upkeep → Upkeep) : (s.modUpkeep r f).pending = s.pending := rfl
@[simp] theorem State.modUpkeep_part (s : State) (r : Fin 4) (f : Upkeep → Upkeep) : (s.modUpkeep r f).part = s.part := rfl
@[simp] theorem State.modUpkeep_phase (s : State) (r : Fin 4) (f : Upkeep → Upkeep) : (s.modUpkeep r f).phase = s.phase := rfl
@[simp] theorem State.modUpkeep_releasedPs (s : State) (r : Fin 4) (f : Upkeep → Upkeep) : (s.modUpkeep r f).releasedPs = s.releasedPs := rfl
@[simp] theorem State.modUpkeep_cause (s : State) (r : Fin 4) (f : Upkeep → Upkeep) : (s.modUpkeep r f).cause = s.cause := rfl
@[simp] theorem State.modUpkeep_mgmtOnly (s : State) (r : Fin 4) (f : Upkeep → Upkeep) : (s.modUpkeep r f).mgmtOnly = s.mgmtOnly := rfl
@[simp] theorem State.modUpkeep_doze (s : State) (r : Fin 4) (f : Upkeep → Upkeep) : (s.modUpkeep r f).doze = s.doze := rfl
@[simp] theorem State.modUpkeep_refs (s : State) (r : Fin 4) (f : Upkeep → Upkeep) : (s.modUpkeep r f).refs = s.refs := rfl
@[simp] theorem State.modUpkeep_sync (s : State) (r : Fin 4) (f : Upkeep → Upkeep) : (s.modUpkeep r f).sync = s.sync := rfl
@[simp] theorem State.modUpkeep_rtc (s : State) (r : Fin 4) (f : Upkeep → Upkeep) : (s.modUpkeep r f).rtc = s.rtc := rfl
@[simp] theorem State.modUpkeep_image (s : State) (r : Fin 4) (f : Upkeep → Upkeep) : (s.modUpkeep r f).image = s.image := rfl
@[simp] theorem State.modUpkeep_keys (s : State) (r : Fin 4) (f : Upkeep → Upkeep) : (s.modUpkeep r f).keys = s.keys := rfl
@[simp] theorem State.modUpkeep_flash (s : State) (r : Fin 4) (f : Upkeep → Upkeep) : (s.modUpkeep r f).flash = s.flash := rfl
@[simp] theorem State.modUpkeep_journal (s : State) (r : Fin 4) (f : Upkeep → Upkeep) : (s.modUpkeep r f).journal = s.journal := rfl
@[simp] theorem State.modUpkeep_mailbox (s : State) (r : Fin 4) (f : Upkeep → Upkeep) : (s.modUpkeep r f).mailbox = s.mailbox := rfl
@[simp] theorem State.modUpkeep_reaches (s : State) (r : Fin 4) (f : Upkeep → Upkeep) : (s.modUpkeep r f).reaches = s.reaches := rfl
@[simp] theorem State.modUpkeep_fallow (s : State) (r : Fin 4) (f : Upkeep → Upkeep) : (s.modUpkeep r f).fallow = s.fallow := rfl
@[simp] theorem State.modUpkeep_wardens (s : State) (r : Fin 4) (f : Upkeep → Upkeep) : (s.modUpkeep r f).wardens = s.wardens := rfl
@[simp] theorem State.modUpkeep_engines (s : State) (r : Fin 4) (f : Upkeep → Upkeep) : (s.modUpkeep r f).engines = s.engines := rfl
@[simp] theorem State.modUpkeep_ctxs (s : State) (r : Fin 4) (f : Upkeep → Upkeep) : (s.modUpkeep r f).ctxs = s.ctxs := rfl
@[simp] theorem State.modUpkeep_proposals (s : State) (r : Fin 4) (f : Upkeep → Upkeep) : (s.modUpkeep r f).proposals = s.proposals := rfl
@[simp] theorem State.modUpkeep_window (s : State) (r : Fin 4) (f : Upkeep → Upkeep) : (s.modUpkeep r f).window = s.window := rfl
@[simp] theorem State.modUpkeep_cal (s : State) (r : Fin 4) (f : Upkeep → Upkeep) : (s.modUpkeep r f).cal = s.cal := rfl
@[simp] theorem State.modUpkeep_selftestPs (s : State) (r : Fin 4) (f : Upkeep → Upkeep) : (s.modUpkeep r f).selftestPs = s.selftestPs := rfl
@[simp] theorem State.modUpkeep_outfall (s : State) (r : Fin 4) (f : Upkeep → Upkeep) : (s.modUpkeep r f).outfall = s.outfall := rfl
@[simp] theorem State.modUpkeep_replay (s : State) (r : Fin 4) (f : Upkeep → Upkeep) : (s.modUpkeep r f).replay = s.replay := rfl
@[simp] theorem State.modUpkeep_replayJournalPs (s : State) (r : Fin 4) (f : Upkeep → Upkeep) : (s.modUpkeep r f).replayJournalPs = s.replayJournalPs := rfl
@[simp] theorem State.modUpkeep_held (s : State) (r : Fin 4) (f : Upkeep → Upkeep) : (s.modUpkeep r f).held = s.held := rfl
@[simp] theorem State.modUpkeep_queue (s : State) (r : Fin 4) (f : Upkeep → Upkeep) : (s.modUpkeep r f).queue = s.queue := rfl
@[simp] theorem State.modUpkeep_kept (s : State) (r : Fin 4) (f : Upkeep → Upkeep) : (s.modUpkeep r f).kept = s.kept := rfl
@[simp] theorem State.modUpkeep_devReleased (s : State) (r : Fin 4) (f : Upkeep → Upkeep) : (s.modUpkeep r f).devReleased = s.devReleased := rfl
@[simp] theorem State.modUpkeep_host (s : State) (r : Fin 4) (f : Upkeep → Upkeep) : (s.modUpkeep r f).host = s.host := rfl
@[simp] theorem State.modUpkeep_tw (s : State) (r : Fin 4) (f : Upkeep → Upkeep) : (s.modUpkeep r f).tw = s.tw := rfl
@[simp] theorem State.modUpkeep_still (s : State) (r : Fin 4) (f : Upkeep → Upkeep) : (s.modUpkeep r f).still = s.still := rfl
@[simp] theorem State.modUpkeep_tmr (s : State) (r : Fin 4) (f : Upkeep → Upkeep) : (s.modUpkeep r f).tmr = s.tmr := rfl
@[simp] theorem State.modUpkeep_ecc (s : State) (r : Fin 4) (f : Upkeep → Upkeep) : (s.modUpkeep r f).ecc = s.ecc := rfl
@[simp] theorem State.modUpkeep_pins (s : State) (r : Fin 4) (f : Upkeep → Upkeep) : (s.modUpkeep r f).pins = s.pins := rfl
@[simp] theorem State.modUpkeep_scratch (s : State) (r : Fin 4) (f : Upkeep → Upkeep) : (s.modUpkeep r f).scratch = s.scratch := rfl
@[simp] theorem State.modUpkeep_readData (s : State) (r : Fin 4) (f : Upkeep → Upkeep) : (s.modUpkeep r f).readData = s.readData := rfl
@[simp] theorem State.modUpkeep_draws (s : State) (r : Fin 4) (f : Upkeep → Upkeep) : (s.modUpkeep r f).draws = s.draws := rfl

/-! ### `modWarden` -/

@[simp] theorem State.modWarden_same (s : State) (r : Fin 4) (f : Warden → Warden) : (s.modWarden r f).wardens[r] = f s.wardens[r] := by
  simp [State.modWarden]

theorem State.modWarden_other (s : State) (r : Fin 4) (f : Warden → Warden) (q : Fin 4) (h : q ≠ r) : (s.modWarden r f).wardens[q] = s.wardens[q] := by
  have : r.val ≠ q.val := fun e => h (Fin.ext e.symm)
  simp [State.modWarden, this]

@[simp] theorem State.modWarden_clock (s : State) (r : Fin 4) (f : Warden → Warden) : (s.modWarden r f).clock = s.clock := rfl
@[simp] theorem State.modWarden_pending (s : State) (r : Fin 4) (f : Warden → Warden) : (s.modWarden r f).pending = s.pending := rfl
@[simp] theorem State.modWarden_part (s : State) (r : Fin 4) (f : Warden → Warden) : (s.modWarden r f).part = s.part := rfl
@[simp] theorem State.modWarden_phase (s : State) (r : Fin 4) (f : Warden → Warden) : (s.modWarden r f).phase = s.phase := rfl
@[simp] theorem State.modWarden_releasedPs (s : State) (r : Fin 4) (f : Warden → Warden) : (s.modWarden r f).releasedPs = s.releasedPs := rfl
@[simp] theorem State.modWarden_cause (s : State) (r : Fin 4) (f : Warden → Warden) : (s.modWarden r f).cause = s.cause := rfl
@[simp] theorem State.modWarden_mgmtOnly (s : State) (r : Fin 4) (f : Warden → Warden) : (s.modWarden r f).mgmtOnly = s.mgmtOnly := rfl
@[simp] theorem State.modWarden_doze (s : State) (r : Fin 4) (f : Warden → Warden) : (s.modWarden r f).doze = s.doze := rfl
@[simp] theorem State.modWarden_refs (s : State) (r : Fin 4) (f : Warden → Warden) : (s.modWarden r f).refs = s.refs := rfl
@[simp] theorem State.modWarden_sync (s : State) (r : Fin 4) (f : Warden → Warden) : (s.modWarden r f).sync = s.sync := rfl
@[simp] theorem State.modWarden_rtc (s : State) (r : Fin 4) (f : Warden → Warden) : (s.modWarden r f).rtc = s.rtc := rfl
@[simp] theorem State.modWarden_image (s : State) (r : Fin 4) (f : Warden → Warden) : (s.modWarden r f).image = s.image := rfl
@[simp] theorem State.modWarden_keys (s : State) (r : Fin 4) (f : Warden → Warden) : (s.modWarden r f).keys = s.keys := rfl
@[simp] theorem State.modWarden_flash (s : State) (r : Fin 4) (f : Warden → Warden) : (s.modWarden r f).flash = s.flash := rfl
@[simp] theorem State.modWarden_journal (s : State) (r : Fin 4) (f : Warden → Warden) : (s.modWarden r f).journal = s.journal := rfl
@[simp] theorem State.modWarden_mailbox (s : State) (r : Fin 4) (f : Warden → Warden) : (s.modWarden r f).mailbox = s.mailbox := rfl
@[simp] theorem State.modWarden_reaches (s : State) (r : Fin 4) (f : Warden → Warden) : (s.modWarden r f).reaches = s.reaches := rfl
@[simp] theorem State.modWarden_fallow (s : State) (r : Fin 4) (f : Warden → Warden) : (s.modWarden r f).fallow = s.fallow := rfl
@[simp] theorem State.modWarden_upkeep (s : State) (r : Fin 4) (f : Warden → Warden) : (s.modWarden r f).upkeep = s.upkeep := rfl
@[simp] theorem State.modWarden_engines (s : State) (r : Fin 4) (f : Warden → Warden) : (s.modWarden r f).engines = s.engines := rfl
@[simp] theorem State.modWarden_ctxs (s : State) (r : Fin 4) (f : Warden → Warden) : (s.modWarden r f).ctxs = s.ctxs := rfl
@[simp] theorem State.modWarden_proposals (s : State) (r : Fin 4) (f : Warden → Warden) : (s.modWarden r f).proposals = s.proposals := rfl
@[simp] theorem State.modWarden_window (s : State) (r : Fin 4) (f : Warden → Warden) : (s.modWarden r f).window = s.window := rfl
@[simp] theorem State.modWarden_cal (s : State) (r : Fin 4) (f : Warden → Warden) : (s.modWarden r f).cal = s.cal := rfl
@[simp] theorem State.modWarden_selftestPs (s : State) (r : Fin 4) (f : Warden → Warden) : (s.modWarden r f).selftestPs = s.selftestPs := rfl
@[simp] theorem State.modWarden_outfall (s : State) (r : Fin 4) (f : Warden → Warden) : (s.modWarden r f).outfall = s.outfall := rfl
@[simp] theorem State.modWarden_replay (s : State) (r : Fin 4) (f : Warden → Warden) : (s.modWarden r f).replay = s.replay := rfl
@[simp] theorem State.modWarden_replayJournalPs (s : State) (r : Fin 4) (f : Warden → Warden) : (s.modWarden r f).replayJournalPs = s.replayJournalPs := rfl
@[simp] theorem State.modWarden_held (s : State) (r : Fin 4) (f : Warden → Warden) : (s.modWarden r f).held = s.held := rfl
@[simp] theorem State.modWarden_queue (s : State) (r : Fin 4) (f : Warden → Warden) : (s.modWarden r f).queue = s.queue := rfl
@[simp] theorem State.modWarden_kept (s : State) (r : Fin 4) (f : Warden → Warden) : (s.modWarden r f).kept = s.kept := rfl
@[simp] theorem State.modWarden_devReleased (s : State) (r : Fin 4) (f : Warden → Warden) : (s.modWarden r f).devReleased = s.devReleased := rfl
@[simp] theorem State.modWarden_host (s : State) (r : Fin 4) (f : Warden → Warden) : (s.modWarden r f).host = s.host := rfl
@[simp] theorem State.modWarden_tw (s : State) (r : Fin 4) (f : Warden → Warden) : (s.modWarden r f).tw = s.tw := rfl
@[simp] theorem State.modWarden_still (s : State) (r : Fin 4) (f : Warden → Warden) : (s.modWarden r f).still = s.still := rfl
@[simp] theorem State.modWarden_tmr (s : State) (r : Fin 4) (f : Warden → Warden) : (s.modWarden r f).tmr = s.tmr := rfl
@[simp] theorem State.modWarden_ecc (s : State) (r : Fin 4) (f : Warden → Warden) : (s.modWarden r f).ecc = s.ecc := rfl
@[simp] theorem State.modWarden_pins (s : State) (r : Fin 4) (f : Warden → Warden) : (s.modWarden r f).pins = s.pins := rfl
@[simp] theorem State.modWarden_scratch (s : State) (r : Fin 4) (f : Warden → Warden) : (s.modWarden r f).scratch = s.scratch := rfl
@[simp] theorem State.modWarden_readData (s : State) (r : Fin 4) (f : Warden → Warden) : (s.modWarden r f).readData = s.readData := rfl
@[simp] theorem State.modWarden_draws (s : State) (r : Fin 4) (f : Warden → Warden) : (s.modWarden r f).draws = s.draws := rfl

/-! ### `modEngine` -/

@[simp] theorem State.modEngine_same (s : State) (r : Fin 8) (f : Engine → Engine) : (s.modEngine r f).engines[r] = f s.engines[r] := by
  simp [State.modEngine]

theorem State.modEngine_other (s : State) (r : Fin 8) (f : Engine → Engine) (q : Fin 8) (h : q ≠ r) : (s.modEngine r f).engines[q] = s.engines[q] := by
  have : r.val ≠ q.val := fun e => h (Fin.ext e.symm)
  simp [State.modEngine, this]

@[simp] theorem State.modEngine_clock (s : State) (r : Fin 8) (f : Engine → Engine) : (s.modEngine r f).clock = s.clock := rfl
@[simp] theorem State.modEngine_pending (s : State) (r : Fin 8) (f : Engine → Engine) : (s.modEngine r f).pending = s.pending := rfl
@[simp] theorem State.modEngine_part (s : State) (r : Fin 8) (f : Engine → Engine) : (s.modEngine r f).part = s.part := rfl
@[simp] theorem State.modEngine_phase (s : State) (r : Fin 8) (f : Engine → Engine) : (s.modEngine r f).phase = s.phase := rfl
@[simp] theorem State.modEngine_releasedPs (s : State) (r : Fin 8) (f : Engine → Engine) : (s.modEngine r f).releasedPs = s.releasedPs := rfl
@[simp] theorem State.modEngine_cause (s : State) (r : Fin 8) (f : Engine → Engine) : (s.modEngine r f).cause = s.cause := rfl
@[simp] theorem State.modEngine_mgmtOnly (s : State) (r : Fin 8) (f : Engine → Engine) : (s.modEngine r f).mgmtOnly = s.mgmtOnly := rfl
@[simp] theorem State.modEngine_doze (s : State) (r : Fin 8) (f : Engine → Engine) : (s.modEngine r f).doze = s.doze := rfl
@[simp] theorem State.modEngine_refs (s : State) (r : Fin 8) (f : Engine → Engine) : (s.modEngine r f).refs = s.refs := rfl
@[simp] theorem State.modEngine_sync (s : State) (r : Fin 8) (f : Engine → Engine) : (s.modEngine r f).sync = s.sync := rfl
@[simp] theorem State.modEngine_rtc (s : State) (r : Fin 8) (f : Engine → Engine) : (s.modEngine r f).rtc = s.rtc := rfl
@[simp] theorem State.modEngine_image (s : State) (r : Fin 8) (f : Engine → Engine) : (s.modEngine r f).image = s.image := rfl
@[simp] theorem State.modEngine_keys (s : State) (r : Fin 8) (f : Engine → Engine) : (s.modEngine r f).keys = s.keys := rfl
@[simp] theorem State.modEngine_flash (s : State) (r : Fin 8) (f : Engine → Engine) : (s.modEngine r f).flash = s.flash := rfl
@[simp] theorem State.modEngine_journal (s : State) (r : Fin 8) (f : Engine → Engine) : (s.modEngine r f).journal = s.journal := rfl
@[simp] theorem State.modEngine_mailbox (s : State) (r : Fin 8) (f : Engine → Engine) : (s.modEngine r f).mailbox = s.mailbox := rfl
@[simp] theorem State.modEngine_reaches (s : State) (r : Fin 8) (f : Engine → Engine) : (s.modEngine r f).reaches = s.reaches := rfl
@[simp] theorem State.modEngine_fallow (s : State) (r : Fin 8) (f : Engine → Engine) : (s.modEngine r f).fallow = s.fallow := rfl
@[simp] theorem State.modEngine_upkeep (s : State) (r : Fin 8) (f : Engine → Engine) : (s.modEngine r f).upkeep = s.upkeep := rfl
@[simp] theorem State.modEngine_wardens (s : State) (r : Fin 8) (f : Engine → Engine) : (s.modEngine r f).wardens = s.wardens := rfl
@[simp] theorem State.modEngine_ctxs (s : State) (r : Fin 8) (f : Engine → Engine) : (s.modEngine r f).ctxs = s.ctxs := rfl
@[simp] theorem State.modEngine_proposals (s : State) (r : Fin 8) (f : Engine → Engine) : (s.modEngine r f).proposals = s.proposals := rfl
@[simp] theorem State.modEngine_window (s : State) (r : Fin 8) (f : Engine → Engine) : (s.modEngine r f).window = s.window := rfl
@[simp] theorem State.modEngine_cal (s : State) (r : Fin 8) (f : Engine → Engine) : (s.modEngine r f).cal = s.cal := rfl
@[simp] theorem State.modEngine_selftestPs (s : State) (r : Fin 8) (f : Engine → Engine) : (s.modEngine r f).selftestPs = s.selftestPs := rfl
@[simp] theorem State.modEngine_outfall (s : State) (r : Fin 8) (f : Engine → Engine) : (s.modEngine r f).outfall = s.outfall := rfl
@[simp] theorem State.modEngine_replay (s : State) (r : Fin 8) (f : Engine → Engine) : (s.modEngine r f).replay = s.replay := rfl
@[simp] theorem State.modEngine_replayJournalPs (s : State) (r : Fin 8) (f : Engine → Engine) : (s.modEngine r f).replayJournalPs = s.replayJournalPs := rfl
@[simp] theorem State.modEngine_held (s : State) (r : Fin 8) (f : Engine → Engine) : (s.modEngine r f).held = s.held := rfl
@[simp] theorem State.modEngine_queue (s : State) (r : Fin 8) (f : Engine → Engine) : (s.modEngine r f).queue = s.queue := rfl
@[simp] theorem State.modEngine_kept (s : State) (r : Fin 8) (f : Engine → Engine) : (s.modEngine r f).kept = s.kept := rfl
@[simp] theorem State.modEngine_devReleased (s : State) (r : Fin 8) (f : Engine → Engine) : (s.modEngine r f).devReleased = s.devReleased := rfl
@[simp] theorem State.modEngine_host (s : State) (r : Fin 8) (f : Engine → Engine) : (s.modEngine r f).host = s.host := rfl
@[simp] theorem State.modEngine_tw (s : State) (r : Fin 8) (f : Engine → Engine) : (s.modEngine r f).tw = s.tw := rfl
@[simp] theorem State.modEngine_still (s : State) (r : Fin 8) (f : Engine → Engine) : (s.modEngine r f).still = s.still := rfl
@[simp] theorem State.modEngine_tmr (s : State) (r : Fin 8) (f : Engine → Engine) : (s.modEngine r f).tmr = s.tmr := rfl
@[simp] theorem State.modEngine_ecc (s : State) (r : Fin 8) (f : Engine → Engine) : (s.modEngine r f).ecc = s.ecc := rfl
@[simp] theorem State.modEngine_pins (s : State) (r : Fin 8) (f : Engine → Engine) : (s.modEngine r f).pins = s.pins := rfl
@[simp] theorem State.modEngine_scratch (s : State) (r : Fin 8) (f : Engine → Engine) : (s.modEngine r f).scratch = s.scratch := rfl
@[simp] theorem State.modEngine_readData (s : State) (r : Fin 8) (f : Engine → Engine) : (s.modEngine r f).readData = s.readData := rfl
@[simp] theorem State.modEngine_draws (s : State) (r : Fin 8) (f : Engine → Engine) : (s.modEngine r f).draws = s.draws := rfl

/-! ### `modCtx` -/

@[simp] theorem State.modCtx_same (s : State) (r : Fin 256) (f : Ctx → Ctx) : (s.modCtx r f).ctxs[r] = f s.ctxs[r] := by
  simp [State.modCtx]

theorem State.modCtx_other (s : State) (r : Fin 256) (f : Ctx → Ctx) (q : Fin 256) (h : q ≠ r) : (s.modCtx r f).ctxs[q] = s.ctxs[q] := by
  have : r.val ≠ q.val := fun e => h (Fin.ext e.symm)
  simp [State.modCtx, this]

@[simp] theorem State.modCtx_clock (s : State) (r : Fin 256) (f : Ctx → Ctx) : (s.modCtx r f).clock = s.clock := rfl
@[simp] theorem State.modCtx_pending (s : State) (r : Fin 256) (f : Ctx → Ctx) : (s.modCtx r f).pending = s.pending := rfl
@[simp] theorem State.modCtx_part (s : State) (r : Fin 256) (f : Ctx → Ctx) : (s.modCtx r f).part = s.part := rfl
@[simp] theorem State.modCtx_phase (s : State) (r : Fin 256) (f : Ctx → Ctx) : (s.modCtx r f).phase = s.phase := rfl
@[simp] theorem State.modCtx_releasedPs (s : State) (r : Fin 256) (f : Ctx → Ctx) : (s.modCtx r f).releasedPs = s.releasedPs := rfl
@[simp] theorem State.modCtx_cause (s : State) (r : Fin 256) (f : Ctx → Ctx) : (s.modCtx r f).cause = s.cause := rfl
@[simp] theorem State.modCtx_mgmtOnly (s : State) (r : Fin 256) (f : Ctx → Ctx) : (s.modCtx r f).mgmtOnly = s.mgmtOnly := rfl
@[simp] theorem State.modCtx_doze (s : State) (r : Fin 256) (f : Ctx → Ctx) : (s.modCtx r f).doze = s.doze := rfl
@[simp] theorem State.modCtx_refs (s : State) (r : Fin 256) (f : Ctx → Ctx) : (s.modCtx r f).refs = s.refs := rfl
@[simp] theorem State.modCtx_sync (s : State) (r : Fin 256) (f : Ctx → Ctx) : (s.modCtx r f).sync = s.sync := rfl
@[simp] theorem State.modCtx_rtc (s : State) (r : Fin 256) (f : Ctx → Ctx) : (s.modCtx r f).rtc = s.rtc := rfl
@[simp] theorem State.modCtx_image (s : State) (r : Fin 256) (f : Ctx → Ctx) : (s.modCtx r f).image = s.image := rfl
@[simp] theorem State.modCtx_keys (s : State) (r : Fin 256) (f : Ctx → Ctx) : (s.modCtx r f).keys = s.keys := rfl
@[simp] theorem State.modCtx_flash (s : State) (r : Fin 256) (f : Ctx → Ctx) : (s.modCtx r f).flash = s.flash := rfl
@[simp] theorem State.modCtx_journal (s : State) (r : Fin 256) (f : Ctx → Ctx) : (s.modCtx r f).journal = s.journal := rfl
@[simp] theorem State.modCtx_mailbox (s : State) (r : Fin 256) (f : Ctx → Ctx) : (s.modCtx r f).mailbox = s.mailbox := rfl
@[simp] theorem State.modCtx_reaches (s : State) (r : Fin 256) (f : Ctx → Ctx) : (s.modCtx r f).reaches = s.reaches := rfl
@[simp] theorem State.modCtx_fallow (s : State) (r : Fin 256) (f : Ctx → Ctx) : (s.modCtx r f).fallow = s.fallow := rfl
@[simp] theorem State.modCtx_upkeep (s : State) (r : Fin 256) (f : Ctx → Ctx) : (s.modCtx r f).upkeep = s.upkeep := rfl
@[simp] theorem State.modCtx_wardens (s : State) (r : Fin 256) (f : Ctx → Ctx) : (s.modCtx r f).wardens = s.wardens := rfl
@[simp] theorem State.modCtx_engines (s : State) (r : Fin 256) (f : Ctx → Ctx) : (s.modCtx r f).engines = s.engines := rfl
@[simp] theorem State.modCtx_proposals (s : State) (r : Fin 256) (f : Ctx → Ctx) : (s.modCtx r f).proposals = s.proposals := rfl
@[simp] theorem State.modCtx_window (s : State) (r : Fin 256) (f : Ctx → Ctx) : (s.modCtx r f).window = s.window := rfl
@[simp] theorem State.modCtx_cal (s : State) (r : Fin 256) (f : Ctx → Ctx) : (s.modCtx r f).cal = s.cal := rfl
@[simp] theorem State.modCtx_selftestPs (s : State) (r : Fin 256) (f : Ctx → Ctx) : (s.modCtx r f).selftestPs = s.selftestPs := rfl
@[simp] theorem State.modCtx_outfall (s : State) (r : Fin 256) (f : Ctx → Ctx) : (s.modCtx r f).outfall = s.outfall := rfl
@[simp] theorem State.modCtx_replay (s : State) (r : Fin 256) (f : Ctx → Ctx) : (s.modCtx r f).replay = s.replay := rfl
@[simp] theorem State.modCtx_replayJournalPs (s : State) (r : Fin 256) (f : Ctx → Ctx) : (s.modCtx r f).replayJournalPs = s.replayJournalPs := rfl
@[simp] theorem State.modCtx_held (s : State) (r : Fin 256) (f : Ctx → Ctx) : (s.modCtx r f).held = s.held := rfl
@[simp] theorem State.modCtx_queue (s : State) (r : Fin 256) (f : Ctx → Ctx) : (s.modCtx r f).queue = s.queue := rfl
@[simp] theorem State.modCtx_kept (s : State) (r : Fin 256) (f : Ctx → Ctx) : (s.modCtx r f).kept = s.kept := rfl
@[simp] theorem State.modCtx_devReleased (s : State) (r : Fin 256) (f : Ctx → Ctx) : (s.modCtx r f).devReleased = s.devReleased := rfl
@[simp] theorem State.modCtx_host (s : State) (r : Fin 256) (f : Ctx → Ctx) : (s.modCtx r f).host = s.host := rfl
@[simp] theorem State.modCtx_tw (s : State) (r : Fin 256) (f : Ctx → Ctx) : (s.modCtx r f).tw = s.tw := rfl
@[simp] theorem State.modCtx_still (s : State) (r : Fin 256) (f : Ctx → Ctx) : (s.modCtx r f).still = s.still := rfl
@[simp] theorem State.modCtx_tmr (s : State) (r : Fin 256) (f : Ctx → Ctx) : (s.modCtx r f).tmr = s.tmr := rfl
@[simp] theorem State.modCtx_ecc (s : State) (r : Fin 256) (f : Ctx → Ctx) : (s.modCtx r f).ecc = s.ecc := rfl
@[simp] theorem State.modCtx_pins (s : State) (r : Fin 256) (f : Ctx → Ctx) : (s.modCtx r f).pins = s.pins := rfl
@[simp] theorem State.modCtx_scratch (s : State) (r : Fin 256) (f : Ctx → Ctx) : (s.modCtx r f).scratch = s.scratch := rfl
@[simp] theorem State.modCtx_readData (s : State) (r : Fin 256) (f : Ctx → Ctx) : (s.modCtx r f).readData = s.readData := rfl
@[simp] theorem State.modCtx_draws (s : State) (r : Fin 256) (f : Ctx → Ctx) : (s.modCtx r f).draws = s.draws := rfl

/-! ### `advance` -/

@[simp] theorem State.advance_pending (s : State) (dt : Nat) : (s.advance dt).pending = s.pending := rfl
@[simp] theorem State.advance_part (s : State) (dt : Nat) : (s.advance dt).part = s.part := rfl
@[simp] theorem State.advance_phase (s : State) (dt : Nat) : (s.advance dt).phase = s.phase := rfl
@[simp] theorem State.advance_releasedPs (s : State) (dt : Nat) : (s.advance dt).releasedPs = s.releasedPs := rfl
@[simp] theorem State.advance_cause (s : State) (dt : Nat) : (s.advance dt).cause = s.cause := rfl
@[simp] theorem State.advance_mgmtOnly (s : State) (dt : Nat) : (s.advance dt).mgmtOnly = s.mgmtOnly := rfl
@[simp] theorem State.advance_doze (s : State) (dt : Nat) : (s.advance dt).doze = s.doze := rfl
@[simp] theorem State.advance_refs (s : State) (dt : Nat) : (s.advance dt).refs = s.refs := rfl
@[simp] theorem State.advance_sync (s : State) (dt : Nat) : (s.advance dt).sync = s.sync := rfl
@[simp] theorem State.advance_image (s : State) (dt : Nat) : (s.advance dt).image = s.image := rfl
@[simp] theorem State.advance_keys (s : State) (dt : Nat) : (s.advance dt).keys = s.keys := rfl
@[simp] theorem State.advance_flash (s : State) (dt : Nat) : (s.advance dt).flash = s.flash := rfl
@[simp] theorem State.advance_journal (s : State) (dt : Nat) : (s.advance dt).journal = s.journal := rfl
@[simp] theorem State.advance_mailbox (s : State) (dt : Nat) : (s.advance dt).mailbox = s.mailbox := rfl
@[simp] theorem State.advance_reaches (s : State) (dt : Nat) : (s.advance dt).reaches = s.reaches := rfl
@[simp] theorem State.advance_fallow (s : State) (dt : Nat) : (s.advance dt).fallow = s.fallow := rfl
@[simp] theorem State.advance_upkeep (s : State) (dt : Nat) : (s.advance dt).upkeep = s.upkeep := rfl
@[simp] theorem State.advance_wardens (s : State) (dt : Nat) : (s.advance dt).wardens = s.wardens := rfl
@[simp] theorem State.advance_engines (s : State) (dt : Nat) : (s.advance dt).engines = s.engines := rfl
@[simp] theorem State.advance_ctxs (s : State) (dt : Nat) : (s.advance dt).ctxs = s.ctxs := rfl
@[simp] theorem State.advance_proposals (s : State) (dt : Nat) : (s.advance dt).proposals = s.proposals := rfl
@[simp] theorem State.advance_window (s : State) (dt : Nat) : (s.advance dt).window = s.window := rfl
@[simp] theorem State.advance_cal (s : State) (dt : Nat) : (s.advance dt).cal = s.cal := rfl
@[simp] theorem State.advance_selftestPs (s : State) (dt : Nat) : (s.advance dt).selftestPs = s.selftestPs := rfl
@[simp] theorem State.advance_outfall (s : State) (dt : Nat) : (s.advance dt).outfall = s.outfall := rfl
@[simp] theorem State.advance_replay (s : State) (dt : Nat) : (s.advance dt).replay = s.replay := rfl
@[simp] theorem State.advance_replayJournalPs (s : State) (dt : Nat) : (s.advance dt).replayJournalPs = s.replayJournalPs := rfl
@[simp] theorem State.advance_held (s : State) (dt : Nat) : (s.advance dt).held = s.held := rfl
@[simp] theorem State.advance_queue (s : State) (dt : Nat) : (s.advance dt).queue = s.queue := rfl
@[simp] theorem State.advance_kept (s : State) (dt : Nat) : (s.advance dt).kept = s.kept := rfl
@[simp] theorem State.advance_devReleased (s : State) (dt : Nat) : (s.advance dt).devReleased = s.devReleased := rfl
@[simp] theorem State.advance_host (s : State) (dt : Nat) : (s.advance dt).host = s.host := rfl
@[simp] theorem State.advance_tw (s : State) (dt : Nat) : (s.advance dt).tw = s.tw := rfl
@[simp] theorem State.advance_still (s : State) (dt : Nat) : (s.advance dt).still = s.still := rfl
@[simp] theorem State.advance_tmr (s : State) (dt : Nat) : (s.advance dt).tmr = s.tmr := rfl
@[simp] theorem State.advance_ecc (s : State) (dt : Nat) : (s.advance dt).ecc = s.ecc := rfl
@[simp] theorem State.advance_pins (s : State) (dt : Nat) : (s.advance dt).pins = s.pins := rfl
@[simp] theorem State.advance_scratch (s : State) (dt : Nat) : (s.advance dt).scratch = s.scratch := rfl
@[simp] theorem State.advance_readData (s : State) (dt : Nat) : (s.advance dt).readData = s.readData := rfl
@[simp] theorem State.advance_draws (s : State) (dt : Nat) : (s.advance dt).draws = s.draws := rfl
@[simp] theorem State.advance_clock (s : State) (dt : Nat) : (s.advance dt).clock = s.clock + dt * fabPs := rfl
@[simp] theorem State.when_true (s : State) (f : State → State) : s.when true f = f s := rfl
@[simp] theorem State.when_false (s : State) (f : State → State) : s.when false f = s := rfl
@[simp] theorem State.withSome_some {α : Type} (s : State) (a : α) (f : α → State → State) : s.withSome (some a) f = f a s := rfl
@[simp] theorem State.withSome_none {α : Type} (s : State) (f : α → State → State) : s.withSome none f = s := rfl

/-- A command or event whose condition holds takes its effect at the instant that `dt` FAB cycles lead to. -/
theorem State.occurs_of (s : State) (dt : Nat) (cond : State → Bool) (f : State → State) (h : cond (s.advance dt) = true) :
    s.occurs dt cond f = .next (f (s.advance dt)) := by
  simp [State.occurs, h]

/-- One whose condition fails only lets time pass. -/
theorem State.occurs_not (s : State) (dt : Nat) (cond : State → Bool) (f : State → State) (h : cond (s.advance dt) = false) :
    s.occurs dt cond f = .next (s.advance dt) := by
  simp [State.occurs, h]

end Sys2Proof.Machine
end

