-- ==== Sys2Proof/Laws/Commands.lean ====
section
/-! SUPPORT. The shared ways in which a command reaches its effect, each said once: an optional operand, a condition, a datagram of the
collector, an admitted QRP command, a trigger of a calibration, an operation of the journal; and the gain step that comes into force. -/

namespace Sys2Proof.Machine

/-- A datagram of the collector keeps the session alive and has its effect. -/
theorem State.datagram_of (s : State) (src : Peer) (f : State → State) (h : s.hostUp = true) (g : s.fromCollector src = true) :
    s.datagram src f = f s.heard := by
  simp [State.datagram, h, g]

/-- A datagram of another sender is answered with BYE alone. -/
theorem State.datagram_stranger (s : State) (src : Peer) (f : State → State) (h : s.hostUp = true) (g : s.fromCollector src = false) :
    s.datagram src f = s.byeNoSession src := by
  simp [State.datagram, h, g]

@[simp] theorem State.heard_sessionVersion (s : State) : s.heard.sessionVersion = s.sessionVersion := by
  simp only [State.heard, State.sessionVersion]; cases s.host.session <;> rfl

@[simp] theorem State.remember_sessionVersion (s : State) (id : BitVec 32) (op : Nat) : (s.remember id op).sessionVersion = s.sessionVersion := by
  simp only [State.remember, State.sessionVersion]

/-- A command that is admitted joins the last 64 and has its effect. -/
theorem State.command_admitted (s : State) (src : Peer) (id : BitVec 32) (op least : Nat) (life : Bool) (f : State → State) (up : s.hostUp = true)
    (own : s.fromCollector src = true) (en : s.host.cmdEn = true) (named : id ≠ 0) (fresh : s.host.cmds.find? (fun c => c.id == id) = none)
    (version : least ≤ s.sessionVersion) (room : life = false ∨ s.host.open_.length < 32) :
    s.command src id op life least f = f (s.heard.remember id op) := by
  have e : s.heard.host.cmdEn = true := en
  have n : s.heard.host.cmds.find? (fun c => c.id == id) = none := fresh
  have o : (s.heard.remember id op).host.open_ = s.host.open_ := rfl
  have v : ¬ (s.heard.remember id op).sessionVersion < least := by
    rw [State.remember_sessionVersion, State.heard_sessionVersion]; exact Nat.not_lt.2 version
  have q : (life && decide (32 ≤ (s.heard.remember id op).host.open_.length)) = false := by
    rcases room with h | h
    · rw [h]; rfl
    · rw [o, decide_eq_false (Nat.not_le.2 h), Bool.and_false]
  rw [State.command, State.datagram_of s src _ up own]
  dsimp only
  rw [if_neg (by rw [e]; decide), if_neg named, n]
  dsimp only
  rw [if_neg v, if_neg (by rw [q]; decide)]

@[simp] theorem State.calTrigger_up (s : State) (r : Fin 4) (f : State → State) (h : s.reachUp r = true) : s.calTrigger r f = f s := by
  simp [State.calTrigger, h]

@[simp] theorem State.calTrigger_down (s : State) (r : Fin 4) (f : State → State) (h : s.reachUp r = false) :
    s.calTrigger r f = s.writeIgnored 0x1004 := by
  simp [State.calTrigger, h]

@[simp] theorem State.journalOp_idle (s : State) (f : State → State) (h : s.journal.busy = false) : s.journalOp f = f s := by
  simp [State.journalOp, h]

@[simp] theorem State.journalOp_busy (s : State) (f : State → State) (h : s.journal.busy = true) : s.journalOp f = s.writeIgnored 0x201C := by
  simp [State.journalOp, h]

/-- What comes into force with a step changes the gain and its sample events alone. -/
theorem Reach.settle_frame (x : Reach) (now : Nat) :
    x.settle now = { x with step := (x.settle now).step, lna := (x.settle now).lna, attn := (x.settle now).attn
                            gain := (x.settle now).gain, events := (x.settle now).events } := by
  unfold Reach.settle
  split
  · rfl
  · split
    · rfl
    · split <;> rfl

@[simp] theorem Reach.settle_none (x : Reach) (now : Nat) (h : x.step = none) : x.settle now = x := by simp [Reach.settle, h]
@[simp] theorem Reach.settle_live (x : Reach) (now : Nat) : (x.settle now).live = x.live := by rw [Reach.settle_frame]
@[simp] theorem Reach.settle_regs (x : Reach) (now : Nat) : (x.settle now).regs = x.regs := by rw [Reach.settle_frame]
@[simp] theorem Reach.settle_st (x : Reach) (now : Nat) : (x.settle now).st = x.st := by rw [Reach.settle_frame]
@[simp] theorem Reach.settle_blank (x : Reach) (now : Nat) : (x.settle now).blank = x.blank := by rw [Reach.settle_frame]

end Sys2Proof.Machine
end

