-- ==== Sys2Proof/Laws/Frame.lean ====
section
/-! SUPPORT. The shared operations of `Machine/Ops.lean`: which fields each can change, said once as an equation, and the fields it leaves
alone. -/

namespace Sys2Proof.Machine

/-- A request to append changes nothing but the journal's own state. -/
theorem State.journalAppend_frame (s : State) (c t k : Nat) (p : List Byte) (w : Bool) :
    (s.journalRequest ⟨.append c t k p, w⟩).1 = { s with journal := (s.journalRequest ⟨.append c t k p, w⟩).1.journal } := by
  unfold State.journalRequest State.journalStart
  split
  · rfl
  · split
    · dsimp only; split <;> rfl
    · rfl

/-- `faultRecord` changes nothing but mailbox, journal. -/
theorem State.faultRecord_frame (s : State) (e : MboxEntry) :
    (s.faultRecord e) = { s with mailbox := (s.faultRecord e).mailbox, journal := (s.faultRecord e).journal } := by
  unfold State.faultRecord
  split
  · rfl
  · dsimp only
    rw [State.journalAppend_frame]

@[simp] theorem State.faultRecord_clock (s : State) (e : MboxEntry) : (s.faultRecord e).clock = s.clock := (congrArg State.clock (s.faultRecord_frame e)).trans rfl
@[simp] theorem State.faultRecord_pending (s : State) (e : MboxEntry) : (s.faultRecord e).pending = s.pending := (congrArg State.pending (s.faultRecord_frame e)).trans rfl
@[simp] theorem State.faultRecord_part (s : State) (e : MboxEntry) : (s.faultRecord e).part = s.part := (congrArg State.part (s.faultRecord_frame e)).trans rfl
@[simp] theorem State.faultRecord_phase (s : State) (e : MboxEntry) : (s.faultRecord e).phase = s.phase := (congrArg State.phase (s.faultRecord_frame e)).trans rfl
@[simp] theorem State.faultRecord_releasedPs (s : State) (e : MboxEntry) : (s.faultRecord e).releasedPs = s.releasedPs := (congrArg State.releasedPs (s.faultRecord_frame e)).trans rfl
@[simp] theorem State.faultRecord_cause (s : State) (e : MboxEntry) : (s.faultRecord e).cause = s.cause := (congrArg State.cause (s.faultRecord_frame e)).trans rfl
@[simp] theorem State.faultRecord_mgmtOnly (s : State) (e : MboxEntry) : (s.faultRecord e).mgmtOnly = s.mgmtOnly := (congrArg State.mgmtOnly (s.faultRecord_frame e)).trans rfl
@[simp] theorem State.faultRecord_doze (s : State) (e : MboxEntry) : (s.faultRecord e).doze = s.doze := (congrArg State.doze (s.faultRecord_frame e)).trans rfl
@[simp] theorem State.faultRecord_refs (s : State) (e : MboxEntry) : (s.faultRecord e).refs = s.refs := (congrArg State.refs (s.faultRecord_frame e)).trans rfl
@[simp] theorem State.faultRecord_sync (s : State) (e : MboxEntry) : (s.faultRecord e).sync = s.sync := (congrArg State.sync (s.faultRecord_frame e)).trans rfl
@[simp] theorem State.faultRecord_rtc (s : State) (e : MboxEntry) : (s.faultRecord e).rtc = s.rtc := (congrArg State.rtc (s.faultRecord_frame e)).trans rfl
@[simp] theorem State.faultRecord_image (s : State) (e : MboxEntry) : (s.faultRecord e).image = s.image := (congrArg State.image (s.faultRecord_frame e)).trans rfl
@[simp] theorem State.faultRecord_keys (s : State) (e : MboxEntry) : (s.faultRecord e).keys = s.keys := (congrArg State.keys (s.faultRecord_frame e)).trans rfl
@[simp] theorem State.faultRecord_flash (s : State) (e : MboxEntry) : (s.faultRecord e).flash = s.flash := (congrArg State.flash (s.faultRecord_frame e)).trans rfl
@[simp] theorem State.faultRecord_reaches (s : State) (e : MboxEntry) : (s.faultRecord e).reaches = s.reaches := (congrArg State.reaches (s.faultRecord_frame e)).trans rfl
@[simp] theorem State.faultRecord_fallow (s : State) (e : MboxEntry) : (s.faultRecord e).fallow = s.fallow := (congrArg State.fallow (s.faultRecord_frame e)).trans rfl
@[simp] theorem State.faultRecord_upkeep (s : State) (e : MboxEntry) : (s.faultRecord e).upkeep = s.upkeep := (congrArg State.upkeep (s.faultRecord_frame e)).trans rfl
@[simp] theorem State.faultRecord_wardens (s : State) (e : MboxEntry) : (s.faultRecord e).wardens = s.wardens := (congrArg State.wardens (s.faultRecord_frame e)).trans rfl
@[simp] theorem State.faultRecord_engines (s : State) (e : MboxEntry) : (s.faultRecord e).engines = s.engines := (congrArg State.engines (s.faultRecord_frame e)).trans rfl
@[simp] theorem State.faultRecord_ctxs (s : State) (e : MboxEntry) : (s.faultRecord e).ctxs = s.ctxs := (congrArg State.ctxs (s.faultRecord_frame e)).trans rfl
@[simp] theorem State.faultRecord_proposals (s : State) (e : MboxEntry) : (s.faultRecord e).proposals = s.proposals := (congrArg State.proposals (s.faultRecord_frame e)).trans rfl
@[simp] theorem State.faultRecord_window (s : State) (e : MboxEntry) : (s.faultRecord e).window = s.window := (congrArg State.window (s.faultRecord_frame e)).trans rfl
@[simp] theorem State.faultRecord_cal (s : State) (e : MboxEntry) : (s.faultRecord e).cal = s.cal := (congrArg State.cal (s.faultRecord_frame e)).trans rfl
@[simp] theorem State.faultRecord_selftestPs (s : State) (e : MboxEntry) : (s.faultRecord e).selftestPs = s.selftestPs := (congrArg State.selftestPs (s.faultRecord_frame e)).trans rfl
@[simp] theorem State.faultRecord_outfall (s : State) (e : MboxEntry) : (s.faultRecord e).outfall = s.outfall := (congrArg State.outfall (s.faultRecord_frame e)).trans rfl
@[simp] theorem State.faultRecord_replay (s : State) (e : MboxEntry) : (s.faultRecord e).replay = s.replay := (congrArg State.replay (s.faultRecord_frame e)).trans rfl
@[simp] theorem State.faultRecord_replayJournalPs (s : State) (e : MboxEntry) : (s.faultRecord e).replayJournalPs = s.replayJournalPs := (congrArg State.replayJournalPs (s.faultRecord_frame e)).trans rfl
@[simp] theorem State.faultRecord_held (s : State) (e : MboxEntry) : (s.faultRecord e).held = s.held := (congrArg State.held (s.faultRecord_frame e)).trans rfl
@[simp] theorem State.faultRecord_queue (s : State) (e : MboxEntry) : (s.faultRecord e).queue = s.queue := (congrArg State.queue (s.faultRecord_frame e)).trans rfl
@[simp] theorem State.faultRecord_kept (s : State) (e : MboxEntry) : (s.faultRecord e).kept = s.kept := (congrArg State.kept (s.faultRecord_frame e)).trans rfl
@[simp] theorem State.faultRecord_devReleased (s : State) (e : MboxEntry) : (s.faultRecord e).devReleased = s.devReleased := (congrArg State.devReleased (s.faultRecord_frame e)).trans rfl
@[simp] theorem State.faultRecord_host (s : State) (e : MboxEntry) : (s.faultRecord e).host = s.host := (congrArg State.host (s.faultRecord_frame e)).trans rfl
@[simp] theorem State.faultRecord_tw (s : State) (e : MboxEntry) : (s.faultRecord e).tw = s.tw := (congrArg State.tw (s.faultRecord_frame e)).trans rfl
@[simp] theorem State.faultRecord_still (s : State) (e : MboxEntry) : (s.faultRecord e).still = s.still := (congrArg State.still (s.faultRecord_frame e)).trans rfl
@[simp] theorem State.faultRecord_tmr (s : State) (e : MboxEntry) : (s.faultRecord e).tmr = s.tmr := (congrArg State.tmr (s.faultRecord_frame e)).trans rfl
@[simp] theorem State.faultRecord_ecc (s : State) (e : MboxEntry) : (s.faultRecord e).ecc = s.ecc := (congrArg State.ecc (s.faultRecord_frame e)).trans rfl
@[simp] theorem State.faultRecord_pins (s : State) (e : MboxEntry) : (s.faultRecord e).pins = s.pins := (congrArg State.pins (s.faultRecord_frame e)).trans rfl
@[simp] theorem State.faultRecord_scratch (s : State) (e : MboxEntry) : (s.faultRecord e).scratch = s.scratch := (congrArg State.scratch (s.faultRecord_frame e)).trans rfl
@[simp] theorem State.faultRecord_readData (s : State) (e : MboxEntry) : (s.faultRecord e).readData = s.readData := (congrArg State.readData (s.faultRecord_frame e)).trans rfl
@[simp] theorem State.faultRecord_draws (s : State) (e : MboxEntry) : (s.faultRecord e).draws = s.draws := (congrArg State.draws (s.faultRecord_frame e)).trans rfl

/-- `post` changes nothing but mailbox, journal. -/
theorem State.post_frame (s : State) (src reach ctx code sev : Nat) (data : List Byte) :
    (s.post src reach ctx code sev data) = { s with mailbox := (s.post src reach ctx code sev data).mailbox, journal := (s.post src reach ctx code sev data).journal } := by
  unfold State.post
  dsimp only
  rw [State.faultRecord_frame]

@[simp] theorem State.post_clock (s : State) (src reach ctx code sev : Nat) (data : List Byte) : (s.post src reach ctx code sev data).clock = s.clock := (congrArg State.clock (s.post_frame src reach ctx code sev data)).trans rfl
@[simp] theorem State.post_pending (s : State) (src reach ctx code sev : Nat) (data : List Byte) : (s.post src reach ctx code sev data).pending = s.pending := (congrArg State.pending (s.post_frame src reach ctx code sev data)).trans rfl
@[simp] theorem State.post_part (s : State) (src reach ctx code sev : Nat) (data : List Byte) : (s.post src reach ctx code sev data).part = s.part := (congrArg State.part (s.post_frame src reach ctx code sev data)).trans rfl
@[simp] theorem State.post_phase (s : State) (src reach ctx code sev : Nat) (data : List Byte) : (s.post src reach ctx code sev data).phase = s.phase := (congrArg State.phase (s.post_frame src reach ctx code sev data)).trans rfl
@[simp] theorem State.post_releasedPs (s : State) (src reach ctx code sev : Nat) (data : List Byte) : (s.post src reach ctx code sev data).releasedPs = s.releasedPs := (congrArg State.releasedPs (s.post_frame src reach ctx code sev data)).trans rfl
@[simp] theorem State.post_cause (s : State) (src reach ctx code sev : Nat) (data : List Byte) : (s.post src reach ctx code sev data).cause = s.cause := (congrArg State.cause (s.post_frame src reach ctx code sev data)).trans rfl
@[simp] theorem State.post_mgmtOnly (s : State) (src reach ctx code sev : Nat) (data : List Byte) : (s.post src reach ctx code sev data).mgmtOnly = s.mgmtOnly := (congrArg State.mgmtOnly (s.post_frame src reach ctx code sev data)).trans rfl
@[simp] theorem State.post_doze (s : State) (src reach ctx code sev : Nat) (data : List Byte) : (s.post src reach ctx code sev data).doze = s.doze := (congrArg State.doze (s.post_frame src reach ctx code sev data)).trans rfl
@[simp] theorem State.post_refs (s : State) (src reach ctx code sev : Nat) (data : List Byte) : (s.post src reach ctx code sev data).refs = s.refs := (congrArg State.refs (s.post_frame src reach ctx code sev data)).trans rfl
@[simp] theorem State.post_sync (s : State) (src reach ctx code sev : Nat) (data : List Byte) : (s.post src reach ctx code sev data).sync = s.sync := (congrArg State.sync (s.post_frame src reach ctx code sev data)).trans rfl
@[simp] theorem State.post_rtc (s : State) (src reach ctx code sev : Nat) (data : List Byte) : (s.post src reach ctx code sev data).rtc = s.rtc := (congrArg State.rtc (s.post_frame src reach ctx code sev data)).trans rfl
@[simp] theorem State.post_image (s : State) (src reach ctx code sev : Nat) (data : List Byte) : (s.post src reach ctx code sev data).image = s.image := (congrArg State.image (s.post_frame src reach ctx code sev data)).trans rfl
@[simp] theorem State.post_keys (s : State) (src reach ctx code sev : Nat) (data : List Byte) : (s.post src reach ctx code sev data).keys = s.keys := (congrArg State.keys (s.post_frame src reach ctx code sev data)).trans rfl
@[simp] theorem State.post_flash (s : State) (src reach ctx code sev : Nat) (data : List Byte) : (s.post src reach ctx code sev data).flash = s.flash := (congrArg State.flash (s.post_frame src reach ctx code sev data)).trans rfl
@[simp] theorem State.post_reaches (s : State) (src reach ctx code sev : Nat) (data : List Byte) : (s.post src reach ctx code sev data).reaches = s.reaches := (congrArg State.reaches (s.post_frame src reach ctx code sev data)).trans rfl
@[simp] theorem State.post_fallow (s : State) (src reach ctx code sev : Nat) (data : List Byte) : (s.post src reach ctx code sev data).fallow = s.fallow := (congrArg State.fallow (s.post_frame src reach ctx code sev data)).trans rfl
@[simp] theorem State.post_upkeep (s : State) (src reach ctx code sev : Nat) (data : List Byte) : (s.post src reach ctx code sev data).upkeep = s.upkeep := (congrArg State.upkeep (s.post_frame src reach ctx code sev data)).trans rfl
@[simp] theorem State.post_wardens (s : State) (src reach ctx code sev : Nat) (data : List Byte) : (s.post src reach ctx code sev data).wardens = s.wardens := (congrArg State.wardens (s.post_frame src reach ctx code sev data)).trans rfl
@[simp] theorem State.post_engines (s : State) (src reach ctx code sev : Nat) (data : List Byte) : (s.post src reach ctx code sev data).engines = s.engines := (congrArg State.engines (s.post_frame src reach ctx code sev data)).trans rfl
@[simp] theorem State.post_ctxs (s : State) (src reach ctx code sev : Nat) (data : List Byte) : (s.post src reach ctx code sev data).ctxs = s.ctxs := (congrArg State.ctxs (s.post_frame src reach ctx code sev data)).trans rfl
@[simp] theorem State.post_proposals (s : State) (src reach ctx code sev : Nat) (data : List Byte) : (s.post src reach ctx code sev data).proposals = s.proposals := (congrArg State.proposals (s.post_frame src reach ctx code sev data)).trans rfl
@[simp] theorem State.post_window (s : State) (src reach ctx code sev : Nat) (data : List Byte) : (s.post src reach ctx code sev data).window = s.window := (congrArg State.window (s.post_frame src reach ctx code sev data)).trans rfl
@[simp] theorem State.post_cal (s : State) (src reach ctx code sev : Nat) (data : List Byte) : (s.post src reach ctx code sev data).cal = s.cal := (congrArg State.cal (s.post_frame src reach ctx code sev data)).trans rfl
@[simp] theorem State.post_selftestPs (s : State) (src reach ctx code sev : Nat) (data : List Byte) : (s.post src reach ctx code sev data).selftestPs = s.selftestPs := (congrArg State.selftestPs (s.post_frame src reach ctx code sev data)).trans rfl
@[simp] theorem State.post_outfall (s : State) (src reach ctx code sev : Nat) (data : List Byte) : (s.post src reach ctx code sev data).outfall = s.outfall := (congrArg State.outfall (s.post_frame src reach ctx code sev data)).trans rfl
@[simp] theorem State.post_replay (s : State) (src reach ctx code sev : Nat) (data : List Byte) : (s.post src reach ctx code sev data).replay = s.replay := (congrArg State.replay (s.post_frame src reach ctx code sev data)).trans rfl
@[simp] theorem State.post_replayJournalPs (s : State) (src reach ctx code sev : Nat) (data : List Byte) : (s.post src reach ctx code sev data).replayJournalPs = s.replayJournalPs := (congrArg State.replayJournalPs (s.post_frame src reach ctx code sev data)).trans rfl
@[simp] theorem State.post_held (s : State) (src reach ctx code sev : Nat) (data : List Byte) : (s.post src reach ctx code sev data).held = s.held := (congrArg State.held (s.post_frame src reach ctx code sev data)).trans rfl
@[simp] theorem State.post_queue (s : State) (src reach ctx code sev : Nat) (data : List Byte) : (s.post src reach ctx code sev data).queue = s.queue := (congrArg State.queue (s.post_frame src reach ctx code sev data)).trans rfl
@[simp] theorem State.post_kept (s : State) (src reach ctx code sev : Nat) (data : List Byte) : (s.post src reach ctx code sev data).kept = s.kept := (congrArg State.kept (s.post_frame src reach ctx code sev data)).trans rfl
@[simp] theorem State.post_devReleased (s : State) (src reach ctx code sev : Nat) (data : List Byte) : (s.post src reach ctx code sev data).devReleased = s.devReleased := (congrArg State.devReleased (s.post_frame src reach ctx code sev data)).trans rfl
@[simp] theorem State.post_host (s : State) (src reach ctx code sev : Nat) (data : List Byte) : (s.post src reach ctx code sev data).host = s.host := (congrArg State.host (s.post_frame src reach ctx code sev data)).trans rfl
@[simp] theorem State.post_tw (s : State) (src reach ctx code sev : Nat) (data : List Byte) : (s.post src reach ctx code sev data).tw = s.tw := (congrArg State.tw (s.post_frame src reach ctx code sev data)).trans rfl
@[simp] theorem State.post_still (s : State) (src reach ctx code sev : Nat) (data : List Byte) : (s.post src reach ctx code sev data).still = s.still := (congrArg State.still (s.post_frame src reach ctx code sev data)).trans rfl
@[simp] theorem State.post_tmr (s : State) (src reach ctx code sev : Nat) (data : List Byte) : (s.post src reach ctx code sev data).tmr = s.tmr := (congrArg State.tmr (s.post_frame src reach ctx code sev data)).trans rfl
@[simp] theorem State.post_ecc (s : State) (src reach ctx code sev : Nat) (data : List Byte) : (s.post src reach ctx code sev data).ecc = s.ecc := (congrArg State.ecc (s.post_frame src reach ctx code sev data)).trans rfl
@[simp] theorem State.post_pins (s : State) (src reach ctx code sev : Nat) (data : List Byte) : (s.post src reach ctx code sev data).pins = s.pins := (congrArg State.pins (s.post_frame src reach ctx code sev data)).trans rfl
@[simp] theorem State.post_scratch (s : State) (src reach ctx code sev : Nat) (data : List Byte) : (s.post src reach ctx code sev data).scratch = s.scratch := (congrArg State.scratch (s.post_frame src reach ctx code sev data)).trans rfl
@[simp] theorem State.post_readData (s : State) (src reach ctx code sev : Nat) (data : List Byte) : (s.post src reach ctx code sev data).readData = s.readData := (congrArg State.readData (s.post_frame src reach ctx code sev data)).trans rfl
@[simp] theorem State.post_draws (s : State) (src reach ctx code sev : Nat) (data : List Byte) : (s.post src reach ctx code sev data).draws = s.draws := (congrArg State.draws (s.post_frame src reach ctx code sev data)).trans rfl

/-- `writeIgnored` changes nothing but mailbox, journal. -/
theorem State.writeIgnored_frame (s : State) (addr : Addr) :
    (s.writeIgnored addr) = { s with mailbox := (s.writeIgnored addr).mailbox, journal := (s.writeIgnored addr).journal } := by
  exact State.post_frame ..

@[simp] theorem State.writeIgnored_clock (s : State) (addr : Addr) : (s.writeIgnored addr).clock = s.clock := (congrArg State.clock (s.writeIgnored_frame addr)).trans rfl
@[simp] theorem State.writeIgnored_pending (s : State) (addr : Addr) : (s.writeIgnored addr).pending = s.pending := (congrArg State.pending (s.writeIgnored_frame addr)).trans rfl
@[simp] theorem State.writeIgnored_part (s : State) (addr : Addr) : (s.writeIgnored addr).part = s.part := (congrArg State.part (s.writeIgnored_frame addr)).trans rfl
@[simp] theorem State.writeIgnored_phase (s : State) (addr : Addr) : (s.writeIgnored addr).phase = s.phase := (congrArg State.phase (s.writeIgnored_frame addr)).trans rfl
@[simp] theorem State.writeIgnored_releasedPs (s : State) (addr : Addr) : (s.writeIgnored addr).releasedPs = s.releasedPs := (congrArg State.releasedPs (s.writeIgnored_frame addr)).trans rfl
@[simp] theorem State.writeIgnored_cause (s : State) (addr : Addr) : (s.writeIgnored addr).cause = s.cause := (congrArg State.cause (s.writeIgnored_frame addr)).trans rfl
@[simp] theorem State.writeIgnored_mgmtOnly (s : State) (addr : Addr) : (s.writeIgnored addr).mgmtOnly = s.mgmtOnly := (congrArg State.mgmtOnly (s.writeIgnored_frame addr)).trans rfl
@[simp] theorem State.writeIgnored_doze (s : State) (addr : Addr) : (s.writeIgnored addr).doze = s.doze := (congrArg State.doze (s.writeIgnored_frame addr)).trans rfl
@[simp] theorem State.writeIgnored_refs (s : State) (addr : Addr) : (s.writeIgnored addr).refs = s.refs := (congrArg State.refs (s.writeIgnored_frame addr)).trans rfl
@[simp] theorem State.writeIgnored_sync (s : State) (addr : Addr) : (s.writeIgnored addr).sync = s.sync := (congrArg State.sync (s.writeIgnored_frame addr)).trans rfl
@[simp] theorem State.writeIgnored_rtc (s : State) (addr : Addr) : (s.writeIgnored addr).rtc = s.rtc := (congrArg State.rtc (s.writeIgnored_frame addr)).trans rfl
@[simp] theorem State.writeIgnored_image (s : State) (addr : Addr) : (s.writeIgnored addr).image = s.image := (congrArg State.image (s.writeIgnored_frame addr)).trans rfl
@[simp] theorem State.writeIgnored_keys (s : State) (addr : Addr) : (s.writeIgnored addr).keys = s.keys := (congrArg State.keys (s.writeIgnored_frame addr)).trans rfl
@[simp] theorem State.writeIgnored_flash (s : State) (addr : Addr) : (s.writeIgnored addr).flash = s.flash := (congrArg State.flash (s.writeIgnored_frame addr)).trans rfl
@[simp] theorem State.writeIgnored_reaches (s : State) (addr : Addr) : (s.writeIgnored addr).reaches = s.reaches := (congrArg State.reaches (s.writeIgnored_frame addr)).trans rfl
@[simp] theorem State.writeIgnored_fallow (s : State) (addr : Addr) : (s.writeIgnored addr).fallow = s.fallow := (congrArg State.fallow (s.writeIgnored_frame addr)).trans rfl
@[simp] theorem State.writeIgnored_upkeep (s : State) (addr : Addr) : (s.writeIgnored addr).upkeep = s.upkeep := (congrArg State.upkeep (s.writeIgnored_frame addr)).trans rfl
@[simp] theorem State.writeIgnored_wardens (s : State) (addr : Addr) : (s.writeIgnored addr).wardens = s.wardens := (congrArg State.wardens (s.writeIgnored_frame addr)).trans rfl
@[simp] theorem State.writeIgnored_engines (s : State) (addr : Addr) : (s.writeIgnored addr).engines = s.engines := (congrArg State.engines (s.writeIgnored_frame addr)).trans rfl
@[simp] theorem State.writeIgnored_ctxs (s : State) (addr : Addr) : (s.writeIgnored addr).ctxs = s.ctxs := (congrArg State.ctxs (s.writeIgnored_frame addr)).trans rfl
@[simp] theorem State.writeIgnored_proposals (s : State) (addr : Addr) : (s.writeIgnored addr).proposals = s.proposals := (congrArg State.proposals (s.writeIgnored_frame addr)).trans rfl
@[simp] theorem State.writeIgnored_window (s : State) (addr : Addr) : (s.writeIgnored addr).window = s.window := (congrArg State.window (s.writeIgnored_frame addr)).trans rfl
@[simp] theorem State.writeIgnored_cal (s : State) (addr : Addr) : (s.writeIgnored addr).cal = s.cal := (congrArg State.cal (s.writeIgnored_frame addr)).trans rfl
@[simp] theorem State.writeIgnored_selftestPs (s : State) (addr : Addr) : (s.writeIgnored addr).selftestPs = s.selftestPs := (congrArg State.selftestPs (s.writeIgnored_frame addr)).trans rfl
@[simp] theorem State.writeIgnored_outfall (s : State) (addr : Addr) : (s.writeIgnored addr).outfall = s.outfall := (congrArg State.outfall (s.writeIgnored_frame addr)).trans rfl
@[simp] theorem State.writeIgnored_replay (s : State) (addr : Addr) : (s.writeIgnored addr).replay = s.replay := (congrArg State.replay (s.writeIgnored_frame addr)).trans rfl
@[simp] theorem State.writeIgnored_replayJournalPs (s : State) (addr : Addr) : (s.writeIgnored addr).replayJournalPs = s.replayJournalPs := (congrArg State.replayJournalPs (s.writeIgnored_frame addr)).trans rfl
@[simp] theorem State.writeIgnored_held (s : State) (addr : Addr) : (s.writeIgnored addr).held = s.held := (congrArg State.held (s.writeIgnored_frame addr)).trans rfl
@[simp] theorem State.writeIgnored_queue (s : State) (addr : Addr) : (s.writeIgnored addr).queue = s.queue := (congrArg State.queue (s.writeIgnored_frame addr)).trans rfl
@[simp] theorem State.writeIgnored_kept (s : State) (addr : Addr) : (s.writeIgnored addr).kept = s.kept := (congrArg State.kept (s.writeIgnored_frame addr)).trans rfl
@[simp] theorem State.writeIgnored_devReleased (s : State) (addr : Addr) : (s.writeIgnored addr).devReleased = s.devReleased := (congrArg State.devReleased (s.writeIgnored_frame addr)).trans rfl
@[simp] theorem State.writeIgnored_host (s : State) (addr : Addr) : (s.writeIgnored addr).host = s.host := (congrArg State.host (s.writeIgnored_frame addr)).trans rfl
@[simp] theorem State.writeIgnored_tw (s : State) (addr : Addr) : (s.writeIgnored addr).tw = s.tw := (congrArg State.tw (s.writeIgnored_frame addr)).trans rfl
@[simp] theorem State.writeIgnored_still (s : State) (addr : Addr) : (s.writeIgnored addr).still = s.still := (congrArg State.still (s.writeIgnored_frame addr)).trans rfl
@[simp] theorem State.writeIgnored_tmr (s : State) (addr : Addr) : (s.writeIgnored addr).tmr = s.tmr := (congrArg State.tmr (s.writeIgnored_frame addr)).trans rfl
@[simp] theorem State.writeIgnored_ecc (s : State) (addr : Addr) : (s.writeIgnored addr).ecc = s.ecc := (congrArg State.ecc (s.writeIgnored_frame addr)).trans rfl
@[simp] theorem State.writeIgnored_pins (s : State) (addr : Addr) : (s.writeIgnored addr).pins = s.pins := (congrArg State.pins (s.writeIgnored_frame addr)).trans rfl
@[simp] theorem State.writeIgnored_scratch (s : State) (addr : Addr) : (s.writeIgnored addr).scratch = s.scratch := (congrArg State.scratch (s.writeIgnored_frame addr)).trans rfl
@[simp] theorem State.writeIgnored_readData (s : State) (addr : Addr) : (s.writeIgnored addr).readData = s.readData := (congrArg State.readData (s.writeIgnored_frame addr)).trans rfl
@[simp] theorem State.writeIgnored_draws (s : State) (addr : Addr) : (s.writeIgnored addr).draws = s.draws := (congrArg State.draws (s.writeIgnored_frame addr)).trans rfl

/-- `keep` changes nothing but kept, host, mailbox, journal. -/
theorem State.keep_frame (s : State) (k : Kept) :
    (s.keep k) = { s with kept := (s.keep k).kept, host := (s.keep k).host, mailbox := (s.keep k).mailbox, journal := (s.keep k).journal } := by
  unfold State.keep
  dsimp only
  split
  · rw [State.post_frame]
  · rfl

@[simp] theorem State.keep_clock (s : State) (k : Kept) : (s.keep k).clock = s.clock := (congrArg State.clock (s.keep_frame k)).trans rfl
@[simp] theorem State.keep_pending (s : State) (k : Kept) : (s.keep k).pending = s.pending := (congrArg State.pending (s.keep_frame k)).trans rfl
@[simp] theorem State.keep_part (s : State) (k : Kept) : (s.keep k).part = s.part := (congrArg State.part (s.keep_frame k)).trans rfl
@[simp] theorem State.keep_phase (s : State) (k : Kept) : (s.keep k).phase = s.phase := (congrArg State.phase (s.keep_frame k)).trans rfl
@[simp] theorem State.keep_releasedPs (s : State) (k : Kept) : (s.keep k).releasedPs = s.releasedPs := (congrArg State.releasedPs (s.keep_frame k)).trans rfl
@[simp] theorem State.keep_cause (s : State) (k : Kept) : (s.keep k).cause = s.cause := (congrArg State.cause (s.keep_frame k)).trans rfl
@[simp] theorem State.keep_mgmtOnly (s : State) (k : Kept) : (s.keep k).mgmtOnly = s.mgmtOnly := (congrArg State.mgmtOnly (s.keep_frame k)).trans rfl
@[simp] theorem State.keep_doze (s : State) (k : Kept) : (s.keep k).doze = s.doze := (congrArg State.doze (s.keep_frame k)).trans rfl
@[simp] theorem State.keep_refs (s : State) (k : Kept) : (s.keep k).refs = s.refs := (congrArg State.refs (s.keep_frame k)).trans rfl
@[simp] theorem State.keep_sync (s : State) (k : Kept) : (s.keep k).sync = s.sync := (congrArg State.sync (s.keep_frame k)).trans rfl
@[simp] theorem State.keep_rtc (s : State) (k : Kept) : (s.keep k).rtc = s.rtc := (congrArg State.rtc (s.keep_frame k)).trans rfl
@[simp] theorem State.keep_image (s : State) (k : Kept) : (s.keep k).image = s.image := (congrArg State.image (s.keep_frame k)).trans rfl
@[simp] theorem State.keep_keys (s : State) (k : Kept) : (s.keep k).keys = s.keys := (congrArg State.keys (s.keep_frame k)).trans rfl
@[simp] theorem State.keep_flash (s : State) (k : Kept) : (s.keep k).flash = s.flash := (congrArg State.flash (s.keep_frame k)).trans rfl
@[simp] theorem State.keep_reaches (s : State) (k : Kept) : (s.keep k).reaches = s.reaches := (congrArg State.reaches (s.keep_frame k)).trans rfl
@[simp] theorem State.keep_fallow (s : State) (k : Kept) : (s.keep k).fallow = s.fallow := (congrArg State.fallow (s.keep_frame k)).trans rfl
@[simp] theorem State.keep_upkeep (s : State) (k : Kept) : (s.keep k).upkeep = s.upkeep := (congrArg State.upkeep (s.keep_frame k)).trans rfl
@[simp] theorem State.keep_wardens (s : State) (k : Kept) : (s.keep k).wardens = s.wardens := (congrArg State.wardens (s.keep_frame k)).trans rfl
@[simp] theorem State.keep_engines (s : State) (k : Kept) : (s.keep k).engines = s.engines := (congrArg State.engines (s.keep_frame k)).trans rfl
@[simp] theorem State.keep_ctxs (s : State) (k : Kept) : (s.keep k).ctxs = s.ctxs := (congrArg State.ctxs (s.keep_frame k)).trans rfl
@[simp] theorem State.keep_proposals (s : State) (k : Kept) : (s.keep k).proposals = s.proposals := (congrArg State.proposals (s.keep_frame k)).trans rfl
@[simp] theorem State.keep_window (s : State) (k : Kept) : (s.keep k).window = s.window := (congrArg State.window (s.keep_frame k)).trans rfl
@[simp] theorem State.keep_cal (s : State) (k : Kept) : (s.keep k).cal = s.cal := (congrArg State.cal (s.keep_frame k)).trans rfl
@[simp] theorem State.keep_selftestPs (s : State) (k : Kept) : (s.keep k).selftestPs = s.selftestPs := (congrArg State.selftestPs (s.keep_frame k)).trans rfl
@[simp] theorem State.keep_outfall (s : State) (k : Kept) : (s.keep k).outfall = s.outfall := (congrArg State.outfall (s.keep_frame k)).trans rfl
@[simp] theorem State.keep_replay (s : State) (k : Kept) : (s.keep k).replay = s.replay := (congrArg State.replay (s.keep_frame k)).trans rfl
@[simp] theorem State.keep_replayJournalPs (s : State) (k : Kept) : (s.keep k).replayJournalPs = s.replayJournalPs := (congrArg State.replayJournalPs (s.keep_frame k)).trans rfl
@[simp] theorem State.keep_held (s : State) (k : Kept) : (s.keep k).held = s.held := (congrArg State.held (s.keep_frame k)).trans rfl
@[simp] theorem State.keep_queue (s : State) (k : Kept) : (s.keep k).queue = s.queue := (congrArg State.queue (s.keep_frame k)).trans rfl
@[simp] theorem State.keep_devReleased (s : State) (k : Kept) : (s.keep k).devReleased = s.devReleased := (congrArg State.devReleased (s.keep_frame k)).trans rfl
@[simp] theorem State.keep_tw (s : State) (k : Kept) : (s.keep k).tw = s.tw := (congrArg State.tw (s.keep_frame k)).trans rfl
@[simp] theorem State.keep_still (s : State) (k : Kept) : (s.keep k).still = s.still := (congrArg State.still (s.keep_frame k)).trans rfl
@[simp] theorem State.keep_tmr (s : State) (k : Kept) : (s.keep k).tmr = s.tmr := (congrArg State.tmr (s.keep_frame k)).trans rfl
@[simp] theorem State.keep_ecc (s : State) (k : Kept) : (s.keep k).ecc = s.ecc := (congrArg State.ecc (s.keep_frame k)).trans rfl
@[simp] theorem State.keep_pins (s : State) (k : Kept) : (s.keep k).pins = s.pins := (congrArg State.pins (s.keep_frame k)).trans rfl
@[simp] theorem State.keep_scratch (s : State) (k : Kept) : (s.keep k).scratch = s.scratch := (congrArg State.scratch (s.keep_frame k)).trans rfl
@[simp] theorem State.keep_readData (s : State) (k : Kept) : (s.keep k).readData = s.readData := (congrArg State.readData (s.keep_frame k)).trans rfl
@[simp] theorem State.keep_draws (s : State) (k : Kept) : (s.keep k).draws = s.draws := (congrArg State.draws (s.keep_frame k)).trans rfl

/-- `bumpReleased` changes nothing but ctxs, devReleased. -/
theorem State.bumpReleased_frame (s : State) (ctx : Nat) :
    (s.bumpReleased ctx) = { s with ctxs := (s.bumpReleased ctx).ctxs, devReleased := (s.bumpReleased ctx).devReleased } := by
  unfold State.bumpReleased
  split <;> rfl

@[simp] theorem State.bumpReleased_clock (s : State) (ctx : Nat) : (s.bumpReleased ctx).clock = s.clock := (congrArg State.clock (s.bumpReleased_frame ctx)).trans rfl
@[simp] theorem State.bumpReleased_pending (s : State) (ctx : Nat) : (s.bumpReleased ctx).pending = s.pending := (congrArg State.pending (s.bumpReleased_frame ctx)).trans rfl
@[simp] theorem State.bumpReleased_part (s : State) (ctx : Nat) : (s.bumpReleased ctx).part = s.part := (congrArg State.part (s.bumpReleased_frame ctx)).trans rfl
@[simp] theorem State.bumpReleased_phase (s : State) (ctx : Nat) : (s.bumpReleased ctx).phase = s.phase := (congrArg State.phase (s.bumpReleased_frame ctx)).trans rfl
@[simp] theorem State.bumpReleased_releasedPs (s : State) (ctx : Nat) : (s.bumpReleased ctx).releasedPs = s.releasedPs := (congrArg State.releasedPs (s.bumpReleased_frame ctx)).trans rfl
@[simp] theorem State.bumpReleased_cause (s : State) (ctx : Nat) : (s.bumpReleased ctx).cause = s.cause := (congrArg State.cause (s.bumpReleased_frame ctx)).trans rfl
@[simp] theorem State.bumpReleased_mgmtOnly (s : State) (ctx : Nat) : (s.bumpReleased ctx).mgmtOnly = s.mgmtOnly := (congrArg State.mgmtOnly (s.bumpReleased_frame ctx)).trans rfl
@[simp] theorem State.bumpReleased_doze (s : State) (ctx : Nat) : (s.bumpReleased ctx).doze = s.doze := (congrArg State.doze (s.bumpReleased_frame ctx)).trans rfl
@[simp] theorem State.bumpReleased_refs (s : State) (ctx : Nat) : (s.bumpReleased ctx).refs = s.refs := (congrArg State.refs (s.bumpReleased_frame ctx)).trans rfl
@[simp] theorem State.bumpReleased_sync (s : State) (ctx : Nat) : (s.bumpReleased ctx).sync = s.sync := (congrArg State.sync (s.bumpReleased_frame ctx)).trans rfl
@[simp] theorem State.bumpReleased_rtc (s : State) (ctx : Nat) : (s.bumpReleased ctx).rtc = s.rtc := (congrArg State.rtc (s.bumpReleased_frame ctx)).trans rfl
@[simp] theorem State.bumpReleased_image (s : State) (ctx : Nat) : (s.bumpReleased ctx).image = s.image := (congrArg State.image (s.bumpReleased_frame ctx)).trans rfl
@[simp] theorem State.bumpReleased_keys (s : State) (ctx : Nat) : (s.bumpReleased ctx).keys = s.keys := (congrArg State.keys (s.bumpReleased_frame ctx)).trans rfl
@[simp] theorem State.bumpReleased_flash (s : State) (ctx : Nat) : (s.bumpReleased ctx).flash = s.flash := (congrArg State.flash (s.bumpReleased_frame ctx)).trans rfl
@[simp] theorem State.bumpReleased_journal (s : State) (ctx : Nat) : (s.bumpReleased ctx).journal = s.journal := (congrArg State.journal (s.bumpReleased_frame ctx)).trans rfl
@[simp] theorem State.bumpReleased_mailbox (s : State) (ctx : Nat) : (s.bumpReleased ctx).mailbox = s.mailbox := (congrArg State.mailbox (s.bumpReleased_frame ctx)).trans rfl
@[simp] theorem State.bumpReleased_reaches (s : State) (ctx : Nat) : (s.bumpReleased ctx).reaches = s.reaches := (congrArg State.reaches (s.bumpReleased_frame ctx)).trans rfl
@[simp] theorem State.bumpReleased_fallow (s : State) (ctx : Nat) : (s.bumpReleased ctx).fallow = s.fallow := (congrArg State.fallow (s.bumpReleased_frame ctx)).trans rfl
@[simp] theorem State.bumpReleased_upkeep (s : State) (ctx : Nat) : (s.bumpReleased ctx).upkeep = s.upkeep := (congrArg State.upkeep (s.bumpReleased_frame ctx)).trans rfl
@[simp] theorem State.bumpReleased_wardens (s : State) (ctx : Nat) : (s.bumpReleased ctx).wardens = s.wardens := (congrArg State.wardens (s.bumpReleased_frame ctx)).trans rfl
@[simp] theorem State.bumpReleased_engines (s : State) (ctx : Nat) : (s.bumpReleased ctx).engines = s.engines := (congrArg State.engines (s.bumpReleased_frame ctx)).trans rfl
@[simp] theorem State.bumpReleased_proposals (s : State) (ctx : Nat) : (s.bumpReleased ctx).proposals = s.proposals := (congrArg State.proposals (s.bumpReleased_frame ctx)).trans rfl
@[simp] theorem State.bumpReleased_window (s : State) (ctx : Nat) : (s.bumpReleased ctx).window = s.window := (congrArg State.window (s.bumpReleased_frame ctx)).trans rfl
@[simp] theorem State.bumpReleased_cal (s : State) (ctx : Nat) : (s.bumpReleased ctx).cal = s.cal := (congrArg State.cal (s.bumpReleased_frame ctx)).trans rfl
@[simp] theorem State.bumpReleased_selftestPs (s : State) (ctx : Nat) : (s.bumpReleased ctx).selftestPs = s.selftestPs := (congrArg State.selftestPs (s.bumpReleased_frame ctx)).trans rfl
@[simp] theorem State.bumpReleased_outfall (s : State) (ctx : Nat) : (s.bumpReleased ctx).outfall = s.outfall := (congrArg State.outfall (s.bumpReleased_frame ctx)).trans rfl
@[simp] theorem State.bumpReleased_replay (s : State) (ctx : Nat) : (s.bumpReleased ctx).replay = s.replay := (congrArg State.replay (s.bumpReleased_frame ctx)).trans rfl
@[simp] theorem State.bumpReleased_replayJournalPs (s : State) (ctx : Nat) : (s.bumpReleased ctx).replayJournalPs = s.replayJournalPs := (congrArg State.replayJournalPs (s.bumpReleased_frame ctx)).trans rfl
@[simp] theorem State.bumpReleased_held (s : State) (ctx : Nat) : (s.bumpReleased ctx).held = s.held := (congrArg State.held (s.bumpReleased_frame ctx)).trans rfl
@[simp] theorem State.bumpReleased_queue (s : State) (ctx : Nat) : (s.bumpReleased ctx).queue = s.queue := (congrArg State.queue (s.bumpReleased_frame ctx)).trans rfl
@[simp] theorem State.bumpReleased_kept (s : State) (ctx : Nat) : (s.bumpReleased ctx).kept = s.kept := (congrArg State.kept (s.bumpReleased_frame ctx)).trans rfl
@[simp] theorem State.bumpReleased_host (s : State) (ctx : Nat) : (s.bumpReleased ctx).host = s.host := (congrArg State.host (s.bumpReleased_frame ctx)).trans rfl
@[simp] theorem State.bumpReleased_tw (s : State) (ctx : Nat) : (s.bumpReleased ctx).tw = s.tw := (congrArg State.tw (s.bumpReleased_frame ctx)).trans rfl
@[simp] theorem State.bumpReleased_still (s : State) (ctx : Nat) : (s.bumpReleased ctx).still = s.still := (congrArg State.still (s.bumpReleased_frame ctx)).trans rfl
@[simp] theorem State.bumpReleased_tmr (s : State) (ctx : Nat) : (s.bumpReleased ctx).tmr = s.tmr := (congrArg State.tmr (s.bumpReleased_frame ctx)).trans rfl
@[simp] theorem State.bumpReleased_ecc (s : State) (ctx : Nat) : (s.bumpReleased ctx).ecc = s.ecc := (congrArg State.ecc (s.bumpReleased_frame ctx)).trans rfl
@[simp] theorem State.bumpReleased_pins (s : State) (ctx : Nat) : (s.bumpReleased ctx).pins = s.pins := (congrArg State.pins (s.bumpReleased_frame ctx)).trans rfl
@[simp] theorem State.bumpReleased_scratch (s : State) (ctx : Nat) : (s.bumpReleased ctx).scratch = s.scratch := (congrArg State.scratch (s.bumpReleased_frame ctx)).trans rfl
@[simp] theorem State.bumpReleased_readData (s : State) (ctx : Nat) : (s.bumpReleased ctx).readData = s.readData := (congrArg State.readData (s.bumpReleased_frame ctx)).trans rfl
@[simp] theorem State.bumpReleased_draws (s : State) (ctx : Nat) : (s.bumpReleased ctx).draws = s.draws := (congrArg State.draws (s.bumpReleased_frame ctx)).trans rfl

/-- `enqueue` changes nothing but queue, kept, host, mailbox, journal. -/
theorem State.enqueue_frame (s : State) (r : Record) :
    (s.enqueue r) = { s with queue := (s.enqueue r).queue, kept := (s.enqueue r).kept, host := (s.enqueue r).host, mailbox := (s.enqueue r).mailbox, journal := (s.enqueue r).journal } := by
  have hk : ∀ (l : List Record) (t : State), l.foldl (fun t x => t.keep ⟨x, false⟩) t =
      { t with kept := (l.foldl (fun t x => t.keep ⟨x, false⟩) t).kept, host := (l.foldl (fun t x => t.keep ⟨x, false⟩) t).host
               mailbox := (l.foldl (fun t x => t.keep ⟨x, false⟩) t).mailbox, journal := (l.foldl (fun t x => t.keep ⟨x, false⟩) t).journal } := by
    intro l
    induction l with
    | nil => intro t; rfl
    | cons x l ih =>
      intro t
      simp only [List.foldl_cons]
      exact (ih _).trans (by rw [State.keep_frame t ⟨x, false⟩])
  unfold State.enqueue
  dsimp only
  split
  · rw [hk]
  · split
    · rw [State.post_frame, hk]
    · rw [hk]

@[simp] theorem State.enqueue_clock (s : State) (r : Record) : (s.enqueue r).clock = s.clock := (congrArg State.clock (s.enqueue_frame r)).trans rfl
@[simp] theorem State.enqueue_pending (s : State) (r : Record) : (s.enqueue r).pending = s.pending := (congrArg State.pending (s.enqueue_frame r)).trans rfl
@[simp] theorem State.enqueue_part (s : State) (r : Record) : (s.enqueue r).part = s.part := (congrArg State.part (s.enqueue_frame r)).trans rfl
@[simp] theorem State.enqueue_phase (s : State) (r : Record) : (s.enqueue r).phase = s.phase := (congrArg State.phase (s.enqueue_frame r)).trans rfl
@[simp] theorem State.enqueue_releasedPs (s : State) (r : Record) : (s.enqueue r).releasedPs = s.releasedPs := (congrArg State.releasedPs (s.enqueue_frame r)).trans rfl
@[simp] theorem State.enqueue_cause (s : State) (r : Record) : (s.enqueue r).cause = s.cause := (congrArg State.cause (s.enqueue_frame r)).trans rfl
@[simp] theorem State.enqueue_mgmtOnly (s : State) (r : Record) : (s.enqueue r).mgmtOnly = s.mgmtOnly := (congrArg State.mgmtOnly (s.enqueue_frame r)).trans rfl
@[simp] theorem State.enqueue_doze (s : State) (r : Record) : (s.enqueue r).doze = s.doze := (congrArg State.doze (s.enqueue_frame r)).trans rfl
@[simp] theorem State.enqueue_refs (s : State) (r : Record) : (s.enqueue r).refs = s.refs := (congrArg State.refs (s.enqueue_frame r)).trans rfl
@[simp] theorem State.enqueue_sync (s : State) (r : Record) : (s.enqueue r).sync = s.sync := (congrArg State.sync (s.enqueue_frame r)).trans rfl
@[simp] theorem State.enqueue_rtc (s : State) (r : Record) : (s.enqueue r).rtc = s.rtc := (congrArg State.rtc (s.enqueue_frame r)).trans rfl
@[simp] theorem State.enqueue_image (s : State) (r : Record) : (s.enqueue r).image = s.image := (congrArg State.image (s.enqueue_frame r)).trans rfl
@[simp] theorem State.enqueue_keys (s : State) (r : Record) : (s.enqueue r).keys = s.keys := (congrArg State.keys (s.enqueue_frame r)).trans rfl
@[simp] theorem State.enqueue_flash (s : State) (r : Record) : (s.enqueue r).flash = s.flash := (congrArg State.flash (s.enqueue_frame r)).trans rfl
@[simp] theorem State.enqueue_reaches (s : State) (r : Record) : (s.enqueue r).reaches = s.reaches := (congrArg State.reaches (s.enqueue_frame r)).trans rfl
@[simp] theorem State.enqueue_fallow (s : State) (r : Record) : (s.enqueue r).fallow = s.fallow := (congrArg State.fallow (s.enqueue_frame r)).trans rfl
@[simp] theorem State.enqueue_upkeep (s : State) (r : Record) : (s.enqueue r).upkeep = s.upkeep := (congrArg State.upkeep (s.enqueue_frame r)).trans rfl
@[simp] theorem State.enqueue_wardens (s : State) (r : Record) : (s.enqueue r).wardens = s.wardens := (congrArg State.wardens (s.enqueue_frame r)).trans rfl
@[simp] theorem State.enqueue_engines (s : State) (r : Record) : (s.enqueue r).engines = s.engines := (congrArg State.engines (s.enqueue_frame r)).trans rfl
@[simp] theorem State.enqueue_ctxs (s : State) (r : Record) : (s.enqueue r).ctxs = s.ctxs := (congrArg State.ctxs (s.enqueue_frame r)).trans rfl
@[simp] theorem State.enqueue_proposals (s : State) (r : Record) : (s.enqueue r).proposals = s.proposals := (congrArg State.proposals (s.enqueue_frame r)).trans rfl
@[simp] theorem State.enqueue_window (s : State) (r : Record) : (s.enqueue r).window = s.window := (congrArg State.window (s.enqueue_frame r)).trans rfl
@[simp] theorem State.enqueue_cal (s : State) (r : Record) : (s.enqueue r).cal = s.cal := (congrArg State.cal (s.enqueue_frame r)).trans rfl
@[simp] theorem State.enqueue_selftestPs (s : State) (r : Record) : (s.enqueue r).selftestPs = s.selftestPs := (congrArg State.selftestPs (s.enqueue_frame r)).trans rfl
@[simp] theorem State.enqueue_outfall (s : State) (r : Record) : (s.enqueue r).outfall = s.outfall := (congrArg State.outfall (s.enqueue_frame r)).trans rfl
@[simp] theorem State.enqueue_replay (s : State) (r : Record) : (s.enqueue r).replay = s.replay := (congrArg State.replay (s.enqueue_frame r)).trans rfl
@[simp] theorem State.enqueue_replayJournalPs (s : State) (r : Record) : (s.enqueue r).replayJournalPs = s.replayJournalPs := (congrArg State.replayJournalPs (s.enqueue_frame r)).trans rfl
@[simp] theorem State.enqueue_held (s : State) (r : Record) : (s.enqueue r).held = s.held := (congrArg State.held (s.enqueue_frame r)).trans rfl
@[simp] theorem State.enqueue_devReleased (s : State) (r : Record) : (s.enqueue r).devReleased = s.devReleased := (congrArg State.devReleased (s.enqueue_frame r)).trans rfl
@[simp] theorem State.enqueue_tw (s : State) (r : Record) : (s.enqueue r).tw = s.tw := (congrArg State.tw (s.enqueue_frame r)).trans rfl
@[simp] theorem State.enqueue_still (s : State) (r : Record) : (s.enqueue r).still = s.still := (congrArg State.still (s.enqueue_frame r)).trans rfl
@[simp] theorem State.enqueue_tmr (s : State) (r : Record) : (s.enqueue r).tmr = s.tmr := (congrArg State.tmr (s.enqueue_frame r)).trans rfl
@[simp] theorem State.enqueue_ecc (s : State) (r : Record) : (s.enqueue r).ecc = s.ecc := (congrArg State.ecc (s.enqueue_frame r)).trans rfl
@[simp] theorem State.enqueue_pins (s : State) (r : Record) : (s.enqueue r).pins = s.pins := (congrArg State.pins (s.enqueue_frame r)).trans rfl
@[simp] theorem State.enqueue_scratch (s : State) (r : Record) : (s.enqueue r).scratch = s.scratch := (congrArg State.scratch (s.enqueue_frame r)).trans rfl
@[simp] theorem State.enqueue_readData (s : State) (r : Record) : (s.enqueue r).readData = s.readData := (congrArg State.readData (s.enqueue_frame r)).trans rfl
@[simp] theorem State.enqueue_draws (s : State) (r : Record) : (s.enqueue r).draws = s.draws := (congrArg State.draws (s.enqueue_frame r)).trans rfl

/-- `release` changes nothing but ctxs, devReleased, queue, kept, host, mailbox, journal. -/
theorem State.release_frame (s : State) (r : Record) :
    (s.release r) = { s with ctxs := (s.release r).ctxs, devReleased := (s.release r).devReleased, queue := (s.release r).queue, kept := (s.release r).kept, host := (s.release r).host, mailbox := (s.release r).mailbox, journal := (s.release r).journal } := by
  unfold State.release
  rw [State.enqueue_frame, State.bumpReleased_frame]

@[simp] theorem State.release_clock (s : State) (r : Record) : (s.release r).clock = s.clock := (congrArg State.clock (s.release_frame r)).trans rfl
@[simp] theorem State.release_pending (s : State) (r : Record) : (s.release r).pending = s.pending := (congrArg State.pending (s.release_frame r)).trans rfl
@[simp] theorem State.release_part (s : State) (r : Record) : (s.release r).part = s.part := (congrArg State.part (s.release_frame r)).trans rfl
@[simp] theorem State.release_phase (s : State) (r : Record) : (s.release r).phase = s.phase := (congrArg State.phase (s.release_frame r)).trans rfl
@[simp] theorem State.release_releasedPs (s : State) (r : Record) : (s.release r).releasedPs = s.releasedPs := (congrArg State.releasedPs (s.release_frame r)).trans rfl
@[simp] theorem State.release_cause (s : State) (r : Record) : (s.release r).cause = s.cause := (congrArg State.cause (s.release_frame r)).trans rfl
@[simp] theorem State.release_mgmtOnly (s : State) (r : Record) : (s.release r).mgmtOnly = s.mgmtOnly := (congrArg State.mgmtOnly (s.release_frame r)).trans rfl
@[simp] theorem State.release_doze (s : State) (r : Record) : (s.release r).doze = s.doze := (congrArg State.doze (s.release_frame r)).trans rfl
@[simp] theorem State.release_refs (s : State) (r : Record) : (s.release r).refs = s.refs := (congrArg State.refs (s.release_frame r)).trans rfl
@[simp] theorem State.release_sync (s : State) (r : Record) : (s.release r).sync = s.sync := (congrArg State.sync (s.release_frame r)).trans rfl
@[simp] theorem State.release_rtc (s : State) (r : Record) : (s.release r).rtc = s.rtc := (congrArg State.rtc (s.release_frame r)).trans rfl
@[simp] theorem State.release_image (s : State) (r : Record) : (s.release r).image = s.image := (congrArg State.image (s.release_frame r)).trans rfl
@[simp] theorem State.release_keys (s : State) (r : Record) : (s.release r).keys = s.keys := (congrArg State.keys (s.release_frame r)).trans rfl
@[simp] theorem State.release_flash (s : State) (r : Record) : (s.release r).flash = s.flash := (congrArg State.flash (s.release_frame r)).trans rfl
@[simp] theorem State.release_reaches (s : State) (r : Record) : (s.release r).reaches = s.reaches := (congrArg State.reaches (s.release_frame r)).trans rfl
@[simp] theorem State.release_fallow (s : State) (r : Record) : (s.release r).fallow = s.fallow := (congrArg State.fallow (s.release_frame r)).trans rfl
@[simp] theorem State.release_upkeep (s : State) (r : Record) : (s.release r).upkeep = s.upkeep := (congrArg State.upkeep (s.release_frame r)).trans rfl
@[simp] theorem State.release_wardens (s : State) (r : Record) : (s.release r).wardens = s.wardens := (congrArg State.wardens (s.release_frame r)).trans rfl
@[simp] theorem State.release_engines (s : State) (r : Record) : (s.release r).engines = s.engines := (congrArg State.engines (s.release_frame r)).trans rfl
@[simp] theorem State.release_proposals (s : State) (r : Record) : (s.release r).proposals = s.proposals := (congrArg State.proposals (s.release_frame r)).trans rfl
@[simp] theorem State.release_window (s : State) (r : Record) : (s.release r).window = s.window := (congrArg State.window (s.release_frame r)).trans rfl
@[simp] theorem State.release_cal (s : State) (r : Record) : (s.release r).cal = s.cal := (congrArg State.cal (s.release_frame r)).trans rfl
@[simp] theorem State.release_selftestPs (s : State) (r : Record) : (s.release r).selftestPs = s.selftestPs := (congrArg State.selftestPs (s.release_frame r)).trans rfl
@[simp] theorem State.release_outfall (s : State) (r : Record) : (s.release r).outfall = s.outfall := (congrArg State.outfall (s.release_frame r)).trans rfl
@[simp] theorem State.release_replay (s : State) (r : Record) : (s.release r).replay = s.replay := (congrArg State.replay (s.release_frame r)).trans rfl
@[simp] theorem State.release_replayJournalPs (s : State) (r : Record) : (s.release r).replayJournalPs = s.replayJournalPs := (congrArg State.replayJournalPs (s.release_frame r)).trans rfl
@[simp] theorem State.release_held (s : State) (r : Record) : (s.release r).held = s.held := (congrArg State.held (s.release_frame r)).trans rfl
@[simp] theorem State.release_tw (s : State) (r : Record) : (s.release r).tw = s.tw := (congrArg State.tw (s.release_frame r)).trans rfl
@[simp] theorem State.release_still (s : State) (r : Record) : (s.release r).still = s.still := (congrArg State.still (s.release_frame r)).trans rfl
@[simp] theorem State.release_tmr (s : State) (r : Record) : (s.release r).tmr = s.tmr := (congrArg State.tmr (s.release_frame r)).trans rfl
@[simp] theorem State.release_ecc (s : State) (r : Record) : (s.release r).ecc = s.ecc := (congrArg State.ecc (s.release_frame r)).trans rfl
@[simp] theorem State.release_pins (s : State) (r : Record) : (s.release r).pins = s.pins := (congrArg State.pins (s.release_frame r)).trans rfl
@[simp] theorem State.release_scratch (s : State) (r : Record) : (s.release r).scratch = s.scratch := (congrArg State.scratch (s.release_frame r)).trans rfl
@[simp] theorem State.release_readData (s : State) (r : Record) : (s.release r).readData = s.readData := (congrArg State.readData (s.release_frame r)).trans rfl
@[simp] theorem State.release_draws (s : State) (r : Record) : (s.release r).draws = s.draws := (congrArg State.draws (s.release_frame r)).trans rfl

/-- `emit` changes nothing but ctxs, devReleased, queue, kept, host, mailbox, journal. -/
theorem State.emit_frame (s : State) (typ ctx : Nat) (reach : Option (Fin 4)) (stamp : Nat) (payload : List Byte) :
    (s.emit typ ctx reach stamp payload) = { s with ctxs := (s.emit typ ctx reach stamp payload).ctxs, devReleased := (s.emit typ ctx reach stamp payload).devReleased, queue := (s.emit typ ctx reach stamp payload).queue, kept := (s.emit typ ctx reach stamp payload).kept, host := (s.emit typ ctx reach stamp payload).host, mailbox := (s.emit typ ctx reach stamp payload).mailbox, journal := (s.emit typ ctx reach stamp payload).journal } := by
  exact State.release_frame ..

@[simp] theorem State.emit_clock (s : State) (typ ctx : Nat) (reach : Option (Fin 4)) (stamp : Nat) (payload : List Byte) : (s.emit typ ctx reach stamp payload).clock = s.clock := (congrArg State.clock (s.emit_frame typ ctx reach stamp payload)).trans rfl
@[simp] theorem State.emit_pending (s : State) (typ ctx : Nat) (reach : Option (Fin 4)) (stamp : Nat) (payload : List Byte) : (s.emit typ ctx reach stamp payload).pending = s.pending := (congrArg State.pending (s.emit_frame typ ctx reach stamp payload)).trans rfl
@[simp] theorem State.emit_part (s : State) (typ ctx : Nat) (reach : Option (Fin 4)) (stamp : Nat) (payload : List Byte) : (s.emit typ ctx reach stamp payload).part = s.part := (congrArg State.part (s.emit_frame typ ctx reach stamp payload)).trans rfl
@[simp] theorem State.emit_phase (s : State) (typ ctx : Nat) (reach : Option (Fin 4)) (stamp : Nat) (payload : List Byte) : (s.emit typ ctx reach stamp payload).phase = s.phase := (congrArg State.phase (s.emit_frame typ ctx reach stamp payload)).trans rfl
@[simp] theorem State.emit_releasedPs (s : State) (typ ctx : Nat) (reach : Option (Fin 4)) (stamp : Nat) (payload : List Byte) : (s.emit typ ctx reach stamp payload).releasedPs = s.releasedPs := (congrArg State.releasedPs (s.emit_frame typ ctx reach stamp payload)).trans rfl
@[simp] theorem State.emit_cause (s : State) (typ ctx : Nat) (reach : Option (Fin 4)) (stamp : Nat) (payload : List Byte) : (s.emit typ ctx reach stamp payload).cause = s.cause := (congrArg State.cause (s.emit_frame typ ctx reach stamp payload)).trans rfl
@[simp] theorem State.emit_mgmtOnly (s : State) (typ ctx : Nat) (reach : Option (Fin 4)) (stamp : Nat) (payload : List Byte) : (s.emit typ ctx reach stamp payload).mgmtOnly = s.mgmtOnly := (congrArg State.mgmtOnly (s.emit_frame typ ctx reach stamp payload)).trans rfl
@[simp] theorem State.emit_doze (s : State) (typ ctx : Nat) (reach : Option (Fin 4)) (stamp : Nat) (payload : List Byte) : (s.emit typ ctx reach stamp payload).doze = s.doze := (congrArg State.doze (s.emit_frame typ ctx reach stamp payload)).trans rfl
@[simp] theorem State.emit_refs (s : State) (typ ctx : Nat) (reach : Option (Fin 4)) (stamp : Nat) (payload : List Byte) : (s.emit typ ctx reach stamp payload).refs = s.refs := (congrArg State.refs (s.emit_frame typ ctx reach stamp payload)).trans rfl
@[simp] theorem State.emit_sync (s : State) (typ ctx : Nat) (reach : Option (Fin 4)) (stamp : Nat) (payload : List Byte) : (s.emit typ ctx reach stamp payload).sync = s.sync := (congrArg State.sync (s.emit_frame typ ctx reach stamp payload)).trans rfl
@[simp] theorem State.emit_rtc (s : State) (typ ctx : Nat) (reach : Option (Fin 4)) (stamp : Nat) (payload : List Byte) : (s.emit typ ctx reach stamp payload).rtc = s.rtc := (congrArg State.rtc (s.emit_frame typ ctx reach stamp payload)).trans rfl
@[simp] theorem State.emit_image (s : State) (typ ctx : Nat) (reach : Option (Fin 4)) (stamp : Nat) (payload : List Byte) : (s.emit typ ctx reach stamp payload).image = s.image := (congrArg State.image (s.emit_frame typ ctx reach stamp payload)).trans rfl
@[simp] theorem State.emit_keys (s : State) (typ ctx : Nat) (reach : Option (Fin 4)) (stamp : Nat) (payload : List Byte) : (s.emit typ ctx reach stamp payload).keys = s.keys := (congrArg State.keys (s.emit_frame typ ctx reach stamp payload)).trans rfl
@[simp] theorem State.emit_flash (s : State) (typ ctx : Nat) (reach : Option (Fin 4)) (stamp : Nat) (payload : List Byte) : (s.emit typ ctx reach stamp payload).flash = s.flash := (congrArg State.flash (s.emit_frame typ ctx reach stamp payload)).trans rfl
@[simp] theorem State.emit_reaches (s : State) (typ ctx : Nat) (reach : Option (Fin 4)) (stamp : Nat) (payload : List Byte) : (s.emit typ ctx reach stamp payload).reaches = s.reaches := (congrArg State.reaches (s.emit_frame typ ctx reach stamp payload)).trans rfl
@[simp] theorem State.emit_fallow (s : State) (typ ctx : Nat) (reach : Option (Fin 4)) (stamp : Nat) (payload : List Byte) : (s.emit typ ctx reach stamp payload).fallow = s.fallow := (congrArg State.fallow (s.emit_frame typ ctx reach stamp payload)).trans rfl
@[simp] theorem State.emit_upkeep (s : State) (typ ctx : Nat) (reach : Option (Fin 4)) (stamp : Nat) (payload : List Byte) : (s.emit typ ctx reach stamp payload).upkeep = s.upkeep := (congrArg State.upkeep (s.emit_frame typ ctx reach stamp payload)).trans rfl
@[simp] theorem State.emit_wardens (s : State) (typ ctx : Nat) (reach : Option (Fin 4)) (stamp : Nat) (payload : List Byte) : (s.emit typ ctx reach stamp payload).wardens = s.wardens := (congrArg State.wardens (s.emit_frame typ ctx reach stamp payload)).trans rfl
@[simp] theorem State.emit_engines (s : State) (typ ctx : Nat) (reach : Option (Fin 4)) (stamp : Nat) (payload : List Byte) : (s.emit typ ctx reach stamp payload).engines = s.engines := (congrArg State.engines (s.emit_frame typ ctx reach stamp payload)).trans rfl
@[simp] theorem State.emit_proposals (s : State) (typ ctx : Nat) (reach : Option (Fin 4)) (stamp : Nat) (payload : List Byte) : (s.emit typ ctx reach stamp payload).proposals = s.proposals := (congrArg State.proposals (s.emit_frame typ ctx reach stamp payload)).trans rfl
@[simp] theorem State.emit_window (s : State) (typ ctx : Nat) (reach : Option (Fin 4)) (stamp : Nat) (payload : List Byte) : (s.emit typ ctx reach stamp payload).window = s.window := (congrArg State.window (s.emit_frame typ ctx reach stamp payload)).trans rfl
@[simp] theorem State.emit_cal (s : State) (typ ctx : Nat) (reach : Option (Fin 4)) (stamp : Nat) (payload : List Byte) : (s.emit typ ctx reach stamp payload).cal = s.cal := (congrArg State.cal (s.emit_frame typ ctx reach stamp payload)).trans rfl
@[simp] theorem State.emit_selftestPs (s : State) (typ ctx : Nat) (reach : Option (Fin 4)) (stamp : Nat) (payload : List Byte) : (s.emit typ ctx reach stamp payload).selftestPs = s.selftestPs := (congrArg State.selftestPs (s.emit_frame typ ctx reach stamp payload)).trans rfl
@[simp] theorem State.emit_outfall (s : State) (typ ctx : Nat) (reach : Option (Fin 4)) (stamp : Nat) (payload : List Byte) : (s.emit typ ctx reach stamp payload).outfall = s.outfall := (congrArg State.outfall (s.emit_frame typ ctx reach stamp payload)).trans rfl
@[simp] theorem State.emit_replay (s : State) (typ ctx : Nat) (reach : Option (Fin 4)) (stamp : Nat) (payload : List Byte) : (s.emit typ ctx reach stamp payload).replay = s.replay := (congrArg State.replay (s.emit_frame typ ctx reach stamp payload)).trans rfl
@[simp] theorem State.emit_replayJournalPs (s : State) (typ ctx : Nat) (reach : Option (Fin 4)) (stamp : Nat) (payload : List Byte) : (s.emit typ ctx reach stamp payload).replayJournalPs = s.replayJournalPs := (congrArg State.replayJournalPs (s.emit_frame typ ctx reach stamp payload)).trans rfl
@[simp] theorem State.emit_held (s : State) (typ ctx : Nat) (reach : Option (Fin 4)) (stamp : Nat) (payload : List Byte) : (s.emit typ ctx reach stamp payload).held = s.held := (congrArg State.held (s.emit_frame typ ctx reach stamp payload)).trans rfl
@[simp] theorem State.emit_tw (s : State) (typ ctx : Nat) (reach : Option (Fin 4)) (stamp : Nat) (payload : List Byte) : (s.emit typ ctx reach stamp payload).tw = s.tw := (congrArg State.tw (s.emit_frame typ ctx reach stamp payload)).trans rfl
@[simp] theorem State.emit_still (s : State) (typ ctx : Nat) (reach : Option (Fin 4)) (stamp : Nat) (payload : List Byte) : (s.emit typ ctx reach stamp payload).still = s.still := (congrArg State.still (s.emit_frame typ ctx reach stamp payload)).trans rfl
@[simp] theorem State.emit_tmr (s : State) (typ ctx : Nat) (reach : Option (Fin 4)) (stamp : Nat) (payload : List Byte) : (s.emit typ ctx reach stamp payload).tmr = s.tmr := (congrArg State.tmr (s.emit_frame typ ctx reach stamp payload)).trans rfl
@[simp] theorem State.emit_ecc (s : State) (typ ctx : Nat) (reach : Option (Fin 4)) (stamp : Nat) (payload : List Byte) : (s.emit typ ctx reach stamp payload).ecc = s.ecc := (congrArg State.ecc (s.emit_frame typ ctx reach stamp payload)).trans rfl
@[simp] theorem State.emit_pins (s : State) (typ ctx : Nat) (reach : Option (Fin 4)) (stamp : Nat) (payload : List Byte) : (s.emit typ ctx reach stamp payload).pins = s.pins := (congrArg State.pins (s.emit_frame typ ctx reach stamp payload)).trans rfl
@[simp] theorem State.emit_scratch (s : State) (typ ctx : Nat) (reach : Option (Fin 4)) (stamp : Nat) (payload : List Byte) : (s.emit typ ctx reach stamp payload).scratch = s.scratch := (congrArg State.scratch (s.emit_frame typ ctx reach stamp payload)).trans rfl
@[simp] theorem State.emit_readData (s : State) (typ ctx : Nat) (reach : Option (Fin 4)) (stamp : Nat) (payload : List Byte) : (s.emit typ ctx reach stamp payload).readData = s.readData := (congrArg State.readData (s.emit_frame typ ctx reach stamp payload)).trans rfl
@[simp] theorem State.emit_draws (s : State) (typ ctx : Nat) (reach : Option (Fin 4)) (stamp : Nat) (payload : List Byte) : (s.emit typ ctx reach stamp payload).draws = s.draws := (congrArg State.draws (s.emit_frame typ ctx reach stamp payload)).trans rfl

/-- `handOver` changes nothing but ctxs, held. -/
theorem State.handOver_frame (s : State) (c : Fin 256) (r : Fin 4) (typ stamp : Nat) (payload : List Byte) (m : Marks) (combined discont : Bool) (to_ : Fin 256) :
    (s.handOver c r typ stamp payload m combined discont to_) = { s with ctxs := (s.handOver c r typ stamp payload m combined discont to_).ctxs, held := (s.handOver c r typ stamp payload m combined discont to_).held } := by
  rfl

@[simp] theorem State.handOver_clock (s : State) (c : Fin 256) (r : Fin 4) (typ stamp : Nat) (payload : List Byte) (m : Marks) (combined discont : Bool) (to_ : Fin 256) : (s.handOver c r typ stamp payload m combined discont to_).clock = s.clock := (congrArg State.clock (s.handOver_frame c r typ stamp payload m combined discont to_)).trans rfl
@[simp] theorem State.handOver_pending (s : State) (c : Fin 256) (r : Fin 4) (typ stamp : Nat) (payload : List Byte) (m : Marks) (combined discont : Bool) (to_ : Fin 256) : (s.handOver c r typ stamp payload m combined discont to_).pending = s.pending := (congrArg State.pending (s.handOver_frame c r typ stamp payload m combined discont to_)).trans rfl
@[simp] theorem State.handOver_part (s : State) (c : Fin 256) (r : Fin 4) (typ stamp : Nat) (payload : List Byte) (m : Marks) (combined discont : Bool) (to_ : Fin 256) : (s.handOver c r typ stamp payload m combined discont to_).part = s.part := (congrArg State.part (s.handOver_frame c r typ stamp payload m combined discont to_)).trans rfl
@[simp] theorem State.handOver_phase (s : State) (c : Fin 256) (r : Fin 4) (typ stamp : Nat) (payload : List Byte) (m : Marks) (combined discont : Bool) (to_ : Fin 256) : (s.handOver c r typ stamp payload m combined discont to_).phase = s.phase := (congrArg State.phase (s.handOver_frame c r typ stamp payload m combined discont to_)).trans rfl
@[simp] theorem State.handOver_releasedPs (s : State) (c : Fin 256) (r : Fin 4) (typ stamp : Nat) (payload : List Byte) (m : Marks) (combined discont : Bool) (to_ : Fin 256) : (s.handOver c r typ stamp payload m combined discont to_).releasedPs = s.releasedPs := (congrArg State.releasedPs (s.handOver_frame c r typ stamp payload m combined discont to_)).trans rfl
@[simp] theorem State.handOver_cause (s : State) (c : Fin 256) (r : Fin 4) (typ stamp : Nat) (payload : List Byte) (m : Marks) (combined discont : Bool) (to_ : Fin 256) : (s.handOver c r typ stamp payload m combined discont to_).cause = s.cause := (congrArg State.cause (s.handOver_frame c r typ stamp payload m combined discont to_)).trans rfl
@[simp] theorem State.handOver_mgmtOnly (s : State) (c : Fin 256) (r : Fin 4) (typ stamp : Nat) (payload : List Byte) (m : Marks) (combined discont : Bool) (to_ : Fin 256) : (s.handOver c r typ stamp payload m combined discont to_).mgmtOnly = s.mgmtOnly := (congrArg State.mgmtOnly (s.handOver_frame c r typ stamp payload m combined discont to_)).trans rfl
@[simp] theorem State.handOver_doze (s : State) (c : Fin 256) (r : Fin 4) (typ stamp : Nat) (payload : List Byte) (m : Marks) (combined discont : Bool) (to_ : Fin 256) : (s.handOver c r typ stamp payload m combined discont to_).doze = s.doze := (congrArg State.doze (s.handOver_frame c r typ stamp payload m combined discont to_)).trans rfl
@[simp] theorem State.handOver_refs (s : State) (c : Fin 256) (r : Fin 4) (typ stamp : Nat) (payload : List Byte) (m : Marks) (combined discont : Bool) (to_ : Fin 256) : (s.handOver c r typ stamp payload m combined discont to_).refs = s.refs := (congrArg State.refs (s.handOver_frame c r typ stamp payload m combined discont to_)).trans rfl
@[simp] theorem State.handOver_sync (s : State) (c : Fin 256) (r : Fin 4) (typ stamp : Nat) (payload : List Byte) (m : Marks) (combined discont : Bool) (to_ : Fin 256) : (s.handOver c r typ stamp payload m combined discont to_).sync = s.sync := (congrArg State.sync (s.handOver_frame c r typ stamp payload m combined discont to_)).trans rfl
@[simp] theorem State.handOver_rtc (s : State) (c : Fin 256) (r : Fin 4) (typ stamp : Nat) (payload : List Byte) (m : Marks) (combined discont : Bool) (to_ : Fin 256) : (s.handOver c r typ stamp payload m combined discont to_).rtc = s.rtc := (congrArg State.rtc (s.handOver_frame c r typ stamp payload m combined discont to_)).trans rfl
@[simp] theorem State.handOver_image (s : State) (c : Fin 256) (r : Fin 4) (typ stamp : Nat) (payload : List Byte) (m : Marks) (combined discont : Bool) (to_ : Fin 256) : (s.handOver c r typ stamp payload m combined discont to_).image = s.image := (congrArg State.image (s.handOver_frame c r typ stamp payload m combined discont to_)).trans rfl
@[simp] theorem State.handOver_keys (s : State) (c : Fin 256) (r : Fin 4) (typ stamp : Nat) (payload : List Byte) (m : Marks) (combined discont : Bool) (to_ : Fin 256) : (s.handOver c r typ stamp payload m combined discont to_).keys = s.keys := (congrArg State.keys (s.handOver_frame c r typ stamp payload m combined discont to_)).trans rfl
@[simp] theorem State.handOver_flash (s : State) (c : Fin 256) (r : Fin 4) (typ stamp : Nat) (payload : List Byte) (m : Marks) (combined discont : Bool) (to_ : Fin 256) : (s.handOver c r typ stamp payload m combined discont to_).flash = s.flash := (congrArg State.flash (s.handOver_frame c r typ stamp payload m combined discont to_)).trans rfl
@[simp] theorem State.handOver_journal (s : State) (c : Fin 256) (r : Fin 4) (typ stamp : Nat) (payload : List Byte) (m : Marks) (combined discont : Bool) (to_ : Fin 256) : (s.handOver c r typ stamp payload m combined discont to_).journal = s.journal := (congrArg State.journal (s.handOver_frame c r typ stamp payload m combined discont to_)).trans rfl
@[simp] theorem State.handOver_mailbox (s : State) (c : Fin 256) (r : Fin 4) (typ stamp : Nat) (payload : List Byte) (m : Marks) (combined discont : Bool) (to_ : Fin 256) : (s.handOver c r typ stamp payload m combined discont to_).mailbox = s.mailbox := (congrArg State.mailbox (s.handOver_frame c r typ stamp payload m combined discont to_)).trans rfl
@[simp] theorem State.handOver_reaches (s : State) (c : Fin 256) (r : Fin 4) (typ stamp : Nat) (payload : List Byte) (m : Marks) (combined discont : Bool) (to_ : Fin 256) : (s.handOver c r typ stamp payload m combined discont to_).reaches = s.reaches := (congrArg State.reaches (s.handOver_frame c r typ stamp payload m combined discont to_)).trans rfl
@[simp] theorem State.handOver_fallow (s : State) (c : Fin 256) (r : Fin 4) (typ stamp : Nat) (payload : List Byte) (m : Marks) (combined discont : Bool) (to_ : Fin 256) : (s.handOver c r typ stamp payload m combined discont to_).fallow = s.fallow := (congrArg State.fallow (s.handOver_frame c r typ stamp payload m combined discont to_)).trans rfl
@[simp] theorem State.handOver_upkeep (s : State) (c : Fin 256) (r : Fin 4) (typ stamp : Nat) (payload : List Byte) (m : Marks) (combined discont : Bool) (to_ : Fin 256) : (s.handOver c r typ stamp payload m combined discont to_).upkeep = s.upkeep := (congrArg State.upkeep (s.handOver_frame c r typ stamp payload m combined discont to_)).trans rfl
@[simp] theorem State.handOver_wardens (s : State) (c : Fin 256) (r : Fin 4) (typ stamp : Nat) (payload : List Byte) (m : Marks) (combined discont : Bool) (to_ : Fin 256) : (s.handOver c r typ stamp payload m combined discont to_).wardens = s.wardens := (congrArg State.wardens (s.handOver_frame c r typ stamp payload m combined discont to_)).trans rfl
@[simp] theorem State.handOver_engines (s : State) (c : Fin 256) (r : Fin 4) (typ stamp : Nat) (payload : List Byte) (m : Marks) (combined discont : Bool) (to_ : Fin 256) : (s.handOver c r typ stamp payload m combined discont to_).engines = s.engines := (congrArg State.engines (s.handOver_frame c r typ stamp payload m combined discont to_)).trans rfl
@[simp] theorem State.handOver_proposals (s : State) (c : Fin 256) (r : Fin 4) (typ stamp : Nat) (payload : List Byte) (m : Marks) (combined discont : Bool) (to_ : Fin 256) : (s.handOver c r typ stamp payload m combined discont to_).proposals = s.proposals := (congrArg State.proposals (s.handOver_frame c r typ stamp payload m combined discont to_)).trans rfl
@[simp] theorem State.handOver_window (s : State) (c : Fin 256) (r : Fin 4) (typ stamp : Nat) (payload : List Byte) (m : Marks) (combined discont : Bool) (to_ : Fin 256) : (s.handOver c r typ stamp payload m combined discont to_).window = s.window := (congrArg State.window (s.handOver_frame c r typ stamp payload m combined discont to_)).trans rfl
@[simp] theorem State.handOver_cal (s : State) (c : Fin 256) (r : Fin 4) (typ stamp : Nat) (payload : List Byte) (m : Marks) (combined discont : Bool) (to_ : Fin 256) : (s.handOver c r typ stamp payload m combined discont to_).cal = s.cal := (congrArg State.cal (s.handOver_frame c r typ stamp payload m combined discont to_)).trans rfl
@[simp] theorem State.handOver_selftestPs (s : State) (c : Fin 256) (r : Fin 4) (typ stamp : Nat) (payload : List Byte) (m : Marks) (combined discont : Bool) (to_ : Fin 256) : (s.handOver c r typ stamp payload m combined discont to_).selftestPs = s.selftestPs := (congrArg State.selftestPs (s.handOver_frame c r typ stamp payload m combined discont to_)).trans rfl
@[simp] theorem State.handOver_outfall (s : State) (c : Fin 256) (r : Fin 4) (typ stamp : Nat) (payload : List Byte) (m : Marks) (combined discont : Bool) (to_ : Fin 256) : (s.handOver c r typ stamp payload m combined discont to_).outfall = s.outfall := (congrArg State.outfall (s.handOver_frame c r typ stamp payload m combined discont to_)).trans rfl
@[simp] theorem State.handOver_replay (s : State) (c : Fin 256) (r : Fin 4) (typ stamp : Nat) (payload : List Byte) (m : Marks) (combined discont : Bool) (to_ : Fin 256) : (s.handOver c r typ stamp payload m combined discont to_).replay = s.replay := (congrArg State.replay (s.handOver_frame c r typ stamp payload m combined discont to_)).trans rfl
@[simp] theorem State.handOver_replayJournalPs (s : State) (c : Fin 256) (r : Fin 4) (typ stamp : Nat) (payload : List Byte) (m : Marks) (combined discont : Bool) (to_ : Fin 256) : (s.handOver c r typ stamp payload m combined discont to_).replayJournalPs = s.replayJournalPs := (congrArg State.replayJournalPs (s.handOver_frame c r typ stamp payload m combined discont to_)).trans rfl
@[simp] theorem State.handOver_queue (s : State) (c : Fin 256) (r : Fin 4) (typ stamp : Nat) (payload : List Byte) (m : Marks) (combined discont : Bool) (to_ : Fin 256) : (s.handOver c r typ stamp payload m combined discont to_).queue = s.queue := (congrArg State.queue (s.handOver_frame c r typ stamp payload m combined discont to_)).trans rfl
@[simp] theorem State.handOver_kept (s : State) (c : Fin 256) (r : Fin 4) (typ stamp : Nat) (payload : List Byte) (m : Marks) (combined discont : Bool) (to_ : Fin 256) : (s.handOver c r typ stamp payload m combined discont to_).kept = s.kept := (congrArg State.kept (s.handOver_frame c r typ stamp payload m combined discont to_)).trans rfl
@[simp] theorem State.handOver_devReleased (s : State) (c : Fin 256) (r : Fin 4) (typ stamp : Nat) (payload : List Byte) (m : Marks) (combined discont : Bool) (to_ : Fin 256) : (s.handOver c r typ stamp payload m combined discont to_).devReleased = s.devReleased := (congrArg State.devReleased (s.handOver_frame c r typ stamp payload m combined discont to_)).trans rfl
@[simp] theorem State.handOver_host (s : State) (c : Fin 256) (r : Fin 4) (typ stamp : Nat) (payload : List Byte) (m : Marks) (combined discont : Bool) (to_ : Fin 256) : (s.handOver c r typ stamp payload m combined discont to_).host = s.host := (congrArg State.host (s.handOver_frame c r typ stamp payload m combined discont to_)).trans rfl
@[simp] theorem State.handOver_tw (s : State) (c : Fin 256) (r : Fin 4) (typ stamp : Nat) (payload : List Byte) (m : Marks) (combined discont : Bool) (to_ : Fin 256) : (s.handOver c r typ stamp payload m combined discont to_).tw = s.tw := (congrArg State.tw (s.handOver_frame c r typ stamp payload m combined discont to_)).trans rfl
@[simp] theorem State.handOver_still (s : State) (c : Fin 256) (r : Fin 4) (typ stamp : Nat) (payload : List Byte) (m : Marks) (combined discont : Bool) (to_ : Fin 256) : (s.handOver c r typ stamp payload m combined discont to_).still = s.still := (congrArg State.still (s.handOver_frame c r typ stamp payload m combined discont to_)).trans rfl
@[simp] theorem State.handOver_tmr (s : State) (c : Fin 256) (r : Fin 4) (typ stamp : Nat) (payload : List Byte) (m : Marks) (combined discont : Bool) (to_ : Fin 256) : (s.handOver c r typ stamp payload m combined discont to_).tmr = s.tmr := (congrArg State.tmr (s.handOver_frame c r typ stamp payload m combined discont to_)).trans rfl
@[simp] theorem State.handOver_ecc (s : State) (c : Fin 256) (r : Fin 4) (typ stamp : Nat) (payload : List Byte) (m : Marks) (combined discont : Bool) (to_ : Fin 256) : (s.handOver c r typ stamp payload m combined discont to_).ecc = s.ecc := (congrArg State.ecc (s.handOver_frame c r typ stamp payload m combined discont to_)).trans rfl
@[simp] theorem State.handOver_pins (s : State) (c : Fin 256) (r : Fin 4) (typ stamp : Nat) (payload : List Byte) (m : Marks) (combined discont : Bool) (to_ : Fin 256) : (s.handOver c r typ stamp payload m combined discont to_).pins = s.pins := (congrArg State.pins (s.handOver_frame c r typ stamp payload m combined discont to_)).trans rfl
@[simp] theorem State.handOver_scratch (s : State) (c : Fin 256) (r : Fin 4) (typ stamp : Nat) (payload : List Byte) (m : Marks) (combined discont : Bool) (to_ : Fin 256) : (s.handOver c r typ stamp payload m combined discont to_).scratch = s.scratch := (congrArg State.scratch (s.handOver_frame c r typ stamp payload m combined discont to_)).trans rfl
@[simp] theorem State.handOver_readData (s : State) (c : Fin 256) (r : Fin 4) (typ stamp : Nat) (payload : List Byte) (m : Marks) (combined discont : Bool) (to_ : Fin 256) : (s.handOver c r typ stamp payload m combined discont to_).readData = s.readData := (congrArg State.readData (s.handOver_frame c r typ stamp payload m combined discont to_)).trans rfl
@[simp] theorem State.handOver_draws (s : State) (c : Fin 256) (r : Fin 4) (typ stamp : Nat) (payload : List Byte) (m : Marks) (combined discont : Bool) (to_ : Fin 256) : (s.handOver c r typ stamp payload m combined discont to_).draws = s.draws := (congrArg State.draws (s.handOver_frame c r typ stamp payload m combined discont to_)).trans rfl

/-- `response` changes nothing but ctxs, devReleased, queue, kept, host, mailbox, journal. -/
theorem State.response_frame (s : State) (id : BitVec 32) (op status reason : Nat) (rep : Bool) (result : List Byte) :
    (s.response id op status reason rep result) = { s with ctxs := (s.response id op status reason rep result).ctxs, devReleased := (s.response id op status reason rep result).devReleased, queue := (s.response id op status reason rep result).queue, kept := (s.response id op status reason rep result).kept, host := (s.response id op status reason rep result).host, mailbox := (s.response id op status reason rep result).mailbox, journal := (s.response id op status reason rep result).journal } := by
  exact State.emit_frame ..

@[simp] theorem State.response_clock (s : State) (id : BitVec 32) (op status reason : Nat) (rep : Bool) (result : List Byte) : (s.response id op status reason rep result).clock = s.clock := (congrArg State.clock (s.response_frame id op status reason rep result)).trans rfl
@[simp] theorem State.response_pending (s : State) (id : BitVec 32) (op status reason : Nat) (rep : Bool) (result : List Byte) : (s.response id op status reason rep result).pending = s.pending := (congrArg State.pending (s.response_frame id op status reason rep result)).trans rfl
@[simp] theorem State.response_part (s : State) (id : BitVec 32) (op status reason : Nat) (rep : Bool) (result : List Byte) : (s.response id op status reason rep result).part = s.part := (congrArg State.part (s.response_frame id op status reason rep result)).trans rfl
@[simp] theorem State.response_phase (s : State) (id : BitVec 32) (op status reason : Nat) (rep : Bool) (result : List Byte) : (s.response id op status reason rep result).phase = s.phase := (congrArg State.phase (s.response_frame id op status reason rep result)).trans rfl
@[simp] theorem State.response_releasedPs (s : State) (id : BitVec 32) (op status reason : Nat) (rep : Bool) (result : List Byte) : (s.response id op status reason rep result).releasedPs = s.releasedPs := (congrArg State.releasedPs (s.response_frame id op status reason rep result)).trans rfl
@[simp] theorem State.response_cause (s : State) (id : BitVec 32) (op status reason : Nat) (rep : Bool) (result : List Byte) : (s.response id op status reason rep result).cause = s.cause := (congrArg State.cause (s.response_frame id op status reason rep result)).trans rfl
@[simp] theorem State.response_mgmtOnly (s : State) (id : BitVec 32) (op status reason : Nat) (rep : Bool) (result : List Byte) : (s.response id op status reason rep result).mgmtOnly = s.mgmtOnly := (congrArg State.mgmtOnly (s.response_frame id op status reason rep result)).trans rfl
@[simp] theorem State.response_doze (s : State) (id : BitVec 32) (op status reason : Nat) (rep : Bool) (result : List Byte) : (s.response id op status reason rep result).doze = s.doze := (congrArg State.doze (s.response_frame id op status reason rep result)).trans rfl
@[simp] theorem State.response_refs (s : State) (id : BitVec 32) (op status reason : Nat) (rep : Bool) (result : List Byte) : (s.response id op status reason rep result).refs = s.refs := (congrArg State.refs (s.response_frame id op status reason rep result)).trans rfl
@[simp] theorem State.response_sync (s : State) (id : BitVec 32) (op status reason : Nat) (rep : Bool) (result : List Byte) : (s.response id op status reason rep result).sync = s.sync := (congrArg State.sync (s.response_frame id op status reason rep result)).trans rfl
@[simp] theorem State.response_rtc (s : State) (id : BitVec 32) (op status reason : Nat) (rep : Bool) (result : List Byte) : (s.response id op status reason rep result).rtc = s.rtc := (congrArg State.rtc (s.response_frame id op status reason rep result)).trans rfl
@[simp] theorem State.response_image (s : State) (id : BitVec 32) (op status reason : Nat) (rep : Bool) (result : List Byte) : (s.response id op status reason rep result).image = s.image := (congrArg State.image (s.response_frame id op status reason rep result)).trans rfl
@[simp] theorem State.response_keys (s : State) (id : BitVec 32) (op status reason : Nat) (rep : Bool) (result : List Byte) : (s.response id op status reason rep result).keys = s.keys := (congrArg State.keys (s.response_frame id op status reason rep result)).trans rfl
@[simp] theorem State.response_flash (s : State) (id : BitVec 32) (op status reason : Nat) (rep : Bool) (result : List Byte) : (s.response id op status reason rep result).flash = s.flash := (congrArg State.flash (s.response_frame id op status reason rep result)).trans rfl
@[simp] theorem State.response_reaches (s : State) (id : BitVec 32) (op status reason : Nat) (rep : Bool) (result : List Byte) : (s.response id op status reason rep result).reaches = s.reaches := (congrArg State.reaches (s.response_frame id op status reason rep result)).trans rfl
@[simp] theorem State.response_fallow (s : State) (id : BitVec 32) (op status reason : Nat) (rep : Bool) (result : List Byte) : (s.response id op status reason rep result).fallow = s.fallow := (congrArg State.fallow (s.response_frame id op status reason rep result)).trans rfl
@[simp] theorem State.response_upkeep (s : State) (id : BitVec 32) (op status reason : Nat) (rep : Bool) (result : List Byte) : (s.response id op status reason rep result).upkeep = s.upkeep := (congrArg State.upkeep (s.response_frame id op status reason rep result)).trans rfl
@[simp] theorem State.response_wardens (s : State) (id : BitVec 32) (op status reason : Nat) (rep : Bool) (result : List Byte) : (s.response id op status reason rep result).wardens = s.wardens := (congrArg State.wardens (s.response_frame id op status reason rep result)).trans rfl
@[simp] theorem State.response_engines (s : State) (id : BitVec 32) (op status reason : Nat) (rep : Bool) (result : List Byte) : (s.response id op status reason rep result).engines = s.engines := (congrArg State.engines (s.response_frame id op status reason rep result)).trans rfl
@[simp] theorem State.response_proposals (s : State) (id : BitVec 32) (op status reason : Nat) (rep : Bool) (result : List Byte) : (s.response id op status reason rep result).proposals = s.proposals := (congrArg State.proposals (s.response_frame id op status reason rep result)).trans rfl
@[simp] theorem State.response_window (s : State) (id : BitVec 32) (op status reason : Nat) (rep : Bool) (result : List Byte) : (s.response id op status reason rep result).window = s.window := (congrArg State.window (s.response_frame id op status reason rep result)).trans rfl
@[simp] theorem State.response_cal (s : State) (id : BitVec 32) (op status reason : Nat) (rep : Bool) (result : List Byte) : (s.response id op status reason rep result).cal = s.cal := (congrArg State.cal (s.response_frame id op status reason rep result)).trans rfl
@[simp] theorem State.response_selftestPs (s : State) (id : BitVec 32) (op status reason : Nat) (rep : Bool) (result : List Byte) : (s.response id op status reason rep result).selftestPs = s.selftestPs := (congrArg State.selftestPs (s.response_frame id op status reason rep result)).trans rfl
@[simp] theorem State.response_outfall (s : State) (id : BitVec 32) (op status reason : Nat) (rep : Bool) (result : List Byte) : (s.response id op status reason rep result).outfall = s.outfall := (congrArg State.outfall (s.response_frame id op status reason rep result)).trans rfl
@[simp] theorem State.response_replay (s : State) (id : BitVec 32) (op status reason : Nat) (rep : Bool) (result : List Byte) : (s.response id op status reason rep result).replay = s.replay := (congrArg State.replay (s.response_frame id op status reason rep result)).trans rfl
@[simp] theorem State.response_replayJournalPs (s : State) (id : BitVec 32) (op status reason : Nat) (rep : Bool) (result : List Byte) : (s.response id op status reason rep result).replayJournalPs = s.replayJournalPs := (congrArg State.replayJournalPs (s.response_frame id op status reason rep result)).trans rfl
@[simp] theorem State.response_held (s : State) (id : BitVec 32) (op status reason : Nat) (rep : Bool) (result : List Byte) : (s.response id op status reason rep result).held = s.held := (congrArg State.held (s.response_frame id op status reason rep result)).trans rfl
@[simp] theorem State.response_tw (s : State) (id : BitVec 32) (op status reason : Nat) (rep : Bool) (result : List Byte) : (s.response id op status reason rep result).tw = s.tw := (congrArg State.tw (s.response_frame id op status reason rep result)).trans rfl
@[simp] theorem State.response_still (s : State) (id : BitVec 32) (op status reason : Nat) (rep : Bool) (result : List Byte) : (s.response id op status reason rep result).still = s.still := (congrArg State.still (s.response_frame id op status reason rep result)).trans rfl
@[simp] theorem State.response_tmr (s : State) (id : BitVec 32) (op status reason : Nat) (rep : Bool) (result : List Byte) : (s.response id op status reason rep result).tmr = s.tmr := (congrArg State.tmr (s.response_frame id op status reason rep result)).trans rfl
@[simp] theorem State.response_ecc (s : State) (id : BitVec 32) (op status reason : Nat) (rep : Bool) (result : List Byte) : (s.response id op status reason rep result).ecc = s.ecc := (congrArg State.ecc (s.response_frame id op status reason rep result)).trans rfl
@[simp] theorem State.response_pins (s : State) (id : BitVec 32) (op status reason : Nat) (rep : Bool) (result : List Byte) : (s.response id op status reason rep result).pins = s.pins := (congrArg State.pins (s.response_frame id op status reason rep result)).trans rfl
@[simp] theorem State.response_scratch (s : State) (id : BitVec 32) (op status reason : Nat) (rep : Bool) (result : List Byte) : (s.response id op status reason rep result).scratch = s.scratch := (congrArg State.scratch (s.response_frame id op status reason rep result)).trans rfl
@[simp] theorem State.response_readData (s : State) (id : BitVec 32) (op status reason : Nat) (rep : Bool) (result : List Byte) : (s.response id op status reason rep result).readData = s.readData := (congrArg State.readData (s.response_frame id op status reason rep result)).trans rfl
@[simp] theorem State.response_draws (s : State) (id : BitVec 32) (op status reason : Nat) (rep : Bool) (result : List Byte) : (s.response id op status reason rep result).draws = s.draws := (congrArg State.draws (s.response_frame id op status reason rep result)).trans rfl

/-- `respondOne` changes nothing but ctxs, devReleased, queue, kept, host, mailbox, journal. -/
theorem State.respondOne_frame (s : State) (id : BitVec 32) (op status reason : Nat) (result : List Byte) :
    (s.respondOne id op status reason result) = { s with ctxs := (s.respondOne id op status reason result).ctxs, devReleased := (s.respondOne id op status reason result).devReleased, queue := (s.respondOne id op status reason result).queue, kept := (s.respondOne id op status reason result).kept, host := (s.respondOne id op status reason result).host, mailbox := (s.respondOne id op status reason result).mailbox, journal := (s.respondOne id op status reason result).journal } := by
  unfold State.respondOne
  dsimp only
  rw [State.response_frame]

@[simp] theorem State.respondOne_clock (s : State) (id : BitVec 32) (op status reason : Nat) (result : List Byte) : (s.respondOne id op status reason result).clock = s.clock := (congrArg State.clock (s.respondOne_frame id op status reason result)).trans rfl
@[simp] theorem State.respondOne_pending (s : State) (id : BitVec 32) (op status reason : Nat) (result : List Byte) : (s.respondOne id op status reason result).pending = s.pending := (congrArg State.pending (s.respondOne_frame id op status reason result)).trans rfl
@[simp] theorem State.respondOne_part (s : State) (id : BitVec 32) (op status reason : Nat) (result : List Byte) : (s.respondOne id op status reason result).part = s.part := (congrArg State.part (s.respondOne_frame id op status reason result)).trans rfl
@[simp] theorem State.respondOne_phase (s : State) (id : BitVec 32) (op status reason : Nat) (result : List Byte) : (s.respondOne id op status reason result).phase = s.phase := (congrArg State.phase (s.respondOne_frame id op status reason result)).trans rfl
@[simp] theorem State.respondOne_releasedPs (s : State) (id : BitVec 32) (op status reason : Nat) (result : List Byte) : (s.respondOne id op status reason result).releasedPs = s.releasedPs := (congrArg State.releasedPs (s.respondOne_frame id op status reason result)).trans rfl
@[simp] theorem State.respondOne_cause (s : State) (id : BitVec 32) (op status reason : Nat) (result : List Byte) : (s.respondOne id op status reason result).cause = s.cause := (congrArg State.cause (s.respondOne_frame id op status reason result)).trans rfl
@[simp] theorem State.respondOne_mgmtOnly (s : State) (id : BitVec 32) (op status reason : Nat) (result : List Byte) : (s.respondOne id op status reason result).mgmtOnly = s.mgmtOnly := (congrArg State.mgmtOnly (s.respondOne_frame id op status reason result)).trans rfl
@[simp] theorem State.respondOne_doze (s : State) (id : BitVec 32) (op status reason : Nat) (result : List Byte) : (s.respondOne id op status reason result).doze = s.doze := (congrArg State.doze (s.respondOne_frame id op status reason result)).trans rfl
@[simp] theorem State.respondOne_refs (s : State) (id : BitVec 32) (op status reason : Nat) (result : List Byte) : (s.respondOne id op status reason result).refs = s.refs := (congrArg State.refs (s.respondOne_frame id op status reason result)).trans rfl
@[simp] theorem State.respondOne_sync (s : State) (id : BitVec 32) (op status reason : Nat) (result : List Byte) : (s.respondOne id op status reason result).sync = s.sync := (congrArg State.sync (s.respondOne_frame id op status reason result)).trans rfl
@[simp] theorem State.respondOne_rtc (s : State) (id : BitVec 32) (op status reason : Nat) (result : List Byte) : (s.respondOne id op status reason result).rtc = s.rtc := (congrArg State.rtc (s.respondOne_frame id op status reason result)).trans rfl
@[simp] theorem State.respondOne_image (s : State) (id : BitVec 32) (op status reason : Nat) (result : List Byte) : (s.respondOne id op status reason result).image = s.image := (congrArg State.image (s.respondOne_frame id op status reason result)).trans rfl
@[simp] theorem State.respondOne_keys (s : State) (id : BitVec 32) (op status reason : Nat) (result : List Byte) : (s.respondOne id op status reason result).keys = s.keys := (congrArg State.keys (s.respondOne_frame id op status reason result)).trans rfl
@[simp] theorem State.respondOne_flash (s : State) (id : BitVec 32) (op status reason : Nat) (result : List Byte) : (s.respondOne id op status reason result).flash = s.flash := (congrArg State.flash (s.respondOne_frame id op status reason result)).trans rfl
@[simp] theorem State.respondOne_reaches (s : State) (id : BitVec 32) (op status reason : Nat) (result : List Byte) : (s.respondOne id op status reason result).reaches = s.reaches := (congrArg State.reaches (s.respondOne_frame id op status reason result)).trans rfl
@[simp] theorem State.respondOne_fallow (s : State) (id : BitVec 32) (op status reason : Nat) (result : List Byte) : (s.respondOne id op status reason result).fallow = s.fallow := (congrArg State.fallow (s.respondOne_frame id op status reason result)).trans rfl
@[simp] theorem State.respondOne_upkeep (s : State) (id : BitVec 32) (op status reason : Nat) (result : List Byte) : (s.respondOne id op status reason result).upkeep = s.upkeep := (congrArg State.upkeep (s.respondOne_frame id op status reason result)).trans rfl
@[simp] theorem State.respondOne_wardens (s : State) (id : BitVec 32) (op status reason : Nat) (result : List Byte) : (s.respondOne id op status reason result).wardens = s.wardens := (congrArg State.wardens (s.respondOne_frame id op status reason result)).trans rfl
@[simp] theorem State.respondOne_engines (s : State) (id : BitVec 32) (op status reason : Nat) (result : List Byte) : (s.respondOne id op status reason result).engines = s.engines := (congrArg State.engines (s.respondOne_frame id op status reason result)).trans rfl
@[simp] theorem State.respondOne_proposals (s : State) (id : BitVec 32) (op status reason : Nat) (result : List Byte) : (s.respondOne id op status reason result).proposals = s.proposals := (congrArg State.proposals (s.respondOne_frame id op status reason result)).trans rfl
@[simp] theorem State.respondOne_window (s : State) (id : BitVec 32) (op status reason : Nat) (result : List Byte) : (s.respondOne id op status reason result).window = s.window := (congrArg State.window (s.respondOne_frame id op status reason result)).trans rfl
@[simp] theorem State.respondOne_cal (s : State) (id : BitVec 32) (op status reason : Nat) (result : List Byte) : (s.respondOne id op status reason result).cal = s.cal := (congrArg State.cal (s.respondOne_frame id op status reason result)).trans rfl
@[simp] theorem State.respondOne_selftestPs (s : State) (id : BitVec 32) (op status reason : Nat) (result : List Byte) : (s.respondOne id op status reason result).selftestPs = s.selftestPs := (congrArg State.selftestPs (s.respondOne_frame id op status reason result)).trans rfl
@[simp] theorem State.respondOne_outfall (s : State) (id : BitVec 32) (op status reason : Nat) (result : List Byte) : (s.respondOne id op status reason result).outfall = s.outfall := (congrArg State.outfall (s.respondOne_frame id op status reason result)).trans rfl
@[simp] theorem State.respondOne_replay (s : State) (id : BitVec 32) (op status reason : Nat) (result : List Byte) : (s.respondOne id op status reason result).replay = s.replay := (congrArg State.replay (s.respondOne_frame id op status reason result)).trans rfl
@[simp] theorem State.respondOne_replayJournalPs (s : State) (id : BitVec 32) (op status reason : Nat) (result : List Byte) : (s.respondOne id op status reason result).replayJournalPs = s.replayJournalPs := (congrArg State.replayJournalPs (s.respondOne_frame id op status reason result)).trans rfl
@[simp] theorem State.respondOne_held (s : State) (id : BitVec 32) (op status reason : Nat) (result : List Byte) : (s.respondOne id op status reason result).held = s.held := (congrArg State.held (s.respondOne_frame id op status reason result)).trans rfl
@[simp] theorem State.respondOne_tw (s : State) (id : BitVec 32) (op status reason : Nat) (result : List Byte) : (s.respondOne id op status reason result).tw = s.tw := (congrArg State.tw (s.respondOne_frame id op status reason result)).trans rfl
@[simp] theorem State.respondOne_still (s : State) (id : BitVec 32) (op status reason : Nat) (result : List Byte) : (s.respondOne id op status reason result).still = s.still := (congrArg State.still (s.respondOne_frame id op status reason result)).trans rfl
@[simp] theorem State.respondOne_tmr (s : State) (id : BitVec 32) (op status reason : Nat) (result : List Byte) : (s.respondOne id op status reason result).tmr = s.tmr := (congrArg State.tmr (s.respondOne_frame id op status reason result)).trans rfl
@[simp] theorem State.respondOne_ecc (s : State) (id : BitVec 32) (op status reason : Nat) (result : List Byte) : (s.respondOne id op status reason result).ecc = s.ecc := (congrArg State.ecc (s.respondOne_frame id op status reason result)).trans rfl
@[simp] theorem State.respondOne_pins (s : State) (id : BitVec 32) (op status reason : Nat) (result : List Byte) : (s.respondOne id op status reason result).pins = s.pins := (congrArg State.pins (s.respondOne_frame id op status reason result)).trans rfl
@[simp] theorem State.respondOne_scratch (s : State) (id : BitVec 32) (op status reason : Nat) (result : List Byte) : (s.respondOne id op status reason result).scratch = s.scratch := (congrArg State.scratch (s.respondOne_frame id op status reason result)).trans rfl
@[simp] theorem State.respondOne_readData (s : State) (id : BitVec 32) (op status reason : Nat) (result : List Byte) : (s.respondOne id op status reason result).readData = s.readData := (congrArg State.readData (s.respondOne_frame id op status reason result)).trans rfl
@[simp] theorem State.respondOne_draws (s : State) (id : BitVec 32) (op status reason : Nat) (result : List Byte) : (s.respondOne id op status reason result).draws = s.draws := (congrArg State.draws (s.respondOne_frame id op status reason result)).trans rfl

/-- `v` differs from `t` only where the making and sending of records reaches. -/
def RecordsOnly (t v : State) : Prop :=
  v = { t with ctxs := v.ctxs, devReleased := v.devReleased, queue := v.queue, kept := v.kept, host := v.host, mailbox := v.mailbox, journal := v.journal }

/-- `respond` changes nothing but ctxs, devReleased, queue, kept, host, mailbox, journal. -/
theorem State.respond_frame (s : State) (id : BitVec 32) (op status reason : Nat) (result : List Byte) :
    (s.respond id op status reason result) = { s with ctxs := (s.respond id op status reason result).ctxs, devReleased := (s.respond id op status reason result).devReleased, queue := (s.respond id op status reason result).queue, kept := (s.respond id op status reason result).kept, host := (s.respond id op status reason result).host, mailbox := (s.respond id op status reason result).mailbox, journal := (s.respond id op status reason result).journal } := by
  have hk : ∀ (l : List (BitVec 32 × BitVec 32 × Bool)) (u : State), RecordsOnly s u →
      RecordsOnly s (l.foldl (fun u p => u.respondOne p.2.1 0xF0 stCompleted (if status = stAborted ∧ p.2.2 then 0 else 0x89) []) u) := by
    intro l
    induction l with
    | nil => exact fun u h => h
    | cons x l ih =>
      intro u h
      refine ih _ ?_
      unfold RecordsOnly at h ⊢
      beta_reduce
      rw [State.respondOne_frame, h]
  have h1 : RecordsOnly s (s.respondOne id op status reason result) := State.respondOne_frame ..
  change RecordsOnly s _
  unfold State.respond
  dsimp only
  split
  · exact h1
  · refine hk _ _ ?_
    unfold RecordsOnly at h1 ⊢
    rw [h1]

@[simp] theorem State.respond_clock (s : State) (id : BitVec 32) (op status reason : Nat) (result : List Byte) : (s.respond id op status reason result).clock = s.clock := (congrArg State.clock (s.respond_frame id op status reason result)).trans rfl
@[simp] theorem State.respond_pending (s : State) (id : BitVec 32) (op status reason : Nat) (result : List Byte) : (s.respond id op status reason result).pending = s.pending := (congrArg State.pending (s.respond_frame id op status reason result)).trans rfl
@[simp] theorem State.respond_part (s : State) (id : BitVec 32) (op status reason : Nat) (result : List Byte) : (s.respond id op status reason result).part = s.part := (congrArg State.part (s.respond_frame id op status reason result)).trans rfl
@[simp] theorem State.respond_phase (s : State) (id : BitVec 32) (op status reason : Nat) (result : List Byte) : (s.respond id op status reason result).phase = s.phase := (congrArg State.phase (s.respond_frame id op status reason result)).trans rfl
@[simp] theorem State.respond_releasedPs (s : State) (id : BitVec 32) (op status reason : Nat) (result : List Byte) : (s.respond id op status reason result).releasedPs = s.releasedPs := (congrArg State.releasedPs (s.respond_frame id op status reason result)).trans rfl
@[simp] theorem State.respond_cause (s : State) (id : BitVec 32) (op status reason : Nat) (result : List Byte) : (s.respond id op status reason result).cause = s.cause := (congrArg State.cause (s.respond_frame id op status reason result)).trans rfl
@[simp] theorem State.respond_mgmtOnly (s : State) (id : BitVec 32) (op status reason : Nat) (result : List Byte) : (s.respond id op status reason result).mgmtOnly = s.mgmtOnly := (congrArg State.mgmtOnly (s.respond_frame id op status reason result)).trans rfl
@[simp] theorem State.respond_doze (s : State) (id : BitVec 32) (op status reason : Nat) (result : List Byte) : (s.respond id op status reason result).doze = s.doze := (congrArg State.doze (s.respond_frame id op status reason result)).trans rfl
@[simp] theorem State.respond_refs (s : State) (id : BitVec 32) (op status reason : Nat) (result : List Byte) : (s.respond id op status reason result).refs = s.refs := (congrArg State.refs (s.respond_frame id op status reason result)).trans rfl
@[simp] theorem State.respond_sync (s : State) (id : BitVec 32) (op status reason : Nat) (result : List Byte) : (s.respond id op status reason result).sync = s.sync := (congrArg State.sync (s.respond_frame id op status reason result)).trans rfl
@[simp] theorem State.respond_rtc (s : State) (id : BitVec 32) (op status reason : Nat) (result : List Byte) : (s.respond id op status reason result).rtc = s.rtc := (congrArg State.rtc (s.respond_frame id op status reason result)).trans rfl
@[simp] theorem State.respond_image (s : State) (id : BitVec 32) (op status reason : Nat) (result : List Byte) : (s.respond id op status reason result).image = s.image := (congrArg State.image (s.respond_frame id op status reason result)).trans rfl
@[simp] theorem State.respond_keys (s : State) (id : BitVec 32) (op status reason : Nat) (result : List Byte) : (s.respond id op status reason result).keys = s.keys := (congrArg State.keys (s.respond_frame id op status reason result)).trans rfl
@[simp] theorem State.respond_flash (s : State) (id : BitVec 32) (op status reason : Nat) (result : List Byte) : (s.respond id op status reason result).flash = s.flash := (congrArg State.flash (s.respond_frame id op status reason result)).trans rfl
@[simp] theorem State.respond_reaches (s : State) (id : BitVec 32) (op status reason : Nat) (result : List Byte) : (s.respond id op status reason result).reaches = s.reaches := (congrArg State.reaches (s.respond_frame id op status reason result)).trans rfl
@[simp] theorem State.respond_fallow (s : State) (id : BitVec 32) (op status reason : Nat) (result : List Byte) : (s.respond id op status reason result).fallow = s.fallow := (congrArg State.fallow (s.respond_frame id op status reason result)).trans rfl
@[simp] theorem State.respond_upkeep (s : State) (id : BitVec 32) (op status reason : Nat) (result : List Byte) : (s.respond id op status reason result).upkeep = s.upkeep := (congrArg State.upkeep (s.respond_frame id op status reason result)).trans rfl
@[simp] theorem State.respond_wardens (s : State) (id : BitVec 32) (op status reason : Nat) (result : List Byte) : (s.respond id op status reason result).wardens = s.wardens := (congrArg State.wardens (s.respond_frame id op status reason result)).trans rfl
@[simp] theorem State.respond_engines (s : State) (id : BitVec 32) (op status reason : Nat) (result : List Byte) : (s.respond id op status reason result).engines = s.engines := (congrArg State.engines (s.respond_frame id op status reason result)).trans rfl
@[simp] theorem State.respond_proposals (s : State) (id : BitVec 32) (op status reason : Nat) (result : List Byte) : (s.respond id op status reason result).proposals = s.proposals := (congrArg State.proposals (s.respond_frame id op status reason result)).trans rfl
@[simp] theorem State.respond_window (s : State) (id : BitVec 32) (op status reason : Nat) (result : List Byte) : (s.respond id op status reason result).window = s.window := (congrArg State.window (s.respond_frame id op status reason result)).trans rfl
@[simp] theorem State.respond_cal (s : State) (id : BitVec 32) (op status reason : Nat) (result : List Byte) : (s.respond id op status reason result).cal = s.cal := (congrArg State.cal (s.respond_frame id op status reason result)).trans rfl
@[simp] theorem State.respond_selftestPs (s : State) (id : BitVec 32) (op status reason : Nat) (result : List Byte) : (s.respond id op status reason result).selftestPs = s.selftestPs := (congrArg State.selftestPs (s.respond_frame id op status reason result)).trans rfl
@[simp] theorem State.respond_outfall (s : State) (id : BitVec 32) (op status reason : Nat) (result : List Byte) : (s.respond id op status reason result).outfall = s.outfall := (congrArg State.outfall (s.respond_frame id op status reason result)).trans rfl
@[simp] theorem State.respond_replay (s : State) (id : BitVec 32) (op status reason : Nat) (result : List Byte) : (s.respond id op status reason result).replay = s.replay := (congrArg State.replay (s.respond_frame id op status reason result)).trans rfl
@[simp] theorem State.respond_replayJournalPs (s : State) (id : BitVec 32) (op status reason : Nat) (result : List Byte) : (s.respond id op status reason result).replayJournalPs = s.replayJournalPs := (congrArg State.replayJournalPs (s.respond_frame id op status reason result)).trans rfl
@[simp] theorem State.respond_held (s : State) (id : BitVec 32) (op status reason : Nat) (result : List Byte) : (s.respond id op status reason result).held = s.held := (congrArg State.held (s.respond_frame id op status reason result)).trans rfl
@[simp] theorem State.respond_tw (s : State) (id : BitVec 32) (op status reason : Nat) (result : List Byte) : (s.respond id op status reason result).tw = s.tw := (congrArg State.tw (s.respond_frame id op status reason result)).trans rfl
@[simp] theorem State.respond_still (s : State) (id : BitVec 32) (op status reason : Nat) (result : List Byte) : (s.respond id op status reason result).still = s.still := (congrArg State.still (s.respond_frame id op status reason result)).trans rfl
@[simp] theorem State.respond_tmr (s : State) (id : BitVec 32) (op status reason : Nat) (result : List Byte) : (s.respond id op status reason result).tmr = s.tmr := (congrArg State.tmr (s.respond_frame id op status reason result)).trans rfl
@[simp] theorem State.respond_ecc (s : State) (id : BitVec 32) (op status reason : Nat) (result : List Byte) : (s.respond id op status reason result).ecc = s.ecc := (congrArg State.ecc (s.respond_frame id op status reason result)).trans rfl
@[simp] theorem State.respond_pins (s : State) (id : BitVec 32) (op status reason : Nat) (result : List Byte) : (s.respond id op status reason result).pins = s.pins := (congrArg State.pins (s.respond_frame id op status reason result)).trans rfl
@[simp] theorem State.respond_scratch (s : State) (id : BitVec 32) (op status reason : Nat) (result : List Byte) : (s.respond id op status reason result).scratch = s.scratch := (congrArg State.scratch (s.respond_frame id op status reason result)).trans rfl
@[simp] theorem State.respond_readData (s : State) (id : BitVec 32) (op status reason : Nat) (result : List Byte) : (s.respond id op status reason result).readData = s.readData := (congrArg State.readData (s.respond_frame id op status reason result)).trans rfl
@[simp] theorem State.respond_draws (s : State) (id : BitVec 32) (op status reason : Nat) (result : List Byte) : (s.respond id op status reason result).draws = s.draws := (congrArg State.draws (s.respond_frame id op status reason result)).trans rfl

end Sys2Proof.Machine
end

