-- ==== Sys2Proof/Laws/Index.lean ====
section
/-! SUPPORT. The updates of one member of a register group, read at the index in the form that `simp` gives it; and the words built from
two half-words. -/

namespace Sys2Proof.Machine

@[simp] theorem State.modReach_at (s : State) (r : Fin 4) (f : Reach → Reach) : (s.modReach r f).reaches[r.val] = f s.reaches[r.val] := by
  simp [State.modReach]

@[simp] theorem State.modFallow_at (s : State) (r : Fin 4) (f : Fallow → Fallow) : (s.modFallow r f).fallow[r.val] = f s.fallow[r.val] := by
  simp [State.modFallow]

@[simp] theorem State.modUpkeep_at (s : State) (r : Fin 4) (f : Upkeep → Upkeep) : (s.modUpkeep r f).upkeep[r.val] = f s.upkeep[r.val] := by
  simp [State.modUpkeep]

@[simp] theorem State.modWarden_at (s : State) (r : Fin 4) (f : Warden → Warden) : (s.modWarden r f).wardens[r.val] = f s.wardens[r.val] := by
  simp [State.modWarden]

@[simp] theorem State.modEngine_at (s : State) (e : Fin 8) (f : Engine → Engine) : (s.modEngine e f).engines[e.val] = f s.engines[e.val] := by
  simp [State.modEngine]

@[simp] theorem State.modCtx_at (s : State) (c : Fin 256) (f : Ctx → Ctx) : (s.modCtx c f).ctxs[c.val] = f s.ctxs[c.val] := by
  simp [State.modCtx]

/-- A word of a confirming half-word and a value: what a command register with CONFIRM is written with. -/
theorem confirmWord (c : BitVec 16) (n : Nat) (h : n < 65536) : (fieldAt c.toNat 16 ||| BitVec.ofNat 32 n).toNat = c.toNat * 65536 + n := by
  rw [BitVec.toNat_or, fieldAt, BitVec.toNat_ofNat, BitVec.toNat_ofNat, Nat.mod_eq_of_lt (by have := c.isLt; omega),
    Nat.mod_eq_of_lt (by omega), Nat.mul_comm, ← Nat.two_pow_add_eq_or_of_lt (by omega)]
  omega

end Sys2Proof.Machine
end

