-- ==== Sys2Proof/Laws/Memory.lean ====
section
/-! SUPPORT. The flash as memory: every operation keeps the canonical form, and what is read after a write, a program operation or an erase. -/

namespace Sys2Proof.Machine

/-! ### The canonical form -/

/-- Every listed address lies above `x`, for a list in rising order. -/
def Memory.above (x : Nat) : List Host.Cell → Bool
  | [] => true
  | (y, _) :: _ => decide (x < y)

theorem Memory.wf_cons (x : Nat) (v : Byte) (t : List Host.Cell) :
    Memory.wf ((x, v) :: t) = (v != 0xFF && Memory.above x t && Memory.wf t) := by
  cases t with
  | nil => simp [Memory.wf, Memory.above]
  | cons p t => obtain ⟨y, w⟩ := p; rw [Memory.wf.eq_3]; rfl

theorem Memory.above_trans (x y : Nat) (t : List Host.Cell) (h : x < y) (g : Memory.above y t = true) : Memory.above x t = true := by
  cases t with
  | nil => rfl
  | cons q t => simp only [Memory.above, decide_eq_true_eq] at g ⊢; omega

theorem Memory.write_above (m : List Host.Cell) (a : Nat) (b : Byte) (x : Nat) (hx : x < a)
    (h : Memory.above x m = true) (hm : Memory.wf m = true) : Memory.above x (Memory.write m a b) = true := by
  cases m with
  | nil => unfold Memory.write; split <;> simp [Memory.above, hx]
  | cons p t =>
    obtain ⟨y, w⟩ := p
    have hy : x < y := by simpa [Memory.above] using h
    unfold Memory.write
    split
    · split
      · exact h
      · simpa [Memory.above] using hx
    · split
      · split
        · rw [Memory.wf_cons] at hm
          simp only [Bool.and_eq_true] at hm
          exact Memory.above_trans x y t hy hm.1.2
        · simpa [Memory.above] using hx
      · exact h

theorem Memory.write_wf (m : List Host.Cell) (a : Nat) (b : Byte) (h : Memory.wf m = true) : Memory.wf (Memory.write m a b) = true := by
  induction m with
  | nil => unfold Memory.write; split <;> simp_all [Memory.wf]
  | cons p t ih =>
    obtain ⟨x, v⟩ := p
    have h' := h
    rw [Memory.wf_cons] at h
    simp only [Bool.and_eq_true] at h
    unfold Memory.write
    split
    · split
      · exact h'
      · rw [Memory.wf_cons, h']; simp_all [Memory.above]
    · split
      · split
        · exact h.2
        · rw [Memory.wf_cons]; simp_all
      · rw [Memory.wf_cons]
        simp only [Bool.and_eq_true]
        exact ⟨⟨h.1.1, Memory.write_above t a b x (by omega) h.1.2 h.2⟩, ih h.2⟩

theorem Memory.program_wf (m : List Host.Cell) (a : Nat) (l : List Byte) (h : Memory.wf m = true) : Memory.wf (Memory.program m a l) = true := by
  induction l generalizing m a with
  | nil => exact h
  | cons b l ih => exact ih _ _ (Memory.write_wf _ _ _ h)

theorem Memory.filter_above (m : List Host.Cell) (f : Host.Cell → Bool) (x : Nat) (h : Memory.wf m = true) (g : Memory.above x m = true) :
    Memory.above x (m.filter f) = true := by
  induction m generalizing x with
  | nil => rfl
  | cons p t ih =>
    obtain ⟨y, w⟩ := p
    rw [Memory.wf_cons] at h
    simp only [Bool.and_eq_true] at h
    have hy : x < y := by simpa [Memory.above] using g
    rw [List.filter_cons]
    split
    · exact g
    · exact ih x h.2 (Memory.above_trans x y t hy h.1.2)

theorem Memory.filter_wf (m : List Host.Cell) (f : Host.Cell → Bool) (h : Memory.wf m = true) : Memory.wf (m.filter f) = true := by
  induction m with
  | nil => rfl
  | cons p t ih =>
    obtain ⟨y, w⟩ := p
    rw [Memory.wf_cons] at h
    simp only [Bool.and_eq_true] at h
    rw [List.filter_cons]
    split
    · rw [Memory.wf_cons]; simp only [Bool.and_eq_true]
      exact ⟨⟨h.1.1, Memory.filter_above t f y h.2 h.1.2⟩, ih h.2⟩
    · exact ih h.2

theorem Memory.erase_wf (m : List Host.Cell) (a n : Nat) (h : Memory.wf m = true) : Memory.wf (Memory.erase m a n) = true :=
  Memory.filter_wf m _ h

theorem FlashOp.apply_wf (m : List Host.Cell) (op : FlashOp) (h : Memory.wf m = true) : Memory.wf (op.apply m) = true := by
  cases op
  · exact h
  · exact Memory.program_wf _ _ _ h
  · exact Memory.erase_wf _ _ _ h
  · exact Memory.erase_wf _ _ _ h

/-! ### Reading back -/

theorem Memory.read_above (m : List Host.Cell) (a : Nat) (h : Memory.wf m = true) (g : Memory.above a m = true) : Memory.read m a = 0xFF := by
  induction m with
  | nil => rfl
  | cons p t ih =>
    obtain ⟨x, v⟩ := p
    rw [Memory.wf_cons] at h
    simp only [Bool.and_eq_true] at h
    have hx : a < x := by simpa [Memory.above] using g
    unfold Memory.read
    rw [if_neg (by omega)]
    exact ih h.2 (Memory.above_trans a x t hx h.1.2)

/-- A byte reads as it was written. -/
theorem Memory.read_write_same (m : List Host.Cell) (a : Nat) (b : Byte) (h : Memory.wf m = true) : Memory.read (Memory.write m a b) a = b := by
  induction m with
  | nil => unfold Memory.write; split <;> simp_all [Memory.read]
  | cons p t ih =>
    obtain ⟨x, v⟩ := p
    have h' := h
    rw [Memory.wf_cons] at h
    simp only [Bool.and_eq_true] at h
    unfold Memory.write
    split
    · rename_i hx
      split
      · rename_i hb
        rw [hb]; exact Memory.read_above _ _ h' (by simpa [Memory.above] using hx)
      · simp [Memory.read]
    · split
      · rename_i hx
        subst hx
        split
        · rename_i hb
          rw [hb]; exact Memory.read_above _ _ h.2 h.1.2
        · simp [Memory.read]
      · rename_i hx
        unfold Memory.read
        rw [if_neg hx]
        exact ih h.2

/-- Every other byte reads as before. -/
theorem Memory.read_write_other (m : List Host.Cell) (a : Nat) (b : Byte) (x : Nat) (hx : x ≠ a) :
    Memory.read (Memory.write m a b) x = Memory.read m x := by
  induction m with
  | nil => unfold Memory.write; split <;> simp [Memory.read, hx]
  | cons p t ih =>
    obtain ⟨y, v⟩ := p
    unfold Memory.write
    split
    · split
      · rfl
      · rw [Memory.read, if_neg hx]
    · split
      · rename_i e
        subst e
        split <;> simp [Memory.read, hx]
      · simp only [Memory.read, ih]

/-- Bytes outside a programmed range read as before. -/
theorem Memory.read_program_other (l : List Byte) (m : List Host.Cell) (a x : Nat) (hx : x < a ∨ a + l.length ≤ x) :
    Memory.read (Memory.program m a l) x = Memory.read m x := by
  induction l generalizing m a with
  | nil => rfl
  | cons b l ih =>
    simp only [List.length_cons] at hx
    unfold Memory.program
    rw [ih _ _ (by omega), Memory.read_write_other _ _ _ _ (by omega)]

/-- Programming only clears bits: the byte programmed is the AND of what was there and what is given (Table 13.1). -/
theorem Memory.read_program_same (l : List Byte) (m : List Host.Cell) (a i : Nat) (h : Memory.wf m = true) (hi : i < l.length) :
    Memory.read (Memory.program m a l) (a + i) = Memory.read m (a + i) &&& l[i] := by
  induction l generalizing m a i with
  | nil => simp at hi
  | cons b l ih =>
    unfold Memory.program
    cases i with
    | zero =>
      rw [Memory.read_program_other _ _ _ _ (by omega)]
      simpa using Memory.read_write_same m a _ h
    | succ i =>
      have e : a + (i + 1) = (a + 1) + i := by omega
      rw [e, ih _ _ i (Memory.write_wf _ _ _ h) (by simpa using hi), Memory.read_write_other _ _ _ _ (by omega)]
      simp

theorem Memory.read_filter (m : List Host.Cell) (f : Nat → Bool) (x : Nat) :
    Memory.read (m.filter (fun c => f c.1)) x = if f x then Memory.read m x else 0xFF := by
  induction m with
  | nil => simp [Memory.read]
  | cons p t ih =>
    obtain ⟨y, v⟩ := p
    rw [List.filter_cons]
    by_cases hy : f y = true
    · simp only [hy, if_true, Memory.read, ih]
      by_cases e : x = y
      · subst e; simp [hy]
      · simp [e]
    · simp only [hy, Bool.false_eq_true, if_false, ih, Memory.read]
      by_cases e : x = y
      · subst e; simp [hy]
      · simp [e]

/-- An erased byte reads 0xFF, and every other byte as before. -/
theorem Memory.read_erase (m : List Host.Cell) (a n x : Nat) :
    Memory.read (Memory.erase m a n) x = if a ≤ x ∧ x < a + n then 0xFF else Memory.read m x := by
  have := Memory.read_filter m (fun y => decide (y < a ∨ a + n ≤ y)) x
  unfold Memory.erase
  rw [this]
  by_cases h : a ≤ x ∧ x < a + n
  · have : ¬ (x < a ∨ a + n ≤ x) := by omega
    simp [h, this]
  · have : x < a ∨ a + n ≤ x := by omega
    simp [h, this]

theorem State.reset_flash_wf : Memory.wf State.reset.flash = true := rfl

end Sys2Proof.Machine
end

