-- ==== Sys2Proof/Laws/Keeps.lean ====
section
/-! SUPPORT. What every operation and every command keeps, one lemma each: `Keeps s t` chains from the smallest operation to the 228 meanings. -/

namespace Sys2Proof.Machine

/-- What every command keeps: the part is the same, the queue is the same, the bounds of `State.Sound` hold after it if they held before,
and the OTP store only gains (R484 to R486). -/
structure Keeps (s t : State) : Prop where
  part : t.part = s.part
  queue : t.pending = s.pending
  sound : s.Sound → t.Sound
  auth : s.keys.authBlown = true → t.keys.authBlown = true
  still : s.keys.stillBlown = true → t.keys.stillBlown = true
  slot : s.Sound → ∀ (n : Fin 8) k, s.keys.slots[n] = some k → t.keys.slots[n] = some k

theorem Keeps.refl (s : State) : Keeps s s := ⟨rfl, rfl, id, id, id, fun _ _ _ h => h⟩

theorem Keeps.trans {s t u : State} (h : Keeps s t) (g : Keeps t u) : Keeps s u :=
  ⟨g.part.trans h.part, g.queue.trans h.queue, g.sound ∘ h.sound, g.auth ∘ h.auth, g.still ∘ h.still,
    fun z n k e => g.slot (h.sound z) n k (h.slot z n k e)⟩

/-- A state that differs only in fields the relation does not speak of. -/
theorem Keeps.same {s t : State} (h1 : t.part = s.part) (h2 : t.pending = s.pending) (h3 : t.flash = s.flash)
    (h4 : t.mailbox.pending = s.mailbox.pending) (h5 : t.mailbox.rdPtr = s.mailbox.rdPtr) (h6 : t.rtc.fracPs = s.rtc.fracPs) (h7 : t.keys = s.keys) : Keeps s t := by
  refine ⟨h1, h2, fun z => ⟨?_, ?_, ?_, ?_, ?_⟩, ?_, ?_, ?_⟩
  · rw [h3]; exact z.flash
  · rw [h4]; exact z.ring
  · rw [h5]; exact z.ptr
  · rw [h6]; exact z.second
  · rw [h7]; exact z.otp
  · rw [h7]; exact id
  · rw [h7]; exact id
  · rw [h7]; exact fun _ _ _ h => h

theorem Keeps.ite {s t u : State} {p : Prop} [Decidable p] (h : Keeps s t) (g : Keeps s u) : Keeps s (if p then t else u) := by
  split <;> assumption

theorem Keeps.foldl {α : Type} (f : State → α → State) (hf : ∀ t a, Keeps t (f t a)) (l : List α) (s : State) : Keeps s (l.foldl f s) := by
  induction l generalizing s with
  | nil => exact .refl s
  | cons a l ih => exact (hf s a).trans (ih _)

theorem State.forEach_keeps {α : Type} (s : State) (l : List α) (f : α → State → State) (hf : ∀ a t, Keeps t (f a t)) :
    Keeps s (s.forEach l f) := Keeps.foldl _ (fun t a => hf a t) l s

theorem State.when_keeps (s : State) (c : Bool) (f : State → State) (hf : Keeps s (f s)) : Keeps s (s.when c f) := by
  unfold State.when; split
  · exact hf
  · exact .refl s

theorem State.withSome_keeps {α : Type} (s : State) (o : Option α) (f : α → State → State) (hf : ∀ a, Keeps s (f a s)) :
    Keeps s (s.withSome o f) := by
  unfold State.withSome; split
  · exact hf _
  · exact .refl s

theorem Keeps.upd {s t : State} {x_clock : Nat} {x_pending : List Instr} {x_part : Part} {x_phase : Phase} {x_releasedPs : Nat} {x_cause : BitVec 3} {x_mgmtOnly : Bool} {x_doze : Doze} {x_refs : Refs} {x_sync : Sync} {x_rtc : Rtc} {x_image : Image} {x_keys : Keys} {x_flash : List Host.Cell} {x_journal : Journal} {x_mailbox : Mailbox} {x_reaches : Vector Reach 4} {x_fallow : Vector Fallow 4} {x_upkeep : Vector Upkeep 4} {x_wardens : Vector Warden 4} {x_engines : Vector Engine 8} {x_ctxs : Vector Ctx 256} {x_proposals : List Proposal} {x_window : Window} {x_cal : Cal} {x_selftestPs : Nat} {x_outfall : Outfall} {x_replay : List ReplayKey} {x_replayJournalPs : Option Nat} {x_held : List Held} {x_queue : List Record} {x_kept : List Kept} {x_devReleased : Nat} {x_host : HPort} {x_tw : Tw} {x_still : Still} {x_tmr : Tmr} {x_ecc : Ecc} {x_pins : Pins} {x_scratch : Word} {x_readData : List Word} {x_draws : Nat}
    (h : Keeps s t) (h1 : x_part = t.part) (h2 : x_pending = t.pending) (h3 : x_flash = t.flash)
    (h4 : x_mailbox.pending = t.mailbox.pending) (h5 : x_mailbox.rdPtr = t.mailbox.rdPtr) (h6 : x_rtc.fracPs = t.rtc.fracPs) (h7 : x_keys = t.keys) :
    Keeps s (State.mk x_clock x_pending x_part x_phase x_releasedPs x_cause x_mgmtOnly x_doze x_refs x_sync x_rtc x_image x_keys x_flash x_journal x_mailbox x_reaches x_fallow x_upkeep x_wardens x_engines x_ctxs x_proposals x_window x_cal x_selftestPs x_outfall x_replay x_replayJournalPs x_held x_queue x_kept x_devReleased x_host x_tw x_still x_tmr x_ecc x_pins x_scratch x_readData x_draws) :=
  h.trans (Keeps.same h1 h2 h3 h4 h5 h6 h7)

theorem Keeps.flash {s t : State} (m : List Host.Cell) (h : Memory.wf s.flash = true → Memory.wf m = true) (h1 : t.part = s.part := by rfl)
    (h2 : t.pending = s.pending := by rfl) (h3 : t.flash = m := by rfl) (h4 : t.mailbox.pending = s.mailbox.pending := by rfl)
    (h5 : t.mailbox.rdPtr = s.mailbox.rdPtr := by rfl) (h6 : t.rtc.fracPs = s.rtc.fracPs := by rfl) (h7 : t.keys = s.keys := by rfl) : Keeps s t := by
  refine ⟨h1, h2, fun z => ⟨?_, ?_, ?_, ?_, ?_⟩, ?_, ?_, ?_⟩
  · rw [h3]; exact h z.flash
  · rw [h4]; exact z.ring
  · rw [h5]; exact z.ptr
  · rw [h6]; exact z.second
  · rw [h7]; exact z.otp
  · rw [h7]; exact id
  · rw [h7]; exact id
  · rw [h7]; exact fun _ _ _ h => h

theorem Keeps.second {s t : State} (h1 : t.part = s.part) (h2 : t.pending = s.pending) (h3 : t.flash = s.flash)
    (h4 : t.mailbox.pending = s.mailbox.pending) (h5 : t.mailbox.rdPtr = s.mailbox.rdPtr) (h6 : t.rtc.fracPs < secPs) (h7 : t.keys = s.keys) : Keeps s t := by
  refine ⟨h1, h2, fun z => ⟨?_, ?_, ?_, h6, ?_⟩, ?_, ?_, ?_⟩
  · rw [h3]; exact z.flash
  · rw [h4]; exact z.ring
  · rw [h5]; exact z.ptr
  · rw [h7]; exact z.otp
  · rw [h7]; exact id
  · rw [h7]; exact id
  · rw [h7]; exact fun _ _ _ h => h

theorem Keeps.keys {s t : State} (h1 : t.part = s.part) (h2 : t.pending = s.pending) (h3 : t.flash = s.flash)
    (h4 : t.mailbox.pending = s.mailbox.pending) (h5 : t.mailbox.rdPtr = s.mailbox.rdPtr) (h6 : t.rtc.fracPs = s.rtc.fracPs)
    (k1 : t.keys.slots = s.keys.slots) (k2 : t.keys.spoiled = s.keys.spoiled) (k3 : t.keys.busy = s.keys.busy)
    (k4 : t.keys.authBlown = s.keys.authBlown) (k5 : t.keys.stillBlown = s.keys.stillBlown) : Keeps s t := by
  refine ⟨h1, h2, fun z => ⟨?_, ?_, ?_, ?_, ?_⟩, ?_, ?_, ?_⟩
  · rw [h3]; exact z.flash
  · rw [h4]; exact z.ring
  · rw [h5]; exact z.ptr
  · rw [h6]; exact z.second
  · intro n k; rw [k3, Keys.slotSet, k1, k2]; exact z.otp n k
  · rw [k4]; exact id
  · rw [k5]; exact id
  · rw [k1]; exact fun _ _ _ h => h

/-- The ring and its read pointer are within their bounds. -/
def Mailbox.Bounded (m : Mailbox) : Prop := m.pending.length ≤ 1024 ∧ m.rdPtr < 1024

theorem Keeps.mailbox {s : State} (m : Mailbox) (h : s.mailbox.Bounded → m.Bounded) : Keeps s { s with mailbox := m } :=
  ⟨rfl, rfl, fun z => ⟨z.flash, (h ⟨z.ring, z.ptr⟩).1, (h ⟨z.ring, z.ptr⟩).2, z.second, z.otp⟩, id, id, fun _ _ _ h => h⟩

theorem Mailbox.alertLeft_keeps (m : Mailbox) (h : m.Bounded) : m.alertLeft.Bounded := by
  unfold Mailbox.alertLeft; split <;> exact h

theorem Mailbox.next_keeps (m : Mailbox) (h : m.Bounded) : m.next.Bounded := by
  unfold Mailbox.next
  split
  · exact h
  · rename_i e
    refine Mailbox.alertLeft_keeps _ ⟨?_, ?_⟩
    · have := h.1; rw [e] at this; simp at this ⊢; omega
    · simp only; omega

theorem Mailbox.flush_keeps (m : Mailbox) (_ : m.Bounded) : m.flush.Bounded :=
  Mailbox.alertLeft_keeps _ ⟨by simp, by simp only; omega⟩

theorem Keys.command_keeps (s : State) (confirm : BitVec 16) (op : Nat) (slot : Fin 8) :
    Keeps s { s with keys := s.keys.command confirm op slot } := by
  unfold Keys.command
  split
  · exact .keys rfl rfl rfl rfl rfl rfl rfl rfl rfl rfl rfl
  · split
    · exact .keys rfl rfl rfl rfl rfl rfl rfl rfl rfl rfl rfl
    · rename_i hr
      refine ⟨rfl, rfl, fun z => ⟨z.flash, z.ring, z.ptr, z.second, ?_⟩, id, id, fun _ _ _ h => h⟩
      intro n k e
      simp only [Option.some.injEq, Prod.mk.injEq] at e
      obtain ⟨rfl, rfl, -⟩ := e
      by_contra hs
      simp only [Bool.not_eq_false] at hs
      apply hr
      unfold Keys.refusal
      have : s.keys.slotSet slot = true := hs
      split <;> simp_all

theorem insertPost_length (l : List MboxEntry) (e : MboxEntry) : (insertPost l e).length = l.length + 1 := by
  unfold insertPost; simp; omega

theorem programAll_wf (l : List JRec) (m : List Host.Cell) (a : Nat) (h : Memory.wf m = true) : Memory.wf (programAll m a l) = true := by
  induction l generalizing m a with
  | nil => exact h
  | cons r l ih => exact ih _ _ (Memory.program_wf _ _ _ h)

theorem State.newBank_wf (s : State) (h : Memory.wf s.flash = true) : Memory.wf s.newBank.1 = true := by
  unfold State.newBank
  dsimp only
  apply Memory.program_wf
  apply programAll_wf
  exact Memory.erase_wf _ _ _ h

theorem cutRecord_wf (m : List Host.Cell) (a : Nat) (r : JRec) (n : Nat) (h : Memory.wf m = true) : Memory.wf (cutRecord m a r n) = true := by
  unfold cutRecord
  dsimp only
  split
  · exact h
  all_goals exact Memory.program_wf _ _ _ h

theorem State.cutCompact_wf (s : State) (n : Nat) (h : Memory.wf s.flash = true) : Memory.wf (s.cutCompact n) = true := by
  unfold State.cutCompact
  dsimp only
  split
  · exact Memory.erase_wf _ _ _ h
  · split
    · exact cutRecord_wf _ _ _ _ (programAll_wf _ _ _ (Memory.erase_wf _ _ _ h))
    · exact programAll_wf _ _ _ (Memory.erase_wf _ _ _ h)
  · exact Memory.program_wf _ _ _ (programAll_wf _ _ _ (Memory.erase_wf _ _ _ h))
  · exact Memory.program_wf _ _ _ (programAll_wf _ _ _ (Memory.erase_wf _ _ _ h))
  · exact Memory.erase_wf _ _ _ (State.newBank_wf s h)

theorem State.cutFlash_wf (s : State) (h : Memory.wf s.flash = true) : Memory.wf s.cutFlash = true := by
  unfold State.cutFlash
  split
  · exact cutRecord_wf _ _ _ _ h
  · exact State.cutCompact_wf s _ h
  · exact h

theorem secPs_pos : 0 < secPs := by decide

theorem State.modCtx_keeps (s : State) (c : Fin 256) (f : Ctx → Ctx) : Keeps s (State.modCtx s c f) := by
  unfold State.modCtx
  with_reducible
    repeat' (first
      | exact .refl _ | fail_if_no_progress (refine Keeps.upd ?_ rfl rfl rfl rfl rfl rfl rfl))

theorem State.modReach_keeps (s : State) (r : Fin 4) (f : Reach → Reach) : Keeps s (State.modReach s r f) := by
  unfold State.modReach
  with_reducible
    repeat' (first
      | exact .refl _ | fail_if_no_progress (refine Keeps.upd ?_ rfl rfl rfl rfl rfl rfl rfl))

theorem State.countClamps_keeps (s : State) (r : Fin 4) (n : Nat) : Keeps s (State.countClamps s r n) := by
  unfold State.countClamps
  with_reducible
    repeat' (first
      | exact .refl _ | refine .trans ?_ (State.modReach_keeps ..))

theorem State.noteSent_keeps (s : State) (c : Fin 256) (e : Nat) : Keeps s (State.noteSent s c e) := by
  unfold State.noteSent
  with_reducible
    repeat' (first
      | exact .refl _ | refine .trans ?_ (State.modCtx_keeps ..))

theorem State.handOver_keeps (s : State) (c : Fin 256) (r : Fin 4) (typ : Nat) (stamp : Nat) (payload : List Byte) (m : Marks) (combined : Bool) (discont : Bool) (to_ : Fin 256) :
    Keeps s (State.handOver s c r typ stamp payload m combined discont to_) := by
  unfold State.handOver
  with_reducible
    repeat' (first
      | exact .refl _ | fail_if_no_progress (refine Keeps.upd ?_ rfl rfl rfl rfl rfl rfl rfl) | refine .trans ?_ (State.modCtx_keeps ..))

theorem State.iqFlush_keeps (s : State) (c : Fin 256) : Keeps s (State.iqFlush s c) := by
  unfold State.iqFlush
  with_reducible
    repeat' (first
      | exact .refl _ | refine .trans ?_ (State.countClamps_keeps ..) | refine .trans ?_ (State.modCtx_keeps ..)
      | refine .trans ?_ (State.handOver_keeps ..) | refine Keeps.ite ?_ ?_)

theorem State.iqBreak_keeps (s : State) (c : Fin 256) : Keeps s (State.iqBreak s c) := by
  unfold State.iqBreak
  with_reducible
    repeat' (first
      | exact .refl _ | refine .trans ?_ (State.modCtx_keeps ..) | refine .trans ?_ (State.iqFlush_keeps ..))

theorem State.pcmSend_keeps (s : State) (c : Fin 256) : Keeps s (s.pcmSend c) := by
  unfold State.pcmSend
  extract_lets x n l
  clear_value l
  split
  · exact .refl _
  · split
    · exact ((State.modCtx_keeps ..).trans (State.handOver_keeps ..)).trans (State.noteSent_keeps ..)
    · exact State.modCtx_keeps ..

theorem State.pcmFlush_keeps (s : State) (c : Fin 256) : Keeps s (State.pcmFlush s c) := by
  unfold State.pcmFlush
  with_reducible
    repeat' (first
      | exact .refl _ | refine .trans ?_ (State.pcmSend_keeps ..) | refine .trans ?_ (State.forEach_keeps _ _ _ (fun _ _ => ?_)))

theorem State.eabFinish_keeps (s : State) (c : Fin 256) (status : Nat) (stage : Nat) (auth : Nat) (symbols : Nat) (other : Option Int) (endStamp : Nat) (echo : Bool) (dup : Bool) (on : Bool) :
    Keeps s (State.eabFinish s c status stage auth symbols other endStamp echo dup on) := by
  unfold State.eabFinish
  with_reducible
    repeat' (first
      | exact .refl _ | refine .trans ?_ (State.modCtx_keeps ..))

theorem State.eabInterrupt_keeps (s : State) (c : Fin 256) : Keeps s (State.eabInterrupt s c) := by
  unfold State.eabInterrupt
  with_reducible
    repeat' (first
      | exact .refl _ | refine .trans ?_ (State.eabFinish_keeps ..) | refine .trans ?_ (State.modCtx_keeps ..) | refine Keeps.ite ?_ ?_)

theorem State.journalStart_keeps (s : State) (j : Session) : Keeps s (s.journalStart j) := by
  unfold State.journalStart
  split
  · exact .same rfl rfl rfl rfl rfl rfl rfl
  · exact .flash _ (FlashOp.apply_wf _ _)
  · split <;> exact .same rfl rfl rfl rfl rfl rfl rfl

theorem State.journalRequest_keeps (s : State) (j : Session) : Keeps s (State.journalRequest s j).1 := by
  unfold State.journalRequest
  with_reducible
    repeat' (first
      | exact .refl _ | fail_if_no_progress (refine Keeps.upd ?_ rfl rfl rfl rfl rfl rfl rfl) | refine .trans ?_ (State.journalStart_keeps ..) | split)

theorem State.journalRequest_keeps' {s : State} {j : Session} {t'} {x'} (h' : State.journalRequest s j = (t', x')) : Keeps s t' := by
  have := State.journalRequest_keeps s j; rw [h'] at this; exact this

theorem State.faultRecord_keeps (s : State) (e : MboxEntry) : Keeps s (State.faultRecord s e) := by
  unfold State.faultRecord
  with_reducible
    repeat' (first
      | exact .refl _ | fail_if_no_progress (refine Keeps.upd ?_ rfl rfl rfl rfl rfl rfl rfl) | refine .trans ?_ (State.journalRequest_keeps ..)
      | refine Keeps.ite ?_ ?_)

theorem State.post_keeps (s : State) (src reach ctx code sev : Nat) (data : List Byte) : Keeps s (s.post src reach ctx code sev data) := by
  unfold State.post
  refine Keeps.trans ?_ (State.faultRecord_keeps ..)
  refine ⟨rfl, rfl, fun z => ⟨z.flash, ?_, ?_, z.second, z.otp⟩, id, id, fun _ _ _ h => h⟩
  · have := z.ring
    simp only [Mailbox.post, insertPost_length]
    split <;> simp_all
    omega
  · have := z.ptr
    simp only [Mailbox.post]
    split <;> omega

theorem State.clearSpans_keeps (s : State) (c : Fin 256) : Keeps s (State.clearSpans s c) := by
  unfold State.clearSpans
  with_reducible
    repeat' (first
      | exact .refl _ | refine .trans ?_ (State.modCtx_keeps ..))

theorem State.sendBuilt_keeps (s : State) (c : Fin 256) (r : Fin 4) (b : Built) : Keeps s (State.sendBuilt s c r b) := by
  unfold State.sendBuilt
  with_reducible
    repeat' (first
      | exact .refl _ | refine .trans ?_ (State.noteSent_keeps ..) | refine .trans ?_ (State.modCtx_keeps ..)
      | refine .trans ?_ (State.handOver_keeps ..))

theorem State.endTurn_keeps (s : State) (c : Fin 256) : Keeps s (s.endTurn c) := by
  unfold State.endTurn
  extract_lets lo
  split
  · exact .refl _
  · exact ((State.modCtx_keeps ..).trans (State.clearSpans_keeps ..)).trans (State.forEach_keeps _ _ _ (fun _ _ => State.sendBuilt_keeps ..))

theorem State.endRunOut_keeps (s : State) (c : Fin 256) (built : List Built) : Keeps s (s.endRunOut c built) := by
  unfold State.endRunOut
  split
  · exact .refl _
  · extract_lets t
    have ht : Keeps s t := (State.modCtx_keeps ..).trans (State.forEach_keeps _ _ _ (fun _ _ => State.sendBuilt_keeps ..))
    clear_value t
    exact (ht.trans (State.clearSpans_keeps ..)).trans (State.forEach_keeps _ _ _ (fun _ _ => State.sendBuilt_keeps ..))

theorem State.expireRunOut_keeps (s : State) (c : Fin 256) : Keeps s (State.expireRunOut s c) := by
  unfold State.expireRunOut
  with_reducible
    repeat' (first
      | exact .refl _ | refine .trans ?_ (State.endRunOut_keeps ..) | refine Keeps.ite ?_ ?_ | split)

theorem State.deliver_keeps (s : State) (c : Fin 256) (r : Fin 4) (b : Built) : Keeps s (s.deliver c r b) := by
  unfold State.deliver
  extract_lets t
  have ht : Keeps s t := State.expireRunOut_keeps ..
  clear_value t
  split
  · exact ht.trans (State.modCtx_keeps ..)
  · exact ht.trans (State.sendBuilt_keeps ..)

theorem State.twinRecord_keeps (s : State) (c : Fin 256) (r : Fin 4) (b : Built) : Keeps s (s.twinRecord c r b) := by
  unfold State.twinRecord
  extract_lets lo t
  have ht : Keeps s t := by
    dsimp only [t]
    split
    · split
      · exact State.endTurn_keeps ..
      · exact .refl _
    · exact .refl _
  clear_value t
  refine ht.trans ?_
  split
  · split
    · split
      · exact State.sendBuilt_keeps ..
      · exact State.endTurn_keeps ..
    · exact State.modCtx_keeps ..
  · split
    · exact State.deliver_keeps ..
    · exact State.modCtx_keeps ..

theorem State.sendItem_keeps (s : State) (c : Fin 256) (stamp : Nat) (pi : BitVec 16) (i : RdsItem) (m : Marks) : Keeps s (State.sendItem s c stamp pi i m) := by
  unfold State.sendItem
  with_reducible
    repeat' (first
      | exact .refl _ | refine .trans ?_ (State.twinRecord_keeps ..) | refine .trans ?_ (State.modCtx_keeps ..)
      | refine .trans ?_ (State.when_keeps _ _ _ ?_) | refine Keeps.ite ?_ ?_)

theorem State.sendWaiting_keeps (s : State) (c : Fin 256) : Keeps s (State.sendWaiting s c) := by
  unfold State.sendWaiting
  with_reducible
    repeat' (first
      | exact .refl _ | refine .trans ?_ (State.modCtx_keeps ..) | refine .trans ?_ (State.sendItem_keeps ..)
      | refine .trans ?_ (State.forEach_keeps _ _ _ (fun _ _ => ?_)))

theorem State.keep_keeps (s : State) (k : Kept) : Keeps s (State.keep s k) := by
  unfold State.keep
  with_reducible
    repeat' (first
      | exact .refl _ | fail_if_no_progress (refine Keeps.upd ?_ rfl rfl rfl rfl rfl rfl rfl) | refine .trans ?_ (State.post_keeps ..)
      | refine Keeps.ite ?_ ?_)

theorem State.enqueue_keeps (s : State) (r : Record) : Keeps s (State.enqueue s r) := by
  unfold State.enqueue
  with_reducible
    repeat' (first
      | exact .refl _ | fail_if_no_progress (refine Keeps.upd ?_ rfl rfl rfl rfl rfl rfl rfl) | refine .trans ?_ (State.keep_keeps ..)
      | refine .trans ?_ (State.post_keeps ..) | refine .trans ?_ (State.forEach_keeps _ _ _ (fun _ _ => ?_)) | refine Keeps.ite ?_ ?_)

theorem State.bumpReleased_keeps (s : State) (ctx : Nat) : Keeps s (State.bumpReleased s ctx) := by
  unfold State.bumpReleased
  with_reducible
    repeat' (first
      | exact .refl _ | fail_if_no_progress (refine Keeps.upd ?_ rfl rfl rfl rfl rfl rfl rfl) | refine .trans ?_ (State.modCtx_keeps ..) | split)

theorem State.release_keeps (s : State) (r : Record) : Keeps s (State.release s r) := by
  unfold State.release
  with_reducible
    repeat' (first
      | exact .refl _ | refine .trans ?_ (State.enqueue_keeps ..) | refine .trans ?_ (State.bumpReleased_keeps ..))

theorem State.emit_keeps (s : State) (typ : Nat) (ctx : Nat) (reach : Option (Fin 4)) (stamp : Nat) (payload : List Byte) :
    Keeps s (State.emit s typ ctx reach stamp payload) := by
  unfold State.emit
  with_reducible
    repeat' (first
      | exact .refl _ | refine .trans ?_ (State.release_keeps ..))

theorem State.afEvent_keeps (s : State) (event : Nat) (reason : Nat) (under : Fin 256) (for_ : Fin 256) (scout : Nat) (reach : Nat) (k : Carrier) (sources : BitVec 3) (level : Option Int) (cnr : Option Nat) (delay : Option Int) (stamp : Nat) :
    Keeps s (State.afEvent s event reason under for_ scout reach k sources level cnr delay stamp) := by
  unfold State.afEvent
  with_reducible
    repeat' (first
      | exact .refl _ | refine .trans ?_ (State.emit_keeps ..))

theorem State.endOneLanding_keeps (s : State) (c : Fin 256) (event : Nat) (reason : Nat) : Keeps s (State.endOneLanding s c event reason) := by
  unfold State.endOneLanding
  with_reducible
    repeat' (first
      | exact .refl _ | refine .trans ?_ (State.afEvent_keeps ..) | refine .trans ?_ (State.modCtx_keeps ..) | split)

theorem State.endLanding_keeps (s : State) (c : Fin 256) (event : Nat) (reason : Nat) : Keeps s (State.endLanding s c event reason) := by
  unfold State.endLanding
  with_reducible
    repeat' (first
      | exact .refl _ | refine .trans ?_ (State.endOneLanding_keeps ..) | split)

theorem State.twinEvent_keeps (s : State) (lo : Fin 256) (event : Nat) (ratios : Option (Nat × Nat)) (stamp : Nat) :
    Keeps s (State.twinEvent s lo event ratios stamp) := by
  unfold State.twinEvent
  with_reducible
    repeat' (first
      | exact .refl _ | refine .trans ?_ (State.modCtx_keeps ..) | refine .trans ?_ (State.emit_keeps ..))

theorem State.twinUpdate_keeps (s : State) (c : Fin 256) : Keeps s (State.twinUpdate s c) := by
  unfold State.twinUpdate
  with_reducible
    repeat' (first
      | exact .refl _ | refine .trans ?_ (State.twinEvent_keeps ..) | refine .trans ?_ (State.modCtx_keeps ..) | refine Keeps.ite ?_ ?_ | split)

theorem State.toState_keeps (s : State) (c : Fin 256) (new : CtxSt) : Keeps s (State.toState s c new) := by
  unfold State.toState
  with_reducible
    repeat' (first
      | exact .refl _
      | (extract_lets +onlyGivenNames t; refine (fun (ht : Keeps s t) => ?_) ?_; (on_goal 1 => clear_value t); on_goal 2 => (dsimp -zeta only [t]; clear t))
      | (extract_lets +onlyGivenNames t; clear_value t) | assumption | refine .trans ?_ (State.iqBreak_keeps ..)
      | refine .trans ?_ (State.pcmFlush_keeps ..) | refine .trans ?_ (State.eabInterrupt_keeps ..) | refine .trans ?_ (State.modCtx_keeps ..)
      | refine .trans ?_ (State.post_keeps ..) | refine .trans ?_ (State.sendWaiting_keeps ..) | refine .trans ?_ (State.endLanding_keeps ..)
      | refine .trans ?_ (State.twinUpdate_keeps ..) | refine .trans ?_ (State.when_keeps _ _ _ ?_) | refine Keeps.ite ?_ ?_)

theorem State.lockGained_keeps (s : State) (c : Fin 256) : Keeps s (State.lockGained s c) := by
  unfold State.lockGained
  with_reducible
    repeat' (first
      | exact .refl _ | refine .trans ?_ (State.toState_keeps ..) | refine Keeps.ite ?_ ?_)

theorem State.lockLost_keeps (s : State) (c : Fin 256) : Keeps s (State.lockLost s c) := by
  unfold State.lockLost
  with_reducible
    repeat' (first
      | exact .refl _ | refine .trans ?_ (State.toState_keeps ..) | refine Keeps.ite ?_ ?_)

theorem State.judgeLock_keeps (s : State) (c : Fin 256) (was : Bool) : Keeps s (State.judgeLock s c was) := by
  unfold State.judgeLock
  with_reducible
    repeat' (first
      | exact .refl _ | refine .trans ?_ (State.lockGained_keeps ..) | refine .trans ?_ (State.lockLost_keeps ..) | refine Keeps.ite ?_ ?_)

theorem State.modEab_keeps (s : State) (c : Fin 256) (f : Eab → Eab) : Keeps s (State.modEab s c f) := by
  unfold State.modEab
  with_reducible
    repeat' (first
      | exact .refl _ | refine .trans ?_ (State.modCtx_keeps ..))

theorem State.eabStep_keeps (s : State) (c : Fin 256) (lock : Bool) : Keeps s (State.eabStep s c lock) := by
  unfold State.eabStep
  with_reducible
    repeat' (first
      | exact .refl _ | refine .trans ?_ (State.judgeLock_keeps ..) | refine .trans ?_ (State.modEab_keeps ..))

theorem State.modWarden_keeps (s : State) (r : Fin 4) (f : Warden → Warden) : Keeps s (State.modWarden s r f) := by
  unfold State.modWarden
  with_reducible
    repeat' (first
      | exact .refl _ | fail_if_no_progress (refine Keeps.upd ?_ rfl rfl rfl rfl rfl rfl rfl))

theorem State.restartWarden_keeps (s : State) (p : Proposal) : Keeps s (State.restartWarden s p) := by
  unfold State.restartWarden
  with_reducible
    repeat' (first
      | exact .refl _ | refine .trans ?_ (State.post_keeps ..) | refine .trans ?_ (State.modWarden_keeps ..))

theorem State.modEngine_keeps (s : State) (e : Fin 8) (f : Engine → Engine) : Keeps s (State.modEngine s e f) := by
  unfold State.modEngine
  with_reducible
    repeat' (first
      | exact .refl _ | fail_if_no_progress (refine Keeps.upd ?_ rfl rfl rfl rfl rfl rfl rfl))

theorem State.restartEngine_keeps (s : State) (p : Proposal) : Keeps s (State.restartEngine s p) := by
  unfold State.restartEngine
  with_reducible
    repeat' (first
      | exact .refl _ | refine .trans ?_ (State.modWarden_keeps ..) | refine .trans ?_ (State.modEngine_keeps ..)
      | refine .trans ?_ (State.post_keeps ..) | refine .trans ?_ (State.modCtx_keeps ..)
      | refine .trans ?_ (State.forEach_keeps _ _ _ (fun _ _ => ?_)))

theorem State.modFallow_keeps (s : State) (r : Fin 4) (f : Fallow → Fallow) : Keeps s (State.modFallow s r f) := by
  unfold State.modFallow
  with_reducible
    repeat' (first
      | exact .refl _ | fail_if_no_progress (refine Keeps.upd ?_ rfl rfl rfl rfl rfl rfl rfl))

theorem State.retireSubAdc_keeps (s : State) (p : Proposal) : Keeps s (State.retireSubAdc s p) := by
  unfold State.retireSubAdc
  with_reducible
    repeat' (first
      | exact .refl _ | refine .trans ?_ (State.post_keeps ..) | refine .trans ?_ (State.modWarden_keeps ..)
      | refine .trans ?_ (State.modFallow_keeps ..))

theorem State.recover_keeps (s : State) (p : Proposal) : Keeps s (s.recover p) := by
  unfold State.recover
  split
  · exact State.restartWarden_keeps ..
  · exact .refl _
  · exact State.restartEngine_keeps ..
  · exact State.retireSubAdc_keeps ..

theorem State.unplace_keeps (s : State) (c : Fin 256) : Keeps s (State.unplace s c) := by
  unfold State.unplace
  with_reducible
    repeat' (first
      | exact .refl _ | refine .trans ?_ (State.modCtx_keeps ..))

theorem State.changeChain_keeps (s : State) (c : Fin 256) (k : ChainStep) (e : Entry) : Keeps s (State.changeChain s c k e) := by
  unfold State.changeChain
  with_reducible
    repeat' (first
      | exact .refl _ | refine .trans ?_ (State.modCtx_keeps ..))

theorem State.startChain_keeps (s : State) (c : Fin 256) (e : Entry) : Keeps s (State.startChain s c e) := by
  unfold State.startChain
  with_reducible
    repeat' (first
      | exact .refl _ | refine .trans ?_ (State.changeChain_keeps ..) | refine .trans ?_ (State.modCtx_keeps ..))

theorem State.modUpkeep_keeps (s : State) (r : Fin 4) (f : Upkeep → Upkeep) : Keeps s (State.modUpkeep s r f) := by
  unfold State.modUpkeep
  with_reducible
    repeat' (first
      | exact .refl _ | fail_if_no_progress (refine Keeps.upd ?_ rfl rfl rfl rfl rfl rfl rfl))

theorem State.closeSwitch_keeps (s : State) (r : Fin 4) : Keeps s (State.closeSwitch s r) := by
  unfold State.closeSwitch
  with_reducible
    repeat' (first
      | exact .refl _ | refine .trans ?_ (State.modUpkeep_keeps ..) | refine .trans ?_ (State.withSome_keeps _ _ _ (fun _ => ?_)))

theorem State.retrySlot_keeps (s : State) (r : Fin 4) : Keeps s (State.retrySlot s r) := by
  unfold State.retrySlot
  with_reducible
    repeat' (first
      | exact .refl _ | refine .trans ?_ (State.modUpkeep_keeps ..) | refine .trans ?_ (State.withSome_keeps _ _ _ (fun _ => ?_)) | split)

theorem State.calReport_keeps (s : State) (r : Fin 4) (q : CalReport) : Keeps s (State.calReport s r q) := by
  unfold State.calReport
  with_reducible
    repeat' (first
      | exact .refl _ | refine .trans ?_ (State.emit_keeps ..))

theorem State.response_keeps (s : State) (id : BitVec 32) (op : Nat) (status : Nat) (reason : Nat) (rep : Bool) (result : List Byte) :
    Keeps s (State.response s id op status reason rep result) := by
  unfold State.response
  with_reducible
    repeat' (first
      | exact .refl _ | refine .trans ?_ (State.emit_keeps ..))

theorem State.respondOne_keeps (s : State) (id : BitVec 32) (op : Nat) (status : Nat) (reason : Nat) (result : List Byte) :
    Keeps s (State.respondOne s id op status reason result) := by
  unfold State.respondOne
  with_reducible
    repeat' (first
      | exact .refl _ | fail_if_no_progress (refine Keeps.upd ?_ rfl rfl rfl rfl rfl rfl rfl) | refine .trans ?_ (State.response_keeps ..))

theorem State.respond_keeps (s : State) (id : BitVec 32) (op : Nat) (status : Nat) (reason : Nat) (result : List Byte) :
    Keeps s (State.respond s id op status reason result) := by
  unfold State.respond
  with_reducible
    repeat' (first
      | exact .refl _ | fail_if_no_progress (refine Keeps.upd ?_ rfl rfl rfl rfl rfl rfl rfl) | refine .trans ?_ (State.respondOne_keeps ..)
      | refine .trans ?_ (State.forEach_keeps _ _ _ (fun _ _ => ?_)) | refine Keeps.ite ?_ ?_)

theorem State.endActivity_keeps (s : State) (r : Fin 4) (a : Activity) (q : CalReport) (qrp : Nat) : Keeps s (State.endActivity s r a q qrp) := by
  unfold State.endActivity
  with_reducible
    repeat' (first
      | exact .refl _ | refine .trans ?_ (State.calReport_keeps ..) | refine .trans ?_ (State.respond_keeps ..)
      | refine .trans ?_ (State.forEach_keeps _ _ _ (fun _ _ => ?_)))

theorem State.startPoint_keeps (s : State) (r : Fin 4) (a : Activity) (start : Nat) : Keeps s (State.startPoint s r a start) := by
  unfold State.startPoint
  with_reducible
    repeat' (first
      | exact .refl _ | refine .trans ?_ (State.modUpkeep_keeps ..) | refine .trans ?_ (State.endActivity_keeps ..) | refine Keeps.ite ?_ ?_ | split)

theorem State.openSwitch_keeps (s : State) (r : Fin 4) : Keeps s (State.openSwitch s r) := by
  unfold State.openSwitch
  with_reducible
    repeat' (first
      | exact .refl _ | refine .trans ?_ (State.modUpkeep_keeps ..) | refine .trans ?_ (State.startPoint_keeps ..)
      | refine .trans ?_ (State.withSome_keeps _ _ _ (fun _ => ?_)) | refine Keeps.ite ?_ ?_ | split)

theorem State.calSettle_keeps (s : State) (r : Fin 4) : Keeps s (State.calSettle s r) := by
  unfold State.calSettle
  with_reducible
    repeat' (first
      | exact .refl _ | refine .trans ?_ (State.closeSwitch_keeps ..) | refine .trans ?_ (State.retrySlot_keeps ..)
      | refine .trans ?_ (State.openSwitch_keeps ..))

theorem State.abortRun_keeps (s : State) (r : Fin 4) (reason : Nat) (qrp : Nat) : Keeps s (State.abortRun s r reason qrp) := by
  unfold State.abortRun
  with_reducible
    repeat' (first
      | exact .refl _
      | (extract_lets +onlyGivenNames t; refine (fun (ht : Keeps s t) => ?_) ?_; (on_goal 1 => clear_value t); on_goal 2 => (dsimp -zeta only [t]; clear t))
      | assumption | refine .trans ?_ (State.calSettle_keeps ..) | refine .trans ?_ (State.endActivity_keeps ..)
      | refine .trans ?_ (State.modUpkeep_keeps ..) | refine .trans ?_ (State.modFallow_keeps ..)
      | refine .trans ?_ (State.withSome_keeps _ _ _ (fun _ => ?_)))

theorem State.windowReason_keeps (s : State) (c : Fin 256) (pair : Option (Fin 256)) (reason : Nat) : Keeps s (State.windowReason s c pair reason) := by
  unfold State.windowReason
  with_reducible
    repeat' (first
      | exact .refl _ | fail_if_no_progress (refine Keeps.upd ?_ rfl rfl rfl rfl rfl rfl rfl) | refine Keeps.ite ?_ ?_)

theorem State.abandoned_keeps (s : State) (c : Fin 256) (reason : Nat) : Keeps s (State.abandoned s c reason) := by
  unfold State.abandoned
  with_reducible
    repeat' (first
      | exact .refl _ | refine .trans ?_ (State.afEvent_keeps ..) | refine .trans ?_ (State.modCtx_keeps ..) | split | (extract_lets))

theorem State.endPending_keeps (s : State) (c : Fin 256) (reason : Nat) (afReason : Nat) : Keeps s (State.endPending s c reason afReason) := by
  unfold State.endPending
  with_reducible
    repeat' (first
      | exact .refl _ | refine .trans ?_ (State.modCtx_keeps ..) | refine .trans ?_ (State.respond_keeps ..)
      | refine .trans ?_ (State.windowReason_keeps ..) | refine .trans ?_ (State.abandoned_keeps ..) | split)

theorem State.recheck_keeps (s : State) (c : Fin 256) (left : Entry) : Keeps s (State.recheck s c left) := by
  unfold State.recheck
  with_reducible
    repeat' (first
      | exact .refl _ | refine .trans ?_ (State.endPending_keeps ..) | refine .trans ?_ (State.modCtx_keeps ..) | split | (extract_lets))

theorem State.putAt_keeps (s : State) (c : Fin 256) (p : Place) (t : Fin 8) : Keeps s (s.putAt c p t) := by
  unfold State.putAt
  extract_lets left snapOk u
  have hu : Keeps s u := ((State.abortRun_keeps ..).trans (State.modCtx_keeps ..)).trans (State.startChain_keeps ..)
  clear_value u
  refine hu.trans (Keeps.trans ?_ (State.recheck_keeps ..))
  split
  · exact .refl _
  · exact State.toState_keeps ..

theorem State.leaveWaiting_keeps (s : State) (c : Fin 256) : Keeps s (State.leaveWaiting s c) := by
  unfold State.leaveWaiting
  with_reducible
    repeat' (first
      | exact .refl _ | refine .trans ?_ (State.modCtx_keeps ..) | refine .trans ?_ (State.endPending_keeps ..)
      | refine .trans ?_ (State.post_keeps ..) | refine Keeps.ite ?_ ?_)

theorem State.twinWaits_keeps (s : State) (c : Fin 256) : Keeps s (State.twinWaits s c) := by
  unfold State.twinWaits
  with_reducible
    repeat' (first
      | exact .refl _ | refine .trans ?_ (State.modCtx_keeps ..) | refine .trans ?_ (State.post_keeps ..) | refine Keeps.ite ?_ ?_)

theorem State.placeContexts_keeps (s0 : State) (rs : List (Fin 4)) : Keeps s0 (State.placeContexts s0 rs) := by
  unfold State.placeContexts
  with_reducible
    repeat' (first
      | exact .refl _
      | (extract_lets +onlyGivenNames t; refine (fun (ht : Keeps s0 t) => ?_) ?_; (on_goal 1 => clear_value t); on_goal 2 => (dsimp -zeta only [t]; clear t))
      | (extract_lets +onlyGivenNames t; clear_value t) | assumption | refine .trans ?_ (State.unplace_keeps ..)
      | refine .trans ?_ (State.modCtx_keeps ..) | refine .trans ?_ (State.putAt_keeps ..) | refine .trans ?_ (State.leaveWaiting_keeps ..)
      | refine .trans ?_ (State.twinWaits_keeps ..) | refine .trans ?_ (State.forEach_keeps _ _ _ (fun _ _ => ?_)) | refine Keeps.ite ?_ ?_ | split)

theorem State.stopReach_keeps (s : State) (r : Fin 4) (st : ReachSt) (evidencePs : Nat) : Keeps s (State.stopReach s r st evidencePs) := by
  unfold State.stopReach
  with_reducible
    repeat' (first
      | exact .refl _ | fail_if_no_progress (refine Keeps.upd ?_ rfl rfl rfl rfl rfl rfl rfl) | refine .trans ?_ (State.modReach_keeps ..)
      | refine .trans ?_ (State.modWarden_keeps ..) | refine .trans ?_ (State.modEngine_keeps ..))

theorem State.giveBack_keeps (s : State) (l : List Held) (c : Fin 256) : Keeps s (State.giveBack s l c) := by
  unfold State.giveBack
  with_reducible
    repeat' (first
      | exact .refl _ | refine .trans ?_ (State.modCtx_keeps ..) | refine Keeps.ite ?_ ?_)

theorem State.loseRunOut_keeps (s : State) (r : Fin 4) (c : Fin 256) (o : RunOut) : Keeps s (State.loseRunOut s r c o) := by
  unfold State.loseRunOut
  with_reducible
    repeat' (first
      | exact .refl _ | refine .trans ?_ (State.modCtx_keeps ..) | refine .trans ?_ (State.endRunOut_keeps ..) | refine Keeps.ite ?_ ?_)

theorem State.modFollow_keeps (s : State) (c : Fin 256) (f : Follow → Follow) : Keeps s (State.modFollow s c f) := by
  unfold State.modFollow
  with_reducible
    repeat' (first
      | exact .refl _ | refine .trans ?_ (State.modCtx_keeps ..))

theorem State.addCand_keeps (s : State) (c : Fin 256) (src : BitVec 3) (k : Carrier) : Keeps s (State.addCand s c src k) := by
  unfold State.addCand
  with_reducible
    repeat' (first
      | exact .refl _ | refine .trans ?_ (State.modCtx_keeps ..) | refine .trans ?_ (State.afEvent_keeps ..) | refine Keeps.ite ?_ ?_ | split)

theorem State.journalLearned_keeps (s : State) (c : Fin 256) : Keeps s (State.journalLearned s c) := by
  unfold State.journalLearned
  with_reducible
    repeat' (first
      | exact .refl _ | refine .trans ?_ (State.journalRequest_keeps ..) | refine .trans ?_ (State.modFollow_keeps ..) | refine Keeps.ite ?_ ?_)

theorem State.endCheck_keeps (s : State) (sc : Fin 256) (result : Nat) (level : Option Int) (cnr : Option Nat) : Keeps s (State.endCheck s sc result level cnr) := by
  unfold State.endCheck
  with_reducible
    repeat' (first
      | exact .refl _ | refine .trans ?_ (State.modFollow_keeps ..) | refine .trans ?_ (State.addCand_keeps ..)
      | refine .trans ?_ (State.afEvent_keeps ..) | refine .trans ?_ (State.journalLearned_keeps ..) | refine Keeps.ite ?_ ?_ | split)

theorem State.endWork_keeps (s : State) (r : Fin 4) (c : Fin 256) : Keeps s (State.endWork s r c) := by
  unfold State.endWork
  with_reducible
    repeat' (first
      | exact .refl _ | refine .trans ?_ (State.endLanding_keeps ..) | refine .trans ?_ (State.loseRunOut_keeps ..)
      | refine .trans ?_ (State.endCheck_keeps ..) | refine Keeps.ite ?_ ?_ | split)

theorem State.uproot_keeps (s : State) (r : Fin 4) (c : Fin 256) : Keeps s (State.uproot s r c) := by
  unfold State.uproot
  with_reducible
    repeat' (first
      | exact .refl _ | refine .trans ?_ (State.toState_keeps ..) | refine .trans ?_ (State.modCtx_keeps ..) | refine Keeps.ite ?_ ?_)

theorem State.stopFailed_keeps (s : State) (q : ReachFailure) : Keeps s (s.stopFailed q) := by
  unfold State.stopFailed
  extract_lets r fails evidenceNs lost a b mine
  have ha : Keeps s a := ((State.abortRun_keeps ..).trans (State.stopReach_keeps ..)).trans (State.modUpkeep_keeps ..)
  have hb : Keeps s b := ha.trans (State.post_keeps ..)
  clear_value b
  exact ((hb.trans (State.forEach_keeps _ _ _ (fun _ _ => (State.giveBack_keeps ..).trans (State.modCtx_keeps ..)))).trans
    (State.forEach_keeps _ _ _ (fun _ _ => State.endWork_keeps ..))).trans (State.forEach_keeps _ _ _ (fun _ _ => State.uproot_keeps ..))

theorem State.endNaming_keeps (s : State) (r : Fin 4) (c : Fin 256) : Keeps s (State.endNaming s r c) := by
  unfold State.endNaming
  with_reducible
    repeat' (first
      | exact .refl _ | refine .trans ?_ (State.endPending_keeps ..) | refine Keeps.ite ?_ ?_ | split | (extract_lets))

theorem State.abortQueued_keeps (s : State) (r : Fin 4) (p : Activity → Bool) (reason : Nat) (qrp : Nat) : Keeps s (State.abortQueued s r p reason qrp) := by
  unfold State.abortQueued
  with_reducible
    repeat' (first
      | exact .refl _ | refine .trans ?_ (State.modUpkeep_keeps ..) | refine .trans ?_ (State.endActivity_keeps ..)
      | refine .trans ?_ (State.forEach_keeps _ _ _ (fun _ _ => ?_)))

theorem State.giveUp_keeps (s : State) (r : Fin 4) (c : Fin 256) : Keeps s (State.giveUp s r c) := by
  unfold State.giveUp
  with_reducible
    repeat' (first
      | exact .refl _ | refine .trans ?_ (State.modCtx_keeps ..) | refine .trans ?_ (State.toState_keeps ..)
      | refine .trans ?_ (State.endPending_keeps ..) | refine Keeps.ite ?_ ?_)

theorem State.repairOrRetire_keeps (s : State) (q : ReachFailure) : Keeps s (s.repairOrRetire q) := by
  unfold State.repairOrRetire
  extract_lets r n d
  have hd : Keeps s d := (State.forEach_keeps _ _ _ (fun _ _ => State.endNaming_keeps ..)).trans (State.modReach_keeps ..)
  clear_value d
  split
  · exact ((hd.trans (State.post_keeps ..)).trans (State.forEach_keeps _ _ _ (fun _ _ => State.giveUp_keeps ..))).trans (State.abortQueued_keeps ..)
  · exact hd

theorem State.failReaches_keeps (s : State) (l : List ReachFailure) : Keeps s (s.failReaches l) :=
  ((State.forEach_keeps _ _ _ (fun _ _ => State.stopFailed_keeps ..)).trans (State.placeContexts_keeps ..)).trans
    (State.forEach_keeps _ _ _ (fun _ _ => State.repairOrRetire_keeps ..))

theorem State.carryOut_keeps (s : State) (l : List Proposal) : Keeps s (s.carryOut l) := by
  have h : ∀ (a : Action) (u : State), Keeps u (u.forEach (ofKind a l) (fun p u => if u.stands p then u.recover p else u)) := fun a u =>
    State.forEach_keeps _ _ _ (fun p t => Keeps.ite (State.recover_keeps t p) (.refl t))
  have ht : Keeps s { s with proposals := s.proposals.filter (fun p => !l.contains p) } := .same rfl rfl rfl rfl rfl rfl rfl
  exact (((ht.trans (h _ _)).trans (State.failReaches_keeps ..)).trans (h _ _)).trans (h _ _)

theorem State.votesCome_keeps (s : State) (l : List Vote) : Keeps s (s.votesCome l) := by
  have hc : ∀ (u : State × List Proposal) (v : Vote), Keeps u.1 (State.count u v).1 := fun u v => by
    unfold State.count
    dsimp only
    split
    · split
      · exact .refl _
      · exact .same rfl rfl rfl rfl rfl rfl rfl
    · exact .refl _
  have hf : ∀ (l : List Vote) (u : State × List Proposal), Keeps u.1 (l.foldl State.count u).1 := by
    intro l
    induction l with
    | nil => exact fun u => .refl _
    | cons v l ih => exact fun u => (hc u v).trans (ih _)
  unfold State.votesCome
  extract_lets q
  have hq : Keeps s q.1 := hf l (s, [])
  clear_value q
  split
  · exact hq
  · exact hq.trans (State.carryOut_keeps ..)

theorem State.combineDone_keeps (s : State) (c : Fin 256) : Keeps s (State.combineDone s c) := by
  unfold State.combineDone
  with_reducible
    repeat' (first
      | exact .refl _ | refine .trans ?_ (State.modCtx_keeps ..))

theorem State.advance_keeps (s : State) (dt : Nat) : Keeps s (s.advance dt) := by
  refine ⟨rfl, rfl, fun z => ⟨z.flash, z.ring, z.ptr, ?_, z.otp⟩, id, id, fun _ _ _ h => h⟩
  simp only [State.advance, secPs]; omega

theorem execSupplyBackInRange_keeps (dt : Nat) (k : Fin 6) (mv : Nat) (ioc : Nat) (s : State) : ∃ t, execSupplyBackInRange dt k mv ioc s = .next t ∧ Keeps s t := by
  refine ⟨_, rfl, ?_⟩
  refine .trans (State.advance_keeps ..) (State.when_keeps _ _ _ ?_)
  with_reducible
    repeat' (first
      | exact .refl _ | fail_if_no_progress (refine Keeps.upd ?_ rfl rfl rfl rfl rfl rfl rfl))

theorem State.applyList_keeps (s : State) (c : Fin 256) (src : Nat) (given : List Carrier) : Keeps s (State.applyList s c src given) := by
  unfold State.applyList
  with_reducible
    repeat' (first
      | exact .refl _ | refine .trans ?_ (State.modCtx_keeps ..) | refine .trans ?_ (State.afEvent_keeps ..)
      | refine .trans ?_ (State.addCand_keeps ..) | refine .trans ?_ (State.forEach_keeps _ _ _ (fun _ _ => ?_)) | refine Keeps.ite ?_ ?_)

theorem State.refreshCands_keeps (s : State) (c : Fin 256) : Keeps s (State.refreshCands s c) := by
  unfold State.refreshCands
  with_reducible
    repeat' (first
      | exact .refl _ | refine .trans ?_ (State.modCtx_keeps ..) | refine .trans ?_ (State.applyList_keeps ..) | refine Keeps.ite ?_ ?_)

theorem State.switchOne_keeps (s : State) (c : Fin 256) (stamp : Nat) (d : Landed) (built : List Built) : Keeps s (State.switchOne s c stamp d built) := by
  unfold State.switchOne
  with_reducible
    repeat' (first
      | exact .refl _
      | (extract_lets +onlyGivenNames t; refine (fun (ht : Keeps s t) => ?_) ?_; (on_goal 1 => clear_value t); on_goal 2 => (dsimp -zeta only [t]; clear t))
      | (extract_lets +onlyGivenNames t; clear_value t) | assumption | refine .trans ?_ (State.modCtx_keeps ..)
      | refine .trans ?_ (State.afEvent_keeps ..) | refine .trans ?_ (State.toState_keeps ..) | refine .trans ?_ (State.addCand_keeps ..)
      | refine .trans ?_ (State.refreshCands_keeps ..) | refine Keeps.ite ?_ ?_ | split)

theorem execAfSwitch_keeps (dt : Nat) (c : Fin 256) (other : Landed) (otherBuilt : List Built) (switchStamp : Nat) (d : Landed) (built : List Built) (s : State) :
    ∃ t, execAfSwitch dt c other otherBuilt switchStamp d built s = .next t ∧ Keeps s t := by
  refine ⟨_, rfl, ?_⟩
  refine .trans (State.advance_keeps ..) (State.when_keeps _ _ _ ?_)
  with_reducible
    repeat' (first
      | exact .refl _ | refine .trans ?_ (State.switchOne_keeps ..) | refine .trans ?_ (State.forEach_keeps _ _ _ (fun _ _ => ?_)))

theorem State.keysEnd_keeps (s : State) (op : Nat) (slot : Fin 8) (key : BitVec 128) (ok : Bool) (h : s.keys.busy = some (op, slot, key)) :
    Keeps s (s.keysEnd op slot key ok) := by
  unfold State.keysEnd
  extract_lets k
  split
  · exact ⟨rfl, rfl, fun z => ⟨z.flash, z.ring, z.ptr, z.second, by simp [k]⟩, id, id, fun _ _ _ h => h⟩
  · split
    · refine Keeps.trans ?_ (State.post_keeps ..)
      refine ⟨rfl, rfl, fun z => ⟨z.flash, z.ring, z.ptr, z.second, by simp [k]⟩, id, id, fun z n q hq => ?_⟩
      have := z.otp slot key h
      simp only [Keys.slotSet, Bool.or_eq_false_iff, Option.isSome_eq_false_iff, Option.isNone_iff_eq_none] at this
      have hne : n ≠ slot := by rintro rfl; simp_all
      have : (s.keys.slots.set slot (some key))[n] = s.keys.slots[n] := by
        simp [Vector.getElem_set, Fin.val_inj, hne.symm]
      exact this.trans hq
    · refine Keeps.trans ?_ (State.post_keeps ..)
      exact ⟨rfl, rfl, fun z => ⟨z.flash, z.ring, z.ptr, z.second, by simp [k]⟩, fun _ => rfl, id, fun _ _ _ h => h⟩
    · refine Keeps.trans ?_ (State.post_keeps ..)
      exact ⟨rfl, rfl, fun z => ⟨z.flash, z.ring, z.ptr, z.second, by simp [k]⟩, id, fun _ => rfl, fun _ _ _ h => h⟩

theorem State.modOut_keeps (s : State) (f : Outfall → Outfall) : Keeps s (State.modOut s f) := by
  unfold State.modOut
  with_reducible
    repeat' (first
      | exact .refl _ | fail_if_no_progress (refine Keeps.upd ?_ rfl rfl rfl rfl rfl rfl rfl))

theorem State.txReport_keeps (s : State) (x : Tx) (event : Nat) (status : Nat) (tflags : Nat) (level : Option Int) (startNs : Option Nat) (stamp : Nat) :
    Keeps s (State.txReport s x event status tflags level startNs stamp) := by
  unfold State.txReport
  with_reducible
    repeat' (first
      | exact .refl _ | refine .trans ?_ (State.emit_keeps ..))

theorem State.relayRefuse_keeps (s : State) (c : Fin 256) (q : Ended) (h : BitVec 128) (n : Nat) : Keeps s (State.relayRefuse s c q h n) := by
  unfold State.relayRefuse
  with_reducible
    repeat' (first
      | exact .refl _ | refine .trans ?_ (State.modOut_keeps ..) | refine .trans ?_ (State.txReport_keeps ..)
      | refine .trans ?_ (State.when_keeps _ _ _ ?_))

theorem State.relaySwap_keeps (s : State) (c : Fin 256) (d : Fin 256) (q : Ended) (h : BitVec 128) : Keeps s (State.relaySwap s c d q h) := by
  unfold State.relaySwap
  with_reducible
    repeat' (first
      | exact .refl _ | refine .trans ?_ (State.modOut_keeps ..) | refine .trans ?_ (State.relayRefuse_keeps ..))

theorem State.tmrDiffers_keeps (s : State) (copy : Fin 3) : Keeps s (State.tmrDiffers s copy) := by
  unfold State.tmrDiffers
  with_reducible
    repeat' (first
      | exact .refl _ | fail_if_no_progress (refine Keeps.upd ?_ rfl rfl rfl rfl rfl rfl rfl) | refine .trans ?_ (State.post_keeps ..)
      | refine Keeps.ite ?_ ?_)

theorem execTmrMismatch_keeps (dt : Nat) (copy : Fin 3) (s : State) : ∃ t, execTmrMismatch dt copy s = .next t ∧ Keeps s t := by
  refine ⟨_, rfl, ?_⟩
  refine .trans (State.advance_keeps ..) (State.when_keeps _ _ _ ?_)
  with_reducible
    repeat' (first
      | exact .refl _ | refine .trans ?_ (State.tmrDiffers_keeps ..))

theorem State.writeIgnored_keeps (s : State) (addr : Addr) : Keeps s (State.writeIgnored s addr) := by
  unfold State.writeIgnored
  with_reducible
    repeat' (first
      | exact .refl _ | refine .trans ?_ (State.post_keeps ..))

theorem State.journalOp_keeps (s : State) (f : State → State) (hf : Keeps s (f s)) : Keeps s (s.journalOp f) := by
  unfold State.journalOp
  split
  · exact State.writeIgnored_keeps ..
  · exact hf

theorem State.windowSession_keeps (s : State) (j : Job) : Keeps s (State.windowSession s j) := by
  unfold State.windowSession
  with_reducible
    repeat' (first
      | exact .refl _ | fail_if_no_progress (refine Keeps.upd ?_ rfl rfl rfl rfl rfl rfl rfl)
      | refine .trans ?_ (State.journalRequest_keeps' (by assumption)) | split)

theorem execJournalCompact_keeps (dt : Nat) (s : State) : ∃ t, execJournalCompact dt s = .next t ∧ Keeps s t := by
  refine ⟨_, rfl, ?_⟩
  refine .trans (State.advance_keeps ..) (State.when_keeps _ _ _ ?_)
  with_reducible
    repeat' (first
      | exact .refl _ | refine .trans ?_ (State.windowSession_keeps ..) | refine .trans ?_ (State.journalOp_keeps _ _ ?_))

theorem State.sendFrame_keeps (s : State) (f : Frame) : Keeps s (State.sendFrame s f) := by
  unfold State.sendFrame
  with_reducible
    repeat' (first
      | exact .refl _ | fail_if_no_progress (refine Keeps.upd ?_ rfl rfl rfl rfl rfl rfl rfl))

theorem State.reply_keeps (s : State) (f : Frame) : Keeps s (State.reply s f) := by
  unfold State.reply
  with_reducible
    repeat' (first
      | exact .refl _ | refine .trans ?_ (State.sendFrame_keeps ..) | refine Keeps.ite ?_ ?_)

theorem State.endSession_keeps (s : State) (reason : Nat) : Keeps s (State.endSession s reason) := by
  unfold State.endSession
  with_reducible
    repeat' (first
      | exact .refl _ | fail_if_no_progress (refine Keeps.upd ?_ rfl rfl rfl rfl rfl rfl rfl) | refine .trans ?_ (State.reply_keeps ..)
      | refine .trans ?_ (State.post_keeps ..) | split)

theorem State.writeHostAddress_keeps (s : State) (addr : Addr) (v : Word) : Keeps s (State.writeHostAddress s addr v) := by
  unfold State.writeHostAddress
  with_reducible
    repeat' (first
      | exact .refl _ | fail_if_no_progress (refine Keeps.upd ?_ rfl rfl rfl rfl rfl rfl rfl) | refine .trans ?_ (State.endSession_keeps ..) | split)

theorem execHostportAddressWrite_keeps (dt : Nat) (addr : Addr) (value : Word) (s : State) : ∃ t, execHostportAddressWrite dt addr value s = .next t ∧ Keeps s t := by
  refine ⟨_, rfl, ?_⟩
  refine .trans (State.advance_keeps ..) (State.when_keeps _ _ _ ?_)
  with_reducible
    repeat' (first
      | exact .refl _ | refine .trans ?_ (State.writeHostAddress_keeps ..))

theorem State.replayCal_keeps (s : State) (r : JRec) : Keeps s (State.replayCal s r) := by
  unfold State.replayCal
  with_reducible
    repeat' (first
      | exact .refl _ | refine .trans ?_ (State.modUpkeep_keeps ..) | refine Keeps.ite ?_ ?_ | split | (extract_lets))

theorem State.replayLearned_keeps (s : State) (r : JRec) : Keeps s (State.replayLearned s r) := by
  unfold State.replayLearned
  with_reducible
    repeat' (first
      | exact .refl _ | refine .trans ?_ (State.modFollow_keeps ..) | refine .trans ?_ (State.applyList_keeps ..) | refine Keeps.ite ?_ ?_ | split)

theorem State.replayTable_keeps (s : State) (r : JRec) : Keeps s (State.replayTable s r) := by
  unfold State.replayTable
  with_reducible
    repeat' (first
      | exact .refl _ | fail_if_no_progress (refine Keeps.upd ?_ rfl rfl rfl rfl rfl rfl rfl)
      | refine .trans ?_ (State.forEach_keeps _ _ _ (fun _ _ => ?_)))

theorem State.replayTrim_keeps (s : State) (r : JRec) : Keeps s (State.replayTrim s r) := by
  unfold State.replayTrim
  with_reducible
    repeat' (first
      | exact .refl _ | fail_if_no_progress (refine Keeps.upd ?_ rfl rfl rfl rfl rfl rfl rfl) | refine Keeps.ite ?_ ?_)

theorem State.replayRecord_keeps (s : State) (r : JRec) : Keeps s (State.replayRecord s r) := by
  unfold State.replayRecord
  with_reducible
    repeat' (first
      | exact .refl _ | refine .trans ?_ (State.replayCal_keeps ..) | refine .trans ?_ (State.replayLearned_keeps ..)
      | refine .trans ?_ (State.replayTable_keeps ..) | refine .trans ?_ (State.replayTrim_keeps ..) | split)

theorem State.compactionDue_keeps (s : State) : Keeps s (State.compactionDue s) := by
  unfold State.compactionDue
  with_reducible
    repeat' (first
      | exact .refl _ | fail_if_no_progress (refine Keeps.upd ?_ rfl rfl rfl rfl rfl rfl rfl) | refine .trans ?_ (State.journalStart_keeps ..)
      | refine Keeps.ite ?_ ?_)

theorem State.replayRecords_keeps (s : State) (bank : Fin 2) (gen : BitVec 32) (l : List JRec) (e : Nat) (torn : Bool) :
    Keeps s (s.replayRecords bank gen l e torn) := by
  have h2 : ∀ (t : State) (l : List JRec) (fill : Nat), Keeps t { t with journal := { t.journal with
      ready := true, bank := bank, gen := gen, fill := fill, seq := l.foldl (fun n r => if n.toNat < r.seq.toNat then r.seq else n) 0 } } :=
    fun t l fill => .same rfl rfl rfl rfl rfl rfl rfl
  have h3 : ∀ (u : State) (b : Bool) (d : List Byte), Keeps u (if b then u.post 8 0xFF 0xFFFF 0x92 1 d else u) := by
    intro u b d; split
    · exact State.post_keeps ..
    · exact .refl _
  have h4 : ∀ (v : State) (b : Bool), Keeps v (if b then v.compactionDue else v) := by
    intro v b; split
    · exact State.compactionDue_keeps _
    · exact .refl _
  exact (((State.forEach_keeps _ _ _ (fun _ _ => State.replayRecord_keeps ..)).trans (h2 _ l _)).trans (h3 _ _ _)).trans (h4 _ _)

theorem State.replayBank_keeps (s : State) (bank : Fin 2) (gen : BitVec 32) : Keeps s (s.replayBank bank gen) := State.replayRecords_keeps ..

theorem execTwSdaRelease_keeps (dt : Nat) (us : Nat) (s : State) : ∃ t, execTwSdaRelease dt us s = .next t ∧ Keeps s t := by
  refine ⟨_, rfl, ?_⟩
  refine .trans (State.advance_keeps ..) (State.when_keeps _ _ _ ?_)
  with_reducible
    repeat' (first
      | exact .refl _ | fail_if_no_progress (refine Keeps.upd ?_ rfl rfl rfl rfl rfl rfl rfl))

theorem State.stillRead_keeps (s : State) (a : Nat) : Keeps s (State.stillRead s a) := by
  unfold State.stillRead
  with_reducible
    repeat' (first
      | exact .refl _ | fail_if_no_progress (refine Keeps.upd ?_ rfl rfl rfl rfl rfl rfl rfl))

theorem State.readCtxStatus_keeps (s : State) : Keeps s (State.readCtxStatus s).1 := by
  unfold State.readCtxStatus
  with_reducible
    repeat' (first
      | exact .refl _ | fail_if_no_progress (refine Keeps.upd ?_ rfl rfl rfl rfl rfl rfl rfl))

theorem State.readCtxStatus_keeps' {s : State} {t'} {x'} (h' : State.readCtxStatus s = (t', x')) : Keeps s t' := by
  have := State.readCtxStatus_keeps s; rw [h'] at this; exact this

theorem State.readRtcSeconds_keeps (s : State) : Keeps s (State.readRtcSeconds s).1 := by
  unfold State.readRtcSeconds
  with_reducible
    repeat' (first
      | exact .refl _ | fail_if_no_progress (refine Keeps.upd ?_ rfl rfl rfl rfl rfl rfl rfl))

theorem State.readRtcSeconds_keeps' {s : State} {t'} {x'} (h' : State.readRtcSeconds s = (t', x')) : Keeps s t' := by
  have := State.readRtcSeconds_keeps s; rw [h'] at this; exact this

theorem State.readEffect_keeps (s : State) (addr : Addr) : Keeps s (State.readEffect s addr) := by
  unfold State.readEffect
  with_reducible
    repeat' (first
      | exact .refl _ | fail_if_no_progress (refine Keeps.upd ?_ rfl rfl rfl rfl rfl rfl rfl) | refine .trans ?_ (State.stillRead_keeps ..)
      | refine .trans ?_ (State.readCtxStatus_keeps ..) | refine .trans ?_ (State.readRtcSeconds_keeps ..)
      | refine .trans ?_ (State.modReach_keeps ..) | refine .trans ?_ (State.modEngine_keeps ..) | refine Keeps.ite ?_ ?_)

theorem State.readReg_keeps (s : State) (addr : Addr) : Keeps s (State.readReg s addr) := by
  unfold State.readReg
  with_reducible
    repeat' (first
      | exact .refl _ | fail_if_no_progress (refine Keeps.upd ?_ rfl rfl rfl rfl rfl rfl rfl) | refine .trans ?_ (State.readEffect_keeps ..))

theorem State.readPart_keeps (s : State) (a : Addr) : Keeps s (State.readPart s a) := by
  unfold State.readPart
  with_reducible
    repeat' (first
      | exact .refl _ | fail_if_no_progress (refine Keeps.upd ?_ rfl rfl rfl rfl rfl rfl rfl) | refine .trans ?_ (State.readReg_keeps ..)
      | refine Keeps.ite ?_ ?_)

theorem State.onBus_keeps (s : State) (l : List Byte) : Keeps s (State.onBus s l) := by
  unfold State.onBus
  with_reducible
    repeat' (first
      | exact .refl _ | fail_if_no_progress (refine Keeps.upd ?_ rfl rfl rfl rfl rfl rfl rfl))

theorem State.sendBus_keeps (s : State) (l : List Byte) : Keeps s (State.sendBus s l) := by
  unfold State.sendBus
  with_reducible
    repeat' (first
      | exact .refl _ | fail_if_no_progress (refine Keeps.upd ?_ rfl rfl rfl rfl rfl rfl rfl) | refine .trans ?_ (State.onBus_keeps ..))

theorem State.sendWord_keeps (s : State) (w : Word) : Keeps s (State.sendWord s w) := by
  unfold State.sendWord
  with_reducible
    repeat' (first
      | exact .refl _ | refine .trans ?_ (State.sendBus_keeps ..) | refine Keeps.ite ?_ ?_)

theorem State.accessed_keeps (s : State) (a : Addr) : Keeps s (State.accessed s a) := by
  unfold State.accessed
  with_reducible
    repeat' (first
      | exact .refl _ | fail_if_no_progress (refine Keeps.upd ?_ rfl rfl rfl rfl rfl rfl rfl))

theorem State.twRegs_keeps (s : State) (a : Addr) (lastWhole : Bool) (n : Nat) : Keeps s (s.twRegs a lastWhole n) := by
  induction n generalizing s a with
  | zero => exact .refl _
  | succ n ih =>
    unfold State.twRegs
    refine Keeps.trans (Keeps.trans ?_ (State.accessed_keeps ..)) (ih _ _)
    split
    · exact State.readPart_keeps ..
    · exact (State.readReg_keeps ..).trans (State.sendWord_keeps ..)

theorem execKeysProgramKey_keeps (dt : Nat) (confirm : BitVec 16) (slot : Fin 8) (s : State) : ∃ t, execKeysProgramKey dt confirm slot s = .next t ∧ Keeps s t :=
  ⟨_, rfl, Keeps.trans (State.advance_keeps ..) (State.when_keeps _ _ _ (Keys.command_keeps ..))⟩

theorem State.asLanding_keeps (s : State) (c : Fin 256) (l : Landing) : Keeps s (State.asLanding s c l) := by
  unfold State.asLanding
  with_reducible
    repeat' (first
      | exact .refl _ | refine .trans ?_ (State.modCtx_keeps ..))

theorem State.overrange_keeps (s : State) (r : Fin 4) : Keeps s (State.overrange s r) := by
  unfold State.overrange
  with_reducible
    repeat' (first
      | exact .refl _ | refine .trans ?_ (State.modReach_keeps ..) | refine .trans ?_ (State.post_keeps ..) | refine Keeps.ite ?_ ?_)

theorem State.feedTrib_keeps (s : State) (r : Fin 4) (n : Fin 8) (y : Sample) : Keeps s (State.feedTrib s r n y) := by
  unfold State.feedTrib
  with_reducible
    repeat' (first
      | exact .refl _ | refine .trans ?_ (State.countClamps_keeps ..) | refine .trans ?_ (State.modCtx_keeps ..)
      | refine .trans ?_ (State.forEach_keeps _ _ _ (fun _ _ => ?_)))

theorem State.feedCode_keeps (s : State) (r : Fin 4) (code : Int) : Keeps s (s.feedCode r code) := by
  unfold State.feedCode
  extract_lets x q t u
  split
  · exact .refl _
  · have ht : Keeps s t := (State.modReach_keeps ..).trans (State.countClamps_keeps ..)
    have hu : Keeps s u := by
      dsimp only [u]
      split
      · exact ht.trans (State.forEach_keeps _ _ _ (fun _ _ => State.modCtx_keeps ..))
      · exact ht
    clear_value u
    exact (hu.trans (State.when_keeps _ _ _ (State.overrange_keeps ..))).trans (State.forEach_keeps _ _ _ (fun _ _ => State.feedTrib_keeps ..))

theorem State.turnFrames_keeps (s : State) (c : Fin 256) : Keeps s (State.turnFrames s c) := by
  unfold State.turnFrames
  with_reducible
    repeat' (first
      | exact .refl _ | refine .trans ?_ (State.modCtx_keeps ..) | refine .trans ?_ (State.withSome_keeps _ _ _ (fun _ => ?_)))

theorem State.pcm_keeps (s : State) (c : Fin 256) (audio : List AudioIn) (cnr : Nat) : Keeps s (State.pcm s c audio cnr) := by
  unfold State.pcm
  with_reducible
    repeat' (first
      | exact .refl _ | refine .trans ?_ (State.turnFrames_keeps ..) | refine .trans ?_ (State.modCtx_keeps ..)
      | refine .trans ?_ (State.pcmSend_keeps ..) | refine Keeps.ite ?_ ?_)

theorem execPcmRecord_keeps (dt : Nat) (c : Fin 256) (audio : List AudioIn) (cnr : Nat) (s : State) : ∃ t, execPcmRecord dt c audio cnr s = .next t ∧ Keeps s t := by
  refine ⟨_, rfl, ?_⟩
  refine .trans (State.advance_keeps ..) (State.when_keeps _ _ _ ?_)
  with_reducible
    repeat' (first
      | exact .refl _ | refine .trans ?_ (State.pcm_keeps ..))

theorem State.linkDown_keeps (s : State) : Keeps s (State.linkDown s) := by
  unfold State.linkDown
  with_reducible
    repeat' (first
      | exact .refl _ | fail_if_no_progress (refine Keeps.upd ?_ rfl rfl rfl rfl rfl rfl rfl) | refine .trans ?_ (State.post_keeps ..)
      | refine Keeps.ite ?_ ?_)

theorem execLinkDown_keeps (dt : Nat) (s : State) : ∃ t, execLinkDown dt s = .next t ∧ Keeps s t := by
  refine ⟨_, rfl, ?_⟩
  refine .trans (State.advance_keeps ..) (State.when_keeps _ _ _ ?_)
  with_reducible
    repeat' (first
      | exact .refl _ | refine .trans ?_ (State.linkDown_keeps ..))

theorem execCxGntRelease_keeps (dt : Nat) (s : State) : ∃ t, execCxGntRelease dt s = .next t ∧ Keeps s t := by
  refine ⟨_, rfl, ?_⟩
  refine .trans (State.advance_keeps ..) (State.when_keeps _ _ _ ?_)
  with_reducible
    repeat' (first
      | exact .refl _ | fail_if_no_progress (refine Keeps.upd ?_ rfl rfl rfl rfl rfl rfl rfl) | refine .trans ?_ (State.modOut_keeps ..))

theorem State.txRespond_keeps (s : State) (x : Tx) (status : Nat) (reason : Nat) : Keeps s (State.txRespond s x status reason) := by
  unfold State.txRespond
  with_reducible
    repeat' (first
      | exact .refl _ | refine .trans ?_ (State.respond_keeps ..) | refine Keeps.ite ?_ ?_ | split)

theorem State.txDrop_keeps (s : State) (x : Tx) (status : Nat) (reason : Nat) : Keeps s (State.txDrop s x status reason) := by
  unfold State.txDrop
  with_reducible
    repeat' (first
      | exact .refl _ | refine .trans ?_ (State.txRespond_keeps ..) | refine .trans ?_ (State.txReport_keeps ..))

theorem State.dropWhere_keeps (s : State) (p : Tx → Bool) (status : Nat) (reason : Nat) : Keeps s (State.dropWhere s p status reason) := by
  unfold State.dropWhere
  with_reducible
    repeat' (first
      | exact .refl _ | refine .trans ?_ (State.modOut_keeps ..) | refine .trans ?_ (State.txDrop_keeps ..)
      | refine .trans ?_ (State.forEach_keeps _ _ _ (fun _ _ => ?_)))

theorem State.dozeAborts_keeps (s : State) : Keeps s s.dozeAborts := by
  unfold State.dozeAborts
  extract_lets a b
  have ha : Keeps s a := (State.forEach_keeps _ _ _ (fun _ _ => State.endPending_keeps ..)).trans
    (State.forEach_keeps _ _ _ (fun _ _ => State.endLanding_keeps ..))
  have hb : Keeps a b := (State.dropWhere_keeps ..).trans
    (State.forEach_keeps _ _ _ (fun _ _ => (State.abortRun_keeps ..).trans (State.abortQueued_keeps ..)))
  exact (ha.trans hb).trans (State.forEach_keeps _ _ _ (fun _ _ => State.respond_keeps ..))

theorem State.swapState_keeps (s : State) (c : Fin 256) (e : Entry) (hard : Bool) : Keeps s (State.swapState s c e hard) := by
  unfold State.swapState
  with_reducible
    repeat' (first
      | exact .refl _ | refine .trans ?_ (State.toState_keeps ..) | refine .trans ?_ (State.modCtx_keeps ..) | refine Keeps.ite ?_ ?_)

theorem State.countHard_keeps (s : State) (r : Fin 4) : Keeps s (State.countHard s r) := by
  unfold State.countHard
  with_reducible
    repeat' (first
      | exact .refl _ | refine .trans ?_ (State.modReach_keeps ..))

theorem State.hardChange_keeps (s : State) (c : Fin 256) (old : Entry) (e : Entry) (r : Fin 4) : Keeps s (State.hardChange s c old e r) := by
  unfold State.hardChange
  with_reducible
    repeat' (first
      | exact .refl _ | refine .trans ?_ (State.swapState_keeps ..) | refine .trans ?_ (State.modCtx_keeps ..)
      | refine .trans ?_ (State.changeChain_keeps ..) | refine .trans ?_ (State.countHard_keeps ..))

theorem State.loseSpare_keeps (s : State) (k : Fin 256) : Keeps s (s.loseSpare k) :=
  (((State.iqBreak_keeps ..).trans (State.pcmFlush_keeps ..)).trans (State.modCtx_keeps ..)).trans (State.hardChange_keeps ..)

theorem State.regrant_keeps (s : State) (r : Fin 4) (l : List (Fin 256)) (m : Room) : Keeps s (s.regrant r l m) := by
  induction l generalizing s m with
  | nil => exact .refl _
  | cons q l ih =>
    unfold State.regrant
    split
    · exact ih ..
    · split
      · exact (State.modCtx_keeps ..).trans (ih ..)
      · exact (State.loseSpare_keeps ..).trans (ih ..)

theorem State.claimSpare_keeps (s : State) (c : Fin 256) (q : Place) : Keeps s (State.claimSpare s c q) := by
  unfold State.claimSpare
  with_reducible
    repeat' (first
      | exact .refl _ | refine .trans ?_ (State.regrant_keeps ..))

theorem State.syncRequest_keeps (s : State) (who : Nat) (edge : Nat) : Keeps s (State.syncRequest s who edge) := by
  unfold State.syncRequest
  with_reducible
    repeat' (first
      | exact .refl _ | fail_if_no_progress (refine Keeps.upd ?_ rfl rfl rfl rfl rfl rfl rfl) | refine Keeps.ite ?_ ?_)

theorem State.syncLevels_keeps (s : State) (tick : Nat) (l : List Bool) : Keeps s (s.syncLevels tick l) := by
  induction l generalizing s tick with
  | nil => exact .refl _
  | cons b l ih =>
    unfold State.syncLevels
    extract_lets t
    have ht : Keeps s t := by
      dsimp only [t]
      split
      · exact State.syncRequest_keeps ..
      · exact .refl _
    clear_value t
    exact (ht.trans (Keeps.same (t := { t with sync := { t.sync with released := if b then 0 else min (t.sync.released + 1) 2 } })
      rfl rfl rfl rfl rfl rfl rfl)).trans (ih _ _)

theorem State.loadSet_keeps (s : State) : Keeps s (State.loadSet s) := by
  unfold State.loadSet
  with_reducible
    repeat' (first
      | exact .refl _ | fail_if_no_progress (refine Keeps.upd ?_ rfl rfl rfl rfl rfl rfl rfl))

theorem State.modAm_keeps (s : State) (c : Fin 256) (f : Am → Am) : Keeps s (State.modAm s c f) := by
  unfold State.modAm
  with_reducible
    repeat' (first
      | exact .refl _ | refine .trans ?_ (State.modCtx_keeps ..))

theorem execAmLockLost_keeps (dt : Nat) (c : Fin 256) (highest : Nat) (overUs : Nat) (s : State) : ∃ t, execAmLockLost dt c highest overUs s = .next t ∧ Keeps s t := by
  refine ⟨_, rfl, ?_⟩
  refine .trans (State.advance_keeps ..) (State.when_keeps _ _ _ ?_)
  with_reducible
    repeat' (first
      | exact .refl _ | refine .trans ?_ (State.judgeLock_keeps ..) | refine .trans ?_ (State.modAm_keeps ..))

theorem State.journalReadOp_keeps (s : State) (off : Nat) : Keeps s (State.journalReadOp s off) := by
  unfold State.journalReadOp
  with_reducible
    repeat' (first
      | exact .refl _ | (extract_lets +onlyGivenNames t; clear_value t) | fail_if_no_progress (refine Keeps.upd ?_ rfl rfl rfl rfl rfl rfl rfl)
      | split)

theorem State.flashOp_keeps (s : State) (a : Nat) (n : Nat) (op : FlashOp) : Keeps s (State.flashOp s a n op) := by
  unfold State.flashOp
  with_reducible
    repeat' (first
      | exact .refl _ | fail_if_no_progress (refine Keeps.upd ?_ rfl rfl rfl rfl rfl rfl rfl) | refine .trans ?_ (State.windowSession_keeps ..)
      | refine Keeps.ite ?_ ?_)

theorem State.writeJournalCmd_keeps (s : State) (v : Word) : Keeps s (s.writeJournalCmd v) := by
  unfold State.writeJournalCmd
  refine State.journalOp_keeps _ _ ?_
  generalize bits v 3 0 = k
  split
  · exact State.journalReadOp_keeps ..
  · exact State.windowSession_keeps ..
  · exact State.flashOp_keeps ..
  · exact State.flashOp_keeps ..
  · exact State.flashOp_keeps ..
  · exact State.flashOp_keeps ..
  · exact State.windowSession_keeps ..
  · exact .refl _

theorem State.syncCtx_keeps (s : State) (c : Fin 256) (edge : Nat) : Keeps s (s.syncCtx c edge) := by
  unfold State.syncCtx
  exact (State.iqBreak_keeps ..).trans (State.modCtx_keeps ..)

theorem State.syncReach_keeps (s : State) (r : Fin 4) (edge : Nat) : Keeps s (s.syncReach r edge) :=
  (State.modReach_keeps ..).trans (State.forEach_keeps _ _ _ (fun _ _ => State.syncCtx_keeps ..))

theorem State.syncApply_keeps (s : State) : Keeps s (State.syncApply s) := by
  unfold State.syncApply
  with_reducible
    repeat' (first
      | exact .refl _ | fail_if_no_progress (refine Keeps.upd ?_ rfl rfl rfl rfl rfl rfl rfl) | refine .trans ?_ (State.post_keeps ..)
      | refine .trans ?_ (State.syncReach_keeps ..) | refine .trans ?_ (State.withSome_keeps _ _ _ (fun _ => ?_))
      | refine .trans ?_ (State.forEach_keeps _ _ _ (fun _ _ => ?_)))

theorem execSyncResetApply_keeps (dt : Nat) (s : State) : ∃ t, execSyncResetApply dt s = .next t ∧ Keeps s t := by
  refine ⟨_, rfl, ?_⟩
  refine .trans (State.advance_keeps ..) (State.when_keeps _ _ _ ?_)
  with_reducible
    repeat' (first
      | exact .refl _ | refine .trans ?_ (State.syncApply_keeps ..))

theorem State.retuneLocked_keeps (s : State) (f : Nat) : Keeps s (State.retuneLocked s f) := by
  unfold State.retuneLocked
  with_reducible
    repeat' (first
      | exact .refl _ | refine .trans ?_ (State.modOut_keeps ..))

theorem execOutfallRetuneLocked_keeps (dt : Nat) (s : State) : ∃ t, execOutfallRetuneLocked dt s = .next t ∧ Keeps s t := by
  refine ⟨_, rfl, ?_⟩
  refine .trans (State.advance_keeps ..) (State.when_keeps _ _ _ ?_)
  with_reducible
    repeat' (first
      | exact .refl _ | refine .trans ?_ (State.retuneLocked_keeps ..) | refine .trans ?_ (State.withSome_keeps _ _ _ (fun _ => ?_)))

theorem State.lapse_keeps (s : State) (p : Proposal) : Keeps s (State.lapse s p) := by
  unfold State.lapse
  with_reducible
    repeat' (first
      | exact .refl _ | fail_if_no_progress (refine Keeps.upd ?_ rfl rfl rfl rfl rfl rfl rfl) | refine .trans ?_ (State.post_keeps ..)
      | refine Keeps.ite ?_ ?_)

theorem State.byeNoSession_keeps (s : State) (src : Peer) : Keeps s (State.byeNoSession s src) := by
  unfold State.byeNoSession
  with_reducible
    repeat' (first
      | exact .refl _ | fail_if_no_progress (refine Keeps.upd ?_ rfl rfl rfl rfl rfl rfl rfl) | refine .trans ?_ (State.reply_keeps ..)
      | refine Keeps.ite ?_ ?_)

theorem State.heard_keeps (s : State) : Keeps s (State.heard s) := by
  unfold State.heard
  with_reducible
    repeat' (first
      | exact .refl _ | fail_if_no_progress (refine Keeps.upd ?_ rfl rfl rfl rfl rfl rfl rfl))

theorem State.datagram_keeps (s : State) (src : Peer) (f : State → State) (hf : ∀ t, Keeps t (f t)) : Keeps s (s.datagram src f) := by
  unfold State.datagram
  split
  · exact .refl _
  · split
    · exact State.byeNoSession_keeps ..
    · exact Keeps.trans (t := { s with host := { s.host with session := s.host.session.map (fun q => { q with lastRxPs := s.clock }) } })
        (.same rfl rfl rfl rfl rfl rfl rfl) (hf _)

theorem State.remember_keeps (s : State) (id : BitVec 32) (op : Nat) : Keeps s (State.remember s id op) := by
  unfold State.remember
  with_reducible
    repeat' (first
      | exact .refl _ | fail_if_no_progress (refine Keeps.upd ?_ rfl rfl rfl rfl rfl rfl rfl))

theorem State.refuse_keeps (s : State) (id : BitVec 32) (op : Nat) (reason : Nat) : Keeps s (State.refuse s id op reason) := by
  unfold State.refuse
  with_reducible
    repeat' (first
      | exact .refl _ | refine .trans ?_ (State.respond_keeps ..))

theorem State.command_keeps (s : State) (src : Peer) (id : BitVec 32) (op : Nat) (life : Bool) (minVersion : Nat) (f : State → State)
    (hf : ∀ t, Keeps t (f t)) : Keeps s (s.command src id op life minVersion f) := by
  unfold State.command
  refine State.datagram_keeps _ _ _ (fun t => ?_)
  split
  · exact State.response_keeps ..
  · split
    · exact State.response_keeps ..
    · split
      · exact State.response_keeps ..
      · have hu : Keeps t (t.remember id op) := State.remember_keeps ..
        generalize t.remember id op = u at hu
        dsimp only
        split
        · exact hu.trans (State.refuse_keeps ..)
        · split
          · exact hu.trans (State.refuse_keeps ..)
          · exact hu.trans (hf u)

theorem State.complete_keeps (s : State) (id : BitVec 32) (op : Nat) (result : List Byte) : Keeps s (State.complete s id op result) := by
  unfold State.complete
  with_reducible
    repeat' (first
      | exact .refl _ | refine .trans ?_ (State.respond_keeps ..))

theorem execCtxRead_keeps (dt : Nat) (src : Peer) (id : BitVec 32) (c : Fin 256) (copy : BitVec 8) (s : State) :
    ∃ t, execCtxRead dt src id c copy s = .next t ∧ Keeps s t := by
  refine ⟨_, rfl, ?_⟩
  refine .trans (State.advance_keeps ..) (State.when_keeps _ _ _ ?_)
  with_reducible
    repeat' (first
      | exact .refl _ | refine .trans ?_ (State.refuse_keeps ..) | refine .trans ?_ (State.complete_keeps ..)
      | refine .trans ?_ (State.command_keeps _ _ _ _ _ _ _ (fun _ => ?_)) | refine Keeps.ite ?_ ?_)

theorem State.writeFailed_keeps (s : State) (addr : Nat) : Keeps s (State.writeFailed s addr) := by
  unfold State.writeFailed
  with_reducible
    repeat' (first
      | exact .refl _ | refine .trans ?_ (State.compactionDue_keeps ..) | refine .trans ?_ (State.post_keeps ..))

theorem execJournalErase4k_keeps (dt : Nat) (s : State) : ∃ t, execJournalErase4k dt s = .next t ∧ Keeps s t := by
  refine ⟨_, rfl, ?_⟩
  refine .trans (State.advance_keeps ..) (State.when_keeps _ _ _ ?_)
  with_reducible
    repeat' (first
      | exact .refl _ | refine .trans ?_ (State.flashOp_keeps ..) | refine .trans ?_ (State.journalOp_keeps _ _ ?_))

theorem State.modDab_keeps (s : State) (c : Fin 256) (f : Dab → Dab) : Keeps s (State.modDab s c f) := by
  unfold State.modDab
  with_reducible
    repeat' (first
      | exact .refl _ | refine .trans ?_ (State.modCtx_keeps ..))

theorem State.dabStep_keeps (s : State) (c : Fin 256) (f : Dab → Dab) : Keeps s (State.dabStep s c f) := by
  unfold State.dabStep
  with_reducible
    repeat' (first
      | exact .refl _ | refine .trans ?_ (State.judgeLock_keeps ..) | refine .trans ?_ (State.modDab_keeps ..))

theorem State.restoreCtx_keeps (s : State) (c : Fin 256) : Keeps s (State.restoreCtx s c) := by
  unfold State.restoreCtx
  with_reducible
    repeat' (first
      | exact .refl _ | refine .trans ?_ (State.modCtx_keeps ..) | refine Keeps.ite ?_ ?_)

theorem State.sideList_keeps (s : State) (c : Fin 256) (list : List Carrier) : Keeps s (State.sideList s c list) := by
  unfold State.sideList
  with_reducible
    repeat' (first
      | exact .refl _ | refine .trans ?_ (State.modCtx_keeps ..) | refine .trans ?_ (State.applyList_keeps ..) | refine Keeps.ite ?_ ?_)

theorem State.eccEffect_keeps (s : State) (address : Nat) (x1 : EccArea) : Keeps s (State.eccEffect s address x1) := by
  unfold State.eccEffect
  with_reducible
    repeat' (first
      | exact .refl _ | (extract_lets +onlyGivenNames t; clear_value t) | fail_if_no_progress (refine Keeps.upd ?_ rfl rfl rfl rfl rfl rfl rfl)
      | refine .trans ?_ (State.modEngine_keeps ..) | refine .trans ?_ (State.restoreCtx_keeps ..) | refine .trans ?_ (State.modCtx_keeps ..)
      | refine .trans ?_ (State.post_keeps ..) | refine .trans ?_ (State.sideList_keeps ..)
      | refine .trans ?_ (State.withSome_keeps _ _ _ (fun _ => ?_)) | split)

theorem State.deliverOld_keeps (s : State) (c : Fin 256) (r : Fin 4) (b : Built) : Keeps s (s.deliverOld c r b) := by
  unfold State.deliverOld
  extract_lets t
  have ht : Keeps s t := State.expireRunOut_keeps ..
  clear_value t
  split
  · split
    · exact ht.trans (State.sendBuilt_keeps ..)
    · exact ht
  · exact ht.trans (State.deliver_keeps ..)

theorem State.eabGive_keeps (s : State) (c : Fin 256) (r : Fin 4) (q : Ended) (b : Built) : Keeps s (State.eabGive s c r q b) := by
  unfold State.eabGive
  with_reducible
    repeat' (first
      | exact .refl _ | refine .trans ?_ (State.deliverOld_keeps ..) | refine .trans ?_ (State.deliver_keeps ..) | refine Keeps.ite ?_ ?_ | split)

theorem State.eabRecords_keeps (s : State) (c : Fin 256) (q : Ended) : Keeps s (State.eabRecords s c q) := by
  unfold State.eabRecords
  with_reducible
    repeat' (first
      | exact .refl _ | refine .trans ?_ (State.eabGive_keeps ..) | refine .trans ?_ (State.when_keeps _ _ _ ?_) | split)

theorem execEabRecordHandover_keeps (dt : Nat) (c : Fin 256) (s : State) : ∃ t, execEabRecordHandover dt c s = .next t ∧ Keeps s t := by
  refine ⟨_, rfl, ?_⟩
  refine .trans (State.advance_keeps ..) (State.when_keeps _ _ _ ?_)
  with_reducible
    repeat' (first
      | exact .refl _ | refine .trans ?_ (State.eabRecords_keeps ..) | refine .trans ?_ (State.modEab_keeps ..)
      | refine .trans ?_ (State.withSome_keeps _ _ _ (fun _ => ?_)))

theorem State.arpAsk_keeps (s : State) (tries : Nat) : Keeps s (State.arpAsk s tries) := by
  unfold State.arpAsk
  with_reducible
    repeat' (first
      | exact .refl _ | fail_if_no_progress (refine Keeps.upd ?_ rfl rfl rfl rfl rfl rfl rfl) | refine .trans ?_ (State.sendFrame_keeps ..))

theorem State.arpNext_keeps (s : State) : Keeps s (State.arpNext s) := by
  unfold State.arpNext
  with_reducible
    repeat' (first
      | exact .refl _ | refine .trans ?_ (State.arpAsk_keeps ..) | refine .trans ?_ (State.post_keeps ..) | refine Keeps.ite ?_ ?_)

theorem State.calAbort_keeps (s0 : State) (r : Fin 4) (p : Activity → Bool) (reason qrp : Nat) : Keeps s0 (s0.calAbort r p reason qrp) :=
  ((State.calSettle_keeps ..).trans (State.when_keeps _ _ _ (State.abortRun_keeps ..))).trans (State.abortQueued_keeps ..)

theorem State.released_keeps (s : State) (pins : BitVec 3) : Keeps s (State.released s pins) := by
  unfold State.released
  with_reducible
    repeat' (first
      | exact .refl _ | fail_if_no_progress (refine Keeps.upd ?_ rfl rfl rfl rfl rfl rfl rfl) | refine Keeps.ite ?_ ?_)

theorem State.resetTo_keeps (s : State) (cause : BitVec 3) : Keeps s (s.resetTo cause) := by
  refine ⟨rfl, rfl, fun z => ⟨State.cutFlash_wf s z.flash, Nat.zero_le _, (Nat.zero_lt_succ _), z.second, ?_⟩, ?_, ?_, fun _ _ _ h => h⟩
  · simp [State.resetTo, Keys.afterReset]
  · simp +contextual [State.resetTo, Keys.afterReset]
  · simp +contextual [State.resetTo, Keys.afterReset]

theorem State.commandReset_keeps (s : State) : Keeps s (State.commandReset s) := by
  unfold State.commandReset
  with_reducible
    repeat' (first
      | exact .refl _ | refine .trans ?_ (State.released_keeps ..) | refine .trans ?_ (State.resetTo_keeps ..))

theorem State.freeze_keeps (s : State) (byCmd : Bool) : Keeps s (s.freeze byCmd) :=
  .keys rfl rfl rfl rfl rfl rfl rfl rfl rfl rfl rfl

theorem State.twCommand_keeps (s : State) (v : Word) : Keeps s (State.twCommand s v) := by
  unfold State.twCommand
  with_reducible
    repeat' (first
      | exact .refl _ | refine .trans ?_ (State.commandReset_keeps ..) | refine .trans ?_ (State.freeze_keeps ..)
      | refine .trans ?_ (State.writeIgnored_keeps ..) | refine Keeps.ite ?_ ?_ | split)

theorem State.busEnd_keeps (s : State) (stop : Bool) (a : Nat) (v : Word) : Keeps s (State.busEnd s stop a v) := by
  unfold State.busEnd
  with_reducible
    repeat' (first
      | exact .refl _ | fail_if_no_progress (refine Keeps.upd ?_ rfl rfl rfl rfl rfl rfl rfl) | refine .trans ?_ (State.twCommand_keeps ..)
      | refine Keeps.ite ?_ ?_ | split)

theorem State.writeStillSel_keeps (s : State) (v : Word) : Keeps s (State.writeStillSel s v) := by
  unfold State.writeStillSel
  with_reducible
    repeat' (first
      | exact .refl _ | fail_if_no_progress (refine Keeps.upd ?_ rfl rfl rfl rfl rfl rfl rfl))

theorem State.writeTw_keeps (s : State) (a : Nat) (v : Word) : Keeps s (s.writeTw a v) := by
  unfold State.writeTw
  split
  · exact .same rfl rfl rfl rfl rfl rfl rfl
  · exact .same rfl rfl rfl rfl rfl rfl rfl
  · exact .same rfl rfl rfl rfl rfl rfl rfl
  · exact .same rfl rfl rfl rfl rfl rfl rfl
  · split
    · exact .same rfl rfl rfl (by unfold Mailbox.alertClear Mailbox.alertDone; split <;> rfl) (by unfold Mailbox.alertClear Mailbox.alertDone; split <;> rfl) rfl rfl
    · exact .refl _
  · exact .refl _

theorem State.requestDoze_keeps (s : State) : Keeps s (State.requestDoze s) := by
  unfold State.requestDoze
  with_reducible
    repeat' (first
      | exact .refl _ | fail_if_no_progress (refine Keeps.upd ?_ rfl rfl rfl rfl rfl rfl rfl) | refine Keeps.ite ?_ ?_)

theorem State.enterWindow_keeps (s : State) : Keeps s (State.enterWindow s) := by
  unfold State.enterWindow
  with_reducible
    repeat' (first
      | exact .refl _ | refine .trans ?_ (State.requestDoze_keeps ..) | refine .trans ?_ (State.when_keeps _ _ _ ?_))

theorem State.requestExit_keeps (s : State) : Keeps s (State.requestExit s) := by
  unfold State.requestExit
  with_reducible
    repeat' (first
      | exact .refl _ | fail_if_no_progress (refine Keeps.upd ?_ rfl rfl rfl rfl rfl rfl rfl) | refine Keeps.ite ?_ ?_)

theorem State.hostExit_keeps (s : State) : Keeps s (State.hostExit s) := by
  unfold State.hostExit
  with_reducible
    repeat' (first
      | exact .refl _ | fail_if_no_progress (refine Keeps.upd ?_ rfl rfl rfl rfl rfl rfl rfl) | refine .trans ?_ (State.requestExit_keeps ..)
      | refine .trans ?_ (State.when_keeps _ _ _ ?_))

theorem State.writeDoze_keeps (s : State) (v : Word) : Keeps s (State.writeDoze s v) := by
  unfold State.writeDoze
  with_reducible
    repeat' (first
      | exact .refl _ | fail_if_no_progress (refine Keeps.upd ?_ rfl rfl rfl rfl rfl rfl rfl) | refine .trans ?_ (State.enterWindow_keeps ..)
      | refine .trans ?_ (State.requestDoze_keeps ..) | refine .trans ?_ (State.hostExit_keeps ..) | refine .trans ?_ (State.when_keeps _ _ _ ?_))

theorem State.writeReadyHealth_keeps (s : State) (a : Nat) (v : Word) : Keeps s (s.writeReadyHealth a v) := by
  unfold State.writeReadyHealth
  split
  · exact .same rfl rfl rfl rfl rfl rfl rfl
  · exact State.writeDoze_keeps ..
  · exact .same rfl rfl rfl rfl rfl rfl rfl
  · refine .mailbox _ (fun h => ?_)
    unfold Mailbox.command
    split
    · exact Mailbox.flush_keeps _ h
    · split
      · exact Mailbox.next_keeps _ h
      · exact h
  · exact .same rfl rfl rfl rfl rfl rfl rfl
  · exact .refl _

theorem State.writeAgc_keeps (s : State) (r : Fin 4) (v : Word) : Keeps s (State.writeAgc s r v) := by
  unfold State.writeAgc
  with_reducible
    repeat' (first
      | exact .refl _ | refine .trans ?_ (State.modReach_keeps ..) | refine .trans ?_ (State.writeIgnored_keeps ..) | refine Keeps.ite ?_ ?_)

theorem State.blankUpdate_keeps (s : State) (r : Fin 4) : Keeps s (State.blankUpdate s r) := by
  unfold State.blankUpdate
  with_reducible
    repeat' (first
      | exact .refl _ | refine .trans ?_ (State.modReach_keeps ..) | refine Keeps.ite ?_ ?_)

theorem State.writeFront_keeps (s : State) (r : Fin 4) (f : FrontRegs → FrontRegs) : Keeps s (State.writeFront s r f) := by
  unfold State.writeFront
  with_reducible
    repeat' (first
      | exact .refl _ | refine .trans ?_ (State.blankUpdate_keeps ..) | refine .trans ?_ (State.modReach_keeps ..))

theorem State.writeAttn_keeps (s : State) (r : Fin 4) (v : Word) : Keeps s (State.writeAttn s r v) := by
  unfold State.writeAttn
  with_reducible
    repeat' (first
      | exact .refl _ | refine .trans ?_ (State.modReach_keeps ..))

theorem State.syncLater_keeps (s : State) (who : Nat) : Keeps s (State.syncLater s who) := by
  unfold State.syncLater
  with_reducible
    repeat' (first
      | exact .refl _ | refine .trans ?_ (State.syncRequest_keeps ..))

theorem State.writeSyncGo_keeps (s : State) : Keeps s (State.writeSyncGo s) := by
  unfold State.writeSyncGo
  with_reducible
    repeat' (first
      | exact .refl _ | refine .trans ?_ (State.syncLater_keeps ..) | refine .trans ?_ (State.writeIgnored_keeps ..) | refine Keeps.ite ?_ ?_)

theorem State.modTrib_keeps (s : State) (r : Fin 4) (n : Fin 8) (f : Trib → Trib) : Keeps s (State.modTrib s r n f) := by
  unfold State.modTrib
  with_reducible
    repeat' (first
      | exact .refl _ | refine .trans ?_ (State.modReach_keeps ..))

theorem State.checkAgain_keeps (s : State) (r : Fin 4) (n : Fin 8) (c : Fin 256) : Keeps s (State.checkAgain s r n c) := by
  unfold State.checkAgain
  with_reducible
    repeat' (first
      | exact .refl _ | refine .trans ?_ (State.endPending_keeps ..) | refine .trans ?_ (State.modCtx_keeps ..) | split | (extract_lets))

theorem State.writeTrib_keeps (s : State) (r : Fin 4) (n : Fin 8) (v : Word) : Keeps s (s.writeTrib r n v) := by
  unfold State.writeTrib
  split
  · exact State.writeIgnored_keeps ..
  · exact ((State.modTrib_keeps ..).trans (State.modReach_keeps ..)).trans (State.forEach_keeps _ _ _ (fun _ _ => State.checkAgain_keeps ..))

theorem State.writeReach_keeps (s : State) (r : Fin 4) (off : Nat) (v : Word) : Keeps s (State.writeReach s r off v) := by
  unfold State.writeReach
  with_reducible
    repeat' (first
      | exact .refl _ | fail_if_no_progress (refine Keeps.upd ?_ rfl rfl rfl rfl rfl rfl rfl) | refine .trans ?_ (State.writeAgc_keeps ..)
      | refine .trans ?_ (State.writeFront_keeps ..) | refine .trans ?_ (State.writeAttn_keeps ..) | refine .trans ?_ (State.modReach_keeps ..)
      | refine .trans ?_ (State.writeSyncGo_keeps ..) | refine .trans ?_ (State.writeTrib_keeps ..) | refine .trans ?_ (State.when_keeps _ _ _ ?_)
      | refine Keeps.ite ?_ ?_ | split)

theorem State.windowLoad_keeps (s : State) (pair : Bool) : Keeps s (State.windowLoad s pair) := by
  unfold State.windowLoad
  with_reducible
    repeat' (first
      | exact .refl _ | fail_if_no_progress (refine Keeps.upd ?_ rfl rfl rfl rfl rfl rfl rfl))

theorem State.setShadow_keeps (s : State) (c : Fin 256) (e : Entry) : Keeps s (State.setShadow s c e) := by
  unfold State.setShadow
  with_reducible
    repeat' (first
      | exact .refl _ | refine .trans ?_ (State.modCtx_keeps ..))

theorem State.outdone_keeps (s : State) (origin : Origin) (c : Fin 256) : Keeps s (State.outdone s origin c) := by
  unfold State.outdone
  with_reducible
    repeat' (first
      | exact .refl _ | refine .trans ?_ (State.abandoned_keeps ..) | split)

theorem State.hostTakes_keeps (s : State) (origin : Origin) (c : Fin 256) : Keeps s (State.hostTakes s origin c) := by
  unfold State.hostTakes
  with_reducible
    repeat' (first
      | exact .refl _ | refine .trans ?_ (State.endLanding_keeps ..) | split)

theorem State.endPoint_keeps (s : State) (r : Fin 4) (a : Activity) (o : Option PointResult) : Keeps s (State.endPoint s r a o) := by
  unfold State.endPoint
  with_reducible
    repeat' (first
      | exact .refl _ | refine .trans ?_ (State.modUpkeep_keeps ..) | refine .trans ?_ (State.closeSwitch_keeps ..)
      | refine .trans ?_ (State.startPoint_keeps ..) | refine Keeps.ite ?_ ?_)

theorem State.pointOverlaid_keeps (s : State) (e : Entry) : Keeps s (State.pointOverlaid s e) := by
  unfold State.pointOverlaid
  with_reducible
    repeat' (first
      | exact .refl _ | refine .trans ?_ (State.calSettle_keeps ..) | refine .trans ?_ (State.endPoint_keeps ..)
      | refine .trans ?_ (State.modUpkeep_keeps ..) | refine .trans ?_ (State.withSome_keeps _ _ _ (fun _ => ?_)) | refine Keeps.ite ?_ ?_ | split)

theorem State.setPending_keeps (s : State) (origin : Origin) (c : Fin 256) (e : Entry) (p : Place) (pair : Option (Fin 256)) (lead : Fin 256) :
    Keeps s (State.setPending s origin c e p pair lead) := by
  unfold State.setPending
  with_reducible
    repeat' (first
      | exact .refl _ | refine .trans ?_ (State.pointOverlaid_keeps ..) | refine .trans ?_ (State.modCtx_keeps ..))

theorem State.commitPair_keeps (z : State) (origin : Origin) (a b : Fin 256) (ea eb : Entry) : Keeps z (z.commitPair origin a b ea eb).1 := by
  unfold State.commitPair
  extract_lets x y s lo hi view env room live
  have hs : Keeps z s := (State.setShadow_keeps ..).trans (State.setShadow_keeps ..)
  clear_value s lo hi env room live
  split
  · exact hs
  · split
    · exact hs
    · split
      · exact hs
      · extract_lets room2 live2
        split
        · exact hs
        · split
          · dsimp only
            exact hs.trans (State.outdone_keeps ..)
          · dsimp only
            exact (((((hs.trans (State.endPending_keeps ..)).trans (State.endPending_keeps ..)).trans (State.hostTakes_keeps ..)).trans
              (State.hostTakes_keeps ..)).trans (State.setPending_keeps ..)).trans (State.setPending_keeps ..)

theorem State.commitPair_keeps' {z : State} {origin : Origin} {a : Fin 256} {b : Fin 256} {ea : Entry} {eb : Entry} {t'} {x'} (h' : State.commitPair z origin a b ea eb = (t', x')) :
    Keeps z t' := by
  have := State.commitPair_keeps z origin a b ea eb; rw [h'] at this; exact this

theorem State.commit_keeps (s : State) (origin : Origin) (c : Fin 256) (entry : Entry) : Keeps s (State.commit s origin c entry).1 := by
  unfold State.commit
  with_reducible
    repeat' (first
      | exact .refl _ | refine .trans ?_ (State.setShadow_keeps ..) | refine .trans ?_ (State.outdone_keeps ..)
      | refine .trans ?_ (State.setPending_keeps ..) | refine .trans ?_ (State.hostTakes_keeps ..) | refine .trans ?_ (State.endPending_keeps ..)
      | split | (extract_lets))

theorem State.commit_keeps' {s : State} {origin : Origin} {c : Fin 256} {entry : Entry} {t'} {x'} (h' : State.commit s origin c entry = (t', x')) : Keeps s t' := by
  have := State.commit_keeps s origin c entry; rw [h'] at this; exact this

theorem State.windowCommit_keeps (s : State) (via : Via) (pair : Bool) : Keeps s (State.windowCommit s via pair) := by
  unfold State.windowCommit
  with_reducible
    repeat' (first
      | exact .refl _ | fail_if_no_progress (refine Keeps.upd ?_ rfl rfl rfl rfl rfl rfl rfl) | refine .trans ?_ (State.commitPair_keeps ..)
      | refine .trans ?_ (State.commit_keeps ..) | split)

theorem State.writeCtxCmd_keeps (s : State) (via : Via) (v : Word) : Keeps s (State.writeCtxCmd s via v) := by
  unfold State.writeCtxCmd
  with_reducible
    repeat' (first
      | exact .refl _ | refine .trans ?_ (State.writeIgnored_keeps ..) | refine .trans ?_ (State.windowLoad_keeps ..)
      | refine .trans ?_ (State.windowCommit_keeps ..) | refine .trans ?_ (State.when_keeps _ _ _ ?_) | refine Keeps.ite ?_ ?_)

theorem State.writeCtx_keeps (s : State) (via : Via) (a : Nat) (v : Word) : Keeps s (State.writeCtx s via a v) := by
  unfold State.writeCtx
  with_reducible
    repeat' (first
      | exact .refl _ | fail_if_no_progress (refine Keeps.upd ?_ rfl rfl rfl rfl rfl rfl rfl) | refine .trans ?_ (State.writeCtxCmd_keeps ..)
      | refine Keeps.ite ?_ ?_ | split)

theorem State.calTrigger_keeps (s : State) (r : Fin 4) (f : State → State) (hf : Keeps s (f s)) : Keeps s (s.calTrigger r f) := by
  unfold State.calTrigger
  split
  · exact hf
  · exact State.writeIgnored_keeps ..

theorem State.storeSet_keeps (s : State) (r : Fin 4) (n : Fin 5) : Keeps s (State.storeSet s r n).1 := by
  unfold State.storeSet
  with_reducible
    repeat' (first
      | exact .refl _ | refine .trans ?_ (State.journalRequest_keeps ..))

theorem State.storeSet_keeps' {s : State} {r : Fin 4} {n : Fin 5} {t'} {x'} (h' : State.storeSet s r n = (t', x')) : Keeps s t' := by
  have := State.storeSet_keeps s r n; rw [h'] at this; exact this

theorem State.calOp_keeps (s : State) (r : Fin 4) (x1 : CalOp) : Keeps s (State.calOp s r x1) := by
  unfold State.calOp
  with_reducible
    repeat' (first
      | exact .refl _
      | (extract_lets +onlyGivenNames t; refine (fun (ht : Keeps s t) => ?_) ?_; (on_goal 1 => clear_value t); on_goal 2 => (dsimp -zeta only [t]; clear t))
      | assumption | refine .trans ?_ (State.modUpkeep_keeps ..) | refine .trans ?_ (State.storeSet_keeps ..)
      | refine .trans ?_ (State.calReport_keeps ..) | split)

theorem State.calOpNow_keeps (s : State) (r : Fin 4) (o : CalOp) : Keeps s (State.calOpNow s r o) := by
  unfold State.calOpNow
  with_reducible
    repeat' (first
      | exact .refl _ | refine .trans ?_ (State.modUpkeep_keeps ..) | refine .trans ?_ (State.calOp_keeps ..) | refine Keeps.ite ?_ ?_)

theorem State.applySet_keeps (s : State) (store : Bool) (cmd : BitVec 32) : Keeps s (State.applySet s store cmd) := by
  unfold State.applySet
  with_reducible
    repeat' (first
      | exact .refl _ | refine .trans ?_ (State.calOpNow_keeps ..) | refine .trans ?_ (State.withSome_keeps _ _ _ (fun _ => ?_)))

theorem State.rollback_keeps (s : State) (r : Fin 4) (node : Nat) (store : Bool) (cmd : BitVec 32) : Keeps s (State.rollback s r node store cmd) := by
  unfold State.rollback
  with_reducible
    repeat' (first
      | exact .refl _ | refine .trans ?_ (State.calOpNow_keeps ..) | refine .trans ?_ (State.forEach_keeps _ _ _ (fun _ _ => ?_)))

theorem State.accept_keeps (s : State) (id : BitVec 32) (op : Nat) (result : List Byte) : Keeps s (State.accept s id op result) := by
  unfold State.accept
  with_reducible
    repeat' (first
      | exact .refl _ | fail_if_no_progress (refine Keeps.upd ?_ rfl rfl rfl rfl rfl rfl rfl) | refine .trans ?_ (State.respond_keeps ..))

theorem State.acceptRun_keeps (s : State) (a : Activity) : Keeps s (State.acceptRun s a) := by
  unfold State.acceptRun
  with_reducible
    repeat' (first
      | exact .refl _ | refine .trans ?_ (State.accept_keeps ..) | refine .trans ?_ (State.forEach_keeps _ _ _ (fun _ _ => ?_)))

theorem State.busy_keeps (s : State) (a : Activity) : Keeps s (State.busy s a) := by
  unfold State.busy
  with_reducible
    repeat' (first
      | exact .refl _ | refine .trans ?_ (State.respond_keeps ..) | refine .trans ?_ (State.forEach_keeps _ _ _ (fun _ _ => ?_)))

theorem State.startRun_keeps (s : State) (r : Fin 4) (a : Activity) : Keeps s (State.startRun s r a) := by
  unfold State.startRun
  with_reducible
    repeat' (first
      | exact .refl _ | refine .trans ?_ (State.modUpkeep_keeps ..) | refine .trans ?_ (State.closeSwitch_keeps ..)
      | refine .trans ?_ (State.startPoint_keeps ..) | refine .trans ?_ (State.modFallow_keeps ..) | refine Keeps.ite ?_ ?_ | split)

theorem State.queueRun_keeps (s : State) (r : Fin 4) (a : Activity) : Keeps s (State.queueRun s r a) := by
  unfold State.queueRun
  with_reducible
    repeat' (first
      | exact .refl _ | refine .trans ?_ (State.busy_keeps ..) | refine .trans ?_ (State.modUpkeep_keeps ..))

theorem State.request_keeps (s0 : State) (r : Fin 4) (a : Activity) : Keeps s0 (s0.request r a).1 := by
  unfold State.request
  extract_lets s q same
  have hs : Keeps s0 s := State.forEach_keeps _ _ _ (fun _ _ => State.calSettle_keeps ..)
  clear_value s
  have hacc : Keeps s0 (s.acceptRun a) := hs.trans (State.acceptRun_keeps ..)
  clear_value same
  split
  · exact hs
  · split
    · exact ((hacc.trans (State.abortQueued_keeps ..)).trans (State.modUpkeep_keeps ..)).trans (State.busy_keeps ..)
    · dsimp only
      exact hacc.trans (State.modUpkeep_keeps ..)
    · split
      · exact hacc.trans (State.startRun_keeps ..)
      · split
        · exact hs
        · split
          · exact ((hacc.trans (State.modUpkeep_keeps ..)).trans (State.withSome_keeps _ _ _ (fun _ => State.queueRun_keeps ..))).trans (State.startRun_keeps ..)
          · exact hacc.trans (State.queueRun_keeps ..)

theorem State.request_keeps' {s0 : State} {r : Fin 4} {a : Activity} {t'} {x'} (h' : State.request s0 r a = (t', x')) : Keeps s0 t' := by
  have := State.request_keeps s0 r a; rw [h'] at this; exact this

theorem State.calRun_keeps (s : State) (r : Fin 4) (op points : Nat) (cmds : List (BitVec 32)) : Keeps s (s.calRun r op points cmds).1 := by
  unfold State.calRun
  split
  · exact State.request_keeps ..
  · dsimp only
    split
    · exact .refl _
    · exact State.request_keeps ..
  · exact State.request_keeps ..
  · exact .refl _

theorem State.calRun_keeps' {s : State} {r : Fin 4} {op : Nat} {points : Nat} {cmds : List (BitVec 32)} {t'} {x'} (h' : State.calRun s r op points cmds = (t', x')) :
    Keeps s t' := by
  have := State.calRun_keeps s r op points cmds; rw [h'] at this; exact this

theorem State.writeCalCmd_keeps (s : State) (v : Word) : Keeps s (s.writeCalCmd v) := by
  unfold State.writeCalCmd
  dsimp only
  split
  · exact State.calTrigger_keeps _ _ _ (State.calAbort_keeps ..)
  · split
    · exact .refl _
    · exact State.calTrigger_keeps _ _ _ (State.applySet_keeps ..)
    · exact State.calTrigger_keeps _ _ _ (State.rollback_keeps ..)
    · exact State.loadSet_keeps ..
    · exact .refl _
    · exact State.calTrigger_keeps _ _ _ (State.calRun_keeps ..)

theorem State.writeCal_keeps (s : State) (a : Nat) (v : Word) : Keeps s (State.writeCal s a v) := by
  unfold State.writeCal
  with_reducible
    repeat' (first
      | exact .refl _ | fail_if_no_progress (refine Keeps.upd ?_ rfl rfl rfl rfl rfl rfl rfl) | refine .trans ?_ (State.writeCalCmd_keeps ..)
      | refine Keeps.ite ?_ ?_ | split)

theorem State.civilStep_keeps (s : State) (up : Bool) (down : Bool) : Keeps s (State.civilStep s up down) := by
  unfold State.civilStep
  with_reducible
    repeat' (first
      | exact .refl _ | fail_if_no_progress (refine Keeps.upd ?_ rfl rfl rfl rfl rfl rfl rfl) | refine Keeps.ite ?_ ?_)

theorem State.writeOffset_keeps (s : State) (v : BitVec 8) : Keeps s (State.writeOffset s v) := by
  unfold State.writeOffset
  with_reducible
    repeat' (first
      | exact .refl _ | fail_if_no_progress (refine Keeps.upd ?_ rfl rfl rfl rfl rfl rfl rfl) | refine .trans ?_ (State.writeIgnored_keeps ..)
      | refine Keeps.ite ?_ ?_)

theorem State.writeCivil_keeps (s : State) (v : Word) : Keeps s (State.writeCivil s v) := by
  unfold State.writeCivil
  with_reducible
    repeat' (first
      | exact .refl _ | refine .trans ?_ (State.civilStep_keeps ..) | refine .trans ?_ (State.writeOffset_keeps ..) | refine Keeps.ite ?_ ?_)

theorem State.rtcCancel_keeps (s : State) : Keeps s (State.rtcCancel s) := by
  unfold State.rtcCancel
  with_reducible
    repeat' (first
      | exact .refl _ | fail_if_no_progress (refine Keeps.upd ?_ rfl rfl rfl rfl rfl rfl rfl))

theorem State.rtcCommit_keeps (s : State) : Keeps s (State.rtcCommit s) := by
  unfold State.rtcCommit
  with_reducible
    repeat' (first
      | exact .refl _ | fail_if_no_progress (refine Keeps.upd ?_ rfl rfl rfl rfl rfl rfl rfl) | refine .trans ?_ (State.writeIgnored_keeps ..)
      | refine Keeps.ite ?_ ?_)

theorem State.newWindow_keeps (s : State) (state : Nat) : Keeps s (State.newWindow s state) := by
  unfold State.newWindow
  with_reducible
    repeat' (first
      | exact .refl _ | fail_if_no_progress (refine Keeps.upd ?_ rfl rfl rfl rfl rfl rfl rfl))

theorem State.timeReport_keeps (s : State) (event : Nat) (err : Option Int) (before : List Byte) (after : List Byte) :
    Keeps s (State.timeReport s event err before after) := by
  unfold State.timeReport
  with_reducible
    repeat' (first
      | exact .refl _ | fail_if_no_progress (refine Keeps.upd ?_ rfl rfl rfl rfl rfl rfl rfl) | refine .trans ?_ (State.emit_keeps ..)
      | refine Keeps.ite ?_ ?_)

theorem State.writeTrim_keeps (s : State) (v : BitVec 16) : Keeps s (State.writeTrim s v) := by
  unfold State.writeTrim
  with_reducible
    repeat' (first
      | exact .refl _ | fail_if_no_progress (refine Keeps.upd ?_ rfl rfl rfl rfl rfl rfl rfl) | refine .trans ?_ (State.newWindow_keeps ..)
      | refine .trans ?_ (State.timeReport_keeps ..))

theorem State.writeTrimCtrl_keeps (s : State) (v : Word) : Keeps s (State.writeTrimCtrl s v) := by
  unfold State.writeTrimCtrl
  with_reducible
    repeat' (first
      | exact .refl _ | fail_if_no_progress (refine Keeps.upd ?_ rfl rfl rfl rfl rfl rfl rfl) | refine .trans ?_ (State.newWindow_keeps ..)
      | refine Keeps.ite ?_ ?_)

theorem State.writeRtc_keeps (s : State) (a : Nat) (v : Word) : Keeps s (State.writeRtc s a v) := by
  unfold State.writeRtc
  with_reducible
    repeat' (first
      | exact .refl _ | fail_if_no_progress (refine Keeps.upd ?_ rfl rfl rfl rfl rfl rfl rfl) | refine .trans ?_ (State.writeCivil_keeps ..)
      | refine .trans ?_ (State.rtcCancel_keeps ..) | refine .trans ?_ (State.rtcCommit_keeps ..) | refine .trans ?_ (State.writeTrim_keeps ..)
      | refine .trans ?_ (State.writeTrimCtrl_keeps ..) | refine .trans ?_ (State.when_keeps _ _ _ ?_) | refine Keeps.ite ?_ ?_ | split)

theorem State.startTone_keeps (s : State) (via : Via) (id : BitVec 32) : Keeps s (State.startTone s via id) := by
  unfold State.startTone
  with_reducible
    repeat' (first
      | exact .refl _ | refine .trans ?_ (State.modOut_keeps ..) | refine .trans ?_ (State.txReport_keeps ..)
      | refine .trans ?_ (State.writeIgnored_keeps ..) | refine .trans ?_ (State.when_keeps _ _ _ ?_) | refine Keeps.ite ?_ ?_)

theorem State.abortTx_keeps (s : State) (p : Tx → Bool) (reason : Nat) : Keeps s (State.abortTx s p reason) := by
  unfold State.abortTx
  with_reducible
    repeat' (first
      | exact .refl _ | refine .trans ?_ (State.modOut_keeps ..) | refine .trans ?_ (State.dropWhere_keeps ..))

theorem State.outfallAbortAll_keeps (s : State) : Keeps s (State.outfallAbortAll s) := by
  unfold State.outfallAbortAll
  with_reducible
    repeat' (first
      | exact .refl _ | refine .trans ?_ (State.abortTx_keeps ..) | refine .trans ?_ (State.writeIgnored_keeps ..) | refine Keeps.ite ?_ ?_)

theorem State.writeTone_keeps (s : State) (via : Via) (id : BitVec 32) (v : Word) : Keeps s (State.writeTone s via id v) := by
  unfold State.writeTone
  with_reducible
    repeat' (first
      | exact .refl _ | refine .trans ?_ (State.modOut_keeps ..) | refine .trans ?_ (State.startTone_keeps ..)
      | refine .trans ?_ (State.outfallAbortAll_keeps ..) | refine .trans ?_ (State.when_keeps _ _ _ ?_) | refine Keeps.ite ?_ ?_)

theorem State.writeOutfall_keeps (s : State) (via : Via) (id : BitVec 32) (a : Nat) (v : Word) : Keeps s (State.writeOutfall s via id a v) := by
  unfold State.writeOutfall
  with_reducible
    repeat' (first
      | exact .refl _ | refine .trans ?_ (State.modOut_keeps ..) | refine .trans ?_ (State.writeTone_keeps ..) | refine Keeps.ite ?_ ?_ | split)

theorem State.writeJournal_keeps (s : State) (a : Nat) (v : Word) : Keeps s (State.writeJournal s a v) := by
  unfold State.writeJournal
  with_reducible
    repeat' (first
      | exact .refl _ | fail_if_no_progress (refine Keeps.upd ?_ rfl rfl rfl rfl rfl rfl rfl) | refine .trans ?_ (State.writeJournalCmd_keeps ..)
      | refine Keeps.ite ?_ ?_ | split)

theorem State.writeHostCtrl_keeps (s : State) (v : Word) : Keeps s (State.writeHostCtrl s v) := by
  unfold State.writeHostCtrl
  with_reducible
    repeat' (first
      | exact .refl _ | fail_if_no_progress (refine Keeps.upd ?_ rfl rfl rfl rfl rfl rfl rfl) | refine .trans ?_ (State.endSession_keeps ..)
      | refine .trans ?_ (State.linkDown_keeps ..) | refine Keeps.ite ?_ ?_)

theorem State.writeKeyData_keeps (s : State) (n : Fin 4) (v : Word) : Keeps s (s.writeKeyData n v) :=
  .keys rfl rfl rfl rfl rfl rfl rfl rfl rfl rfl rfl

theorem State.writeKeysCmd_keeps (s : State) (v : Word) : Keeps s (s.writeKeysCmd v) := by
  unfold State.writeKeysCmd
  extract_lets op c
  split
  · exact Keys.command_keeps ..
  · exact .keys rfl rfl rfl rfl rfl rfl rfl rfl rfl rfl rfl

theorem State.writeKeys_keeps (s : State) (a : Nat) (v : Word) : Keeps s (State.writeKeys s a v) := by
  unfold State.writeKeys
  with_reducible
    repeat' (first
      | exact .refl _ | refine .trans ?_ (State.writeKeyData_keeps ..) | refine .trans ?_ (State.writeKeysCmd_keeps ..) | refine Keeps.ite ?_ ?_)

theorem State.writeReg_keeps (s : State) (via : Via) (id : BitVec 32) (addr : Addr) (v : Word) : Keeps s (State.writeReg s via id addr v) := by
  unfold State.writeReg
  with_reducible
    repeat' (first
      | exact .refl _ | fail_if_no_progress (refine Keeps.upd ?_ rfl rfl rfl rfl rfl rfl rfl) | refine .trans ?_ (State.writeStillSel_keeps ..)
      | refine .trans ?_ (State.writeTw_keeps ..) | refine .trans ?_ (State.writeReadyHealth_keeps ..) | refine .trans ?_ (State.writeReach_keeps ..)
      | refine .trans ?_ (State.writeCtx_keeps ..) | refine .trans ?_ (State.writeCal_keeps ..) | refine .trans ?_ (State.writeRtc_keeps ..)
      | refine .trans ?_ (State.writeOutfall_keeps ..) | refine .trans ?_ (State.writeJournal_keeps ..)
      | refine .trans ?_ (State.writeHostCtrl_keeps ..) | refine .trans ?_ (State.writeHostAddress_keeps ..)
      | refine .trans ?_ (State.writeKeys_keeps ..) | refine Keeps.ite ?_ ?_)

theorem State.writeWhole_keeps (s : State) (via : Via) (id : BitVec 32) (addr : Addr) (v : Word) : Keeps s (State.writeWhole s via id addr v) := by
  unfold State.writeWhole
  with_reducible
    repeat' (first
      | exact .refl _ | refine .trans ?_ (State.busEnd_keeps ..) | refine .trans ?_ (State.writeReg_keeps ..))

theorem State.writeAll_keeps (s : State) (id : BitVec 32) (l : List (Addr × Word)) : Keeps s (s.writeAll id l) := by
  induction l generalizing s with
  | nil => exact .refl _
  | cons p l ih =>
    unfold State.writeAll
    split
    · exact (State.writeWhole_keeps ..).trans (ih _)
    · exact .refl _

theorem State.qrpWrite_keeps (s : State) (id : BitVec 32) (l : List (Addr × Word)) : Keeps s (State.qrpWrite s id l) := by
  unfold State.qrpWrite
  with_reducible
    repeat' (first
      | exact .refl _
      | (extract_lets +onlyGivenNames t; refine (fun (ht : Keeps s t) => ?_) ?_; (on_goal 1 => clear_value t); on_goal 2 => (dsimp -zeta only [t]; clear t))
      | assumption | refine .trans ?_ (State.refuse_keeps ..) | refine .trans ?_ (State.writeAll_keeps ..)
      | refine .trans ?_ (State.complete_keeps ..) | refine Keeps.ite ?_ ?_)

theorem State.applyPairs_keeps (s : State) (l : List Tlv) : Keeps s (State.applyPairs s l) := by
  unfold State.applyPairs
  with_reducible
    repeat' (first
      | exact .refl _ | refine .trans ?_ (State.writeWhole_keeps ..) | refine .trans ?_ (State.forEach_keeps _ _ _ (fun _ _ => ?_)))

theorem State.wardenFails_keeps (s : State) (w : Fin 4) : Keeps s (State.wardenFails s w) := by
  unfold State.wardenFails
  with_reducible
    repeat' (first
      | exact .refl _ | refine .trans ?_ (State.modWarden_keeps ..) | refine .trans ?_ (State.post_keeps ..) | refine Keeps.ite ?_ ?_)

theorem execWardenMiscompare_keeps (dt : Nat) (w : Fin 4) (s : State) : ∃ t, execWardenMiscompare dt w s = .next t ∧ Keeps s t := by
  refine ⟨_, rfl, ?_⟩
  refine .trans (State.advance_keeps ..) (State.when_keeps _ _ _ ?_)
  with_reducible
    repeat' (first
      | exact .refl _ | refine .trans ?_ (State.wardenFails_keeps ..))

theorem State.watchEnd_keeps (s : State) (w : Watch) (event : Nat) (level : Option Int) (stamp : Nat) : Keeps s (State.watchEnd s w event level stamp) := by
  unfold State.watchEnd
  with_reducible
    repeat' (first
      | exact .refl _ | refine .trans ?_ (State.emit_keeps ..) | refine .trans ?_ (State.modOut_keeps ..))

theorem execRelayConfirmed_keeps (dt : Nat) (s : State) : ∃ t, execRelayConfirmed dt s = .next t ∧ Keeps s t := by
  refine ⟨_, rfl, ?_⟩
  refine .trans (State.advance_keeps ..) (State.when_keeps _ _ _ ?_)
  with_reducible
    repeat' (first
      | exact .refl _ | refine .trans ?_ (State.watchEnd_keeps ..) | refine .trans ?_ (State.withSome_keeps _ _ _ (fun _ => ?_)))

theorem State.refuseImage_keeps (s : State) (h : Header) (f : Nat × Nat × Nat) (retry : Bool) : Keeps s (State.refuseImage s h f retry) := by
  unfold State.refuseImage
  with_reducible
    repeat' (first
      | exact .refl _ | fail_if_no_progress (refine Keeps.upd ?_ rfl rfl rfl rfl rfl rfl rfl) | refine .trans ?_ (State.post_keeps ..)
      | refine .trans ?_ (State.linkDown_keeps ..))

theorem State.modSub_keeps (s : State) (c : Fin 256) (q : Fin 64) (f : DabSub → DabSub) : Keeps s (State.modSub s c q f) := by
  unfold State.modSub
  with_reducible
    repeat' (first
      | exact .refl _ | refine .trans ?_ (State.modDab_keeps ..))

theorem State.countLost_keeps (s : State) (c : Fin 256) (q : Fin 64) (n : Nat) : Keeps s (State.countLost s c q n) := by
  unfold State.countLost
  with_reducible
    repeat' (first
      | exact .refl _ | refine .trans ?_ (State.modSub_keeps ..))

theorem State.dabRecord_keeps (s : State) (c : Fin 256) (typ : Nat) (stamp : Nat) (spanEnd : Nat) (payload : List Byte) (m : Marks) (combined : Bool) (disc : Bool) :
    Keeps s (State.dabRecord s c typ stamp spanEnd payload m combined disc) := by
  unfold State.dabRecord
  with_reducible
    repeat' (first
      | exact .refl _ | refine .trans ?_ (State.deliver_keeps ..))

theorem State.packetRecord_keeps (s : State) (c : Fin 256) (q : Fin 64) (kind : Nat) (crc : Option Bool) (g : DabGroup) :
    Keeps s (State.packetRecord s c q kind crc g) := by
  unfold State.packetRecord
  with_reducible
    repeat' (first
      | exact .refl _ | refine .trans ?_ (State.dabRecord_keeps ..) | refine .trans ?_ (State.modSub_keeps ..) | refine Keeps.ite ?_ ?_ | split)

theorem State.assemble_keeps (s : State) (c : Fin 256) (q : Fin 64) (f : FrameInfo) (p : Packet) : Keeps s (State.assemble s c q f p) := by
  unfold State.assemble
  with_reducible
    repeat' (first
      | exact .refl _ | refine .trans ?_ (State.modSub_keeps ..) | refine .trans ?_ (State.packetRecord_keeps ..) | refine Keeps.ite ?_ ?_ | split)

theorem State.packet_keeps (s : State) (c : Fin 256) (q : Fin 64) (f : FrameInfo) (p : Packet) : Keeps s (State.packet s c q f p) := by
  unfold State.packet
  with_reducible
    repeat' (first
      | exact .refl _ | refine .trans ?_ (State.countLost_keeps ..) | refine .trans ?_ (State.packetRecord_keeps ..)
      | refine .trans ?_ (State.assemble_keeps ..) | refine Keeps.ite ?_ ?_)

theorem State.grant_keeps (s : State) : Keeps s (State.grant s) := by
  unfold State.grant
  with_reducible
    repeat' (first
      | exact .refl _ | fail_if_no_progress (refine Keeps.upd ?_ rfl rfl rfl rfl rfl rfl rfl) | refine .trans ?_ (State.journalStart_keeps ..)
      | refine .trans ?_ (State.withSome_keeps _ _ _ (fun _ => ?_)) | refine Keeps.ite ?_ ?_)

theorem State.retune_keeps (s : State) (f : Nat) : Keeps s (State.retune s f) := by
  unfold State.retune
  with_reducible
    repeat' (first
      | exact .refl _ | refine .trans ?_ (State.modOut_keeps ..))

theorem State.startOutfall_keeps (s : State) : Keeps s (State.startOutfall s) := by
  unfold State.startOutfall
  with_reducible
    repeat' (first
      | exact .refl _ | refine .trans ?_ (State.retune_keeps ..) | refine .trans ?_ (State.modOut_keeps ..))

theorem State.startReach_keeps (s : State) (r : Fin 4) (deadline : Nat) : Keeps s (State.startReach s r deadline) := by
  unfold State.startReach
  with_reducible
    repeat' (first
      | exact .refl _ | refine .trans ?_ (State.modReach_keeps ..))

theorem State.sendReports_keeps (s : State) : Keeps s (State.sendReports s) := by
  unfold State.sendReports
  with_reducible
    repeat' (first
      | exact .refl _ | fail_if_no_progress (refine Keeps.upd ?_ rfl rfl rfl rfl rfl rfl rfl) | refine .trans ?_ (State.emit_keeps ..)
      | refine .trans ?_ (State.forEach_keeps _ _ _ (fun _ _ => ?_)))

theorem State.firstReports_keeps (s : State) : Keeps s (State.firstReports s) := by
  unfold State.firstReports
  with_reducible
    repeat' (first
      | exact .refl _ | fail_if_no_progress (refine Keeps.upd ?_ rfl rfl rfl rfl rfl rfl rfl) | refine .trans ?_ (State.timeReport_keeps ..)
      | refine .trans ?_ (State.when_keeps _ _ _ ?_) | refine .trans ?_ (State.withSome_keeps _ _ _ (fun _ => ?_)))

theorem State.wakeCtx_keeps (s : State) (c : Fin 256) : Keeps s (State.wakeCtx s c) := by
  unfold State.wakeCtx
  with_reducible
    repeat' (first
      | exact .refl _ | refine .trans ?_ (State.modCtx_keeps ..) | refine .trans ?_ (State.startChain_keeps ..)
      | refine .trans ?_ (State.toState_keeps ..))

theorem State.leaveDoze_keeps (s : State) : Keeps s s.leaveDoze := by
  have h1 : ∀ a : State, Keeps a (if a.mgmtOnly then a else
      ((allReaches.filter (fun r => a.reaches[r].st == .stopped)).foldl (fun t r => t.startReach r (t.clock + 220 * msPs)) a).startOutfall) := by
    intro a; split
    · exact .refl _
    · exact (Keeps.foldl _ (fun _ _ => State.startReach_keeps ..) _ _).trans (State.startOutfall_keeps _)
  unfold State.leaveDoze
  extract_lets src a b c
  have ha : Keeps s a := .same rfl rfl rfl rfl rfl rfl rfl
  clear_value a
  have hb : Keeps s b := ha.trans (State.when_keeps _ _ _ (State.grant_keeps _))
  clear_value b
  have hc : Keeps s c := hb.trans (h1 b)
  clear_value c
  exact ((hc.trans (State.forEach_keeps _ _ _ (fun _ _ => State.wakeCtx_keeps ..))).trans (State.firstReports_keeps _)).trans (State.sendReports_keeps _)

theorem execDozeExitSequence_keeps (dt : Nat) (s : State) : ∃ t, execDozeExitSequence dt s = .next t ∧ Keeps s t := by
  refine ⟨_, rfl, ?_⟩
  refine .trans (State.advance_keeps ..) (State.when_keeps _ _ _ ?_)
  with_reducible
    repeat' (first
      | exact .refl _ | refine .trans ?_ (State.leaveDoze_keeps ..))

theorem State.spateDeliver_keeps (s : State) (d : SpateDet) (levels : List Int) : Keeps s (State.spateDeliver s d levels) := by
  unfold State.spateDeliver
  with_reducible
    repeat' (first
      | exact .refl _ | refine .trans ?_ (State.modTrib_keeps ..) | refine .trans ?_ (State.modCtx_keeps ..) | refine Keeps.ite ?_ ?_ | split)

theorem execSpateFlagClear_keeps (dt : Nat) (d : SpateDet) (levels : List Int) (s : State) : ∃ t, execSpateFlagClear dt d levels s = .next t ∧ Keeps s t := by
  refine ⟨_, rfl, ?_⟩
  refine .trans (State.advance_keeps ..) (State.when_keeps _ _ _ ?_)
  with_reducible
    repeat' (first
      | exact .refl _ | refine .trans ?_ (State.spateDeliver_keeps ..))

theorem State.countDatagram_keeps (s : State) : Keeps s (State.countDatagram s) := by
  unfold State.countDatagram
  with_reducible
    repeat' (first
      | exact .refl _ | fail_if_no_progress (refine Keeps.upd ?_ rfl rfl rfl rfl rfl rfl rfl))

theorem State.sendDatagram_keeps (s : State) (f : Nat → Frame) : Keeps s (State.sendDatagram s f) := by
  unfold State.sendDatagram
  with_reducible
    repeat' (first
      | exact .refl _ | refine .trans ?_ (State.countDatagram_keeps ..) | refine .trans ?_ (State.sendFrame_keeps ..) | refine Keeps.ite ?_ ?_)

theorem execCtxStatusRead_keeps (dt : Nat) (s : State) : ∃ t, execCtxStatusRead dt s = .next t ∧ Keeps s t := by
  refine ⟨_, rfl, ?_⟩
  refine .trans (State.advance_keeps ..) (State.when_keeps _ _ _ ?_)
  with_reducible
    repeat' (first
      | exact .refl _ | fail_if_no_progress (refine Keeps.upd ?_ rfl rfl rfl rfl rfl rfl rfl) | refine .trans ?_ (State.readCtxStatus_keeps ..))

theorem execStatus_keeps (dt : Nat) (src : Peer) (id : BitVec 32) (target : BitVec 32) (s : State) : ∃ t, execStatus dt src id target s = .next t ∧ Keeps s t := by
  refine ⟨_, rfl, ?_⟩
  refine .trans (State.advance_keeps ..) (State.when_keeps _ _ _ ?_)
  with_reducible
    repeat' (first
      | exact .refl _ | refine .trans ?_ (State.complete_keeps ..) | refine .trans ?_ (State.command_keeps _ _ _ _ _ _ _ (fun _ => ?_)))

theorem execRtcStepUp_keeps (dt : Nat) (s : State) : ∃ t, execRtcStepUp dt s = .next t ∧ Keeps s t := by
  refine ⟨_, rfl, ?_⟩
  refine .trans (State.advance_keeps ..) (State.when_keeps _ _ _ ?_)
  with_reducible
    repeat' (first
      | exact .refl _ | refine .trans ?_ (State.civilStep_keeps ..))

theorem execRecordsKeepalive_keeps (dt : Nat) (s : State) : ∃ t, execRecordsKeepalive dt s = .next t ∧ Keeps s t := by
  refine ⟨_, rfl, ?_⟩
  refine .trans (State.advance_keeps ..) (State.when_keeps _ _ _ ?_)
  with_reducible
    repeat' (first
      | exact .refl _ | refine .trans ?_ (State.sendDatagram_keeps ..) | refine .trans ?_ (State.withSome_keeps _ _ _ (fun _ => ?_)))

theorem State.relayQueue_keeps (s : State) (c : Fin 256) (q : Ended) (h : BitVec 128) : Keeps s (State.relayQueue s c q h) := by
  unfold State.relayQueue
  with_reducible
    repeat' (first
      | exact .refl _ | fail_if_no_progress (refine Keeps.upd ?_ rfl rfl rfl rfl rfl rfl rfl) | refine .trans ?_ (State.modOut_keeps ..))

theorem State.relayTake_keeps (s : State) (c : Fin 256) (q : Ended) (h : BitVec 128) : Keeps s (s.relayTake c q h) := by
  unfold State.relayTake
  split
  · exact Keeps.ite (State.relaySwap_keeps ..) (State.relayRefuse_keeps ..)
  · exact Keeps.ite (State.relayQueue_keeps ..) (State.relayRefuse_keeps ..)

theorem execRelayIntake_keeps (dt : Nat) (c : Fin 256) (s : State) : ∃ t, execRelayIntake dt c s = .next t ∧ Keeps s t := by
  refine ⟨_, rfl, ?_⟩
  refine .trans (State.advance_keeps ..) (State.when_keeps _ _ _ ?_)
  with_reducible
    repeat' (first
      | exact .refl _ | refine .trans ?_ (State.modEab_keeps ..) | refine .trans ?_ (State.relayTake_keeps ..)
      | refine .trans ?_ (State.withSome_keeps _ _ _ (fun _ => ?_)))

theorem execRefclkRestored_keeps (dt : Nat) (ref2 : Bool) (hz : Nat) (s : State) : ∃ t, execRefclkRestored dt ref2 hz s = .next t ∧ Keeps s t := by
  refine ⟨_, rfl, ?_⟩
  refine .trans (State.advance_keeps ..) (State.when_keeps _ _ _ ?_)
  with_reducible
    repeat' (first
      | exact .refl _ | fail_if_no_progress (refine Keeps.upd ?_ rfl rfl rfl rfl rfl rfl rfl))

theorem execCalRecalibration_keeps (dt : Nat) (r : Fin 4) (s : State) : ∃ t, execCalRecalibration dt r s = .next t ∧ Keeps s t := by
  refine ⟨_, rfl, ?_⟩
  refine .trans (State.advance_keeps ..) (State.when_keeps _ _ _ ?_)
  with_reducible
    repeat' (first
      | exact .refl _ | refine .trans ?_ (State.calRun_keeps ..) | refine .trans ?_ (State.calTrigger_keeps _ _ _ ?_))

theorem execLandingReady_keeps (dt : Nat) (c : Fin 256) (d : Landed) (s : State) : ∃ t, execLandingReady dt c d s = .next t ∧ Keeps s t := by
  refine ⟨_, rfl, ?_⟩
  refine .trans (State.advance_keeps ..) (State.when_keeps _ _ _ ?_)
  with_reducible
    repeat' (first
      | exact .refl _ | refine .trans ?_ (State.modFollow_keeps ..) | refine .trans ?_ (State.withSome_keeps _ _ _ (fun _ => ?_)))

theorem State.lbtSettleOne_keeps (s : State) (x : Tx) : Keeps s (State.lbtSettleOne s x) := by
  unfold State.lbtSettleOne
  with_reducible
    repeat' (first
      | exact .refl _ | refine .trans ?_ (State.dropWhere_keeps ..) | refine .trans ?_ (State.modOut_keeps ..) | refine Keeps.ite ?_ ?_)

theorem State.lbtSettle_keeps (s : State) : Keeps s (State.lbtSettle s) := by
  unfold State.lbtSettle
  with_reducible
    repeat' (first
      | exact .refl _ | refine .trans ?_ (State.lbtSettleOne_keeps ..) | refine .trans ?_ (State.forEach_keeps _ _ _ (fun _ _ => ?_)))

theorem State.discardWindow_keeps (s : State) : Keeps s (State.discardWindow s) := by
  unfold State.discardWindow
  with_reducible
    repeat' (first
      | exact .refl _ | refine .trans ?_ (State.newWindow_keeps ..) | refine .trans ?_ (State.timeReport_keeps ..) | refine Keeps.ite ?_ ?_)

theorem State.sourceEvent_keeps (s : State) (station : Nat) (source : Nat) : Keeps s (State.sourceEvent s station source) := by
  unfold State.sourceEvent
  with_reducible
    repeat' (first
      | exact .refl _ | fail_if_no_progress (refine Keeps.upd ?_ rfl rfl rfl rfl rfl rfl rfl) | refine .trans ?_ (State.discardWindow_keeps ..)
      | refine Keeps.ite ?_ ?_)

theorem State.mainsEdge_keeps (s : State) : Keeps s (State.mainsEdge s) := by
  unfold State.mainsEdge
  with_reducible
    repeat' (first
      | exact .refl _ | fail_if_no_progress (refine Keeps.upd ?_ rfl rfl rfl rfl rfl rfl rfl) | refine .trans ?_ (State.discardWindow_keeps ..)
      | refine .trans ?_ (State.sourceEvent_keeps ..) | refine .trans ?_ (State.when_keeps _ _ _ ?_) | refine Keeps.ite ?_ ?_)

theorem State.countCombined_keeps (s : State) (c : Fin 256) : Keeps s (State.countCombined s c) := by
  unfold State.countCombined
  with_reducible
    repeat' (first
      | exact .refl _ | refine .trans ?_ (State.modCtx_keeps ..) | refine Keeps.ite ?_ ?_)

theorem State.countCif_keeps (s : State) (c : Fin 256) (combined : Bool) (fresh : Bool) : Keeps s (State.countCif s c combined fresh) := by
  unfold State.countCif
  with_reducible
    repeat' (first
      | exact .refl _ | refine .trans ?_ (State.modDab_keeps ..) | refine .trans ?_ (State.countCombined_keeps ..)
      | refine .trans ?_ (State.when_keeps _ _ _ ?_))

theorem State.readAll_keeps (s : State) (l : List Addr) : Keeps s (State.readAll s l) := by
  unfold State.readAll
  with_reducible
    repeat' (first
      | exact .refl _ | fail_if_no_progress (refine Keeps.upd ?_ rfl rfl rfl rfl rfl rfl rfl) | refine .trans ?_ (State.readReg_keeps ..)
      | refine .trans ?_ (State.forEach_keeps _ _ _ (fun _ _ => ?_)))

theorem State.qrpRead_keeps (s : State) (id : BitVec 32) (a : Addr) (n : Nat) : Keeps s (State.qrpRead s id a n) := by
  unfold State.qrpRead
  with_reducible
    repeat' (first
      | exact .refl _ | refine .trans ?_ (State.refuse_keeps ..) | refine .trans ?_ (State.readAll_keeps ..)
      | refine .trans ?_ (State.complete_keeps ..) | refine Keeps.ite ?_ ?_)

theorem execRegRead_keeps (dt : Nat) (src : Peer) (id : BitVec 32) (addr : Addr) (count : BitVec 16) (s : State) :
    ∃ t, execRegRead dt src id addr count s = .next t ∧ Keeps s t := by
  refine ⟨_, rfl, ?_⟩
  refine .trans (State.advance_keeps ..) (State.when_keeps _ _ _ ?_)
  with_reducible
    repeat' (first
      | exact .refl _ | refine .trans ?_ (State.qrpRead_keeps ..) | refine .trans ?_ (State.command_keeps _ _ _ _ _ _ _ (fun _ => ?_)))

theorem State.ctItem_keeps (s : State) (c : Fin 256) (ct : Nat) (edge : Nat) : Keeps s (State.ctItem s c ct edge) := by
  unfold State.ctItem
  with_reducible
    repeat' (first
      | exact .refl _ | fail_if_no_progress (refine Keeps.upd ?_ rfl rfl rfl rfl rfl rfl rfl) | refine .trans ?_ (State.sourceEvent_keeps ..)
      | refine Keeps.ite ?_ ?_)

theorem State.adcSettles_keeps (s : State) (r : Fin 4) : Keeps s (State.adcSettles s r) := by
  unfold State.adcSettles
  with_reducible
    repeat' (first
      | exact .refl _ | refine .trans ?_ (State.blankUpdate_keeps ..) | refine .trans ?_ (State.modReach_keeps ..))

theorem execAdcSettled_keeps (dt : Nat) (r : Fin 4) (s : State) : ∃ t, execAdcSettled dt r s = .next t ∧ Keeps s t := by
  refine ⟨_, rfl, ?_⟩
  refine .trans (State.advance_keeps ..) (State.when_keeps _ _ _ ?_)
  with_reducible
    repeat' (first
      | exact .refl _ | refine .trans ?_ (State.adcSettles_keeps ..))

theorem State.eabAbandon_keeps (s : State) (c : Fin 256) (status : Nat) (symbols : Nat) (other : Option Int) : Keeps s (State.eabAbandon s c status symbols other) := by
  unfold State.eabAbandon
  with_reducible
    repeat' (first
      | exact .refl _ | refine .trans ?_ (State.eabFinish_keeps ..))

theorem State.shadowDetect_keeps (s : State) (c : Fin 256) (k : Candidate) (now : Nat) : Keeps s (State.shadowDetect s c k now) := by
  unfold State.shadowDetect
  with_reducible
    repeat' (first
      | exact .refl _ | refine .trans ?_ (State.modEab_keeps ..) | refine .trans ?_ (State.eabAbandon_keeps ..) | refine Keeps.ite ?_ ?_)

theorem State.hearSymbols_keeps (s : State) (c : Fin 256) (l : List EabSym) : Keeps s (State.hearSymbols s c l) := by
  unfold State.hearSymbols
  with_reducible
    repeat' (first
      | exact .refl _ | refine .trans ?_ (State.modCtx_keeps ..))

theorem execEabShadowDetect_keeps (dt : Nat) (c : Fin 256) (syms : List EabSym) (main : List EabSym) (snr : Nat) (foffset : Int) (stamp : Nat) (now : Nat) (s : State) :
    ∃ t, execEabShadowDetect dt c syms main snr foffset stamp now s = .next t ∧ Keeps s t := by
  refine ⟨_, rfl, ?_⟩
  refine .trans (State.advance_keeps ..) (State.when_keeps _ _ _ ?_)
  with_reducible
    repeat' (first
      | exact .refl _ | refine .trans ?_ (State.shadowDetect_keeps ..) | refine .trans ?_ (State.hearSymbols_keeps ..))

theorem State.scheduleStep_keeps (s : State) (was : Bool) : Keeps s (State.scheduleStep s was) := by
  unfold State.scheduleStep
  with_reducible
    repeat' (first
      | exact .refl _ | refine .trans ?_ (State.enterWindow_keeps ..) | refine .trans ?_ (State.requestExit_keeps ..)
      | refine .trans ?_ (State.when_keeps _ _ _ ?_) | refine Keeps.ite ?_ ?_)

theorem State.stepTime_keeps (s : State) (event seconds fracPs : Nat) (h : fracPs < secPs) : Keeps s (s.stepTime event seconds fracPs) := by
  have ht : Keeps s { s with rtc := { s.rtc with seconds := seconds, fracPs := fracPs, timeLost := false, staged := none, cancelled := none, autoset := none } } :=
    .second rfl rfl rfl rfl rfl h rfl
  exact ((ht.trans (State.timeReport_keeps ..)).trans (State.discardWindow_keeps _)).trans (State.scheduleStep_keeps ..)

theorem State.autosetStep_keeps (s : State) (a : Nat × Nat × Nat) : Keeps s (s.autosetStep a) :=
  State.stepTime_keeps _ _ _ _ (by simp only [secPs]; omega)

theorem State.boundarySteps_keeps (s : State) : Keeps s s.boundarySteps := by
  unfold State.boundarySteps
  split
  · split
    · exact State.stepTime_keeps _ _ _ _ secPs_pos
    · exact .refl _
  · split
    · exact .same rfl rfl rfl rfl rfl rfl rfl
    · split
      · exact State.autosetStep_keeps ..
      · exact .refl _
  · exact .refl _

theorem State.twEnd_keeps (s : State) (stop : Bool) (l : List (Addr × Word)) : Keeps s (s.twEnd stop l) := by
  induction l generalizing s with
  | nil => exact .refl _
  | cons p l ih =>
    unfold State.twEnd
    split
    · exact (State.busEnd_keeps ..).trans (ih _)
    · exact .refl _

theorem State.releaseDue_keeps (s : State) : Keeps s (State.releaseDue s) := by
  unfold State.releaseDue
  with_reducible
    repeat' (first
      | exact .refl _ | fail_if_no_progress (refine Keeps.upd ?_ rfl rfl rfl rfl rfl rfl rfl) | refine .trans ?_ (State.release_keeps ..)
      | refine .trans ?_ (State.forEach_keeps _ _ _ (fun _ _ => ?_)))

theorem execRecordRelease_keeps (dt : Nat) (s : State) : ∃ t, execRecordRelease dt s = .next t ∧ Keeps s t := by
  refine ⟨_, rfl, ?_⟩
  refine .trans (State.advance_keeps ..) (State.when_keeps _ _ _ ?_)
  with_reducible
    repeat' (first
      | exact .refl _ | refine .trans ?_ (State.releaseDue_keeps ..))

theorem execResetNRelease_keeps (dt : Nat) (pins : BitVec 3) (s : State) : ∃ t, execResetNRelease dt pins s = .next t ∧ Keeps s t := by
  refine ⟨_, rfl, ?_⟩
  refine .trans (State.advance_keeps ..) (State.when_keeps _ _ _ ?_)
  with_reducible
    repeat' (first
      | exact .refl _ | fail_if_no_progress (refine Keeps.upd ?_ rfl rfl rfl rfl rfl rfl rfl) | refine .trans ?_ (State.released_keeps ..))

theorem State.postUndefined_keeps (s : State) (c : Fin 256) : Keeps s (State.postUndefined s c) := by
  unfold State.postUndefined
  with_reducible
    repeat' (first
      | exact .refl _ | refine .trans ?_ (State.modDab_keeps ..) | refine .trans ?_ (State.post_keeps ..)
      | refine .trans ?_ (State.forEach_keeps _ _ _ (fun _ _ => ?_)))

theorem State.dabTime_keeps (s : State) (c : Fin 256) (time : Nat) (frame : Nat) : Keeps s (State.dabTime s c time frame) := by
  unfold State.dabTime
  with_reducible
    repeat' (first
      | exact .refl _ | refine .trans ?_ (State.sourceEvent_keeps ..) | refine Keeps.ite ?_ ?_)

theorem State.ficNews_keeps (s : State) (c : Fin 256) (figs : List (List Byte)) (stamp : Nat) : Keeps s (State.ficNews s c figs stamp) := by
  unfold State.ficNews
  with_reducible
    repeat' (first
      | exact .refl _ | refine .trans ?_ (State.modDab_keeps ..) | refine .trans ?_ (State.sideList_keeps ..)
      | refine .trans ?_ (State.dabTime_keeps ..) | refine .trans ?_ (State.withSome_keeps _ _ _ (fun _ => ?_))
      | refine .trans ?_ (State.forEach_keeps _ _ _ (fun _ _ => ?_)))

theorem State.sendFig_keeps (s : State) (c : Fin 256) (fib : Fin 12) (stamp : Nat) (combined : Bool) (m : List Marks) (at_ : Nat) (fig : List Byte) :
    Keeps s (State.sendFig s c fib stamp combined m at_ fig) := by
  unfold State.sendFig
  with_reducible
    repeat' (first
      | exact .refl _ | refine .trans ?_ (State.modDab_keeps ..) | refine .trans ?_ (State.dabRecord_keeps ..) | refine Keeps.ite ?_ ?_)

theorem State.ficDecode_keeps (s : State) (c : Fin 256) (fic : Fic) (msc : Option MscCif) (stamp : Nat) (symbols : List DabSym) :
    Keeps s (State.ficDecode s c fic msc stamp symbols) := by
  unfold State.ficDecode
  with_reducible
    repeat' (first
      | exact .refl _ | refine .trans ?_ (State.modDab_keeps ..) | refine .trans ?_ (State.postUndefined_keeps ..)
      | refine .trans ?_ (State.dabStep_keeps ..) | refine .trans ?_ (State.countCif_keeps ..) | refine .trans ?_ (State.ficNews_keeps ..)
      | refine .trans ?_ (State.sendFig_keeps ..) | refine .trans ?_ (State.withSome_keeps _ _ _ (fun _ => ?_))
      | refine .trans ?_ (State.forEach_keeps _ _ _ (fun _ _ => ?_)) | refine Keeps.ite ?_ ?_)

theorem execDabFicDecode_keeps (dt : Nat) (c : Fin 256) (fic : Fic) (msc : Option MscCif) (frameStamp : Nat) (combined : Bool) (symbols : List DabSym) (s : State) :
    ∃ t, execDabFicDecode dt c fic msc frameStamp combined symbols s = .next t ∧ Keeps s t := by
  refine ⟨_, rfl, ?_⟩
  refine .trans (State.advance_keeps ..) (State.when_keeps _ _ _ ?_)
  with_reducible
    repeat' (first
      | exact .refl _ | refine .trans ?_ (State.ficDecode_keeps ..))

theorem State.feed_keeps (s : State) (r : Fin 4) (l : List Int) : Keeps s (s.feed r l) := by
  induction l generalizing s with
  | nil => exact State.modReach_keeps ..
  | cons c l ih => exact (State.feedCode_keeps ..).trans (ih _)

theorem State.qrpCal_keeps (s : State) (id : BitVec 32) (v : Word) : Keeps s (s.qrpCal id v) := by
  have hd : ∀ t : State, Keeps t (t.respond id 0x0030 stCompleted 0 []) := fun t => State.respond_keeps ..
  have hr : ∀ (q : Fin 4) (f : State → State), Keeps s (f s) → Keeps s (if s.reachUp q then f s else s.refuse id 0x0030 0x83) := by
    intro q f hf; split
    · exact hf
    · exact State.refuse_keeps ..
  unfold State.qrpCal
  extract_lets r op store done ready
  clear_value op
  split
  · exact State.refuse_keeps ..
  · split
    · exact hd _
    · exact hd _
    · exact hr _ (fun t => (done t).applySet store id) ((hd _).trans (State.applySet_keeps ..))
    · exact hr _ (fun t => (done t).rollback r (bits v 14 12) store id) ((hd _).trans (State.rollback_keeps ..))
    · exact (State.loadSet_keeps _).trans (hd _)
    · refine hr r (fun t => match t.calRun r op (bits v 19 16) [id] with | (u, n) => if n = 0 then u else t.refuse id 0x0030 n) ?_
      have h : ∀ q : State × Nat, Keeps s q.1 → Keeps s (match q with | (u, n) => if n = 0 then u else s.refuse id 0x0030 n) := by
        rintro ⟨u, n⟩ hu
        dsimp only
        split
        · exact hu
        · exact State.refuse_keeps ..
      exact h _ (State.calRun_keeps ..)

theorem execQrpCal_keeps (dt : Nat) (src : Peer) (id : BitVec 32) (word : Word) (s : State) : ∃ t, execQrpCal dt src id word s = .next t ∧ Keeps s t := by
  refine ⟨_, rfl, ?_⟩
  refine .trans (State.advance_keeps ..) (State.when_keeps _ _ _ ?_)
  with_reducible
    repeat' (first
      | exact .refl _ | refine .trans ?_ (State.qrpCal_keeps ..) | refine .trans ?_ (State.command_keeps _ _ _ _ _ _ _ (fun _ => ?_)))

theorem State.recordsSend_keeps (s : State) (q : QSession) : Keeps s (State.recordsSend s q) := by
  unfold State.recordsSend
  with_reducible
    repeat' (first
      | exact .refl _ | fail_if_no_progress (refine Keeps.upd ?_ rfl rfl rfl rfl rfl rfl rfl) | refine .trans ?_ (State.keep_keeps ..)
      | refine .trans ?_ (State.sendDatagram_keeps ..) | refine .trans ?_ (State.forEach_keeps _ _ _ (fun _ _ => ?_)) | refine Keeps.ite ?_ ?_)

theorem State.blankAll_keeps (s : State) : Keeps s (State.blankAll s) := by
  unfold State.blankAll
  with_reducible
    repeat' (first
      | exact .refl _ | refine .trans ?_ (State.blankUpdate_keeps ..))

theorem execBlankInRelease_keeps (dt : Nat) (s : State) : ∃ t, execBlankInRelease dt s = .next t ∧ Keeps s t := by
  refine ⟨_, rfl, ?_⟩
  refine .trans (State.advance_keeps ..) (State.when_keeps _ _ _ ?_)
  with_reducible
    repeat' (first
      | exact .refl _ | fail_if_no_progress (refine Keeps.upd ?_ rfl rfl rfl rfl rfl rfl rfl) | refine .trans ?_ (State.blankAll_keeps ..))

theorem State.rememberDelivered_keeps (s : State) (c : Fin 256) (h : BitVec 128) (pcrc : Nat) : Keeps s (State.rememberDelivered s c h pcrc) := by
  unfold State.rememberDelivered
  with_reducible
    repeat' (first
      | exact .refl _ | refine .trans ?_ (State.modCtx_keeps ..) | refine Keeps.ite ?_ ?_)

theorem State.reacquire_keeps (s : State) (c : Fin 256) : Keeps s (State.reacquire s c) := by
  unfold State.reacquire
  with_reducible
    repeat' (first
      | exact .refl _ | refine .trans ?_ (State.modCtx_keeps ..) | refine .trans ?_ (State.toState_keeps ..))

theorem State.restoreSnap_keeps (s : State) (c : Fin 256) : Keeps s (s.restoreSnap c) := by
  unfold State.restoreSnap
  split
  · exact State.modCtx_keeps ..
  · exact State.reacquire_keeps ..

theorem State.iqPut_keeps (s : State) (c : Fin 256) (y : Sample) : Keeps s (s.iqPut c y) := by
  unfold State.iqPut
  extract_lets x t
  have ht : Keeps s t := State.modCtx_keeps ..
  clear_value t
  split
  · exact ht.trans (State.iqFlush_keeps ..)
  · exact ht

theorem State.iqSample_keeps (s : State) (c : Fin 256) (y : Sample) : Keeps s (s.iqSample c y) := by
  unfold State.iqSample
  refine Keeps.trans ?_ (State.modCtx_keeps ..)
  split
  · exact State.iqBreak_keeps ..
  · exact State.iqPut_keeps ..

theorem State.iqDrain_keeps (s : State) (c : Fin 256) : Keeps s (State.iqDrain s c) := by
  unfold State.iqDrain
  with_reducible
    repeat' (first
      | exact .refl _ | refine .trans ?_ (State.modCtx_keeps ..) | refine .trans ?_ (State.iqSample_keeps ..)
      | refine .trans ?_ (State.forEach_keeps _ _ _ (fun _ _ => ?_)) | refine Keeps.ite ?_ ?_ | split)

theorem State.markBurst_keeps (s : State) (c : Fin 256) (l : List Sample) : Keeps s (State.markBurst s c l) := by
  unfold State.markBurst
  with_reducible
    repeat' (first
      | exact .refl _ | refine .trans ?_ (State.modCtx_keeps ..) | refine Keeps.ite ?_ ?_)

theorem State.iqHold_keeps (s : State) (c : Fin 256) (y : Sample) : Keeps s (State.iqHold s c y) := by
  unfold State.iqHold
  with_reducible
    repeat' (first
      | exact .refl _ | refine .trans ?_ (State.modCtx_keeps ..))

theorem State.iqOwn_keeps (s : State) (c : Fin 256) (y : Sample) : Keeps s (State.iqOwn s c y) := by
  unfold State.iqOwn
  with_reducible
    repeat' (first
      | exact .refl _ | refine .trans ?_ (State.iqSample_keeps ..) | refine .trans ?_ (State.iqDrain_keeps ..)
      | refine .trans ?_ (State.modCtx_keeps ..) | refine Keeps.ite ?_ ?_ | split)

theorem State.iqServe_keeps (s : State) (c : Fin 256) (y : Sample) : Keeps s (State.iqServe s c y) := by
  unfold State.iqServe
  with_reducible
    repeat' (first
      | exact .refl _ | refine .trans ?_ (State.iqSample_keeps ..) | refine .trans ?_ (State.iqHold_keeps ..)
      | refine .trans ?_ (State.modCtx_keeps ..) | refine .trans ?_ (State.iqOwn_keeps ..) | refine Keeps.ite ?_ ?_ | split)

theorem State.eraseOuts_keeps (s : State) (c : Fin 256) : Keeps s (State.eraseOuts s c) := by
  unfold State.eraseOuts
  with_reducible
    repeat' (first
      | exact .refl _ | refine .trans ?_ (State.iqDrain_keeps ..) | refine .trans ?_ (State.markBurst_keeps ..)
      | refine .trans ?_ (State.modCtx_keeps ..) | refine .trans ?_ (State.iqServe_keeps ..)
      | refine .trans ?_ (State.forEach_keeps _ _ _ (fun _ _ => ?_)))

theorem State.restoreRound_keeps (s : State) (c : Fin 256) : Keeps s (State.restoreRound s c) := by
  unfold State.restoreRound
  with_reducible
    repeat' (first
      | exact .refl _ | refine .trans ?_ (State.restoreSnap_keeps ..) | refine .trans ?_ (State.modCtx_keeps ..)
      | refine .trans ?_ (State.eraseOuts_keeps ..))

theorem State.serveOuts_keeps (s : State) (c : Fin 256) : Keeps s (State.serveOuts s c) := by
  unfold State.serveOuts
  with_reducible
    repeat' (first
      | exact .refl _ | refine .trans ?_ (State.modCtx_keeps ..) | refine .trans ?_ (State.iqDrain_keeps ..)
      | refine .trans ?_ (State.turnFrames_keeps ..) | refine .trans ?_ (State.markBurst_keeps ..) | refine .trans ?_ (State.iqServe_keeps ..)
      | refine .trans ?_ (State.forEach_keeps _ _ _ (fun _ _ => ?_)))

theorem State.serveCtx_keeps (s : State) (c : Fin 256) : Keeps s (State.serveCtx s c) := by
  unfold State.serveCtx
  with_reducible
    repeat' (first
      | exact .refl _ | refine .trans ?_ (State.restoreRound_keeps ..) | refine .trans ?_ (State.eraseOuts_keeps ..)
      | refine .trans ?_ (State.serveOuts_keeps ..) | refine Keeps.ite ?_ ?_)

theorem State.round_keeps (s : State) (e : Fin 8) (codes : List Int) : Keeps s (State.round s e codes) := by
  unfold State.round
  with_reducible
    repeat' (first
      | exact .refl _ | refine .trans ?_ (State.feed_keeps ..) | refine .trans ?_ (State.serveCtx_keeps ..)
      | refine .trans ?_ (State.forEach_keeps _ _ _ (fun _ _ => ?_)))

theorem execEngineRound_keeps (dt : Nat) (e : Fin 8) (codes : List Int) (s : State) : ∃ t, execEngineRound dt e codes s = .next t ∧ Keeps s t := by
  refine ⟨_, rfl, ?_⟩
  refine .trans (State.advance_keeps ..) (State.when_keeps _ _ _ ?_)
  with_reducible
    repeat' (first
      | exact .refl _ | refine .trans ?_ (State.round_keeps ..))

theorem State.applyEntries_keeps (s : State) (l : List (Nat × Fin 256 × Entry)) : Keeps s (State.applyEntries s l) := by
  unfold State.applyEntries
  with_reducible
    repeat' (first
      | exact .refl _ | refine .trans ?_ (State.modCtx_keeps ..) | refine .trans ?_ (State.commit_keeps ..)
      | refine .trans ?_ (State.forEach_keeps _ _ _ (fun _ _ => ?_)))

theorem State.applyHost_keeps (s : State) (b : List Byte) : Keeps s (State.applyHost s b) := by
  unfold State.applyHost
  with_reducible
    repeat' (first
      | exact .refl _ | fail_if_no_progress (refine Keeps.upd ?_ rfl rfl rfl rfl rfl rfl rfl) | refine .trans ?_ (State.writeHostCtrl_keeps ..)
      | refine .trans ?_ (State.writeHostAddress_keeps ..))

theorem State.applyBus_keeps (s : State) (b : List Byte) : Keeps s (State.applyBus s b) := by
  unfold State.applyBus
  with_reducible
    repeat' (first
      | exact .refl _ | fail_if_no_progress (refine Keeps.upd ?_ rfl rfl rfl rfl rfl rfl rfl) | refine .trans ?_ (State.writeReg_keeps ..))

theorem State.applyRtc_keeps (s : State) (b : List Byte) : Keeps s (State.applyRtc s b) := by
  unfold State.applyRtc
  with_reducible
    repeat' (first
      | exact .refl _ | fail_if_no_progress (refine Keeps.upd ?_ rfl rfl rfl rfl rfl rfl rfl) | refine .trans ?_ (State.writeTrimCtrl_keeps ..)
      | refine Keeps.ite ?_ ?_)

theorem State.applyReach_keeps (s : State) (format : Nat) (l : List Tlv) (r : Fin 4) : Keeps s (State.applyReach s format l r) := by
  unfold State.applyReach
  with_reducible
    repeat' (first
      | exact .refl _ | refine .trans ?_ (State.modReach_keeps ..))

theorem State.applyConfig_keeps (s : State) (format : Nat) (l : List Tlv) : Keeps s (State.applyConfig s format l) := by
  unfold State.applyConfig
  with_reducible
    repeat' (first
      | exact .refl _ | fail_if_no_progress (refine Keeps.upd ?_ rfl rfl rfl rfl rfl rfl rfl) | refine .trans ?_ (State.modOut_keeps ..)
      | refine .trans ?_ (State.applyPairs_keeps ..) | refine .trans ?_ (State.applyHost_keeps ..) | refine .trans ?_ (State.applyBus_keeps ..)
      | refine .trans ?_ (State.applyRtc_keeps ..) | refine .trans ?_ (State.applyReach_keeps ..) | refine .trans ?_ (State.when_keeps _ _ _ ?_)
      | refine .trans ?_ (State.withSome_keeps _ _ _ (fun _ => ?_)) | refine .trans ?_ (State.forEach_keeps _ _ _ (fun _ _ => ?_)))

theorem State.acceptImage_keeps (s : State) (h : Header) (l : List Tlv) (retry : Bool) : Keeps s (State.acceptImage s h l retry) := by
  unfold State.acceptImage
  with_reducible
    repeat' (first
      | exact .refl _ | fail_if_no_progress (refine Keeps.upd ?_ rfl rfl rfl rfl rfl rfl rfl) | refine .trans ?_ (State.enterWindow_keeps ..)
      | refine .trans ?_ (State.startOutfall_keeps ..) | refine .trans ?_ (State.applyEntries_keeps ..)
      | refine .trans ?_ (State.applyConfig_keeps ..))

theorem execReachTribWrite_keeps (dt : Nat) (r : Fin 4) (n : Fin 8) (value : Word) (s : State) : ∃ t, execReachTribWrite dt r n value s = .next t ∧ Keeps s t := by
  refine ⟨_, rfl, ?_⟩
  refine .trans (State.advance_keeps ..) (State.when_keeps _ _ _ ?_)
  with_reducible
    repeat' (first
      | exact .refl _ | refine .trans ?_ (State.writeTrib_keeps ..))

theorem State.domainRestart_keeps (s : State) (oscillator : Bool) : Keeps s (s.domainRestart oscillator) := by
  unfold State.domainRestart
  refine Keeps.trans ?_ (State.discardWindow_keeps _)
  exact .second rfl rfl rfl rfl rfl secPs_pos rfl

theorem execSessionTimeout_keeps (dt : Nat) (s : State) : ∃ t, execSessionTimeout dt s = .next t ∧ Keeps s t := by
  refine ⟨_, rfl, ?_⟩
  refine .trans (State.advance_keeps ..) (State.when_keeps _ _ _ ?_)
  with_reducible
    repeat' (first
      | exact .refl _ | refine .trans ?_ (State.endSession_keeps ..))

theorem State.readOne_keeps (s : State) (addr : Addr) : Keeps s (State.readOne s addr) := by
  unfold State.readOne
  with_reducible
    repeat' (first
      | exact .refl _ | fail_if_no_progress (refine Keeps.upd ?_ rfl rfl rfl rfl rfl rfl rfl) | refine .trans ?_ (State.readReg_keeps ..))

theorem execHealthStatusRead_keeps (dt : Nat) (s : State) : ∃ t, execHealthStatusRead dt s = .next t ∧ Keeps s t := by
  refine ⟨_, rfl, ?_⟩
  refine .trans (State.advance_keeps ..) (State.when_keeps _ _ _ ?_)
  with_reducible
    repeat' (first
      | exact .refl _ | refine .trans ?_ (State.readOne_keeps ..))

theorem State.failLanding_keeps (s : State) (c : Fin 256) : Keeps s (State.failLanding s c) := by
  unfold State.failLanding
  with_reducible
    repeat' (first
      | exact .refl _ | refine .trans ?_ (State.modFollow_keeps ..) | refine .trans ?_ (State.endLanding_keeps ..)
      | refine .trans ?_ (State.forEach_keeps _ _ _ (fun _ _ => ?_)) | split)

theorem State.programRecord_keeps (s : State) (typ key : Nat) (p : List Byte) (commit : Byte) : Keeps s (s.programRecord typ key p commit) :=
  .flash _ (Memory.program_wf _ _ _)

theorem State.windowOutcome_keeps (s : State) (j : Session) (result : Nat) : Keeps s (State.windowOutcome s j result) := by
  unfold State.windowOutcome
  with_reducible
    repeat' (first
      | exact .refl _ | fail_if_no_progress (refine Keeps.upd ?_ rfl rfl rfl rfl rfl rfl rfl) | refine Keeps.ite ?_ ?_)

theorem State.changedAgain_keeps (s : State) (typ : Nat) (key : Nat) (p : List Byte) : Keeps s (State.changedAgain s typ key p) := by
  unfold State.changedAgain
  with_reducible
    repeat' (first
      | exact .refl _ | fail_if_no_progress (refine Keeps.upd ?_ rfl rfl rfl rfl rfl rfl rfl) | refine .trans ?_ (State.modFollow_keeps ..)
      | refine Keeps.ite ?_ ?_)

theorem State.appendEnd_keeps (s : State) (j : Session) (typ : Nat) (key : Nat) (p : List Byte) (ok : Bool) : Keeps s (State.appendEnd s j typ key p ok) := by
  unfold State.appendEnd
  with_reducible
    repeat' (first
      | exact .refl _ | fail_if_no_progress (refine Keeps.upd ?_ rfl rfl rfl rfl rfl rfl rfl) | refine .trans ?_ (State.programRecord_keeps ..)
      | refine .trans ?_ (State.windowOutcome_keeps ..) | refine .trans ?_ (State.writeFailed_keeps ..)
      | refine .trans ?_ (State.changedAgain_keeps ..) | refine .trans ?_ (State.compactionDue_keeps ..) | refine Keeps.ite ?_ ?_)

theorem State.noteLines_keeps (s : State) (r : Fin 4) (lines : BitVec 7) (evidencePs : Nat) : Keeps s (State.noteLines s r lines evidencePs) := by
  unfold State.noteLines
  with_reducible
    repeat' (first
      | exact .refl _ | refine .trans ?_ (State.modReach_keeps ..))

theorem State.propose_keeps (s : State) (proposer : Option (Fin 4)) (r : Fin 4) (act : Action) (lines : BitVec 7) (ident : Nat) (drift : Bool) (evidencePs : Nat) :
    Keeps s (State.propose s proposer r act lines ident drift evidencePs) := by
  unfold State.propose
  with_reducible
    repeat' (first
      | exact .refl _ | fail_if_no_progress (refine Keeps.upd ?_ rfl rfl rfl rfl rfl rfl rfl) | refine .trans ?_ (State.post_keeps ..)
      | refine Keeps.ite ?_ ?_)

theorem execProposalRaise_keeps (dt : Nat) (proposer : Option (Fin 4)) (r : Fin 4) (act : Action) (lines : BitVec 7) (ident : Nat) (drift : Bool) (evidenceAgoNs : Nat) (s : State) :
    ∃ t, execProposalRaise dt proposer r act lines ident drift evidenceAgoNs s = .next t ∧ Keeps s t := by
  refine ⟨_, rfl, ?_⟩
  refine .trans (State.advance_keeps ..) (State.when_keeps _ _ _ ?_)
  with_reducible
    repeat' (first
      | exact .refl _ | refine .trans ?_ (State.noteLines_keeps ..) | refine .trans ?_ (State.propose_keeps ..))

theorem execRtcReturnToMain_keeps (dt : Nat) (a18 : Nat) (vbat : Nat) (aboveUs : Nat) (s : State) :
    ∃ t, execRtcReturnToMain dt a18 vbat aboveUs s = .next t ∧ Keeps s t := by
  refine ⟨_, rfl, ?_⟩
  refine .trans (State.advance_keeps ..) (State.when_keeps _ _ _ ?_)
  with_reducible
    repeat' (first
      | exact .refl _ | fail_if_no_progress (refine Keeps.upd ?_ rfl rfl rfl rfl rfl rfl rfl))

theorem State.badCommand_keeps (s : State) (b : BadCommand) : Keeps s (State.badCommand s b) := by
  unfold State.badCommand
  with_reducible
    repeat' (first
      | exact .refl _ | refine .trans ?_ (State.refuse_keeps ..) | refine .trans ?_ (State.command_keeps _ _ _ _ _ _ _ (fun _ => ?_)))

theorem State.helloAck_keeps (s : State) : Keeps s (State.helloAck s) := by
  unfold State.helloAck
  with_reducible
    repeat' (first
      | exact .refl _ | fail_if_no_progress (refine Keeps.upd ?_ rfl rfl rfl rfl rfl rfl rfl) | refine .trans ?_ (State.sendDatagram_keeps ..)
      | refine Keeps.ite ?_ ?_ | split)

theorem State.arpResolved_keeps (s : State) (sender : Word) (mac : BitVec 48) : Keeps s (State.arpResolved s sender mac) := by
  unfold State.arpResolved
  with_reducible
    repeat' (first
      | exact .refl _ | fail_if_no_progress (refine Keeps.upd ?_ rfl rfl rfl rfl rfl rfl rfl) | refine .trans ?_ (State.helloAck_keeps ..)
      | refine .trans ?_ (State.when_keeps _ _ _ ?_))

theorem State.failReach_keeps (s : State) (r : Fin 4) (src lines : Nat) (timeout : Bool) (evidencePs : Nat) :
    Keeps s (s.failReach r src lines timeout evidencePs) := State.failReaches_keeps ..

theorem execBringupTimeout_keeps (dt : Nat) (r : Fin 4) (s : State) : ∃ t, execBringupTimeout dt r s = .next t ∧ Keeps s t := by
  refine ⟨_, rfl, ?_⟩
  refine .trans (State.advance_keeps ..) (State.when_keeps _ _ _ ?_)
  with_reducible
    repeat' (first
      | exact .refl _ | refine .trans ?_ (State.failReach_keeps ..))

theorem State.modFm_keeps (s : State) (c : Fin 256) (f : Fm → Fm) : Keeps s (State.modFm s c f) := by
  unfold State.modFm
  with_reducible
    repeat' (first
      | exact .refl _ | refine .trans ?_ (State.modCtx_keeps ..))

theorem execAmLockGained_keeps (dt : Nat) (c : Fin 256) (lowest : Nat) (overUs : Nat) (s : State) : ∃ t, execAmLockGained dt c lowest overUs s = .next t ∧ Keeps s t := by
  refine ⟨_, rfl, ?_⟩
  refine .trans (State.advance_keeps ..) (State.when_keeps _ _ _ ?_)
  with_reducible
    repeat' (first
      | exact .refl _ | refine .trans ?_ (State.judgeLock_keeps ..) | refine .trans ?_ (State.modFm_keeps ..)
      | refine .trans ?_ (State.modAm_keeps ..))

theorem execAgcClipReduction_keeps (dt : Nat) (r : Fin 4) (s : State) : ∃ t, execAgcClipReduction dt r s = .next t ∧ Keeps s t := by
  refine ⟨_, rfl, ?_⟩
  refine .trans (State.advance_keeps ..) (State.when_keeps _ _ _ ?_)
  with_reducible
    repeat' (first
      | exact .refl _ | refine .trans ?_ (State.modReach_keeps ..))

theorem execScoutCheckEnd_keeps (dt : Nat) (sc : Fin 256) (level : Int) (cnr : Nat) (lowest : Nat) (heldUs : Nat) (ownLevel : Int) (s : State) :
    ∃ t, execScoutCheckEnd dt sc level cnr lowest heldUs ownLevel s = .next t ∧ Keeps s t := by
  refine ⟨_, rfl, ?_⟩
  refine .trans (State.advance_keeps ..) (State.when_keeps _ _ _ ?_)
  with_reducible
    repeat' (first
      | exact .refl _ | refine .trans ?_ (State.endCheck_keeps ..) | refine .trans ?_ (State.when_keeps _ _ _ ?_)
      | refine .trans ?_ (State.withSome_keeps _ _ _ (fun _ => ?_)))

theorem State.journalStops_keeps (s : State) : Keeps s (State.journalStops s) := by
  unfold State.journalStops
  with_reducible
    repeat' (first
      | exact .refl _ | fail_if_no_progress (refine Keeps.upd ?_ rfl rfl rfl rfl rfl rfl rfl) | refine .trans ?_ (State.post_keeps ..))

theorem State.compactEnd_keeps (s : State) (j : Session) (ok : Bool) : Keeps s (s.compactEnd j ok) := by
  unfold State.compactEnd
  split
  · have hw := State.newBank_wf s
    generalize s.newBank = q at hw
    obtain ⟨m, l⟩ := q
    dsimp -zeta only
    extract_lets x size t u
    have ht : Keeps s t := .flash _ (fun h => Memory.erase_wf _ _ _ (hw h))
    have hu : Keeps s u := ht.trans (State.windowOutcome_keeps ..)
    clear_value u
    split <;> exact hu.trans (State.post_keeps ..)
  · extract_lets x to_ t
    have ht : Keeps s t := Keeps.trans (.flash _ (fun h => Memory.erase_wf _ _ _ h)) (State.windowOutcome_keeps ..)
    clear_value t
    split
    · exact (ht.trans (State.post_keeps ..)).trans (State.journalStops_keeps _)
    · exact ht.trans (State.writeFailed_keeps ..)

theorem execRelayLbtCheck_keeps (dt : Nat) (s : State) : ∃ t, execRelayLbtCheck dt s = .next t ∧ Keeps s t := by
  refine ⟨_, rfl, ?_⟩
  refine .trans (State.advance_keeps ..) (State.when_keeps _ _ _ ?_)
  with_reducible
    repeat' (first
      | exact .refl _ | refine .trans ?_ (State.lbtSettle_keeps ..) | refine .trans ?_ (State.modOut_keeps ..) | refine Keeps.ite ?_ ?_ | split
      | (extract_lets))

theorem execHostportCountsRead_keeps (dt : Nat) (s : State) : ∃ t, execHostportCountsRead dt s = .next t ∧ Keeps s t := by
  refine ⟨_, rfl, ?_⟩
  refine .trans (State.advance_keeps ..) (State.when_keeps _ _ _ ?_)
  with_reducible
    repeat' (first
      | exact .refl _ | refine .trans ?_ (State.readOne_keeps ..))

theorem execFegrComplete_keeps (dt : Nat) (r : Fin 4) (table : StepTable) (gainErr : Int) (s : State) :
    ∃ t, execFegrComplete dt r table gainErr s = .next t ∧ Keeps s t := by
  refine ⟨_, rfl, ?_⟩
  refine .trans (State.advance_keeps ..) (State.when_keeps _ _ _ ?_)
  with_reducible
    repeat' (first
      | exact .refl _ | refine .trans ?_ (State.modUpkeep_keeps ..) | refine .trans ?_ (State.withSome_keeps _ _ _ (fun _ => ?_)))

theorem State.noRoom_keeps (s : State) (c : Fin 256) (k : Cand) (reason : Nat) : Keeps s (State.noRoom s c k reason) := by
  unfold State.noRoom
  with_reducible
    repeat' (first
      | exact .refl _ | refine .trans ?_ (State.afEvent_keeps ..))

theorem State.setHard_keeps (s : State) (c : Fin 256) (k : Cand) : Keeps s (State.setHard s c k) := by
  unfold State.setHard
  with_reducible
    repeat' (first
      | exact .refl _ | refine .trans ?_ (State.modFollow_keeps ..))

theorem State.setLanding_keeps (s : State) (c : Fin 256) (e : Entry) (p : Place) (k : Carrier) (pair : Option (Fin 256)) : Keeps s (State.setLanding s c e p k pair) := by
  unfold State.setLanding
  with_reducible
    repeat' (first
      | exact .refl _ | refine .trans ?_ (State.modFollow_keeps ..))

theorem State.landPair_keeps (s : State) (c p : Fin 256) (k : Cand) : Keeps s (s.landPair c p k) := by
  unfold State.landPair
  extract_lets lo hi a b new fail
  have hf : ∀ q n, Keeps s (fail q n) := by
    intro q n
    dsimp only [fail]
    have h1 : Keeps s (s.noRoom q k n) := State.noRoom_keeps ..
    split
    · split
      · exact ((h1.trans (State.commitPair_keeps ..)).trans (State.setHard_keeps ..)).trans (State.setHard_keeps ..)
      · exact h1
    · exact h1
  clear_value fail
  split
  · exact hf _ _
  · split
    · exact hf _ _
    · exact (State.setLanding_keeps ..).trans (State.setLanding_keeps ..)

theorem State.unitRecord_keeps (s : State) (c : Fin 256) (q : Fin 64) (format : Nat) (crcOk : Bool) (rsBytes : Nat) (index : Nat) (param : Byte) (bytes : List Byte) (pad : Option PadAt) (run : List FrameInfo) (size : Nat) (a : Nat) :
    Keeps s (State.unitRecord s c q format crcOk rsBytes index param bytes pad run size a) := by
  unfold State.unitRecord
  with_reducible
    repeat' (first
      | exact .refl _ | refine .trans ?_ (State.dabRecord_keeps ..) | refine .trans ?_ (State.modSub_keeps ..) | split | (extract_lets))

theorem State.layer2Frame_keeps (s : State) (c : Fin 256) (q : Fin 64) (x : DabSub) (bytes : List Byte) (i : FrameInfo) :
    Keeps s (State.layer2Frame s c q x bytes i) := by
  unfold State.layer2Frame
  with_reducible
    repeat' (first
      | exact .refl _ | refine .trans ?_ (State.unitRecord_keeps ..) | refine .trans ?_ (State.modSub_keeps ..))

theorem State.fmStep_keeps (s : State) (c : Fin 256) (f : Fm → Fm) : Keeps s (State.fmStep s c f) := by
  unfold State.fmStep
  with_reducible
    repeat' (first
      | exact .refl _ | refine .trans ?_ (State.judgeLock_keeps ..) | refine .trans ?_ (State.modFm_keeps ..))

theorem execFmCarrierLock_keeps (dt : Nat) (c : Fin 256) (lowest : Nat) (overUs : Nat) (s : State) :
    ∃ t, execFmCarrierLock dt c lowest overUs s = .next t ∧ Keeps s t := by
  refine ⟨_, rfl, ?_⟩
  refine .trans (State.advance_keeps ..) (State.when_keeps _ _ _ ?_)
  with_reducible
    repeat' (first
      | exact .refl _ | refine .trans ?_ (State.fmStep_keeps ..))

theorem execEabSyncFound_keeps (dt : Nat) (c : Fin 256) (syms : List EabSym) (stamp : Nat) (s : State) :
    ∃ t, execEabSyncFound dt c syms stamp s = .next t ∧ Keeps s t := by
  refine ⟨_, rfl, ?_⟩
  refine .trans (State.advance_keeps ..) (State.when_keeps _ _ _ ?_)
  with_reducible
    repeat' (first
      | exact .refl _ | refine .trans ?_ (State.modEab_keeps ..) | refine .trans ?_ (State.hearSymbols_keeps ..))

theorem State.watchdog_keeps (s : State) (e : Fin 8) : Keeps s (State.watchdog s e) := by
  unfold State.watchdog
  with_reducible
    repeat' (first
      | exact .refl _ | refine .trans ?_ (State.modEngine_keeps ..) | refine .trans ?_ (State.modWarden_keeps ..)
      | refine .trans ?_ (State.when_keeps _ _ _ ?_))

theorem execKeysDataClear_keeps (dt : Nat) (s : State) : ∃ t, execKeysDataClear dt s = .next t ∧ Keeps s t :=
  ⟨_, rfl, Keeps.trans (State.advance_keeps ..) (State.when_keeps _ _ _ (.keys rfl rfl rfl rfl rfl rfl rfl rfl rfl rfl rfl))⟩

theorem State.freshSelection_keeps (s : State) (new : Fin 256) (switchPs : Nat) : Keeps s (State.freshSelection s new switchPs) := by
  unfold State.freshSelection
  with_reducible
    repeat' (first
      | exact .refl _ | refine .trans ?_ (State.modCtx_keeps ..))

theorem State.replaySession_keeps (s : State) : Keeps s (State.replaySession s) := by
  unfold State.replaySession
  with_reducible
    repeat' (first
      | exact .refl _ | fail_if_no_progress (refine Keeps.upd ?_ rfl rfl rfl rfl rfl rfl rfl) | refine .trans ?_ (State.journalRequest_keeps ..)
      | refine Keeps.ite ?_ ?_)

theorem State.nfReport_keeps (s : State) (c : Fin 256) : Keeps s (State.nfReport s c) := by
  unfold State.nfReport
  with_reducible
    repeat' (first
      | exact .refl _ | refine .trans ?_ (State.modEab_keeps ..) | refine .trans ?_ (State.deliver_keeps ..)
      | refine .trans ?_ (State.when_keeps _ _ _ ?_))

theorem execMaintenanceAdmit_keeps (dt : Nat) (r : Fin 4) (s : State) : ∃ t, execMaintenanceAdmit dt r s = .next t ∧ Keeps s t := by
  refine ⟨_, rfl, ?_⟩
  refine .trans (State.advance_keeps ..) (State.when_keeps _ _ _ ?_)
  refine .trans (State.forEach_keeps _ _ _ (fun _ _ => State.calSettle_keeps ..)) (State.withSome_keeps _ _ _ (fun _ => ?_))
  exact (State.modUpkeep_keeps ..).trans (State.startRun_keeps ..)

theorem State.confirmItem_keeps (s : State) (c : Fin 256) (i : RdsItem) : Keeps s (State.confirmItem s c i) := by
  unfold State.confirmItem
  with_reducible
    repeat' (first
      | exact .refl _ | refine .trans ?_ (State.modFm_keeps ..) | refine .trans ?_ (State.sendItem_keeps ..) | refine Keeps.ite ?_ ?_)

theorem State.groupPi_keeps (s : State) (c : Fin 256) : Keeps s (State.groupPi s c) := by
  unfold State.groupPi
  with_reducible
    repeat' (first
      | exact .refl _
      | (extract_lets +onlyGivenNames t; refine (fun (ht : Keeps s t) => ?_) ?_; (on_goal 1 => clear_value t); on_goal 2 => (dsimp -zeta only [t]; clear t))
      | (extract_lets +onlyGivenNames t; clear_value t) | assumption | refine .trans ?_ (State.modFm_keeps ..)
      | refine .trans ?_ (State.confirmItem_keeps ..) | refine .trans ?_ (State.when_keeps _ _ _ ?_) | refine Keeps.ite ?_ ?_)

theorem execRtcOffsetWrite_keeps (dt : Nat) (value : BitVec 8) (s : State) : ∃ t, execRtcOffsetWrite dt value s = .next t ∧ Keeps s t := by
  refine ⟨_, rfl, ?_⟩
  refine .trans (State.advance_keeps ..) (State.when_keeps _ _ _ ?_)
  with_reducible
    repeat' (first
      | exact .refl _ | refine .trans ?_ (State.writeOffset_keeps ..))

theorem State.sendAgain_keeps (s : State) (q : QSession) (n : Nat) (l : List Record) : Keeps s (s.sendAgain q n l) := by
  induction n generalizing s l with
  | zero => cases l <;> exact .refl _
  | succ n ih =>
    cases l with
    | nil => exact .refl _
    | cons a l =>
      unfold State.sendAgain
      extract_lets k t
      have ht : Keeps s t := State.sendDatagram_keeps ..
      clear_value t
      refine Keeps.trans ?_ (ih _ _)
      split
      · exact ht
      · exact ht.trans (State.recordsSend_keeps ..)

theorem State.wakeFab_keeps (s : State) : Keeps s (State.wakeFab s) := by
  unfold State.wakeFab
  with_reducible
    repeat' (first
      | exact .refl _ | fail_if_no_progress (refine Keeps.upd ?_ rfl rfl rfl rfl rfl rfl rfl))

theorem State.addressed_keeps (s : State) (a : BitVec 7) (f : State → State) (hf : ∀ t, Keeps t (f t)) : Keeps s (s.addressed a f) := by
  have h0 : Keeps s { s with tw := s.tw.start } := .same rfl rfl rfl rfl rfl rfl rfl
  unfold State.addressed
  extract_lets t
  have ht : Keeps s t := h0
  clear_value t
  split
  · split
    · exact ht.trans (hf _)
    · exact ht
  · split
    · exact ht
    · split
      · exact ht.trans (State.wakeFab_keeps _)
      · exact ht.trans (Keeps.trans (t := { t with doze := { t.doze with lastTwPs := t.clock } }) (.same rfl rfl rfl rfl rfl rfl rfl) (hf _))

theorem State.ack_keeps (s : State) (ok : Bool) : Keeps s (State.ack s ok) := by
  unfold State.ack
  with_reducible
    repeat' (first
      | exact .refl _ | fail_if_no_progress (refine Keeps.upd ?_ rfl rfl rfl rfl rfl rfl rfl))

theorem State.twWords_keeps (s : State) (ro : Bool) (a : Addr) (l : List TwWord) : Keeps s (s.twWords ro a l).1 := by
  induction l generalizing s a with
  | nil => exact .refl _
  | cons w l ih =>
    unfold State.twWords
    split
    · exact State.ack_keeps ..
    · split
      · exact State.ack_keeps ..
      · extract_lets t q u
        have ht : Keeps s t := State.onBus_keeps ..
        have hu : Keeps s u := by
          dsimp only [u]
          split
          · exact ht.trans (State.onBus_keeps ..)
          · exact ht
        clear_value t u
        split
        · dsimp -zeta only [q]
          exact (ht.trans (Keeps.same (t := { t with tw := { t.tw with pecErrors := t.tw.pecErrors.add 255 t.clock } })
            rfl rfl rfl rfl rfl rfl rfl)).trans (State.ack_keeps ..)
        · exact (((hu.trans (State.writeReg_keeps ..)).trans (State.ack_keeps ..)).trans (State.accessed_keeps ..)).trans (ih _ _)

theorem State.twWords_keeps' {s : State} {ro : Bool} {a : Addr} {x1 : List TwWord} {t'} {x'} (h' : State.twWords s ro a x1 = (t', x')) : Keeps s t' := by
  have := State.twWords_keeps s ro a x1; rw [h'] at this; exact this

theorem execTwWrite_keeps (dt : Nat) (address : BitVec 7) (reg : Addr) (words : List TwWord) (byStop : Bool) (s : State) :
    ∃ t, execTwWrite dt address reg words byStop s = .next t ∧ Keeps s t := by
  refine ⟨_, rfl, ?_⟩
  refine .trans (State.advance_keeps ..) (State.when_keeps _ _ _ ?_)
  with_reducible
    repeat' (first
      | exact .refl _ | fail_if_no_progress (refine Keeps.upd ?_ rfl rfl rfl rfl rfl rfl rfl) | refine .trans ?_ (State.onBus_keeps ..)
      | refine .trans ?_ (State.twWords_keeps ..) | refine .trans ?_ (State.twEnd_keeps ..)
      | refine .trans ?_ (State.addressed_keeps _ _ _ (fun _ => ?_)))

theorem State.beginSession_keeps (s : State) (src : Peer) (v : Nat) (timeout : BitVec 16) (mask : BitVec 128) : Keeps s (State.beginSession s src v timeout mask) := by
  unfold State.beginSession
  with_reducible
    repeat' (first
      | exact .refl _ | fail_if_no_progress (refine Keeps.upd ?_ rfl rfl rfl rfl rfl rfl rfl) | refine .trans ?_ (State.helloAck_keeps ..)
      | refine .trans ?_ (State.post_keeps ..))

theorem State.hello_keeps (s : State) (src : Peer) (minVer : Nat) (maxVer : Nat) (takeover : Bool) (timeout : BitVec 16) (mask : BitVec 128) :
    Keeps s (State.hello s src minVer maxVer takeover timeout mask) := by
  unfold State.hello
  with_reducible
    repeat' (first
      | exact .refl _ | refine .trans ?_ (State.heard_keeps ..) | refine .trans ?_ (State.reply_keeps ..)
      | refine .trans ?_ (State.beginSession_keeps ..) | refine .trans ?_ (State.helloAck_keeps ..) | refine .trans ?_ (State.endSession_keeps ..)
      | refine .trans ?_ (State.when_keeps _ _ _ ?_) | refine Keeps.ite ?_ ?_ | split)

theorem execHello_keeps (dt : Nat) (src : Peer) (minVer : BitVec 8) (maxVer : BitVec 8) (takeover : Bool) (timeout : BitVec 16) (mask : BitVec 128) (s : State) :
    ∃ t, execHello dt src minVer maxVer takeover timeout mask s = .next t ∧ Keeps s t := by
  refine ⟨_, rfl, ?_⟩
  refine .trans (State.advance_keeps ..) (State.when_keeps _ _ _ ?_)
  with_reducible
    repeat' (first
      | exact .refl _ | refine .trans ?_ (State.hello_keeps ..))

theorem State.commitSet_keeps (s : State) (r : Fin 4) (a : Activity) : Keeps s (State.commitSet s r a) := by
  unfold State.commitSet
  with_reducible
    repeat' (first
      | exact .refl _ | refine .trans ?_ (State.modUpkeep_keeps ..) | refine .trans ?_ (State.storeSet_keeps ..)
      | refine .trans ?_ (State.endActivity_keeps ..))

theorem execKeysDataWrite_keeps (dt : Nat) (n : Fin 4) (value : Word) (s : State) : ∃ t, execKeysDataWrite dt n value s = .next t ∧ Keeps s t := by
  refine ⟨_, rfl, ?_⟩
  refine .trans (State.advance_keeps ..) (State.when_keeps _ _ _ ?_)
  with_reducible
    repeat' (first
      | exact .refl _ | refine .trans ?_ (State.writeKeyData_keeps ..))

theorem execHostportLinkWrite_keeps (dt : Nat) (value : Word) (s : State) : ∃ t, execHostportLinkWrite dt value s = .next t ∧ Keeps s t := by
  refine ⟨_, rfl, ?_⟩
  refine .trans (State.advance_keeps ..) (State.when_keeps _ _ _ ?_)
  with_reducible
    repeat' (first
      | exact .refl _ | refine .trans ?_ (State.writeHostCtrl_keeps ..))

theorem State.migrated_keeps (s : State) (c : Fin 256) (start : Nat) (end_ : Nat) : Keeps s (State.migrated s c start end_) := by
  unfold State.migrated
  with_reducible
    repeat' (first
      | exact .refl _ | refine .trans ?_ (State.post_keeps ..) | refine .trans ?_ (State.modCtx_keeps ..))

theorem State.firstValid_keeps (s : State) (c : Fin 256) (g0 : Nat) (g1 : Nat) : Keeps s (State.firstValid s c g0 g1) := by
  unfold State.firstValid
  with_reducible
    repeat' (first
      | exact .refl _
      | (extract_lets +onlyGivenNames t; refine (fun (ht : Keeps s t) => ?_) ?_; (on_goal 1 => clear_value t); on_goal 2 => (dsimp -zeta only [t]; clear t))
      | (extract_lets +onlyGivenNames t; clear_value t) | assumption | refine .trans ?_ (State.migrated_keeps ..)
      | refine .trans ?_ (State.toState_keeps ..) | refine .trans ?_ (State.modCtx_keeps ..) | refine Keeps.ite ?_ ?_)

theorem execMainsInEdge_keeps (dt : Nat) (s : State) : ∃ t, execMainsInEdge dt s = .next t ∧ Keeps s t := by
  refine ⟨_, rfl, ?_⟩
  refine .trans (State.advance_keeps ..) (State.when_keeps _ _ _ ?_)
  with_reducible
    repeat' (first
      | exact .refl _ | refine .trans ?_ (State.mainsEdge_keeps ..))

theorem execHealthLostRead_keeps (dt : Nat) (s : State) : ∃ t, execHealthLostRead dt s = .next t ∧ Keeps s t := by
  refine ⟨_, rfl, ?_⟩
  refine .trans (State.advance_keeps ..) (State.when_keeps _ _ _ ?_)
  with_reducible
    repeat' (first
      | exact .refl _ | refine .trans ?_ (State.readOne_keeps ..))

theorem execJournalAppend_keeps (dt : Nat) (readBackOk : Bool) (s : State) : ∃ t, execJournalAppend dt readBackOk s = .next t ∧ Keeps s t := by
  refine ⟨_, rfl, ?_⟩
  refine .trans (State.advance_keeps ..) (State.when_keeps _ _ _ ?_)
  with_reducible
    repeat' (first
      | exact .refl _ | refine .trans ?_ (State.appendEnd_keeps ..) | refine .trans ?_ (State.withSome_keeps _ _ _ (fun _ => ?_)) | split)

theorem State.qrpCommit_keeps (s : State) (id : BitVec 32) (c p : Fin 256) (pair : Bool) (e1 e2 : Entry) : Keeps s (s.qrpCommit id c p pair e1 e2) := by
  unfold State.qrpCommit
  extract_lets r
  have hr : Keeps s r.1 := by
    dsimp only [r]; split
    · exact State.commitPair_keeps ..
    · exact State.commit_keeps ..
  clear_value r
  split
  · exact hr.trans (State.accept_keeps ..)
  · exact hr.trans (State.refuse_keeps ..)

theorem execCtxCommit_keeps (dt : Nat) (src : Peer) (id : BitVec 32) (c : Fin 256) (p : Fin 256) (pair : Bool) (e1 : Vector Word 16) (e2 : Vector Word 16) (s : State) :
    ∃ t, execCtxCommit dt src id c p pair e1 e2 s = .next t ∧ Keeps s t := by
  refine ⟨_, rfl, ?_⟩
  refine .trans (State.advance_keeps ..) (State.when_keeps _ _ _ ?_)
  with_reducible
    repeat' (first
      | exact .refl _ | refine .trans ?_ (State.qrpCommit_keeps ..) | refine .trans ?_ (State.command_keeps _ _ _ _ _ _ _ (fun _ => ?_)))

theorem State.snapshot_keeps (s : State) (c : Fin 256) : Keeps s (State.snapshot s c) := by
  unfold State.snapshot
  with_reducible
    repeat' (first
      | exact .refl _ | refine .trans ?_ (State.modCtx_keeps ..) | refine Keeps.ite ?_ ?_)

theorem State.putEntry_keeps (s : State) (c : Fin 256) (e : Entry) (q : Option Place) : Keeps s (State.putEntry s c e q) := by
  unfold State.putEntry
  with_reducible
    repeat' (first
      | exact .refl _ | refine .trans ?_ (State.modCtx_keeps ..))

theorem State.moveEngine_keeps (s : State) (c : Fin 256) (old : Option Place) : Keeps s (State.moveEngine s c old) := by
  unfold State.moveEngine
  with_reducible
    repeat' (first
      | exact .refl _ | refine .trans ?_ (State.modCtx_keeps ..) | refine Keeps.ite ?_ ?_ | split | (extract_lets))

theorem State.pcmTurn_keeps (s : State) (c : Fin 256) (old : Entry) (e : Entry) : Keeps s (State.pcmTurn s c old e) := by
  unfold State.pcmTurn
  with_reducible
    repeat' (first
      | exact .refl _ | refine .trans ?_ (State.pcmFlush_keeps ..) | refine Keeps.ite ?_ ?_)

theorem State.judgeSwap_keeps (s : State) (c : Fin 256) (was : Bool) : Keeps s (State.judgeSwap s c was) := by
  unfold State.judgeSwap
  with_reducible
    repeat' (first
      | exact .refl _ | refine .trans ?_ (State.lockGained_keeps ..) | refine .trans ?_ (State.lockLost_keeps ..) | refine Keeps.ite ?_ ?_)

theorem State.applyEntry_keeps (s : State) (c : Fin 256) (p : Pending) (k : SwapKind) : Keeps s (s.applyEntry c p k) := by
  unfold State.applyEntry
  extract_lets x old e held n t
  split
  · exact (((State.toState_keeps ..).trans (State.putEntry_keeps ..)).trans (State.modCtx_keeps ..)).trans (State.modCtx_keeps ..)
  · exact ((((State.toState_keeps ..).trans (State.putEntry_keeps ..)).trans (State.modCtx_keeps ..)).trans (State.startChain_keeps ..)).trans
      (State.modCtx_keeps ..)
  · exact (((State.toState_keeps ..).trans (State.putEntry_keeps ..)).trans (State.startChain_keeps ..)).trans (State.modCtx_keeps ..)
  · extract_lets u
    have ht : Keeps s u := ((((State.when_keeps _ _ _ (State.claimSpare_keeps ..)).trans (State.pcmTurn_keeps ..)).trans
      (State.putEntry_keeps ..)).trans (State.moveEngine_keeps ..)).trans (State.modCtx_keeps ..)
    clear_value u
    exact (((ht.trans (State.changeChain_keeps ..)).trans (State.modCtx_keeps ..)).trans (State.judgeSwap_keeps ..)).trans (State.swapState_keeps ..)
  · exact ((((State.iqBreak_keeps ..).trans (State.pcmFlush_keeps ..)).trans (State.putEntry_keeps ..)).trans (State.moveEngine_keeps ..)).trans
      (State.hardChange_keeps ..)
  · have ht : Keeps s t := by
      dsimp only [t]
      split
      · exact (State.eabInterrupt_keeps ..).trans (State.modCtx_keeps ..)
      · exact .refl _
    clear_value t
    exact ((((((ht.trans (State.pcmTurn_keeps ..)).trans (State.putEntry_keeps ..)).trans (State.moveEngine_keeps ..)).trans
      (State.changeChain_keeps ..)).trans (State.modCtx_keeps ..)).trans (State.judgeSwap_keeps ..)).trans (State.swapState_keeps ..)

theorem State.hardDone_keeps (s : State) (c : Fin 256) : Keeps s (State.hardDone s c) := by
  unfold State.hardDone
  with_reducible
    repeat' (first
      | exact .refl _ | refine .trans ?_ (State.afEvent_keeps ..) | refine .trans ?_ (State.modCtx_keeps ..) | split)

theorem State.commitDone_keeps (s : State) (c : Fin 256) (p : Pending) : Keeps s (s.commitDone c p) := by
  unfold State.commitDone
  have h : ∀ b : Bool, Keeps s (if b then
      match p.pair with
      | some q => s.modCtx q (fun y => { y with pending := y.pending.map (fun z => { z with firstSwapped := true }) })
      | none => s
    else match p.origin with
      | .qrp id => s.respond id 0x0011 stCompleted 0 (s.commitResult c p)
      | .sequencer => s.forEach (c :: p.pair.toList) (fun q t => t.hardDone q)
      | _ => s) := by
    intro b
    refine Keeps.ite ?_ ?_
    · cases p.pair with
      | none => exact .refl _
      | some q => exact State.modCtx_keeps ..
    · cases p.origin with
      | qrp id => exact State.respond_keeps ..
      | sequencer => exact State.forEach_keeps _ _ _ (fun _ _ => State.hardDone_keeps ..)
      | window => exact .refl _
      | image => exact .refl _
  exact h _

theorem State.swap_keeps (s : State) (c : Fin 256) (p : Pending) : Keeps s (State.swap s c p) := by
  unfold State.swap
  with_reducible
    repeat' (first
      | exact .refl _ | refine .trans ?_ (State.refreshCands_keeps ..) | refine .trans ?_ (State.modCtx_keeps ..)
      | refine .trans ?_ (State.applyEntry_keeps ..) | refine .trans ?_ (State.hostTakes_keeps ..) | refine .trans ?_ (State.commitDone_keeps ..)
      | refine .trans ?_ (State.twinUpdate_keeps ..) | refine Keeps.ite ?_ ?_)

theorem State.frameBoundary_keeps (s : State) (c : Fin 256) (k : BoundaryKind) : Keeps s (State.frameBoundary s c k) := by
  unfold State.frameBoundary
  with_reducible
    repeat' (first
      | exact .refl _ | refine .trans ?_ (State.modCtx_keeps ..) | refine .trans ?_ (State.expireRunOut_keeps ..)
      | refine .trans ?_ (State.snapshot_keeps ..) | refine .trans ?_ (State.swap_keeps ..) | refine Keeps.ite ?_ ?_ | split)

theorem execFrameBoundary_keeps (dt : Nat) (c : Fin 256) (kind : BoundaryKind) (s : State) : ∃ t, execFrameBoundary dt c kind s = .next t ∧ Keeps s t := by
  refine ⟨_, rfl, ?_⟩
  refine .trans (State.advance_keeps ..) (State.when_keeps _ _ _ ?_)
  with_reducible
    repeat' (first
      | exact .refl _ | refine .trans ?_ (State.frameBoundary_keeps ..))

theorem execWardenRestartComplete_keeps (dt : Nat) (w : Fin 4) (s : State) : ∃ t, execWardenRestartComplete dt w s = .next t ∧ Keeps s t := by
  refine ⟨_, rfl, ?_⟩
  refine .trans (State.advance_keeps ..) (State.when_keeps _ _ _ ?_)
  with_reducible
    repeat' (first
      | exact .refl _ | refine .trans ?_ (State.modWarden_keeps ..))

theorem State.ctEdge_keeps (s : State) (c : Fin 256) (f : Fm) : Keeps s (State.ctEdge s c f) := by
  unfold State.ctEdge
  with_reducible
    repeat' (first
      | exact .refl _ | refine .trans ?_ (State.ctItem_keeps ..) | refine Keeps.ite ?_ ?_)

theorem State.sideItem_keeps (s : State) (c : Fin 256) (i : RdsItem) : Keeps s (State.sideItem s c i) := by
  unfold State.sideItem
  with_reducible
    repeat' (first
      | exact .refl _ | refine .trans ?_ (State.sideList_keeps ..) | refine Keeps.ite ?_ ?_)

theorem State.groupItems_keeps (s : State) (c : Fin 256) : Keeps s (s.groupItems c) := by
  unfold State.groupItems
  extract_lets t q
  have ht : Keeps s t := State.groupPi_keeps ..
  clear_value t
  exact (ht.trans (State.modFm_keeps ..)).trans
    (State.forEach_keeps _ _ _ (fun _ _ => (State.confirmItem_keeps ..).trans (State.sideItem_keeps ..)))

theorem State.groupRecord_keeps (s : State) (c : Fin 256) (level : Int) (cnr : Nat) : Keeps s (State.groupRecord s c level cnr) := by
  unfold State.groupRecord
  with_reducible
    repeat' (first
      | exact .refl _ | refine .trans ?_ (State.twinRecord_keeps ..) | refine Keeps.ite ?_ ?_)

theorem State.groupComplete_keeps (s : State) (c : Fin 256) (level : Int) (cnr : Nat) : Keeps s (s.groupComplete c level cnr) := by
  unfold State.groupComplete
  extract_lets f t
  have ht : Keeps s t := by
    dsimp only [t]
    split
    · exact .refl _
    · exact (State.groupItems_keeps ..).trans (State.ctEdge_keeps ..)
  clear_value t
  exact (ht.trans (State.groupRecord_keeps ..)).trans (State.modFm_keeps ..)

theorem State.eabFail_keeps (s : State) (c : Fin 256) (status : Nat) (syms : List EabSym) : Keeps s (State.eabFail s c status syms) := by
  unfold State.eabFail
  with_reducible
    repeat' (first
      | exact .refl _ | refine .trans ?_ (State.hearSymbols_keeps ..) | refine .trans ?_ (State.eabAbandon_keeps ..))

theorem execEabFalsePreamble_keeps (dt : Nat) (c : Fin 256) (syms : List EabSym) (s : State) : ∃ t, execEabFalsePreamble dt c syms s = .next t ∧ Keeps s t := by
  refine ⟨_, rfl, ?_⟩
  refine .trans (State.advance_keeps ..) (State.when_keeps _ _ _ ?_)
  with_reducible
    repeat' (first
      | exact .refl _ | refine .trans ?_ (State.eabFail_keeps ..))

theorem State.healthRecord_keeps (s : State) (e : MboxEntry) : Keeps s (State.healthRecord s e) := by
  unfold State.healthRecord
  with_reducible
    repeat' (first
      | exact .refl _ | refine .trans ?_ (State.emit_keeps ..))

theorem execMailboxConsume_keeps (dt : Nat) (s : State) : ∃ t, execMailboxConsume dt s = .next t ∧ Keeps s t := by
  refine ⟨_, rfl, ?_⟩
  refine .trans (State.advance_keeps ..) (State.when_keeps _ _ _ ?_)
  with_reducible
    repeat' (first
      | exact .refl _ | fail_if_no_progress (refine Keeps.upd ?_ rfl rfl rfl rfl rfl rfl rfl) | refine .trans ?_ (State.healthRecord_keeps ..) | split)

theorem execRegisterWrite_keeps (dt : Nat) (via : Via) (addr : Addr) (value : Word) (s : State) : ∃ t, execRegisterWrite dt via addr value s = .next t ∧ Keeps s t := by
  refine ⟨_, rfl, ?_⟩
  refine .trans (State.advance_keeps ..) (State.when_keeps _ _ _ ?_)
  with_reducible
    repeat' (first
      | exact .refl _ | refine .trans ?_ (State.writeWhole_keeps ..))

theorem execReachOvrRead_keeps (dt : Nat) (r : Fin 4) (s : State) : ∃ t, execReachOvrRead dt r s = .next t ∧ Keeps s t := by
  refine ⟨_, rfl, ?_⟩
  refine .trans (State.advance_keeps ..) (State.when_keeps _ _ _ ?_)
  with_reducible
    repeat' (first
      | exact .refl _ | refine .trans ?_ (State.readOne_keeps ..))

theorem execReachChainRead_keeps (dt : Nat) (r : Fin 4) (s : State) : ∃ t, execReachChainRead dt r s = .next t ∧ Keeps s t := by
  refine ⟨_, rfl, ?_⟩
  refine .trans (State.advance_keeps ..) (State.when_keeps _ _ _ ?_)
  with_reducible
    repeat' (first
      | exact .refl _ | refine .trans ?_ (State.readOne_keeps ..))

theorem execEngineRead_keeps (dt : Nat) (e : Fin 8) (s : State) : ∃ t, execEngineRead dt e s = .next t ∧ Keeps s t := by
  refine ⟨_, rfl, ?_⟩
  refine .trans (State.advance_keeps ..) (State.when_keeps _ _ _ ?_)
  with_reducible
    repeat' (first
      | exact .refl _ | refine .trans ?_ (State.readOne_keeps ..))

theorem execTwStatusRead_keeps (dt : Nat) (s : State) : ∃ t, execTwStatusRead dt s = .next t ∧ Keeps s t := by
  refine ⟨_, rfl, ?_⟩
  refine .trans (State.advance_keeps ..) (State.when_keeps _ _ _ ?_)
  with_reducible
    repeat' (first
      | exact .refl _ | refine .trans ?_ (State.readOne_keeps ..))

theorem execHealthNext_keeps (dt : Nat) (s : State) : ∃ t, execHealthNext dt s = .next t ∧ Keeps s t :=
  ⟨_, rfl, Keeps.trans (State.advance_keeps ..) (State.when_keeps _ _ _ (.mailbox _ (Mailbox.next_keeps _)))⟩

theorem execHealthFlush_keeps (dt : Nat) (s : State) : ∃ t, execHealthFlush dt s = .next t ∧ Keeps s t :=
  ⟨_, rfl, Keeps.trans (State.advance_keeps ..) (State.when_keeps _ _ _ (.mailbox _ (Mailbox.flush_keeps _)))⟩

theorem execRtcSecondsRead_keeps (dt : Nat) (s : State) : ∃ t, execRtcSecondsRead dt s = .next t ∧ Keeps s t := by
  refine ⟨_, rfl, ?_⟩
  refine .trans (State.advance_keeps ..) (State.when_keeps _ _ _ ?_)
  with_reducible
    repeat' (first
      | exact .refl _ | fail_if_no_progress (refine Keeps.upd ?_ rfl rfl rfl rfl rfl rfl rfl) | refine .trans ?_ (State.readRtcSeconds_keeps ..))

theorem execCrossFadeEnd_keeps (dt : Nat) (c : Fin 256) (s : State) : ∃ t, execCrossFadeEnd dt c s = .next t ∧ Keeps s t := by
  refine ⟨_, rfl, ?_⟩
  refine .trans (State.advance_keeps ..) (State.when_keeps _ _ _ ?_)
  with_reducible
    repeat' (first
      | exact .refl _ | refine .trans ?_ (State.modCtx_keeps ..))

theorem execJournalSessionGrant_keeps (dt : Nat) (s : State) : ∃ t, execJournalSessionGrant dt s = .next t ∧ Keeps s t := by
  refine ⟨_, rfl, ?_⟩
  refine .trans (State.advance_keeps ..) (State.when_keeps _ _ _ ?_)
  with_reducible
    repeat' (first
      | exact .refl _ | refine .trans ?_ (State.grant_keeps ..))

theorem execJournalCompaction_keeps (dt : Nat) (readBackOk : Bool) (s : State) : ∃ t, execJournalCompaction dt readBackOk s = .next t ∧ Keeps s t := by
  refine ⟨_, rfl, Keeps.trans (State.advance_keeps ..) (State.when_keeps _ _ _ (State.withSome_keeps _ _ _ (fun j => ?_)))⟩
  split
  · exact State.compactEnd_keeps ..
  · exact .refl _

theorem execDozeEnter_keeps (dt : Nat) (s : State) : ∃ t, execDozeEnter dt s = .next t ∧ Keeps s t := by
  refine ⟨_, rfl, ?_⟩
  refine .trans (State.advance_keeps ..) (State.when_keeps _ _ _ ?_)
  with_reducible
    repeat' (first
      | exact .refl _ | refine .trans ?_ (State.requestDoze_keeps ..))

theorem execDozeExit_keeps (dt : Nat) (s : State) : ∃ t, execDozeExit dt s = .next t ∧ Keeps s t := by
  refine ⟨_, rfl, ?_⟩
  refine .trans (State.advance_keeps ..) (State.when_keeps _ _ _ ?_)
  with_reducible
    repeat' (first
      | exact .refl _ | refine .trans ?_ (State.hostExit_keeps ..))

theorem execDozeWindowStart_keeps (dt : Nat) (s : State) : ∃ t, execDozeWindowStart dt s = .next t ∧ Keeps s t := by
  refine ⟨_, rfl, ?_⟩
  refine .trans (State.advance_keeps ..) (State.when_keeps _ _ _ ?_)
  with_reducible
    repeat' (first
      | exact .refl _ | fail_if_no_progress (refine Keeps.upd ?_ rfl rfl rfl rfl rfl rfl rfl) | refine .trans ?_ (State.enterWindow_keeps ..))

theorem execDozeWindowEnd_keeps (dt : Nat) (s : State) : ∃ t, execDozeWindowEnd dt s = .next t ∧ Keeps s t := by
  refine ⟨_, rfl, ?_⟩
  refine .trans (State.advance_keeps ..) (State.when_keeps _ _ _ ?_)
  with_reducible
    repeat' (first
      | exact .refl _ | refine .trans ?_ (State.requestExit_keeps ..))

theorem State.enterDoze_keeps (s : State) : Keeps s s.enterDoze := by
  have h1 : ∀ a : State, Keeps a { a with held := [], ctxs := a.ctxs.map Ctx.sleep } := fun a => .same rfl rfl rfl rfl rfl rfl rfl
  have h2 : ∀ c : State, Keeps c { c with
      reaches := c.reaches.map Reach.sleep
      engines := c.engines.map Engine.calm
      wardens := c.wardens.map Warden.calm
      outfall := c.outfall.sleep
      pins := { c.pins with blankOut := false, cxReq := false, driver := false }
      proposals := [], sync := { c.sync with pending := [], released := 0 }
      doze := { c.doze with inDoze := true, requested := false, fabAwake := false } } := fun c => .same rfl rfl rfl rfl rfl rfl rfl
  exact (((((State.dozeAborts_keeps s).trans (h1 _)).trans (State.forEach_keeps _ _ _ (fun _ _ => State.release_keeps ..))).trans
    (State.endSession_keeps ..)).trans (State.linkDown_keeps _)).trans (h2 _)

theorem execDozeEntry_keeps (dt : Nat) (s : State) : ∃ t, execDozeEntry dt s = .next t ∧ Keeps s t := by
  refine ⟨_, rfl, ?_⟩
  refine .trans (State.advance_keeps ..) (State.when_keeps _ _ _ ?_)
  with_reducible
    repeat' (first
      | exact .refl _ | refine .trans ?_ (State.enterDoze_keeps ..))

theorem execDozeTwWake_keeps (dt : Nat) (s : State) : ∃ t, execDozeTwWake dt s = .next t ∧ Keeps s t := by
  refine ⟨_, rfl, ?_⟩
  refine .trans (State.advance_keeps ..) (State.when_keeps _ _ _ ?_)
  with_reducible
    repeat' (first
      | exact .refl _ | refine .trans ?_ (State.wakeFab_keeps ..))

theorem execDozeFabIdleStop_keeps (dt : Nat) (s : State) : ∃ t, execDozeFabIdleStop dt s = .next t ∧ Keeps s t := by
  refine ⟨_, rfl, ?_⟩
  refine .trans (State.advance_keeps ..) (State.when_keeps _ _ _ ?_)
  with_reducible
    repeat' (first
      | exact .refl _ | fail_if_no_progress (refine Keeps.upd ?_ rfl rfl rfl rfl rfl rfl rfl))

theorem execReset_keeps (dt : Nat) (us : Nat) (s : State) : ∃ t, execReset dt us s = .next t ∧ Keeps s t := by
  refine ⟨_, rfl, ?_⟩
  refine .trans (State.advance_keeps ..) (State.when_keeps _ _ _ ?_)
  with_reducible
    repeat' (first
      | exact .refl _ | fail_if_no_progress (refine Keeps.upd ?_ rfl rfl rfl rfl rfl rfl rfl) | refine .trans ?_ (State.resetTo_keeps ..))

theorem execPowerOnReset_keeps (dt : Nat) (core : Nat) (ana : Nat) (a18 : Nat) (s : State) : ∃ t, execPowerOnReset dt core ana a18 s = .next t ∧ Keeps s t := by
  refine ⟨_, rfl, ?_⟩
  refine .trans (State.advance_keeps ..) (State.when_keeps _ _ _ ?_)
  with_reducible
    repeat' (first
      | exact .refl _ | fail_if_no_progress (refine Keeps.upd ?_ rfl rfl rfl rfl rfl rfl rfl) | refine .trans ?_ (State.resetTo_keeps ..))

theorem execPowerOnResetRelease_keeps (dt : Nat) (pins : BitVec 3) (aboveUs : Nat) (bank18 : BitVec 2) (s : State) :
    ∃ t, execPowerOnResetRelease dt pins aboveUs bank18 s = .next t ∧ Keeps s t := by
  refine ⟨_, rfl, ?_⟩
  refine .trans (State.advance_keeps ..) (State.when_keeps _ _ _ ?_)
  with_reducible
    repeat' (first
      | exact .refl _ | fail_if_no_progress (refine Keeps.upd ?_ rfl rfl rfl rfl rfl rfl rfl) | refine .trans ?_ (State.released_keeps ..))

theorem State.classify_keeps (s : State) (a : RefClass) (b : RefClass) : Keeps s (State.classify s a b) := by
  unfold State.classify
  with_reducible
    repeat' (first
      | exact .refl _ | fail_if_no_progress (refine Keeps.upd ?_ rfl rfl rfl rfl rfl rfl rfl) | refine Keeps.ite ?_ ?_)

theorem execRefClassify_keeps (dt : Nat) (hz1 : Nat) (hz2 : Nat) (s : State) : ∃ t, execRefClassify dt hz1 hz2 s = .next t ∧ Keeps s t := by
  refine ⟨_, rfl, ?_⟩
  refine .trans (State.advance_keeps ..) (State.when_keeps _ _ _ ?_)
  with_reducible
    repeat' (first
      | exact .refl _ | refine .trans ?_ (State.classify_keeps ..))

theorem execConfluencePllLock_keeps (dt : Nat) (s : State) : ∃ t, execConfluencePllLock dt s = .next t ∧ Keeps s t := by
  refine ⟨_, rfl, ?_⟩
  refine .trans (State.advance_keeps ..) (State.when_keeps _ _ _ ?_)
  with_reducible
    repeat' (first
      | exact .refl _ | fail_if_no_progress (refine Keeps.upd ?_ rfl rfl rfl rfl rfl rfl rfl) | refine .trans ?_ (State.sendReports_keeps ..)
      | refine .trans ?_ (State.firstReports_keeps ..))

theorem execReachPllLock_keeps (dt : Nat) (r : Fin 4) (s : State) : ∃ t, execReachPllLock dt r s = .next t ∧ Keeps s t := by
  refine ⟨_, rfl, ?_⟩
  refine .trans (State.advance_keeps ..) (State.when_keeps _ _ _ ?_)
  with_reducible
    repeat' (first
      | exact .refl _ | fail_if_no_progress (refine Keeps.upd ?_ rfl rfl rfl rfl rfl rfl rfl) | refine .trans ?_ (State.modReach_keeps ..))

theorem execInitialFallowPassEnd_keeps (dt : Nat) (r : Fin 4) (subAdcStillBad : Bool) (s : State) :
    ∃ t, execInitialFallowPassEnd dt r subAdcStillBad s = .next t ∧ Keeps s t := by
  refine ⟨_, rfl, ?_⟩
  refine .trans (State.advance_keeps ..) (State.when_keeps _ _ _ ?_)
  with_reducible
    repeat' (first
      | exact .refl _ | refine .trans ?_ (State.modFallow_keeps ..) | refine .trans ?_ (State.modReach_keeps ..))

theorem State.enterHeld_keeps (s : State) (r : Fin 4) : Keeps s (s.enterHeld r) := by
  refine State.forEach_keeps _ _ _ (fun c t => ?_)
  split
  · split
    · exact State.commit_keeps ..
    · exact .refl _
  · exact .refl _

theorem State.ownRequest_keeps (s : State) (r : Fin 4) (k : ActKind) : Keeps s (s.ownRequest r k) := State.request_keeps ..

theorem State.goHome_keeps (s : State) (c : Fin 256) : Keeps s (State.goHome s c) := by
  unfold State.goHome
  with_reducible
    repeat' (first
      | exact .refl _ | refine .trans ?_ (State.putAt_keeps ..))

theorem State.restoreReach_keeps (s : State) (r : Fin 4) : Keeps s (State.restoreReach s r) := by
  unfold State.restoreReach
  with_reducible
    repeat' (first
      | exact .refl _ | refine .trans ?_ (State.post_keeps ..) | refine .trans ?_ (State.modReach_keeps ..) | refine .trans ?_ (State.goHome_keeps ..)
      | refine .trans ?_ (State.forEach_keeps _ _ _ (fun _ _ => ?_)))

theorem State.reachReady_keeps (s : State) (r : Fin 4) : Keeps s (s.reachReady r) := by
  unfold State.reachReady
  extract_lets repair t u
  have ht : Keeps s t := (State.modReach_keeps ..).trans (State.modUpkeep_keeps ..)
  clear_value t
  have hu : Keeps s u := ((ht.trans (State.modFallow_keeps ..)).trans (State.blankUpdate_keeps ..)).trans (State.enterHeld_keeps ..)
  clear_value u
  refine Keeps.trans ?_ (State.ownRequest_keeps ..)
  split
  · exact hu.trans (State.restoreReach_keeps ..)
  · exact hu

theorem execReachReady_keeps (dt : Nat) (r : Fin 4) (s : State) : ∃ t, execReachReady dt r s = .next t ∧ Keeps s t := by
  refine ⟨_, rfl, ?_⟩
  refine .trans (State.advance_keeps ..) (State.when_keeps _ _ _ ?_)
  with_reducible
    repeat' (first
      | exact .refl _ | refine .trans ?_ (State.reachReady_keeps ..))

theorem State.loseRef_keeps (s : State) (agoNs : Nat) (words : Vector Nat 5) : Keeps s (State.loseRef s agoNs words) := by
  unfold State.loseRef
  with_reducible
    repeat' (first
      | exact .refl _ | fail_if_no_progress (refine Keeps.upd ?_ rfl rfl rfl rfl rfl rfl rfl) | refine .trans ?_ (State.post_keeps ..)
      | refine .trans ?_ (State.discardWindow_keeps ..) | refine Keeps.ite ?_ ?_)

theorem execRefLost_keeps (dt : Nat) (ref2 : Bool) (sinceLastEdgeNs : Nat) (degrees : List Nat) (words : Vector Nat 5) (s : State) :
    ∃ t, execRefLost dt ref2 sinceLastEdgeNs degrees words s = .next t ∧ Keeps s t := by
  refine ⟨_, rfl, ?_⟩
  refine .trans (State.advance_keeps ..) (State.when_keeps _ _ _ ?_)
  with_reducible
    repeat' (first
      | exact .refl _ | fail_if_no_progress (refine Keeps.upd ?_ rfl rfl rfl rfl rfl rfl rfl) | refine .trans ?_ (State.loseRef_keeps ..)
      | refine Keeps.ite ?_ ?_)

theorem State.exitHoldover_keeps (s : State) : Keeps s (State.exitHoldover s) := by
  unfold State.exitHoldover
  with_reducible
    repeat' (first
      | exact .refl _ | fail_if_no_progress (refine Keeps.upd ?_ rfl rfl rfl rfl rfl rfl rfl) | refine .trans ?_ (State.post_keeps ..)
      | refine Keeps.ite ?_ ?_)

theorem execHoldoverExit_keeps (dt : Nat) (belowUs : Nat) (s : State) : ∃ t, execHoldoverExit dt belowUs s = .next t ∧ Keeps s t := by
  refine ⟨_, rfl, ?_⟩
  refine .trans (State.advance_keeps ..) (State.when_keeps _ _ _ ?_)
  with_reducible
    repeat' (first
      | exact .refl _ | refine .trans ?_ (State.exitHoldover_keeps ..))

theorem execRefRevert_keeps (dt : Nat) (s : State) : ∃ t, execRefRevert dt s = .next t ∧ Keeps s t := by
  refine ⟨_, rfl, ?_⟩
  refine .trans (State.advance_keeps ..) (State.when_keeps _ _ _ ?_)
  with_reducible
    repeat' (first
      | exact .refl _ | fail_if_no_progress (refine Keeps.upd ?_ rfl rfl rfl rfl rfl rfl rfl))

theorem State.recoverRef_keeps (s : State) (a : RefClass) (b : RefClass) : Keeps s (State.recoverRef s a b) := by
  unfold State.recoverRef
  with_reducible
    repeat' (first
      | exact .refl _ | fail_if_no_progress (refine Keeps.upd ?_ rfl rfl rfl rfl rfl rfl rfl) | refine Keeps.ite ?_ ?_)

theorem execRefRecovered_keeps (dt : Nat) (hz1 : Nat) (hz2 : Nat) (s : State) : ∃ t, execRefRecovered dt hz1 hz2 s = .next t ∧ Keeps s t := by
  refine ⟨_, rfl, ?_⟩
  refine .trans (State.advance_keeps ..) (State.when_keeps _ _ _ ?_)
  with_reducible
    repeat' (first
      | exact .refl _ | refine .trans ?_ (State.recoverRef_keeps ..))

theorem execAgcWindowEnd_keeps (dt : Nat) (r : Fin 4) (peak : Int) (mean : Nat) (s : State) : ∃ t, execAgcWindowEnd dt r peak mean s = .next t ∧ Keeps s t := by
  refine ⟨_, rfl, ?_⟩
  refine .trans (State.advance_keeps ..) (State.when_keeps _ _ _ ?_)
  with_reducible
    repeat' (first
      | exact .refl _ | refine .trans ?_ (State.modReach_keeps ..))

theorem execAgcDeferredIncrease_keeps (dt : Nat) (r : Fin 4) (s : State) : ∃ t, execAgcDeferredIncrease dt r s = .next t ∧ Keeps s t := by
  refine ⟨_, rfl, ?_⟩
  refine .trans (State.advance_keeps ..) (State.when_keeps _ _ _ ?_)
  with_reducible
    repeat' (first
      | exact .refl _ | refine .trans ?_ (State.modReach_keeps ..))

theorem execReachAgcWrite_keeps (dt : Nat) (r : Fin 4) (value : Word) (s : State) : ∃ t, execReachAgcWrite dt r value s = .next t ∧ Keeps s t := by
  refine ⟨_, rfl, ?_⟩
  refine .trans (State.advance_keeps ..) (State.when_keeps _ _ _ ?_)
  with_reducible
    repeat' (first
      | exact .refl _ | refine .trans ?_ (State.writeAgc_keeps ..))

theorem execReachAttnWrite_keeps (dt : Nat) (r : Fin 4) (value : Word) (s : State) : ∃ t, execReachAttnWrite dt r value s = .next t ∧ Keeps s t := by
  refine ⟨_, rfl, ?_⟩
  refine .trans (State.advance_keeps ..) (State.when_keeps _ _ _ ?_)
  with_reducible
    repeat' (first
      | exact .refl _ | refine .trans ?_ (State.writeAttn_keeps ..))

theorem State.rotationDone_keeps (s : State) (r : Fin 4) (spur : Int) : Keeps s (State.rotationDone s r spur) := by
  unfold State.rotationDone
  with_reducible
    repeat' (first
      | exact .refl _ | refine .trans ?_ (State.modUpkeep_keeps ..) | refine .trans ?_ (State.calReport_keeps ..) | refine Keeps.ite ?_ ?_)

theorem execFallowBoundary_keeps (dt : Nat) (r : Fin 4) (err : TrimError) (spur : Int) (s : State) : ∃ t, execFallowBoundary dt r err spur s = .next t ∧ Keeps s t := by
  refine ⟨_, rfl, ?_⟩
  refine .trans (State.advance_keeps ..) (State.when_keeps _ _ _ ?_)
  with_reducible
    repeat' (first
      | exact .refl _ | refine .trans ?_ (State.modFallow_keeps ..) | refine .trans ?_ (State.rotationDone_keeps ..) | refine Keeps.ite ?_ ?_)

theorem execFallowTrimCommit_keeps (dt : Nat) (r : Fin 4) (s : State) : ∃ t, execFallowTrimCommit dt r s = .next t ∧ Keeps s t := by
  refine ⟨_, rfl, ?_⟩
  refine .trans (State.advance_keeps ..) (State.when_keeps _ _ _ ?_)
  with_reducible
    repeat' (first
      | exact .refl _ | refine .trans ?_ (State.modFallow_keeps ..))

theorem execSpateFlagRaise_keeps (dt : Nat) (d : SpateDet) (levels : List Int) (s : State) : ∃ t, execSpateFlagRaise dt d levels s = .next t ∧ Keeps s t := by
  refine ⟨_, rfl, ?_⟩
  refine .trans (State.advance_keeps ..) (State.when_keeps _ _ _ ?_)
  with_reducible
    repeat' (first
      | exact .refl _ | refine .trans ?_ (State.spateDeliver_keeps ..))

theorem execBlankInAssert_keeps (dt : Nat) (s : State) : ∃ t, execBlankInAssert dt s = .next t ∧ Keeps s t := by
  refine ⟨_, rfl, ?_⟩
  refine .trans (State.advance_keeps ..) (State.when_keeps _ _ _ ?_)
  with_reducible
    repeat' (first
      | exact .refl _ | fail_if_no_progress (refine Keeps.upd ?_ rfl rfl rfl rfl rfl rfl rfl) | refine .trans ?_ (State.blankAll_keeps ..))

theorem State.blankEnd_keeps (s : State) (r : Fin 4) : Keeps s (State.blankEnd s r) := by
  unfold State.blankEnd
  with_reducible
    repeat' (first
      | exact .refl _ | fail_if_no_progress (refine Keeps.upd ?_ rfl rfl rfl rfl rfl rfl rfl) | refine .trans ?_ (State.modReach_keeps ..))

theorem execBlankingIntervalEnd_keeps (dt : Nat) (r : Fin 4) (s : State) : ∃ t, execBlankingIntervalEnd dt r s = .next t ∧ Keeps s t := by
  refine ⟨_, rfl, ?_⟩
  refine .trans (State.advance_keeps ..) (State.when_keeps _ _ _ ?_)
  with_reducible
    repeat' (first
      | exact .refl _ | refine .trans ?_ (State.blankEnd_keeps ..))

theorem execOverrangeSample_keeps (dt : Nat) (r : Fin 4) (s : State) : ∃ t, execOverrangeSample dt r s = .next t ∧ Keeps s t := by
  refine ⟨_, rfl, ?_⟩
  refine .trans (State.advance_keeps ..) (State.when_keeps _ _ _ ?_)
  with_reducible
    repeat' (first
      | exact .refl _ | refine .trans ?_ (State.overrange_keeps ..))

theorem execSyncNAssert_keeps (dt : Nat) (levels : List Bool) (s : State) : ∃ t, execSyncNAssert dt levels s = .next t ∧ Keeps s t := by
  refine ⟨_, rfl, ?_⟩
  refine .trans (State.advance_keeps ..) (State.when_keeps _ _ _ ?_)
  with_reducible
    repeat' (first
      | exact .refl _ | refine .trans ?_ (State.syncLevels_keeps ..))

theorem execSyncGo_keeps (dt : Nat) (s : State) : ∃ t, execSyncGo dt s = .next t ∧ Keeps s t := by
  refine ⟨_, rfl, ?_⟩
  refine .trans (State.advance_keeps ..) (State.when_keeps _ _ _ ?_)
  with_reducible
    repeat' (first
      | exact .refl _ | refine .trans ?_ (State.writeSyncGo_keeps ..))

theorem execFirstValidSample_keeps (dt : Nat) (c : Fin 256) (gapStart : Nat) (gapEnd : Nat) (s : State) :
    ∃ t, execFirstValidSample dt c gapStart gapEnd s = .next t ∧ Keeps s t := by
  refine ⟨_, rfl, ?_⟩
  refine .trans (State.advance_keeps ..) (State.when_keeps _ _ _ ?_)
  with_reducible
    repeat' (first
      | exact .refl _ | refine .trans ?_ (State.firstValid_keeps ..))

theorem execCtxLoad_keeps (dt : Nat) (pair : Bool) (s : State) : ∃ t, execCtxLoad dt pair s = .next t ∧ Keeps s t := by
  refine ⟨_, rfl, ?_⟩
  refine .trans (State.advance_keeps ..) (State.when_keeps _ _ _ ?_)
  with_reducible
    repeat' (first
      | exact .refl _ | refine .trans ?_ (State.writeCtxCmd_keeps ..))

theorem execCtxCommitWindow_keeps (dt : Nat) (pair : Bool) (load : Bool) (s : State) : ∃ t, execCtxCommitWindow dt pair load s = .next t ∧ Keeps s t := by
  refine ⟨_, rfl, ?_⟩
  refine .trans (State.advance_keeps ..) (State.when_keeps _ _ _ ?_)
  with_reducible
    repeat' (first
      | exact .refl _ | refine .trans ?_ (State.writeCtxCmd_keeps ..))

theorem execEngineWatchdog_keeps (dt : Nat) (e : Fin 8) (s : State) : ∃ t, execEngineWatchdog dt e s = .next t ∧ Keeps s t := by
  refine ⟨_, rfl, ?_⟩
  refine .trans (State.advance_keeps ..) (State.when_keeps _ _ _ ?_)
  with_reducible
    repeat' (first
      | exact .refl _ | refine .trans ?_ (State.watchdog_keeps ..))

theorem State.cagcWindow_keeps (s : State) (c : Fin 256) (mean : Int) (held : Bool) : Keeps s (State.cagcWindow s c mean held) := by
  unfold State.cagcWindow
  with_reducible
    repeat' (first
      | exact .refl _ | refine .trans ?_ (State.modCtx_keeps ..) | refine Keeps.ite ?_ ?_)

theorem execContextAgcWindow_keeps (dt : Nat) (c : Fin 256) (mean : Int) (held : Bool) (s : State) :
    ∃ t, execContextAgcWindow dt c mean held s = .next t ∧ Keeps s t := by
  refine ⟨_, rfl, ?_⟩
  refine .trans (State.advance_keeps ..) (State.when_keeps _ _ _ ?_)
  with_reducible
    repeat' (first
      | exact .refl _ | refine .trans ?_ (State.cagcWindow_keeps ..))

theorem execFmCarrierLockLost_keeps (dt : Nat) (c : Fin 256) (highest : Nat) (overUs : Nat) (s : State) :
    ∃ t, execFmCarrierLockLost dt c highest overUs s = .next t ∧ Keeps s t := by
  refine ⟨_, rfl, ?_⟩
  refine .trans (State.advance_keeps ..) (State.when_keeps _ _ _ ?_)
  with_reducible
    repeat' (first
      | exact .refl _ | refine .trans ?_ (State.fmStep_keeps ..))

theorem execFmPilotDecision_keeps (dt : Nat) (c : Fin 256) (lockedUs : Nat) (deviation : Nat) (s : State) :
    ∃ t, execFmPilotDecision dt c lockedUs deviation s = .next t ∧ Keeps s t := by
  refine ⟨_, rfl, ?_⟩
  refine .trans (State.advance_keeps ..) (State.when_keeps _ _ _ ?_)
  with_reducible
    repeat' (first
      | exact .refl _ | refine .trans ?_ (State.fmStep_keeps ..))

theorem execFmStereoToMono_keeps (dt : Nat) (c : Fin 256) (unlockedUs : Nat) (s : State) : ∃ t, execFmStereoToMono dt c unlockedUs s = .next t ∧ Keeps s t := by
  refine ⟨_, rfl, ?_⟩
  refine .trans (State.advance_keeps ..) (State.when_keeps _ _ _ ?_)
  with_reducible
    repeat' (first
      | exact .refl _ | refine .trans ?_ (State.modFm_keeps ..))

theorem execFmMonoToStereo_keeps (dt : Nat) (c : Fin 256) (lockedUs : Nat) (s : State) : ∃ t, execFmMonoToStereo dt c lockedUs s = .next t ∧ Keeps s t := by
  refine ⟨_, rfl, ?_⟩
  refine .trans (State.advance_keeps ..) (State.when_keeps _ _ _ ?_)
  with_reducible
    repeat' (first
      | exact .refl _ | refine .trans ?_ (State.modFm_keeps ..))

theorem execRdsBlock_keeps (dt : Nat) (c : Fin 256) (bits : List Bool) (stamp : Nat) (marks : Marks) (s : State) :
    ∃ t, execRdsBlock dt c bits stamp marks s = .next t ∧ Keeps s t := by
  refine ⟨_, rfl, ?_⟩
  refine .trans (State.advance_keeps ..) (State.when_keeps _ _ _ ?_)
  with_reducible
    repeat' (first
      | exact .refl _ | refine .trans ?_ (State.fmStep_keeps ..))

theorem execRdsGroupComplete_keeps (dt : Nat) (c : Fin 256) (level : Int) (cnr : Nat) (s : State) : ∃ t, execRdsGroupComplete dt c level cnr s = .next t ∧ Keeps s t := by
  refine ⟨_, rfl, ?_⟩
  refine .trans (State.advance_keeps ..) (State.when_keeps _ _ _ ?_)
  with_reducible
    repeat' (first
      | exact .refl _ | refine .trans ?_ (State.groupComplete_keeps ..))

theorem execAmDetectorSwitch_keeps (dt : Nat) (c : Fin 256) (loopLocked : Bool) (offset : Int) (s : State) :
    ∃ t, execAmDetectorSwitch dt c loopLocked offset s = .next t ∧ Keeps s t := by
  refine ⟨_, rfl, ?_⟩
  refine .trans (State.advance_keeps ..) (State.when_keeps _ _ _ ?_)
  with_reducible
    repeat' (first
      | exact .refl _ | refine .trans ?_ (State.modAm_keeps ..))

theorem execDabFrameSync_keeps (dt : Nat) (c : Fin 256) (apartMs : Nat) (prs : Bool) (offset : Int) (s : State) :
    ∃ t, execDabFrameSync dt c apartMs prs offset s = .next t ∧ Keeps s t := by
  refine ⟨_, rfl, ?_⟩
  refine .trans (State.advance_keeps ..) (State.when_keeps _ _ _ ?_)
  with_reducible
    repeat' (first
      | exact .refl _ | refine .trans ?_ (State.dabStep_keeps ..))

theorem execDabFrameSyncLost_keeps (dt : Nat) (c : Fin 256) (missed : Nat) (s : State) : ∃ t, execDabFrameSyncLost dt c missed s = .next t ∧ Keeps s t := by
  refine ⟨_, rfl, ?_⟩
  refine .trans (State.advance_keeps ..) (State.when_keeps _ _ _ ?_)
  with_reducible
    repeat' (first
      | exact .refl _ | refine .trans ?_ (State.dabStep_keeps ..))

theorem State.logicalFrame_keeps (s : State) (c : Fin 256) (q : Fin 64) (f : LogicalFrame) : Keeps s (State.logicalFrame s c q f) := by
  unfold State.logicalFrame
  with_reducible
    repeat' (first
      | exact .refl _
      | (extract_lets +onlyGivenNames t; refine (fun (ht : Keeps s t) => ?_) ?_; (on_goal 1 => clear_value t); on_goal 2 => (dsimp -zeta only [t]; clear t))
      | (extract_lets +onlyGivenNames t; clear_value t) | assumption | refine .trans ?_ (State.countCif_keeps ..)
      | refine .trans ?_ (State.modSub_keeps ..) | refine .trans ?_ (State.layer2Frame_keeps ..) | refine .trans ?_ (State.packetRecord_keeps ..)
      | refine .trans ?_ (State.packet_keeps ..) | refine .trans ?_ (State.forEach_keeps _ _ _ (fun _ _ => ?_)) | refine Keeps.ite ?_ ?_ | split)

theorem execDabLogicalFrame_keeps (dt : Nat) (c : Fin 256) (sub : Fin 64) (f : LogicalFrame) (s : State) :
    ∃ t, execDabLogicalFrame dt c sub f s = .next t ∧ Keeps s t := by
  refine ⟨_, rfl, ?_⟩
  refine .trans (State.advance_keeps ..) (State.when_keeps _ _ _ ?_)
  with_reducible
    repeat' (first
      | exact .refl _ | refine .trans ?_ (State.logicalFrame_keeps ..))

theorem State.superframe_keeps (s : State) (c : Fin 256) (q : Fin 64) (x : DabSub) (corrected : List Byte) : Keeps s (State.superframe s c q x corrected) := by
  unfold State.superframe
  with_reducible
    repeat' (first
      | exact .refl _
      | (extract_lets +onlyGivenNames t; refine (fun (ht : Keeps s t) => ?_) ?_; (on_goal 1 => clear_value t); on_goal 2 => (dsimp -zeta only [t]; clear t))
      | assumption | refine .trans ?_ (State.modSub_keeps ..) | refine .trans ?_ (State.unitRecord_keeps ..)
      | refine .trans ?_ (State.forEach_keeps _ _ _ (fun _ _ => ?_)) | refine Keeps.ite ?_ ?_)

theorem execDabSuperframe_keeps (dt : Nat) (c : Fin 256) (sub : Fin 64) (corrected : List Byte) (failed : List Nat) (s : State) :
    ∃ t, execDabSuperframe dt c sub corrected failed s = .next t ∧ Keeps s t := by
  refine ⟨_, rfl, ?_⟩
  refine .trans (State.advance_keeps ..) (State.when_keeps _ _ _ ?_)
  with_reducible
    repeat' (first
      | exact .refl _ | refine .trans ?_ (State.superframe_keeps ..) | refine Keeps.ite ?_ ?_ | split)

theorem execDabReconfiguration_keeps (dt : Nat) (c : Fin 256) (s : State) : ∃ t, execDabReconfiguration dt c s = .next t ∧ Keeps s t := by
  refine ⟨_, rfl, ?_⟩
  refine .trans (State.advance_keeps ..) (State.when_keeps _ _ _ ?_)
  with_reducible
    repeat' (first
      | exact .refl _ | refine .trans ?_ (State.modDab_keeps ..))

theorem execEabLock_keeps (dt : Nat) (c : Fin 256) (samples : Nat) (span : EabSpan) (s : State) : ∃ t, execEabLock dt c samples span s = .next t ∧ Keeps s t := by
  refine ⟨_, rfl, ?_⟩
  refine .trans (State.advance_keeps ..) (State.when_keeps _ _ _ ?_)
  with_reducible
    repeat' (first
      | exact .refl _ | refine .trans ?_ (State.eabStep_keeps ..) | refine .trans ?_ (State.modEab_keeps ..))

theorem execEabLockLost_keeps (dt : Nat) (c : Fin 256) (samples : Nat) (marked : Nat) (s : State) : ∃ t, execEabLockLost dt c samples marked s = .next t ∧ Keeps s t := by
  refine ⟨_, rfl, ?_⟩
  refine .trans (State.advance_keeps ..) (State.when_keeps _ _ _ ?_)
  with_reducible
    repeat' (first
      | exact .refl _ | refine .trans ?_ (State.eabStep_keeps ..) | refine .trans ?_ (State.modEab_keeps ..))

theorem execEabPreambleDetect_keeps (dt : Nat) (c : Fin 256) (last : List EabSym) (level : Int) (snr : Nat) (foffset : Int) (stamp : Nat) (s : State) :
    ∃ t, execEabPreambleDetect dt c last level snr foffset stamp s = .next t ∧ Keeps s t := by
  refine ⟨_, rfl, ?_⟩
  refine .trans (State.advance_keeps ..) (State.when_keeps _ _ _ ?_)
  with_reducible
    repeat' (first
      | exact .refl _ | refine .trans ?_ (State.modEab_keeps ..) | refine .trans ?_ (State.calSettle_keeps ..))

theorem execEabPreambleEnd_keeps (dt : Nat) (c : Fin 256) (syms : List EabSym) (foffset : Int) (s : State) :
    ∃ t, execEabPreambleEnd dt c syms foffset s = .next t ∧ Keeps s t := by
  refine ⟨_, rfl, ?_⟩
  refine .trans (State.advance_keeps ..) (State.when_keeps _ _ _ ?_)
  with_reducible
    repeat' (first
      | exact .refl _ | refine .trans ?_ (State.modEab_keeps ..) | refine .trans ?_ (State.hearSymbols_keeps ..))

theorem execEabNoSync_keeps (dt : Nat) (c : Fin 256) (syms : List EabSym) (s : State) : ∃ t, execEabNoSync dt c syms s = .next t ∧ Keeps s t := by
  refine ⟨_, rfl, ?_⟩
  refine .trans (State.advance_keeps ..) (State.when_keeps _ _ _ ?_)
  with_reducible
    repeat' (first
      | exact .refl _ | refine .trans ?_ (State.eabFail_keeps ..))

theorem State.headerDecoded_keeps (s : State) (c : Fin 256) (d : List Bool) (iter : Nat) : Keeps s (State.headerDecoded s c d iter) := by
  unfold State.headerDecoded
  with_reducible
    repeat' (first
      | exact .refl _ | refine .trans ?_ (State.modEab_keeps ..) | refine .trans ?_ (State.eabAbandon_keeps ..) | refine Keeps.ite ?_ ?_)

theorem execEabHeaderDecoded_keeps (dt : Nat) (c : Fin 256) (syms : List EabSym) (decoded : List Bool) (iter : Nat) (snr : Nat) (s : State) :
    ∃ t, execEabHeaderDecoded dt c syms decoded iter snr s = .next t ∧ Keeps s t := by
  refine ⟨_, rfl, ?_⟩
  refine .trans (State.advance_keeps ..) (State.when_keeps _ _ _ ?_)
  with_reducible
    repeat' (first
      | exact .refl _ | refine .trans ?_ (State.hearSymbols_keeps ..) | refine .trans ?_ (State.combineDone_keeps ..)
      | refine .trans ?_ (State.headerDecoded_keeps ..) | refine Keeps.ite ?_ ?_)

theorem State.codewordDecoded_keeps (s : State) (c : Fin 256) (h : BitVec 128) (d : List Bool) (iter : Nat) : Keeps s (State.codewordDecoded s c h d iter) := by
  unfold State.codewordDecoded
  with_reducible
    repeat' (first
      | exact .refl _ | refine .trans ?_ (State.modEab_keeps ..))

theorem execEabCodewordDecoded_keeps (dt : Nat) (c : Fin 256) (syms : List EabSym) (decoded : List Bool) (iter : Nat) (snr : Nat) (s : State) :
    ∃ t, execEabCodewordDecoded dt c syms decoded iter snr s = .next t ∧ Keeps s t := by
  refine ⟨_, rfl, ?_⟩
  refine .trans (State.advance_keeps ..) (State.when_keeps _ _ _ ?_)
  with_reducible
    repeat' (first
      | exact .refl _ | refine .trans ?_ (State.hearSymbols_keeps ..) | refine .trans ?_ (State.modEab_keeps ..)
      | refine .trans ?_ (State.combineDone_keeps ..) | refine .trans ?_ (State.withSome_keeps _ _ _ (fun _ => ?_)) | refine Keeps.ite ?_ ?_)

theorem State.yield_keeps (s : State) (d : Fin 256) : Keeps s (State.yield s d) := by
  unfold State.yield
  with_reducible
    repeat' (first
      | exact .refl _ | refine .trans ?_ (State.modCtx_keeps ..) | split)

theorem State.authenticate_keeps (s : State) (c : Fin 256) (h : BitVec 128) (block : List Byte) : Keeps s (s.authenticate c h block).1 := by
  unfold State.authenticate
  generalize s.authOf s.ctxs[c].active h block = n
  dsimp only
  by_cases h0 : n = 0
  · rw [if_pos h0]; exact .same rfl rfl rfl rfl rfl rfl rfl
  · rw [if_neg h0]
    split
    · split
      · split
        · exact State.yield_keeps ..
        · exact .refl _
      · exact .refl _
    · exact .refl _

theorem State.authenticate_keeps' {s : State} {c : Fin 256} {h : BitVec 128} {block : List Byte} {t'} {x'} (h' : State.authenticate s c h block = (t', x')) :
    Keeps s t' := by
  have := State.authenticate_keeps s c h block; rw [h'] at this; exact this

theorem State.takeNeighbours_keeps (s : State) (c : Fin 256) (h : BitVec 128) (body : List Byte) : Keeps s (State.takeNeighbours s c h body) := by
  unfold State.takeNeighbours
  with_reducible
    repeat' (first
      | exact .refl _ | refine .trans ?_ (State.sideList_keeps ..) | refine Keeps.ite ?_ ?_)

theorem State.payloadEnd_keeps (s : State) (c : Fin 256) (h : BitVec 128) (symbols : Nat) (endStamp : Nat) : Keeps s (State.payloadEnd s c h symbols endStamp) := by
  unfold State.payloadEnd
  with_reducible
    repeat' (first
      | exact .refl _ | refine .trans ?_ (State.authenticate_keeps ..) | refine .trans ?_ (State.rememberDelivered_keeps ..)
      | refine .trans ?_ (State.takeNeighbours_keeps ..) | refine .trans ?_ (State.countCombined_keeps ..) | refine .trans ?_ (State.modEab_keeps ..)
      | refine .trans ?_ (State.eabFinish_keeps ..) | refine .trans ?_ (State.when_keeps _ _ _ ?_) | split)

theorem State.burstEnd_keeps (s : State) (c : Fin 256) (h : BitVec 128) : Keeps s (s.burstEnd c h) := by
  unfold State.burstEnd
  extract_lets e stamp
  split
  · exact State.eabFinish_keeps ..
  · split
    · exact State.eabFinish_keeps ..
    · exact State.payloadEnd_keeps ..

theorem execEabBurstEnd_keeps (dt : Nat) (c : Fin 256) (syms : List EabSym) (s : State) : ∃ t, execEabBurstEnd dt c syms s = .next t ∧ Keeps s t := by
  refine ⟨_, rfl, ?_⟩
  refine .trans (State.advance_keeps ..) (State.when_keeps _ _ _ ?_)
  with_reducible
    repeat' (first
      | exact .refl _ | refine .trans ?_ (State.burstEnd_keeps ..) | refine .trans ?_ (State.hearSymbols_keeps ..)
      | refine .trans ?_ (State.withSome_keeps _ _ _ (fun _ => ?_)))

theorem execEabShadowDrop_keeps (dt : Nat) (c : Fin 256) (syms : List EabSym) (snrs : List Nat) (s : State) :
    ∃ t, execEabShadowDrop dt c syms snrs s = .next t ∧ Keeps s t := by
  refine ⟨_, rfl, ?_⟩
  refine .trans (State.advance_keeps ..) (State.when_keeps _ _ _ ?_)
  with_reducible
    repeat' (first
      | exact .refl _ | refine .trans ?_ (State.modEab_keeps ..))

theorem execEabLevelRise_keeps (dt : Nat) (c : Fin 256) (syms : List EabSym) (stamp : Nat) (s : State) :
    ∃ t, execEabLevelRise dt c syms stamp s = .next t ∧ Keeps s t := by
  refine ⟨_, rfl, ?_⟩
  refine .trans (State.advance_keeps ..) (State.when_keeps _ _ _ ?_)
  with_reducible
    repeat' (first
      | exact .refl _ | refine .trans ?_ (State.eabAbandon_keeps ..) | refine .trans ?_ (State.hearSymbols_keeps ..))

theorem execEabNfBlock_keeps (dt : Nat) (c : Fin 256) (power : Nat) (invalid : Bool) (marks : Marks) (s : State) :
    ∃ t, execEabNfBlock dt c power invalid marks s = .next t ∧ Keeps s t := by
  refine ⟨_, rfl, ?_⟩
  refine .trans (State.advance_keeps ..) (State.when_keeps _ _ _ ?_)
  with_reducible
    repeat' (first
      | exact .refl _ | refine .trans ?_ (State.modEab_keeps ..))

theorem execEabNfReport_keeps (dt : Nat) (c : Fin 256) (s : State) : ∃ t, execEabNfReport dt c s = .next t ∧ Keeps s t := by
  refine ⟨_, rfl, ?_⟩
  refine .trans (State.advance_keeps ..) (State.when_keeps _ _ _ ?_)
  with_reducible
    repeat' (first
      | exact .refl _ | refine .trans ?_ (State.nfReport_keeps ..))

theorem execEabReplayJournal_keeps (dt : Nat) (s : State) : ∃ t, execEabReplayJournal dt s = .next t ∧ Keeps s t := by
  refine ⟨_, rfl, ?_⟩
  refine .trans (State.advance_keeps ..) (State.when_keeps _ _ _ ?_)
  with_reducible
    repeat' (first
      | exact .refl _ | refine .trans ?_ (State.replaySession_keeps ..))

theorem State.startCheck_keeps (s : State) (sc : Fin 256) : Keeps s (State.startCheck s sc) := by
  unfold State.startCheck
  with_reducible
    repeat' (first
      | exact .refl _ | refine .trans ?_ (State.commit_keeps ..) | refine .trans ?_ (State.modFollow_keeps ..) | refine Keeps.ite ?_ ?_ | split)

theorem execScoutCheckStart_keeps (dt : Nat) (sc : Fin 256) (s : State) : ∃ t, execScoutCheckStart dt sc s = .next t ∧ Keeps s t := by
  refine ⟨_, rfl, ?_⟩
  refine .trans (State.advance_keeps ..) (State.when_keeps _ _ _ ?_)
  with_reducible
    repeat' (first
      | exact .refl _ | refine .trans ?_ (State.startCheck_keeps ..))

theorem State.landSingle_keeps (s : State) (c : Fin 256) (k : Cand) : Keeps s (s.landSingle c k) := by
  unfold State.landSingle
  extract_lets e
  split
  · exact State.setLanding_keeps ..
  · dsimp only
    have h1 : ∀ n, Keeps s (s.noRoom c k n) := fun n => State.noRoom_keeps ..
    split
    · split
      · exact ((h1 _).trans (State.commit_keeps ..)).trans (State.setHard_keeps ..)
      · exact h1 _
    · exact h1 _

theorem State.decideSwitch_keeps (s : State) (c : Fin 256) : Keeps s (State.decideSwitch s c) := by
  unfold State.decideSwitch
  with_reducible
    repeat' (first
      | exact .refl _ | refine .trans ?_ (State.landPair_keeps ..) | refine .trans ?_ (State.landSingle_keeps ..) | refine Keeps.ite ?_ ?_ | split)

theorem execAfSwitchDecision_keeps (dt : Nat) (c : Fin 256) (s : State) : ∃ t, execAfSwitchDecision dt c s = .next t ∧ Keeps s t := by
  refine ⟨_, rfl, ?_⟩
  refine .trans (State.advance_keeps ..) (State.when_keeps _ _ _ ?_)
  with_reducible
    repeat' (first
      | exact .refl _ | refine .trans ?_ (State.decideSwitch_keeps ..))

theorem State.startLanding_keeps (s : State) (c : Fin 256) : Keeps s (State.startLanding s c) := by
  unfold State.startLanding
  with_reducible
    repeat' (first
      | exact .refl _ | refine .trans ?_ (State.afEvent_keeps ..) | refine .trans ?_ (State.modFollow_keeps ..) | split)

theorem execLandingStart_keeps (dt : Nat) (c : Fin 256) (s : State) : ∃ t, execLandingStart dt c s = .next t ∧ Keeps s t := by
  refine ⟨_, rfl, ?_⟩
  refine .trans (State.advance_keeps ..) (State.when_keeps _ _ _ ?_)
  with_reducible
    repeat' (first
      | exact .refl _ | refine .trans ?_ (State.startLanding_keeps ..) | refine .trans ?_ (State.forEach_keeps _ _ _ (fun _ _ => ?_)))

theorem execLandingFailed_keeps (dt : Nat) (c : Fin 256) (s : State) : ∃ t, execLandingFailed dt c s = .next t ∧ Keeps s t := by
  refine ⟨_, rfl, ?_⟩
  refine .trans (State.advance_keeps ..) (State.when_keeps _ _ _ ?_)
  with_reducible
    repeat' (first
      | exact .refl _ | refine .trans ?_ (State.failLanding_keeps ..))

theorem execRunOutEnd_keeps (dt : Nat) (c : Fin 256) (built : List Built) (s : State) : ∃ t, execRunOutEnd dt c built s = .next t ∧ Keeps s t := by
  refine ⟨_, rfl, ?_⟩
  refine .trans (State.advance_keeps ..) (State.when_keeps _ _ _ ?_)
  with_reducible
    repeat' (first
      | exact .refl _ | refine .trans ?_ (State.endRunOut_keeps ..) | refine .trans ?_ (State.withSome_keeps _ _ _ (fun _ => ?_)))

theorem State.decodeAlone_keeps (s : State) (m : Fin 256) : Keeps s (State.decodeAlone s m) := by
  unfold State.decodeAlone
  with_reducible
    repeat' (first
      | exact .refl _ | refine .trans ?_ (State.modDab_keeps ..) | refine .trans ?_ (State.modCtx_keeps ..) | refine Keeps.ite ?_ ?_)

theorem execTwinCombineTimeout_keeps (dt : Nat) (c : Fin 256) (s : State) : ∃ t, execTwinCombineTimeout dt c s = .next t ∧ Keeps s t := by
  refine ⟨_, rfl, ?_⟩
  refine .trans (State.advance_keeps ..) (State.when_keeps _ _ _ ?_)
  with_reducible
    repeat' (first
      | exact .refl _ | refine .trans ?_ (State.decodeAlone_keeps ..))

theorem State.handSamples_keeps (s : State) (old : Fin 256) (new : Fin 256) (switchPs : Nat) : Keeps s (State.handSamples s old new switchPs) := by
  unfold State.handSamples
  with_reducible
    repeat' (first
      | exact .refl _ | refine .trans ?_ (State.modCtx_keeps ..))

theorem State.selectTwin_keeps (s : State) (c : Fin 256) (ticks : List (Nat × Nat)) (stamp : Nat) : Keeps s (s.selectTwin c ticks stamp) := by
  unfold State.selectTwin
  extract_lets lo hi old new member t u v
  clear_value old new
  split
  · exact .refl _
  · have ht : Keeps s t := (State.endTurn_keeps ..).trans (State.modCtx_keeps ..)
    clear_value t
    have hu : Keeps s u := by
      dsimp only [u]
      split
      · exact ht.trans (State.handSamples_keeps ..)
      · exact ht.trans (State.freshSelection_keeps ..)
      · exact ht
    clear_value u
    have hv : Keeps s v := by
      dsimp only [v]
      split
      · split
        · exact hu
        · exact hu.trans (State.endTurn_keeps ..)
      · exact hu
    clear_value v
    exact hv.trans (State.twinEvent_keeps ..)

theorem execTwinSelectionChange_keeps (dt : Nat) (c : Fin 256) (ticks : List (Nat × Nat)) (levelL : Int) (levelH : Int) (stamp : Nat) (s : State) :
    ∃ t, execTwinSelectionChange dt c ticks levelL levelH stamp s = .next t ∧ Keeps s t := by
  refine ⟨_, rfl, ?_⟩
  refine .trans (State.advance_keeps ..) (State.when_keeps _ _ _ ?_)
  with_reducible
    repeat' (first
      | exact .refl _ | refine .trans ?_ (State.selectTwin_keeps ..))

theorem execTransmit_keeps (dt : Nat) (src : Peer) (id : BitVec 32) (a : TxArgs) (s : State) : ∃ t, execTransmit dt src id a s = .next t ∧ Keeps s t := by
  refine ⟨_, rfl, (State.advance_keeps ..).trans (State.when_keeps _ _ _ (State.command_keeps _ _ _ _ _ _ _ (fun u => ?_)))⟩
  refine Keeps.ite ?_ ?_
  · exact State.refuse_keeps ..
  · exact (State.modOut_keeps ..).trans (State.accept_keeps ..)

theorem execOutfallToneStart_keeps (dt : Nat) (via : Via) (id : BitVec 32) (s : State) : ∃ t, execOutfallToneStart dt via id s = .next t ∧ Keeps s t := by
  refine ⟨_, rfl, ?_⟩
  refine .trans (State.advance_keeps ..) (State.when_keeps _ _ _ ?_)
  with_reducible
    repeat' (first
      | exact .refl _ | refine .trans ?_ (State.startTone_keeps ..))

theorem execOutfallAbort_keeps (dt : Nat) (s : State) : ∃ t, execOutfallAbort dt s = .next t ∧ Keeps s t := by
  refine ⟨_, rfl, ?_⟩
  refine .trans (State.advance_keeps ..) (State.when_keeps _ _ _ ?_)
  with_reducible
    repeat' (first
      | exact .refl _ | refine .trans ?_ (State.outfallAbortAll_keeps ..))

theorem execOutfallRetuneStart_keeps (dt : Nat) (s : State) : ∃ t, execOutfallRetuneStart dt s = .next t ∧ Keeps s t := by
  refine ⟨_, rfl, ?_⟩
  refine .trans (State.advance_keeps ..) (State.when_keeps _ _ _ ?_)
  with_reducible
    repeat' (first
      | exact .refl _ | refine .trans ?_ (State.retune_keeps ..) | refine .trans ?_ (State.withSome_keeps _ _ _ (fun _ => ?_))
      | refine Keeps.ite ?_ ?_)

theorem State.lockFailed_keeps (s : State) (f : Nat) : Keeps s (State.lockFailed s f) := by
  unfold State.lockFailed
  with_reducible
    repeat' (first
      | exact .refl _ | refine .trans ?_ (State.dropWhere_keeps ..) | refine .trans ?_ (State.modOut_keeps ..))

theorem execOutfallLockTimeout_keeps (dt : Nat) (s : State) : ∃ t, execOutfallLockTimeout dt s = .next t ∧ Keeps s t := by
  refine ⟨_, rfl, ?_⟩
  refine .trans (State.advance_keeps ..) (State.when_keeps _ _ _ ?_)
  with_reducible
    repeat' (first
      | exact .refl _ | refine .trans ?_ (State.lockFailed_keeps ..) | refine .trans ?_ (State.when_keeps _ _ _ ?_)
      | refine .trans ?_ (State.withSome_keeps _ _ _ (fun _ => ?_)))

theorem State.driveBlank_keeps (s : State) (on : Bool) (cx : Bool) : Keeps s (State.driveBlank s on cx) := by
  unfold State.driveBlank
  with_reducible
    repeat' (first
      | exact .refl _ | fail_if_no_progress (refine Keeps.upd ?_ rfl rfl rfl rfl rfl rfl rfl) | refine .trans ?_ (State.blankAll_keeps ..))

theorem State.blankFor_keeps (s : State) (x : Tx) : Keeps s (State.blankFor s x) := by
  unfold State.blankFor
  with_reducible
    repeat' (first
      | exact .refl _ | refine .trans ?_ (State.driveBlank_keeps ..) | refine .trans ?_ (State.modOut_keeps ..))

theorem execOutfallBlankOutAssert_keeps (dt : Nat) (s : State) : ∃ t, execOutfallBlankOutAssert dt s = .next t ∧ Keeps s t := by
  refine ⟨_, rfl, ?_⟩
  refine .trans (State.advance_keeps ..) (State.when_keeps _ _ _ ?_)
  with_reducible
    repeat' (first
      | exact .refl _ | refine .trans ?_ (State.lbtSettle_keeps ..) | refine .trans ?_ (State.blankFor_keeps ..)
      | refine .trans ?_ (State.withSome_keeps _ _ _ (fun _ => ?_)))

theorem execCxGntAssert_keeps (dt : Nat) (s : State) : ∃ t, execCxGntAssert dt s = .next t ∧ Keeps s t := by
  refine ⟨_, rfl, ?_⟩
  refine .trans (State.advance_keeps ..) (State.when_keeps _ _ _ ?_)
  with_reducible
    repeat' (first
      | exact .refl _ | fail_if_no_progress (refine Keeps.upd ?_ rfl rfl rfl rfl rfl rfl rfl) | refine .trans ?_ (State.modOut_keeps ..))

theorem execCxDenied_keeps (dt : Nat) (s : State) : ∃ t, execCxDenied dt s = .next t ∧ Keeps s t := by
  refine ⟨_, rfl, ?_⟩
  refine .trans (State.advance_keeps ..) (State.when_keeps _ _ _ ?_)
  with_reducible
    repeat' (first
      | exact .refl _ | refine .trans ?_ (State.dropWhere_keeps ..) | refine .trans ?_ (State.driveBlank_keeps ..)
      | refine .trans ?_ (State.withSome_keeps _ _ _ (fun _ => ?_)) | refine Keeps.ite ?_ ?_)

theorem State.rampStart_keeps (s : State) (a : OnAir) : Keeps s (State.rampStart s a) := by
  unfold State.rampStart
  with_reducible
    repeat' (first
      | exact .refl _ | fail_if_no_progress (refine Keeps.upd ?_ rfl rfl rfl rfl rfl rfl rfl) | refine .trans ?_ (State.modOut_keeps ..))

theorem execOutfallRampStart_keeps (dt : Nat) (s : State) : ∃ t, execOutfallRampStart dt s = .next t ∧ Keeps s t := by
  refine ⟨_, rfl, ?_⟩
  refine .trans (State.advance_keeps ..) (State.when_keeps _ _ _ ?_)
  with_reducible
    repeat' (first
      | exact .refl _ | refine .trans ?_ (State.rampStart_keeps ..) | refine .trans ?_ (State.withSome_keeps _ _ _ (fun _ => ?_))
      | refine Keeps.ite ?_ ?_)

theorem State.levelLoopEnd_keeps (s : State) (readings : List DetReading) (a : OnAir) : Keeps s (State.levelLoopEnd s readings a) := by
  unfold State.levelLoopEnd
  with_reducible
    repeat' (first
      | exact .refl _ | refine .trans ?_ (State.modOut_keeps ..) | refine .trans ?_ (State.post_keeps ..)
      | refine .trans ?_ (State.when_keeps _ _ _ ?_))

theorem execOutfallLevelLoopEnd_keeps (dt : Nat) (readings : List DetReading) (s : State) : ∃ t, execOutfallLevelLoopEnd dt readings s = .next t ∧ Keeps s t := by
  refine ⟨_, rfl, ?_⟩
  refine .trans (State.advance_keeps ..) (State.when_keeps _ _ _ ?_)
  with_reducible
    repeat' (first
      | exact .refl _ | refine .trans ?_ (State.levelLoopEnd_keeps ..) | refine .trans ?_ (State.withSome_keeps _ _ _ (fun _ => ?_))
      | refine Keeps.ite ?_ ?_)

theorem execOutfallRampDownStart_keeps (dt : Nat) (s : State) : ∃ t, execOutfallRampDownStart dt s = .next t ∧ Keeps s t := by
  refine ⟨_, rfl, ?_⟩
  refine .trans (State.advance_keeps ..) (State.when_keeps _ _ _ ?_)
  with_reducible
    repeat' (first
      | exact .refl _ | refine .trans ?_ (State.modOut_keeps ..))

theorem State.rampEnd_keeps (s : State) (a : OnAir) : Keeps s (State.rampEnd s a) := by
  unfold State.rampEnd
  with_reducible
    repeat' (first
      | exact .refl _ | fail_if_no_progress (refine Keeps.upd ?_ rfl rfl rfl rfl rfl rfl rfl) | refine .trans ?_ (State.modOut_keeps ..)
      | refine .trans ?_ (State.txRespond_keeps ..) | refine .trans ?_ (State.txReport_keeps ..))

theorem execOutfallRampEnd_keeps (dt : Nat) (s : State) : ∃ t, execOutfallRampEnd dt s = .next t ∧ Keeps s t := by
  refine ⟨_, rfl, ?_⟩
  refine .trans (State.advance_keeps ..) (State.when_keeps _ _ _ ?_)
  with_reducible
    repeat' (first
      | exact .refl _ | refine .trans ?_ (State.rampEnd_keeps ..) | refine .trans ?_ (State.withSome_keeps _ _ _ (fun _ => ?_))
      | refine Keeps.ite ?_ ?_)

theorem execOutfallBlankOutRelease_keeps (dt : Nat) (s : State) : ∃ t, execOutfallBlankOutRelease dt s = .next t ∧ Keeps s t := by
  refine ⟨_, rfl, ?_⟩
  refine .trans (State.advance_keeps ..) (State.when_keeps _ _ _ ?_)
  with_reducible
    repeat' (first
      | exact .refl _ | refine .trans ?_ (State.driveBlank_keeps ..))

theorem execOutfallLateDrop_keeps (dt : Nat) (s : State) : ∃ t, execOutfallLateDrop dt s = .next t ∧ Keeps s t := by
  refine ⟨_, rfl, ?_⟩
  refine .trans (State.advance_keeps ..) (State.when_keeps _ _ _ ?_)
  with_reducible
    repeat' (first
      | exact .refl _ | refine .trans ?_ (State.lbtSettle_keeps ..) | refine .trans ?_ (State.dropWhere_keeps ..))

theorem execRelayNotConfirmed_keeps (dt : Nat) (s : State) : ∃ t, execRelayNotConfirmed dt s = .next t ∧ Keeps s t := by
  refine ⟨_, rfl, ?_⟩
  refine .trans (State.advance_keeps ..) (State.when_keeps _ _ _ ?_)
  with_reducible
    repeat' (first
      | exact .refl _ | refine .trans ?_ (State.watchEnd_keeps ..) | refine .trans ?_ (State.withSome_keeps _ _ _ (fun _ => ?_)))

theorem State.tempPost_keeps (s : State) (r : Fin 4) (v : Int) : Keeps s (State.tempPost s r v) := by
  unfold State.tempPost
  with_reducible
    repeat' (first
      | exact .refl _ | refine .trans ?_ (State.modUpkeep_keeps ..) | refine .trans ?_ (State.post_keeps ..) | refine Keeps.ite ?_ ?_)

theorem State.tempRead_keeps (s0 : State) (r : Fin 4) (v : Int) : Keeps s0 (s0.tempRead r v) := by
  unfold State.tempRead
  extract_lets s t moved running
  have hs : Keeps s0 s := State.calSettle_keeps ..
  have ht : Keeps s0 t := (hs.trans (State.modUpkeep_keeps ..)).trans (State.tempPost_keeps ..)
  clear_value t
  split
  · exact ht.trans (State.ownRequest_keeps ..)
  · exact ht

theorem execTempSensorRead_keeps (dt : Nat) (tA : Int) (tB : Int) (tC : Int) (tD : Int) (s : State) : ∃ t, execTempSensorRead dt tA tB tC tD s = .next t ∧ Keeps s t := by
  refine ⟨_, rfl, ?_⟩
  refine .trans (State.advance_keeps ..) (State.when_keeps _ _ _ ?_)
  with_reducible
    repeat' (first
      | exact .refl _ | refine .trans ?_ (State.tempRead_keeps ..) | refine .trans ?_ (State.forEach_keeps _ _ _ (fun _ _ => ?_)))

theorem execCalAbsolute_keeps (dt : Nat) (r : Fin 4) (points : Fin 16) (s : State) : ∃ t, execCalAbsolute dt r points s = .next t ∧ Keeps s t := by
  refine ⟨_, rfl, ?_⟩
  refine .trans (State.advance_keeps ..) (State.when_keeps _ _ _ ?_)
  with_reducible
    repeat' (first
      | exact .refl _ | refine .trans ?_ (State.calRun_keeps ..) | refine .trans ?_ (State.calTrigger_keeps _ _ _ ?_))

theorem execCalSelftest_keeps (dt : Nat) (r : Fin 4) (s : State) : ∃ t, execCalSelftest dt r s = .next t ∧ Keeps s t := by
  refine ⟨_, rfl, ?_⟩
  refine .trans (State.advance_keeps ..) (State.when_keeps _ _ _ ?_)
  with_reducible
    repeat' (first
      | exact .refl _ | refine .trans ?_ (State.calRun_keeps ..) | refine .trans ?_ (State.calTrigger_keeps _ _ _ ?_))

theorem execCalApplySet_keeps (dt : Nat) (store : Bool) (s : State) : ∃ t, execCalApplySet dt store s = .next t ∧ Keeps s t := by
  refine ⟨_, rfl, ?_⟩
  refine .trans (State.advance_keeps ..) (State.when_keeps _ _ _ ?_)
  with_reducible
    repeat' (first
      | exact .refl _ | refine .trans ?_ (State.applySet_keeps ..) | refine .trans ?_ (State.calTrigger_keeps _ _ _ ?_))

theorem execCalRollback_keeps (dt : Nat) (r : Fin 4) (node : BitVec 3) (store : Bool) (s : State) : ∃ t, execCalRollback dt r node store s = .next t ∧ Keeps s t := by
  refine ⟨_, rfl, ?_⟩
  refine .trans (State.advance_keeps ..) (State.when_keeps _ _ _ ?_)
  with_reducible
    repeat' (first
      | exact .refl _ | refine .trans ?_ (State.rollback_keeps ..) | refine .trans ?_ (State.calTrigger_keeps _ _ _ ?_))

theorem execCalLoad_keeps (dt : Nat) (s : State) : ∃ t, execCalLoad dt s = .next t ∧ Keeps s t := by
  refine ⟨_, rfl, ?_⟩
  refine .trans (State.advance_keeps ..) (State.when_keeps _ _ _ ?_)
  with_reducible
    repeat' (first
      | exact .refl _ | refine .trans ?_ (State.loadSet_keeps ..))

theorem execCalAbort_keeps (dt : Nat) (r : Fin 4) (op : BitVec 3) (s : State) : ∃ t, execCalAbort dt r op s = .next t ∧ Keeps s t := by
  refine ⟨_, rfl, ?_⟩
  refine .trans (State.advance_keeps ..) (State.when_keeps _ _ _ ?_)
  with_reducible
    repeat' (first
      | exact .refl _ | refine .trans ?_ (State.calAbort_keeps ..) | refine .trans ?_ (State.calTrigger_keeps _ _ _ ?_))

theorem execSelftestDue_keeps (dt : Nat) (s : State) : ∃ t, execSelftestDue dt s = .next t ∧ Keeps s t := by
  refine ⟨_, rfl, ?_⟩
  refine .trans (State.advance_keeps ..) (State.when_keeps _ _ _ ?_)
  with_reducible
    repeat' (first
      | exact .refl _ | fail_if_no_progress (refine Keeps.upd ?_ rfl rfl rfl rfl rfl rfl rfl) | refine .trans ?_ (State.ownRequest_keeps ..)
      | refine .trans ?_ (State.forEach_keeps _ _ _ (fun _ _ => ?_)))

theorem State.absBlock_keeps (s : State) (r : Fin 4) (power : Int) (snr : Nat) (marked : Bool) (a : Activity) : Keeps s (State.absBlock s r power snr marked a) := by
  unfold State.absBlock
  with_reducible
    repeat' (first
      | exact .refl _ | refine .trans ?_ (State.modUpkeep_keeps ..) | refine Keeps.ite ?_ ?_ | split)

theorem execCalAbsBlock_keeps (dt : Nat) (r : Fin 4) (power : Int) (snr : Nat) (marked : Bool) (s : State) :
    ∃ t, execCalAbsBlock dt r power snr marked s = .next t ∧ Keeps s t := by
  refine ⟨_, rfl, ?_⟩
  refine .trans (State.advance_keeps ..) (State.when_keeps _ _ _ ?_)
  with_reducible
    repeat' (first
      | exact .refl _ | refine .trans ?_ (State.calSettle_keeps ..) | refine .trans ?_ (State.absBlock_keeps ..)
      | refine .trans ?_ (State.withSome_keeps _ _ _ (fun _ => ?_)))

theorem State.pointDone_keeps (s : State) (r : Fin 4) (check : Option Int) (a : Activity) : Keeps s (State.pointDone s r check a) := by
  unfold State.pointDone
  with_reducible
    repeat' (first
      | exact .refl _ | refine .trans ?_ (State.modUpkeep_keeps ..) | refine .trans ?_ (State.endPoint_keeps ..) | refine Keeps.ite ?_ ?_ | split)

theorem execCalPointComplete_keeps (dt : Nat) (r : Fin 4) (check : Option Int) (s : State) : ∃ t, execCalPointComplete dt r check s = .next t ∧ Keeps s t := by
  refine ⟨_, rfl, ?_⟩
  refine .trans (State.advance_keeps ..) (State.when_keeps _ _ _ ?_)
  with_reducible
    repeat' (first
      | exact .refl _ | refine .trans ?_ (State.calSettle_keeps ..) | refine .trans ?_ (State.pointDone_keeps ..)
      | refine .trans ?_ (State.withSome_keeps _ _ _ (fun _ => ?_)))

theorem execCalPointTimeout_keeps (dt : Nat) (r : Fin 4) (s : State) : ∃ t, execCalPointTimeout dt r s = .next t ∧ Keeps s t := by
  refine ⟨_, rfl, ?_⟩
  refine .trans (State.advance_keeps ..) (State.when_keeps _ _ _ ?_)
  exact (State.calSettle_keeps ..).trans (State.withSome_keeps _ _ _ (fun _ => State.endPoint_keeps ..))

theorem State.slotTaken_keeps (s : State) (r : Fin 4) (a : Activity) : Keeps s (State.slotTaken s r a) := by
  unfold State.slotTaken
  with_reducible
    repeat' (first
      | exact .refl _ | refine .trans ?_ (State.closeSwitch_keeps ..) | refine .trans ?_ (State.modUpkeep_keeps ..) | split)

theorem execCalSlotTaken_keeps (dt : Nat) (r : Fin 4) (s : State) : ∃ t, execCalSlotTaken dt r s = .next t ∧ Keeps s t := by
  refine ⟨_, rfl, ?_⟩
  refine .trans (State.advance_keeps ..) (State.when_keeps _ _ _ ?_)
  with_reducible
    repeat' (first
      | exact .refl _ | refine .trans ?_ (State.calSettle_keeps ..) | refine .trans ?_ (State.slotTaken_keeps ..)
      | refine .trans ?_ (State.withSome_keeps _ _ _ (fun _ => ?_)))

theorem State.commitTable_keeps (s : State) (r : Fin 4) (a : Activity) : Keeps s (State.commitTable s r a) := by
  unfold State.commitTable
  with_reducible
    repeat' (first
      | exact .refl _ | refine .trans ?_ (State.endActivity_keeps ..) | refine .trans ?_ (State.modUpkeep_keeps ..)
      | refine .trans ?_ (State.modReach_keeps ..))

theorem State.calCommit_keeps (s0 : State) (r : Fin 4) : Keeps s0 (s0.calCommit r) := by
  unfold State.calCommit
  extract_lets s t w
  have hs : Keeps s0 s := State.calSettle_keeps ..
  have ht : Keeps s0 t := hs.trans (State.when_keeps _ _ _ (State.modUpkeep_keeps ..))
  have hw : Keeps s0 w := (ht.trans (State.modUpkeep_keeps ..)).trans (State.forEach_keeps _ _ _ (fun _ _ => State.calOp_keeps ..))
  clear_value w
  refine hw.trans (State.withSome_keeps _ _ _ (fun a => ?_))
  split
  · exact State.commitSet_keeps ..
  · exact State.commitTable_keeps ..

theorem execCalCommitPoint_keeps (dt : Nat) (r : Fin 4) (s : State) : ∃ t, execCalCommitPoint dt r s = .next t ∧ Keeps s t := by
  refine ⟨_, rfl, ?_⟩
  refine .trans (State.advance_keeps ..) (State.when_keeps _ _ _ ?_)
  with_reducible
    repeat' (first
      | exact .refl _ | refine .trans ?_ (State.calCommit_keeps ..))

theorem State.selftestEnd_keeps (s : State) (r : Fin 4) (bad : List Mismatch) (a : Activity) : Keeps s (State.selftestEnd s r bad a) := by
  unfold State.selftestEnd
  with_reducible
    repeat' (first
      | exact .refl _ | refine .trans ?_ (State.modWarden_keeps ..) | refine .trans ?_ (State.modUpkeep_keeps ..)
      | refine .trans ?_ (State.endActivity_keeps ..) | refine .trans ?_ (State.post_keeps ..)
      | refine .trans ?_ (State.forEach_keeps _ _ _ (fun _ _ => ?_)))

theorem execSelftestComplete_keeps (dt : Nat) (r : Fin 4) (bad : List Mismatch) (s : State) : ∃ t, execSelftestComplete dt r bad s = .next t ∧ Keeps s t := by
  refine ⟨_, rfl, ?_⟩
  refine .trans (State.advance_keeps ..) (State.when_keeps _ _ _ ?_)
  with_reducible
    repeat' (first
      | exact .refl _ | refine .trans ?_ (State.selftestEnd_keeps ..) | refine .trans ?_ (State.withSome_keeps _ _ _ (fun _ => ?_)))

theorem execWardenVote_keeps (dt : Nat) (voter : Option (Fin 4)) (r : Fin 4) (id : ProposalId) (sight : Sight) (s : State) :
    ∃ t, execWardenVote dt voter r id sight s = .next t ∧ Keeps s t := by
  refine ⟨_, rfl, ?_⟩
  refine .trans (State.advance_keeps ..) (State.when_keeps _ _ _ ?_)
  with_reducible
    repeat' (first
      | exact .refl _ | refine .trans ?_ (State.votesCome_keeps ..))

theorem execProposalLapse_keeps (dt : Nat) (r : Fin 4) (id : ProposalId) (s : State) : ∃ t, execProposalLapse dt r id s = .next t ∧ Keeps s t := by
  refine ⟨_, rfl, ?_⟩
  refine .trans (State.advance_keeps ..) (State.when_keeps _ _ _ ?_)
  with_reducible
    repeat' (first
      | exact .refl _ | refine .trans ?_ (State.lapse_keeps ..) | refine .trans ?_ (State.withSome_keeps _ _ _ (fun _ => ?_)))

theorem State.afterRestart_keeps (s : State) (e : Fin 8) (c : Fin 256) : Keeps s (s.afterRestart e c) :=
  ((State.when_keeps _ _ _ (State.eraseOuts_keeps ..)).trans (State.modCtx_keeps ..)).trans (State.restoreSnap_keeps ..)

theorem State.endErasure_keeps (s : State) (c : Fin 256) : Keeps s (State.endErasure s c) := by
  unfold State.endErasure
  with_reducible
    repeat' (first
      | exact .refl _ | refine .trans ?_ (State.modCtx_keeps ..))

theorem execEngineRestartComplete_keeps (dt : Nat) (e : Fin 8) (s : State) : ∃ t, execEngineRestartComplete dt e s = .next t ∧ Keeps s t := by
  refine ⟨_, rfl, ?_⟩
  refine .trans (State.advance_keeps ..) (State.when_keeps _ _ _ ?_)
  with_reducible
    repeat' (first
      | exact .refl _ | refine .trans ?_ (State.modEngine_keeps ..) | refine .trans ?_ (State.afterRestart_keeps ..)
      | refine .trans ?_ (State.endErasure_keeps ..) | refine .trans ?_ (State.forEach_keeps _ _ _ (fun _ _ => ?_)))

theorem execWardenHeartbeatTimeout_keeps (dt : Nat) (w : Fin 4) (s : State) : ∃ t, execWardenHeartbeatTimeout dt w s = .next t ∧ Keeps s t := by
  refine ⟨_, rfl, ?_⟩
  refine .trans (State.advance_keeps ..) (State.when_keeps _ _ _ ?_)
  with_reducible
    repeat' (first
      | exact .refl _ | refine .trans ?_ (State.wardenFails_keeps ..))

theorem execSubadcFaultDetect_keeps (dt : Nat) (r : Fin 4) (i : Fin 17) (fault : SubAdcFault) (s : State) :
    ∃ t, execSubadcFaultDetect dt r i fault s = .next t ∧ Keeps s t := by
  refine ⟨_, rfl, ?_⟩
  refine .trans (State.advance_keeps ..) (State.when_keeps _ _ _ ?_)
  with_reducible
    repeat' (first
      | exact .refl _ | refine .trans ?_ (State.modWarden_keeps ..))

theorem State.tmrRewrite_keeps (s : State) (copy : Fin 3) : Keeps s (State.tmrRewrite s copy) := by
  unfold State.tmrRewrite
  with_reducible
    repeat' (first
      | exact .refl _ | fail_if_no_progress (refine Keeps.upd ?_ rfl rfl rfl rfl rfl rfl rfl) | refine .trans ?_ (State.post_keeps ..)
      | refine Keeps.ite ?_ ?_)

theorem execTmrRepair_keeps (dt : Nat) (copy : Fin 3) (s : State) : ∃ t, execTmrRepair dt copy s = .next t ∧ Keeps s t := by
  refine ⟨_, rfl, ?_⟩
  refine .trans (State.advance_keeps ..) (State.when_keeps _ _ _ ?_)
  with_reducible
    repeat' (first
      | exact .refl _ | refine .trans ?_ (State.tmrRewrite_keeps ..))

theorem State.eccCount_keeps (s : State) (region : Fin 4) (n : Nat) : Keeps s (State.eccCount s region n) := by
  unfold State.eccCount
  with_reducible
    repeat' (first
      | exact .refl _ | fail_if_no_progress (refine Keeps.upd ?_ rfl rfl rfl rfl rfl rfl rfl) | refine .trans ?_ (State.post_keeps ..)
      | refine Keeps.ite ?_ ?_)

theorem execEccCorrected_keeps (dt : Nat) (region : Fin 4) (count : Nat) (s : State) : ∃ t, execEccCorrected dt region count s = .next t ∧ Keeps s t := by
  refine ⟨_, rfl, ?_⟩
  refine .trans (State.advance_keeps ..) (State.when_keeps _ _ _ ?_)
  with_reducible
    repeat' (first
      | exact .refl _ | refine .trans ?_ (State.eccCount_keeps ..))

theorem execEccScrub_keeps (dt : Nat) (s : State) : ∃ t, execEccScrub dt s = .next t ∧ Keeps s t := by
  refine ⟨_, rfl, ?_⟩
  refine .trans (State.advance_keeps ..) (State.when_keeps _ _ _ ?_)
  with_reducible
    repeat' (first
      | exact .refl _ | fail_if_no_progress (refine Keeps.upd ?_ rfl rfl rfl rfl rfl rfl rfl))

theorem execEccUncorrectable_keeps (dt : Nat) (area : EccArea) (address : BitVec 32) (s : State) : ∃ t, execEccUncorrectable dt area address s = .next t ∧ Keeps s t := by
  refine ⟨_, rfl, ?_⟩
  refine .trans (State.advance_keeps ..) (State.when_keeps _ _ _ ?_)
  with_reducible
    repeat' (first
      | exact .refl _ | refine .trans ?_ (State.post_keeps ..) | refine .trans ?_ (State.eccEffect_keeps ..)
      | refine .trans ?_ (State.modWarden_keeps ..) | refine .trans ?_ (State.withSome_keeps _ _ _ (fun _ => ?_)))

theorem State.pageLost_keeps (s : State) (page : Nat) : Keeps s (State.pageLost s page) := by
  unfold State.pageLost
  with_reducible
    repeat' (first
      | exact .refl _ | refine .trans ?_ (State.post_keeps ..) | refine .trans ?_ (State.modEngine_keeps ..)
      | refine .trans ?_ (State.propose_keeps ..) | refine .trans ?_ (State.forEach_keeps _ _ _ (fun _ _ => ?_)) | refine Keeps.ite ?_ ?_)

theorem execProgramPageReload_keeps (dt : Nat) (page : Nat) (imageOk : Bool) (s : State) : ∃ t, execProgramPageReload dt page imageOk s = .next t ∧ Keeps s t := by
  refine ⟨_, rfl, ?_⟩
  refine .trans (State.advance_keeps ..) (State.when_keeps _ _ _ ?_)
  with_reducible
    repeat' (first
      | exact .refl _ | fail_if_no_progress (refine Keeps.upd ?_ rfl rfl rfl rfl rfl rfl rfl) | refine .trans ?_ (State.pageLost_keeps ..)
      | refine Keeps.ite ?_ ?_)

theorem State.loadImage_keeps (s : State) (fastReadOk : Bool) : Keeps s (s.loadImage fastReadOk) := by
  unfold State.loadImage
  extract_lets m h fault cause reached retry t
  have ht : Keeps s t := State.when_keeps _ _ _ (State.post_keeps ..)
  clear_value t fault
  split
  · exact ht.trans (State.refuseImage_keeps ..)
  · exact ht.trans (State.acceptImage_keeps ..)

theorem execImageLoadComplete_keeps (dt : Nat) (fastReadOk : Bool) (s : State) : ∃ t, execImageLoadComplete dt fastReadOk s = .next t ∧ Keeps s t := by
  refine ⟨_, rfl, ?_⟩
  refine .trans (State.advance_keeps ..) (State.when_keeps _ _ _ ?_)
  with_reducible
    repeat' (first
      | exact .refl _ | refine .trans ?_ (State.loadImage_keeps ..))

theorem State.replayDone_keeps (s : State) : Keeps s (State.replayDone s) := by
  unfold State.replayDone
  with_reducible
    repeat' (first
      | exact .refl _ | fail_if_no_progress (refine Keeps.upd ?_ rfl rfl rfl rfl rfl rfl rfl) | refine .trans ?_ (State.replayBank_keeps ..)
      | refine .trans ?_ (State.compactionDue_keeps ..) | refine Keeps.ite ?_ ?_ | split)

theorem execJournalReplayComplete_keeps (dt : Nat) (s : State) : ∃ t, execJournalReplayComplete dt s = .next t ∧ Keeps s t := by
  refine ⟨_, rfl, ?_⟩
  refine .trans (State.advance_keeps ..) (State.when_keeps _ _ _ ?_)
  with_reducible
    repeat' (first
      | exact .refl _ | refine .trans ?_ (State.replayDone_keeps ..))

theorem execJournalRead_keeps (dt : Nat) (len : BitVec 12) (s : State) : ∃ t, execJournalRead dt len s = .next t ∧ Keeps s t := by
  refine ⟨_, rfl, ?_⟩
  refine .trans (State.advance_keeps ..) (State.when_keeps _ _ _ ?_)
  with_reducible
    repeat' (first
      | exact .refl _ | refine .trans ?_ (State.journalReadOp_keeps ..) | refine .trans ?_ (State.journalOp_keeps _ _ ?_))

theorem execJournalWrite_keeps (dt : Nat) (len : BitVec 12) (key : BitVec 8) (s : State) : ∃ t, execJournalWrite dt len key s = .next t ∧ Keeps s t := by
  refine ⟨_, rfl, ?_⟩
  refine .trans (State.advance_keeps ..) (State.when_keeps _ _ _ ?_)
  with_reducible
    repeat' (first
      | exact .refl _ | refine .trans ?_ (State.windowSession_keeps ..) | refine .trans ?_ (State.journalOp_keeps _ _ ?_))

theorem execJournalFlashRead_keeps (dt : Nat) (s : State) : ∃ t, execJournalFlashRead dt s = .next t ∧ Keeps s t := by
  refine ⟨_, rfl, ?_⟩
  refine .trans (State.advance_keeps ..) (State.when_keeps _ _ _ ?_)
  with_reducible
    repeat' (first
      | exact .refl _ | refine .trans ?_ (State.flashOp_keeps ..) | refine .trans ?_ (State.journalOp_keeps _ _ ?_))

theorem execJournalProgram_keeps (dt : Nat) (len : BitVec 12) (s : State) : ∃ t, execJournalProgram dt len s = .next t ∧ Keeps s t := by
  refine ⟨_, rfl, ?_⟩
  refine .trans (State.advance_keeps ..) (State.when_keeps _ _ _ ?_)
  with_reducible
    repeat' (first
      | exact .refl _ | refine .trans ?_ (State.flashOp_keeps ..) | refine .trans ?_ (State.journalOp_keeps _ _ ?_))

theorem execJournalErase64k_keeps (dt : Nat) (s : State) : ∃ t, execJournalErase64k dt s = .next t ∧ Keeps s t := by
  refine ⟨_, rfl, ?_⟩
  refine .trans (State.advance_keeps ..) (State.when_keeps _ _ _ ?_)
  with_reducible
    repeat' (first
      | exact .refl _ | refine .trans ?_ (State.flashOp_keeps ..) | refine .trans ?_ (State.journalOp_keeps _ _ ?_))

theorem execKeysBlowAuthReq_keeps (dt : Nat) (confirm : BitVec 16) (s : State) : ∃ t, execKeysBlowAuthReq dt confirm s = .next t ∧ Keeps s t :=
  ⟨_, rfl, Keeps.trans (State.advance_keeps ..) (State.when_keeps _ _ _ (Keys.command_keeps ..))⟩

theorem execKeysBlowStillOff_keeps (dt : Nat) (confirm : BitVec 16) (s : State) : ∃ t, execKeysBlowStillOff dt confirm s = .next t ∧ Keeps s t :=
  ⟨_, rfl, Keeps.trans (State.advance_keeps ..) (State.when_keeps _ _ _ (Keys.command_keeps ..))⟩

theorem execKeysOperationEnd_keeps (dt : Nat) (ok : Bool) (s : State) : ∃ t, execKeysOperationEnd dt ok s = .next t ∧ Keeps s t := by
  refine ⟨_, rfl, ?_⟩
  refine Keeps.trans (State.advance_keeps ..) (State.when_keeps _ _ _ ?_)
  unfold State.withSome
  split
  · exact State.keysEnd_keeps _ _ _ _ _ (by assumption)
  · exact .refl _

theorem State.linkUp_keeps (s : State) (anDone : Bool) : Keeps s (State.linkUp s anDone) := by
  unfold State.linkUp
  with_reducible
    repeat' (first
      | exact .refl _ | fail_if_no_progress (refine Keeps.upd ?_ rfl rfl rfl rfl rfl rfl rfl) | refine .trans ?_ (State.post_keeps ..)
      | refine .trans ?_ (State.sendFrame_keeps ..) | refine Keeps.ite ?_ ?_)

theorem execLinkUp_keeps (dt : Nat) (syncUs : Nat) (anDone : Bool) (s : State) : ∃ t, execLinkUp dt syncUs anDone s = .next t ∧ Keeps s t := by
  refine ⟨_, rfl, ?_⟩
  refine .trans (State.advance_keeps ..) (State.when_keeps _ _ _ ?_)
  with_reducible
    repeat' (first
      | exact .refl _ | refine .trans ?_ (State.linkUp_keeps ..))

theorem State.arpAnswer_keeps (s : State) (sender : Word) (target : Word) (mac : BitVec 48) : Keeps s (State.arpAnswer s sender target mac) := by
  unfold State.arpAnswer
  with_reducible
    repeat' (first
      | exact .refl _ | fail_if_no_progress (refine Keeps.upd ?_ rfl rfl rfl rfl rfl rfl rfl) | refine .trans ?_ (State.sendFrame_keeps ..)
      | refine Keeps.ite ?_ ?_)

theorem execArpRequest_keeps (dt : Nat) (sender : BitVec 32) (target : BitVec 32) (mac : BitVec 48) (s : State) :
    ∃ t, execArpRequest dt sender target mac s = .next t ∧ Keeps s t := by
  refine ⟨_, rfl, ?_⟩
  refine .trans (State.advance_keeps ..) (State.when_keeps _ _ _ ?_)
  with_reducible
    repeat' (first
      | exact .refl _ | refine .trans ?_ (State.arpAnswer_keeps ..))

theorem execArpResolve_keeps (dt : Nat) (s : State) : ∃ t, execArpResolve dt s = .next t ∧ Keeps s t := by
  refine ⟨_, rfl, ?_⟩
  refine .trans (State.advance_keeps ..) (State.when_keeps _ _ _ ?_)
  with_reducible
    repeat' (first
      | exact .refl _ | refine .trans ?_ (State.arpNext_keeps ..))

theorem execArpRefresh_keeps (dt : Nat) (s : State) : ∃ t, execArpRefresh dt s = .next t ∧ Keeps s t := by
  refine ⟨_, rfl, ?_⟩
  refine .trans (State.advance_keeps ..) (State.when_keeps _ _ _ ?_)
  with_reducible
    repeat' (first
      | exact .refl _ | fail_if_no_progress (refine Keeps.upd ?_ rfl rfl rfl rfl rfl rfl rfl) | refine .trans ?_ (State.arpAsk_keeps ..))

theorem execIcmpEcho_keeps (dt : Nat) (sender : BitVec 32) (mac : BitVec 48) (ident : BitVec 16) (seq : BitVec 16) (payload : List Byte) (s : State) :
    ∃ t, execIcmpEcho dt sender mac ident seq payload s = .next t ∧ Keeps s t := by
  refine ⟨_, rfl, ?_⟩
  refine .trans (State.advance_keeps ..) (State.when_keeps _ _ _ ?_)
  with_reducible
    repeat' (first
      | exact .refl _ | refine .trans ?_ (State.sendFrame_keeps ..))

theorem execBye_keeps (dt : Nat) (src : Peer) (s : State) : ∃ t, execBye dt src s = .next t ∧ Keeps s t := by
  refine ⟨_, rfl, ?_⟩
  refine .trans (State.advance_keeps ..) (State.when_keeps _ _ _ ?_)
  with_reducible
    repeat' (first
      | exact .refl _ | refine .trans ?_ (State.endSession_keeps ..) | refine .trans ?_ (State.datagram_keeps _ _ _ (fun _ => ?_)))

theorem State.nak_keeps (s : State) (q : QSession) (entries : List NakEntry) : Keeps s (State.nak s q entries) := by
  unfold State.nak
  with_reducible
    repeat' (first
      | exact .refl _
      | (extract_lets +onlyGivenNames t; refine (fun (ht : Keeps s t) => ?_) ?_; (on_goal 1 => clear_value t); on_goal 2 => (dsimp -zeta only [t]; clear t))
      | (extract_lets +onlyGivenNames t; clear_value t) | fail_if_no_progress (refine Keeps.upd ?_ rfl rfl rfl rfl rfl rfl rfl) | assumption
      | refine .trans ?_ (State.sendAgain_keeps ..) | refine .trans ?_ (State.sendDatagram_keeps ..) | refine Keeps.ite ?_ ?_)

theorem execNak_keeps (dt : Nat) (src : Peer) (entries : List NakEntry) (s : State) : ∃ t, execNak dt src entries s = .next t ∧ Keeps s t := by
  refine ⟨_, rfl, ?_⟩
  refine .trans (State.advance_keeps ..) (State.when_keeps _ _ _ ?_)
  with_reducible
    repeat' (first
      | exact .refl _ | refine .trans ?_ (State.nak_keeps ..) | refine .trans ?_ (State.datagram_keeps _ _ _ (fun _ => ?_))
      | refine .trans ?_ (State.withSome_keeps _ _ _ (fun _ => ?_)))

theorem execRecordsSend_keeps (dt : Nat) (s : State) : ∃ t, execRecordsSend dt s = .next t ∧ Keeps s t := by
  refine ⟨_, rfl, ?_⟩
  refine .trans (State.advance_keeps ..) (State.when_keeps _ _ _ ?_)
  with_reducible
    repeat' (first
      | exact .refl _ | refine .trans ?_ (State.recordsSend_keeps ..) | refine .trans ?_ (State.withSome_keeps _ _ _ (fun _ => ?_)))

theorem execRegWrite_keeps (dt : Nat) (src : Peer) (id : BitVec 32) (pairs : List (Addr × Word)) (s : State) :
    ∃ t, execRegWrite dt src id pairs s = .next t ∧ Keeps s t := by
  refine ⟨_, rfl, ?_⟩
  refine .trans (State.advance_keeps ..) (State.when_keeps _ _ _ ?_)
  with_reducible
    repeat' (first
      | exact .refl _ | refine .trans ?_ (State.qrpWrite_keeps ..) | refine .trans ?_ (State.command_keeps _ _ _ _ _ _ _ (fun _ => ?_)))

theorem State.qrpSync_keeps (s : State) (id : BitVec 32) : Keeps s (State.qrpSync s id) := by
  unfold State.qrpSync
  with_reducible
    repeat' (first
      | exact .refl _ | refine .trans ?_ (State.complete_keeps ..) | refine .trans ?_ (State.syncLater_keeps ..)
      | refine .trans ?_ (State.refuse_keeps ..) | refine Keeps.ite ?_ ?_)

theorem execSyncReset_keeps (dt : Nat) (src : Peer) (id : BitVec 32) (s : State) : ∃ t, execSyncReset dt src id s = .next t ∧ Keeps s t := by
  refine ⟨_, rfl, ?_⟩
  refine .trans (State.advance_keeps ..) (State.when_keeps _ _ _ ?_)
  with_reducible
    repeat' (first
      | exact .refl _ | refine .trans ?_ (State.qrpSync_keeps ..) | refine .trans ?_ (State.command_keeps _ _ _ _ _ _ _ (fun _ => ?_)))

theorem execDoze_keeps (dt : Nat) (src : Peer) (id : BitVec 32) (s : State) : ∃ t, execDoze dt src id s = .next t ∧ Keeps s t := by
  refine ⟨_, rfl, ?_⟩
  refine .trans (State.advance_keeps ..) (State.when_keeps _ _ _ ?_)
  with_reducible
    repeat' (first
      | exact .refl _ | refine .trans ?_ (State.complete_keeps ..) | refine .trans ?_ (State.requestDoze_keeps ..)
      | refine .trans ?_ (State.command_keeps _ _ _ _ _ _ _ (fun _ => ?_)))

theorem State.abortWork_keeps (s : State) (c : Cmd) : Keeps s (s.abortWork c) := by
  unfold State.abortWork
  split
  · split
    · exact State.endPending_keeps ..
    · exact .refl _
  · exact State.abortTx_keeps ..
  · exact State.forEach_keeps _ _ _ (fun _ _ => State.calAbort_keeps ..)
  · exact .refl _

theorem State.qrpAbort_keeps (s : State) (id : BitVec 32) (target : BitVec 32) : Keeps s (State.qrpAbort s id target) := by
  unfold State.qrpAbort
  with_reducible
    repeat' (first
      | exact .refl _ | fail_if_no_progress (refine Keeps.upd ?_ rfl rfl rfl rfl rfl rfl rfl) | refine .trans ?_ (State.respond_keeps ..)
      | refine .trans ?_ (State.abortWork_keeps ..) | refine .trans ?_ (State.when_keeps _ _ _ ?_) | refine Keeps.ite ?_ ?_ | split)

theorem execAbort_keeps (dt : Nat) (src : Peer) (id : BitVec 32) (target : BitVec 32) (s : State) : ∃ t, execAbort dt src id target s = .next t ∧ Keeps s t := by
  refine ⟨_, rfl, ?_⟩
  refine .trans (State.advance_keeps ..) (State.when_keeps _ _ _ ?_)
  with_reducible
    repeat' (first
      | exact .refl _ | refine .trans ?_ (State.qrpAbort_keeps ..) | refine .trans ?_ (State.command_keeps _ _ _ _ _ _ _ (fun _ => ?_)))

theorem execTwRead_keeps (dt : Nat) (address : BitVec 7) (reg : Option Addr) (count : Nat) (lastWhole : Bool) (s : State) :
    ∃ t, execTwRead dt address reg count lastWhole s = .next t ∧ Keeps s t := by
  refine ⟨_, rfl, ?_⟩
  refine .trans (State.advance_keeps ..) (State.when_keeps _ _ _ ?_)
  with_reducible
    repeat' (first
      | exact .refl _ | fail_if_no_progress (refine Keeps.upd ?_ rfl rfl rfl rfl rfl rfl rfl) | refine .trans ?_ (State.onBus_keeps ..)
      | refine .trans ?_ (State.twRegs_keeps ..) | refine .trans ?_ (State.addressed_keeps _ _ _ (fun _ => ?_)))

theorem execTwAraRead_keeps (dt : Nat) (others : Byte) (s : State) : ∃ t, execTwAraRead dt others s = .next t ∧ Keeps s t := by
  refine ⟨_, rfl, ?_⟩
  refine .trans (State.advance_keeps ..) (State.when_keeps _ _ _ ?_)
  with_reducible
    repeat' (first
      | exact .refl _ | fail_if_no_progress (refine Keeps.upd ?_ rfl rfl rfl rfl rfl rfl rfl) | refine .trans ?_ (State.wakeFab_keeps ..)
      | refine Keeps.ite ?_ ?_)

theorem execVersionHandshake_keeps (dt : Nat) (hostMax : BitVec 8) (s : State) : ∃ t, execVersionHandshake dt hostMax s = .next t ∧ Keeps s t := by
  refine ⟨_, rfl, ?_⟩
  refine .trans (State.advance_keeps ..) (State.when_keeps _ _ _ ?_)
  with_reducible
    repeat' (first
      | exact .refl _ | refine .trans ?_ (State.writeWhole_keeps ..))

theorem execTwCmdReset_keeps (dt : Nat) (confirm : BitVec 16) (s : State) : ∃ t, execTwCmdReset dt confirm s = .next t ∧ Keeps s t := by
  refine ⟨_, rfl, ?_⟩
  refine .trans (State.advance_keeps ..) (State.when_keeps _ _ _ ?_)
  with_reducible
    repeat' (first
      | exact .refl _ | refine .trans ?_ (State.twCommand_keeps ..))

theorem execTwCmdFreeze_keeps (dt : Nat) (confirm : BitVec 16) (s : State) : ∃ t, execTwCmdFreeze dt confirm s = .next t ∧ Keeps s t := by
  refine ⟨_, rfl, ?_⟩
  refine .trans (State.advance_keeps ..) (State.when_keeps _ _ _ ?_)
  with_reducible
    repeat' (first
      | exact .refl _ | refine .trans ?_ (State.twCommand_keeps ..))

theorem State.stillAsserted_keeps (s : State) (ns : Nat) : Keeps s (State.stillAsserted s ns) := by
  unfold State.stillAsserted
  with_reducible
    repeat' (first
      | exact .refl _ | fail_if_no_progress (refine Keeps.upd ?_ rfl rfl rfl rfl rfl rfl rfl) | refine .trans ?_ (State.freeze_keeps ..)
      | refine Keeps.ite ?_ ?_)

theorem execStillNFreeze_keeps (dt : Nat) (ns : Nat) (s : State) : ∃ t, execStillNFreeze dt ns s = .next t ∧ Keeps s t := by
  refine ⟨_, rfl, ?_⟩
  refine .trans (State.advance_keeps ..) (State.when_keeps _ _ _ ?_)
  with_reducible
    repeat' (first
      | exact .refl _ | refine .trans ?_ (State.stillAsserted_keeps ..))

theorem execStillSelWrite_keeps (dt : Nat) (value : Word) (s : State) : ∃ t, execStillSelWrite dt value s = .next t ∧ Keeps s t := by
  refine ⟨_, rfl, ?_⟩
  refine .trans (State.advance_keeps ..) (State.when_keeps _ _ _ ?_)
  with_reducible
    repeat' (first
      | exact .refl _ | refine .trans ?_ (State.writeStillSel_keeps ..))

theorem State.toVbat_keeps (s : State) : Keeps s (State.toVbat s) := by
  unfold State.toVbat
  with_reducible
    repeat' (first
      | exact .refl _ | fail_if_no_progress (refine Keeps.upd ?_ rfl rfl rfl rfl rfl rfl rfl))

theorem execRtcSwitchToVbat_keeps (dt : Nat) (a18 : Nat) (vbat : Nat) (s : State) : ∃ t, execRtcSwitchToVbat dt a18 vbat s = .next t ∧ Keeps s t := by
  refine ⟨_, rfl, ?_⟩
  refine .trans (State.advance_keeps ..) (State.when_keeps _ _ _ ?_)
  with_reducible
    repeat' (first
      | exact .refl _ | refine .trans ?_ (State.toVbat_keeps ..))

theorem State.domainOutage_keeps (s : State) (oscillator : Bool) (us : Nat) : Keeps s (State.domainOutage s oscillator us) := by
  unfold State.domainOutage
  with_reducible
    repeat' (first
      | exact .refl _ | fail_if_no_progress (refine Keeps.upd ?_ rfl rfl rfl rfl rfl rfl rfl) | refine .trans ?_ (State.domainRestart_keeps ..)
      | refine Keeps.ite ?_ ?_)

theorem execRtcDomainLost_keeps (dt : Nat) (oscillator : Bool) (outageUs : Nat) (s : State) : ∃ t, execRtcDomainLost dt oscillator outageUs s = .next t ∧ Keeps s t := by
  refine ⟨_, rfl, ?_⟩
  refine .trans (State.advance_keeps ..) (State.when_keeps _ _ _ ?_)
  with_reducible
    repeat' (first
      | exact .refl _ | refine .trans ?_ (State.domainOutage_keeps ..))

theorem execVbatMeasure_keeps (dt : Nat) (millivolts : Nat) (s : State) : ∃ t, execVbatMeasure dt millivolts s = .next t ∧ Keeps s t := by
  refine ⟨_, rfl, ?_⟩
  refine .trans (State.advance_keeps ..) (State.when_keeps _ _ _ ?_)
  with_reducible
    repeat' (first
      | exact .refl _ | fail_if_no_progress (refine Keeps.upd ?_ rfl rfl rfl rfl rfl rfl rfl))

theorem State.crystalTick_keeps (s : State) : Keeps s (State.crystalTick s) := by
  unfold State.crystalTick
  with_reducible
    repeat' (first
      | exact .refl _ | refine .trans ?_ (State.sourceEvent_keeps ..) | refine Keeps.ite ?_ ?_)

theorem State.civilChanges_keeps (s : State) (before : Nat) : Keeps s (State.civilChanges s before) := by
  unfold State.civilChanges
  with_reducible
    repeat' (first
      | exact .refl _ | fail_if_no_progress (refine Keeps.upd ?_ rfl rfl rfl rfl rfl rfl rfl) | refine .trans ?_ (State.timeReport_keeps ..)
      | refine Keeps.ite ?_ ?_)

theorem State.calendarWrap_keeps (s : State) : Keeps s (State.calendarWrap s) := by
  unfold State.calendarWrap
  with_reducible
    repeat' (first
      | exact .refl _ | fail_if_no_progress (refine Keeps.upd ?_ rfl rfl rfl rfl rfl rfl rfl) | refine .trans ?_ (State.timeReport_keeps ..)
      | refine Keeps.ite ?_ ?_)

theorem State.secondBoundary_keeps (s : State) : Keeps s s.secondBoundary := by
  have ht : Keeps s { s with rtc := { s.rtc with seconds := (s.rtc.seconds + 1) % 2 ^ 40, fracPs := 0 } } :=
    .second rfl rfl rfl rfl rfl secPs_pos rfl
  exact (((ht.trans (State.calendarWrap_keeps _)).trans (State.boundarySteps_keeps _)).trans (State.civilChanges_keeps ..)).trans
    (State.crystalTick_keeps _)

theorem execRtcSecondBoundary_keeps (dt : Nat) (s : State) : ∃ t, execRtcSecondBoundary dt s = .next t ∧ Keeps s t := by
  refine ⟨_, rfl, ?_⟩
  refine .trans (State.advance_keeps ..) (State.when_keeps _ _ _ ?_)
  with_reducible
    repeat' (first
      | exact .refl _ | refine .trans ?_ (State.secondBoundary_keeps ..))

theorem execRtcCommit_keeps (dt : Nat) (s : State) : ∃ t, execRtcCommit dt s = .next t ∧ Keeps s t := by
  refine ⟨_, rfl, ?_⟩
  refine .trans (State.advance_keeps ..) (State.when_keeps _ _ _ ?_)
  with_reducible
    repeat' (first
      | exact .refl _ | refine .trans ?_ (State.rtcCommit_keeps ..))

theorem execRtcCancel_keeps (dt : Nat) (s : State) : ∃ t, execRtcCancel dt s = .next t ∧ Keeps s t := by
  refine ⟨_, rfl, ?_⟩
  refine .trans (State.advance_keeps ..) (State.when_keeps _ _ _ ?_)
  with_reducible
    repeat' (first
      | exact .refl _ | refine .trans ?_ (State.rtcCancel_keeps ..))

theorem execRtcStepDown_keeps (dt : Nat) (s : State) : ∃ t, execRtcStepDown dt s = .next t ∧ Keeps s t := by
  refine ⟨_, rfl, ?_⟩
  refine .trans (State.advance_keeps ..) (State.when_keeps _ _ _ ?_)
  with_reducible
    repeat' (first
      | exact .refl _ | refine .trans ?_ (State.civilStep_keeps ..))

theorem execRtcTrimWrite_keeps (dt : Nat) (value : BitVec 16) (s : State) : ∃ t, execRtcTrimWrite dt value s = .next t ∧ Keeps s t := by
  refine ⟨_, rfl, ?_⟩
  refine .trans (State.advance_keeps ..) (State.when_keeps _ _ _ ?_)
  with_reducible
    repeat' (first
      | exact .refl _ | refine .trans ?_ (State.writeTrim_keeps ..))

theorem State.windowEnd_keeps (s : State) (deltaS : Nat) (deltaR : Nat) (events : Nat) : Keeps s (State.windowEnd s deltaS deltaR events) := by
  unfold State.windowEnd
  with_reducible
    repeat' (first
      | exact .refl _ | fail_if_no_progress (refine Keeps.upd ?_ rfl rfl rfl rfl rfl rfl rfl) | refine .trans ?_ (State.discardWindow_keeps ..)
      | refine .trans ?_ (State.newWindow_keeps ..) | refine .trans ?_ (State.timeReport_keeps ..) | refine .trans ?_ (State.journalRequest_keeps ..)
      | refine Keeps.ite ?_ ?_)

theorem execRtcTrimWindowEnd_keeps (dt : Nat) (deltaS : Nat) (deltaR : Nat) (events : Nat) (s : State) :
    ∃ t, execRtcTrimWindowEnd dt deltaS deltaR events s = .next t ∧ Keeps s t := by
  refine ⟨_, rfl, ?_⟩
  refine .trans (State.advance_keeps ..) (State.when_keeps _ _ _ ?_)
  with_reducible
    repeat' (first
      | exact .refl _ | refine .trans ?_ (State.windowEnd_keeps ..))

theorem State.supplyPost_keeps (s : State) (k : Fin 6) : Keeps s (State.supplyPost s k) := by
  unfold State.supplyPost
  with_reducible
    repeat' (first
      | exact .refl _ | fail_if_no_progress (refine Keeps.upd ?_ rfl rfl rfl rfl rfl rfl rfl) | refine .trans ?_ (State.post_keeps ..))

theorem execSupplyOutOfRange_keeps (dt : Nat) (k : Fin 6) (mv : Nat) (ioc : Nat) (us : Nat) (s : State) :
    ∃ t, execSupplyOutOfRange dt k mv ioc us s = .next t ∧ Keeps s t := by
  refine ⟨_, rfl, ?_⟩
  refine .trans (State.advance_keeps ..) (State.when_keeps _ _ _ ?_)
  with_reducible
    repeat' (first
      | exact .refl _ | fail_if_no_progress (refine Keeps.upd ?_ rfl rfl rfl rfl rfl rfl rfl) | refine .trans ?_ (State.supplyPost_keeps ..))

theorem execSupplyMonitorRepeat_keeps (dt : Nat) (k : Fin 6) (s : State) : ∃ t, execSupplyMonitorRepeat dt k s = .next t ∧ Keeps s t := by
  refine ⟨_, rfl, ?_⟩
  refine .trans (State.advance_keeps ..) (State.when_keeps _ _ _ ?_)
  with_reducible
    repeat' (first
      | exact .refl _ | refine .trans ?_ (State.supplyPost_keeps ..))

theorem execArpReply_keeps (dt : Nat) (sender : BitVec 32) (mac : BitVec 48) (s : State) : ∃ t, execArpReply dt sender mac s = .next t ∧ Keeps s t := by
  refine ⟨_, rfl, ?_⟩
  refine .trans (State.advance_keeps ..) (State.when_keeps _ _ _ ?_)
  with_reducible
    repeat' (first
      | exact .refl _ | refine .trans ?_ (State.arpResolved_keeps ..))

theorem State.discardDatagram_keeps (s : State) : Keeps s (State.discardDatagram s) := by
  unfold State.discardDatagram
  with_reducible
    repeat' (first
      | exact .refl _ | fail_if_no_progress (refine Keeps.upd ?_ rfl rfl rfl rfl rfl rfl rfl))

theorem State.receive_keeps (s : State) (frame : List Byte) : Keeps s (State.receive s frame) := by
  unfold State.receive
  with_reducible
    repeat' (first
      | exact .refl _ | refine .trans ?_ (State.discardDatagram_keeps ..) | refine .trans ?_ (State.badCommand_keeps ..) | split)

theorem execDatagramDiscarded_keeps (dt : Nat) (frame : List Byte) (s : State) : ∃ t, execDatagramDiscarded dt frame s = .next t ∧ Keeps s t := by
  refine ⟨_, rfl, ?_⟩
  refine .trans (State.advance_keeps ..) (State.when_keeps _ _ _ ?_)
  with_reducible
    repeat' (first
      | exact .refl _ | refine .trans ?_ (State.receive_keeps ..))

theorem execSampleClamped_keeps (dt : Nat) (r : Fin 4) (s : State) : ∃ t, execSampleClamped dt r s = .next t ∧ Keeps s t := by
  refine ⟨_, rfl, ?_⟩
  refine .trans (State.advance_keeps ..) (State.when_keeps _ _ _ ?_)
  with_reducible
    repeat' (first
      | exact .refl _ | refine .trans ?_ (State.countClamps_keeps ..))

theorem execAfLearnedJournal_keeps (dt : Nat) (c : Fin 256) (s : State) : ∃ t, execAfLearnedJournal dt c s = .next t ∧ Keeps s t := by
  refine ⟨_, rfl, ?_⟩
  refine .trans (State.advance_keeps ..) (State.when_keeps _ _ _ ?_)
  with_reducible
    repeat' (first
      | exact .refl _ | refine .trans ?_ (State.journalLearned_keeps ..))

theorem State.idle_keeps (s : State) : Keeps s (State.idle s) := by
  unfold State.idle
  with_reducible
    repeat' (first
      | exact .refl _ | refine .trans ?_ (State.advance_keeps ..))

theorem exec_keeps (c : Instr) (s : State) : ∃ t, exec c s = .next t ∧ Keeps s t := by
  cases c
  case registerWrite => exact execRegisterWrite_keeps ..
  case reachOvrRead => exact execReachOvrRead_keeps ..
  case reachChainRead => exact execReachChainRead_keeps ..
  case engineRead => exact execEngineRead_keeps ..
  case hostportCountsRead => exact execHostportCountsRead_keeps ..
  case twStatusRead => exact execTwStatusRead_keeps ..
  case healthLostRead => exact execHealthLostRead_keeps ..
  case ctxStatusRead => exact execCtxStatusRead_keeps ..
  case healthStatusRead => exact execHealthStatusRead_keeps ..
  case healthNext => exact execHealthNext_keeps ..
  case healthFlush => exact execHealthFlush_keeps ..
  case rtcSecondsRead => exact execRtcSecondsRead_keeps ..
  case mailboxConsume => exact execMailboxConsume_keeps ..
  case frameBoundary => exact execFrameBoundary_keeps ..
  case crossFadeEnd => exact execCrossFadeEnd_keeps ..
  case journalSessionGrant => exact execJournalSessionGrant_keeps ..
  case journalAppend => exact execJournalAppend_keeps ..
  case journalCompaction => exact execJournalCompaction_keeps ..
  case dozeEnter => exact execDozeEnter_keeps ..
  case dozeExit => exact execDozeExit_keeps ..
  case dozeWindowStart => exact execDozeWindowStart_keeps ..
  case dozeWindowEnd => exact execDozeWindowEnd_keeps ..
  case dozeEntry => exact execDozeEntry_keeps ..
  case dozeExitSequence => exact execDozeExitSequence_keeps ..
  case dozeTwWake => exact execDozeTwWake_keeps ..
  case dozeFabIdleStop => exact execDozeFabIdleStop_keeps ..
  case reset => exact execReset_keeps ..
  case powerOnReset => exact execPowerOnReset_keeps ..
  case powerOnResetRelease => exact execPowerOnResetRelease_keeps ..
  case refClassify => exact execRefClassify_keeps ..
  case confluencePllLock => exact execConfluencePllLock_keeps ..
  case reachPllLock => exact execReachPllLock_keeps ..
  case adcSettled => exact execAdcSettled_keeps ..
  case initialFallowPassEnd => exact execInitialFallowPassEnd_keeps ..
  case reachReady => exact execReachReady_keeps ..
  case bringupTimeout => exact execBringupTimeout_keeps ..
  case refLost => exact execRefLost_keeps ..
  case holdoverExit => exact execHoldoverExit_keeps ..
  case refRevert => exact execRefRevert_keeps ..
  case refRecovered => exact execRefRecovered_keeps ..
  case agcWindowEnd => exact execAgcWindowEnd_keeps ..
  case agcClipReduction => exact execAgcClipReduction_keeps ..
  case agcDeferredIncrease => exact execAgcDeferredIncrease_keeps ..
  case reachAgcWrite => exact execReachAgcWrite_keeps ..
  case reachAttnWrite => exact execReachAttnWrite_keeps ..
  case fallowBoundary => exact execFallowBoundary_keeps ..
  case fallowTrimCommit => exact execFallowTrimCommit_keeps ..
  case spateFlagRaise => exact execSpateFlagRaise_keeps ..
  case spateFlagClear => exact execSpateFlagClear_keeps ..
  case blankInAssert => exact execBlankInAssert_keeps ..
  case blankInRelease => exact execBlankInRelease_keeps ..
  case blankingIntervalEnd => exact execBlankingIntervalEnd_keeps ..
  case overrangeSample => exact execOverrangeSample_keeps ..
  case reachTribWrite => exact execReachTribWrite_keeps ..
  case syncNAssert => exact execSyncNAssert_keeps ..
  case syncGo => exact execSyncGo_keeps ..
  case syncResetApply => exact execSyncResetApply_keeps ..
  case firstValidSample => exact execFirstValidSample_keeps ..
  case ctxLoad => exact execCtxLoad_keeps ..
  case ctxCommitWindow => exact execCtxCommitWindow_keeps ..
  case engineRound => exact execEngineRound_keeps ..
  case engineWatchdog => exact execEngineWatchdog_keeps ..
  case contextAgcWindow => exact execContextAgcWindow_keeps ..
  case fmCarrierLock => exact execFmCarrierLock_keeps ..
  case fmCarrierLockLost => exact execFmCarrierLockLost_keeps ..
  case fmPilotDecision => exact execFmPilotDecision_keeps ..
  case fmStereoToMono => exact execFmStereoToMono_keeps ..
  case fmMonoToStereo => exact execFmMonoToStereo_keeps ..
  case rdsBlock => exact execRdsBlock_keeps ..
  case rdsGroupComplete => exact execRdsGroupComplete_keeps ..
  case pcmRecord => exact execPcmRecord_keeps ..
  case amLockGained => exact execAmLockGained_keeps ..
  case amLockLost => exact execAmLockLost_keeps ..
  case amDetectorSwitch => exact execAmDetectorSwitch_keeps ..
  case dabFrameSync => exact execDabFrameSync_keeps ..
  case dabFrameSyncLost => exact execDabFrameSyncLost_keeps ..
  case dabFicDecode => exact execDabFicDecode_keeps ..
  case dabLogicalFrame => exact execDabLogicalFrame_keeps ..
  case dabSuperframe => exact execDabSuperframe_keeps ..
  case dabReconfiguration => exact execDabReconfiguration_keeps ..
  case eabLock => exact execEabLock_keeps ..
  case eabLockLost => exact execEabLockLost_keeps ..
  case eabPreambleDetect => exact execEabPreambleDetect_keeps ..
  case eabPreambleEnd => exact execEabPreambleEnd_keeps ..
  case eabFalsePreamble => exact execEabFalsePreamble_keeps ..
  case eabSyncFound => exact execEabSyncFound_keeps ..
  case eabNoSync => exact execEabNoSync_keeps ..
  case eabHeaderDecoded => exact execEabHeaderDecoded_keeps ..
  case eabCodewordDecoded => exact execEabCodewordDecoded_keeps ..
  case eabBurstEnd => exact execEabBurstEnd_keeps ..
  case eabRecordHandover => exact execEabRecordHandover_keeps ..
  case eabShadowDetect => exact execEabShadowDetect_keeps ..
  case eabShadowDrop => exact execEabShadowDrop_keeps ..
  case eabLevelRise => exact execEabLevelRise_keeps ..
  case eabNfBlock => exact execEabNfBlock_keeps ..
  case eabNfReport => exact execEabNfReport_keeps ..
  case eabReplayJournal => exact execEabReplayJournal_keeps ..
  case scoutCheckStart => exact execScoutCheckStart_keeps ..
  case scoutCheckEnd => exact execScoutCheckEnd_keeps ..
  case afSwitchDecision => exact execAfSwitchDecision_keeps ..
  case landingStart => exact execLandingStart_keeps ..
  case landingReady => exact execLandingReady_keeps ..
  case landingFailed => exact execLandingFailed_keeps ..
  case afSwitch => exact execAfSwitch_keeps ..
  case runOutEnd => exact execRunOutEnd_keeps ..
  case twinCombineTimeout => exact execTwinCombineTimeout_keeps ..
  case twinSelectionChange => exact execTwinSelectionChange_keeps ..
  case transmit => exact execTransmit_keeps ..
  case outfallToneStart => exact execOutfallToneStart_keeps ..
  case outfallAbort => exact execOutfallAbort_keeps ..
  case outfallRetuneStart => exact execOutfallRetuneStart_keeps ..
  case outfallRetuneLocked => exact execOutfallRetuneLocked_keeps ..
  case outfallLockTimeout => exact execOutfallLockTimeout_keeps ..
  case outfallBlankOutAssert => exact execOutfallBlankOutAssert_keeps ..
  case cxGntAssert => exact execCxGntAssert_keeps ..
  case cxDenied => exact execCxDenied_keeps ..
  case cxGntRelease => exact execCxGntRelease_keeps ..
  case outfallRampStart => exact execOutfallRampStart_keeps ..
  case outfallLevelLoopEnd => exact execOutfallLevelLoopEnd_keeps ..
  case outfallRampDownStart => exact execOutfallRampDownStart_keeps ..
  case outfallRampEnd => exact execOutfallRampEnd_keeps ..
  case outfallBlankOutRelease => exact execOutfallBlankOutRelease_keeps ..
  case outfallLateDrop => exact execOutfallLateDrop_keeps ..
  case relayIntake => exact execRelayIntake_keeps ..
  case relayLbtCheck => exact execRelayLbtCheck_keeps ..
  case relayConfirmed => exact execRelayConfirmed_keeps ..
  case relayNotConfirmed => exact execRelayNotConfirmed_keeps ..
  case tempSensorRead => exact execTempSensorRead_keeps ..
  case calRecalibration => exact execCalRecalibration_keeps ..
  case calAbsolute => exact execCalAbsolute_keeps ..
  case calSelftest => exact execCalSelftest_keeps ..
  case calApplySet => exact execCalApplySet_keeps ..
  case calRollback => exact execCalRollback_keeps ..
  case calLoad => exact execCalLoad_keeps ..
  case calAbort => exact execCalAbort_keeps ..
  case selftestDue => exact execSelftestDue_keeps ..
  case maintenanceAdmit => exact execMaintenanceAdmit_keeps ..
  case fegrComplete => exact execFegrComplete_keeps ..
  case calAbsBlock => exact execCalAbsBlock_keeps ..
  case calPointComplete => exact execCalPointComplete_keeps ..
  case calPointTimeout => exact execCalPointTimeout_keeps ..
  case calSlotTaken => exact execCalSlotTaken_keeps ..
  case calCommitPoint => exact execCalCommitPoint_keeps ..
  case selftestComplete => exact execSelftestComplete_keeps ..
  case proposalRaise => exact execProposalRaise_keeps ..
  case wardenVote => exact execWardenVote_keeps ..
  case proposalLapse => exact execProposalLapse_keeps ..
  case engineRestartComplete => exact execEngineRestartComplete_keeps ..
  case wardenRestartComplete => exact execWardenRestartComplete_keeps ..
  case wardenHeartbeatTimeout => exact execWardenHeartbeatTimeout_keeps ..
  case wardenMiscompare => exact execWardenMiscompare_keeps ..
  case subadcFaultDetect => exact execSubadcFaultDetect_keeps ..
  case tmrMismatch => exact execTmrMismatch_keeps ..
  case tmrRepair => exact execTmrRepair_keeps ..
  case eccCorrected => exact execEccCorrected_keeps ..
  case eccScrub => exact execEccScrub_keeps ..
  case eccUncorrectable => exact execEccUncorrectable_keeps ..
  case programPageReload => exact execProgramPageReload_keeps ..
  case recordRelease => exact execRecordRelease_keeps ..
  case imageLoadComplete => exact execImageLoadComplete_keeps ..
  case journalReplayComplete => exact execJournalReplayComplete_keeps ..
  case journalRead => exact execJournalRead_keeps ..
  case journalWrite => exact execJournalWrite_keeps ..
  case journalFlashRead => exact execJournalFlashRead_keeps ..
  case journalProgram => exact execJournalProgram_keeps ..
  case journalErase4k => exact execJournalErase4k_keeps ..
  case journalErase64k => exact execJournalErase64k_keeps ..
  case journalCompact => exact execJournalCompact_keeps ..
  case keysDataWrite => exact execKeysDataWrite_keeps ..
  case keysDataClear => exact execKeysDataClear_keeps ..
  case keysProgramKey => exact execKeysProgramKey_keeps ..
  case keysBlowAuthReq => exact execKeysBlowAuthReq_keeps ..
  case keysBlowStillOff => exact execKeysBlowStillOff_keeps ..
  case keysOperationEnd => exact execKeysOperationEnd_keeps ..
  case linkUp => exact execLinkUp_keeps ..
  case linkDown => exact execLinkDown_keeps ..
  case hostportLinkWrite => exact execHostportLinkWrite_keeps ..
  case hostportAddressWrite => exact execHostportAddressWrite_keeps ..
  case arpRequest => exact execArpRequest_keeps ..
  case arpResolve => exact execArpResolve_keeps ..
  case arpRefresh => exact execArpRefresh_keeps ..
  case icmpEcho => exact execIcmpEcho_keeps ..
  case hello => exact execHello_keeps ..
  case bye => exact execBye_keeps ..
  case sessionTimeout => exact execSessionTimeout_keeps ..
  case nak => exact execNak_keeps ..
  case recordsSend => exact execRecordsSend_keeps ..
  case recordsKeepalive => exact execRecordsKeepalive_keeps ..
  case regRead => exact execRegRead_keeps ..
  case regWrite => exact execRegWrite_keeps ..
  case ctxRead => exact execCtxRead_keeps ..
  case ctxCommit => exact execCtxCommit_keeps ..
  case qrpCal => exact execQrpCal_keeps ..
  case syncReset => exact execSyncReset_keeps ..
  case doze => exact execDoze_keeps ..
  case abort => exact execAbort_keeps ..
  case status => exact execStatus_keeps ..
  case twWrite => exact execTwWrite_keeps ..
  case twRead => exact execTwRead_keeps ..
  case twSdaRelease => exact execTwSdaRelease_keeps ..
  case twAraRead => exact execTwAraRead_keeps ..
  case versionHandshake => exact execVersionHandshake_keeps ..
  case twCmdReset => exact execTwCmdReset_keeps ..
  case twCmdFreeze => exact execTwCmdFreeze_keeps ..
  case stillNFreeze => exact execStillNFreeze_keeps ..
  case stillSelWrite => exact execStillSelWrite_keeps ..
  case rtcSwitchToVbat => exact execRtcSwitchToVbat_keeps ..
  case rtcReturnToMain => exact execRtcReturnToMain_keeps ..
  case rtcDomainLost => exact execRtcDomainLost_keeps ..
  case vbatMeasure => exact execVbatMeasure_keeps ..
  case rtcSecondBoundary => exact execRtcSecondBoundary_keeps ..
  case rtcCommit => exact execRtcCommit_keeps ..
  case rtcCancel => exact execRtcCancel_keeps ..
  case rtcStepUp => exact execRtcStepUp_keeps ..
  case rtcStepDown => exact execRtcStepDown_keeps ..
  case rtcOffsetWrite => exact execRtcOffsetWrite_keeps ..
  case rtcTrimWrite => exact execRtcTrimWrite_keeps ..
  case rtcTrimWindowEnd => exact execRtcTrimWindowEnd_keeps ..
  case supplyOutOfRange => exact execSupplyOutOfRange_keeps ..
  case supplyMonitorRepeat => exact execSupplyMonitorRepeat_keeps ..
  case resetNRelease => exact execResetNRelease_keeps ..
  case arpReply => exact execArpReply_keeps ..
  case datagramDiscarded => exact execDatagramDiscarded_keeps ..
  case mainsInEdge => exact execMainsInEdge_keeps ..
  case supplyBackInRange => exact execSupplyBackInRange_keeps ..
  case refclkRestored => exact execRefclkRestored_keeps ..
  case sampleClamped => exact execSampleClamped_keeps ..
  case afLearnedJournal => exact execAfLearnedJournal_keeps ..

end Sys2Proof.Machine
end

