-- ==== Sys2Proof/Machine/Responses.lean ====
section
/-! DEFINITION. What the manual requires of the coefficients that it does not name (R128, R130, R140, R142, R144, R148, Table 4.4): the
amplitude of each filter over frequency. They are properties of the free values of log entry 49; a claim about levels takes
`RomHolds` as its premise. -/

namespace Sys2Proof.Machine

/-- `g` is within `r` dB of 1, for r = 1 / `n`: 20 n log₁₀ |g| lies within ±1. -/
def withinDb (n : Nat) (g : ℝ) : Prop := |g| ^ (20 * n) ≤ 10 ∧ 1 ≤ 10 * |g| ^ (20 * n)

/-- `g` is at least `db` dB below 1. -/
def belowDb (db : Nat) (g : ℝ) : Prop := |g| ^ 20 * 10 ^ db ≤ 1

/-- The amplitude of a filter of `n` coefficients of 17 fractional bits, symmetric about their middle, at a frequency of `w` radians for
each sample. -/
def Amplitude (tap : Nat → Int) (n : Nat) (w g : ℝ) : Prop :=
  g * 2 ^ 17 = ∑ i ∈ Finset.range n, (tap i : ℝ) * Real.cos (w * (i - (n - 1 : ℝ) / 2))

/-- The amplitude of the CIC with its gain correction (Table 4.2): five sums of `c` samples. -/
def CicAmplitude (c : Nat) (w g : ℝ) : Prop :=
  g * 2 ^ (cicShift c + 17) = (cicGain c : ℝ) * (∑ i ∈ Finset.range c, Real.cos (w * (i - (c - 1 : ℝ) / 2))) ^ 5

/-- Radians for each sample of `f` Hz at a rate of num/den samples a second. -/
def Radians (f : ℝ) (num den : Nat) (w : ℝ) : Prop := w * num = 2 * Real.pi * f * den

/-- The amplitude of a tributary from a reach-referred component at `f` Hz off the tributary's centre to its output: the product of the
stages of Table 4.1, each at half the rate of the one before. -/
def TribAmplitude (div : Nat) (f g : ℝ) : Prop :=
  ∃ gs : List ℝ, gs.length = (tribStages div).length ∧ g = gs.prod ∧
    ∀ k, ∀ h : k < gs.length, ∃ w, Radians f 3125000000 (2 ^ k) w ∧
      Amplitude (halfBand (fun i => (Config.tribTap div k i).toInt) ((tribStages div).getD k 0)) ((tribStages div).getD k 0) w gs[k]

/-- R128 and R130: within ±0.01 dB over the usable bandwidth, 0.8 of the output rate, and 90 dB on everything that folds into it. -/
def tribHolds : Prop :=
  ∀ div : Nat, div ∈ [16, 32, 64] → ∀ f : ℝ, |f| ≤ 0.4 * (3125000000 / div) →
    (∀ g, TribAmplitude div f g → withinDb 100 g) ∧
    (∀ m : ℤ, m ≠ 0 → |f + m * (3125000000 / div : ℝ)| ≤ 1562500000 →
      ∀ g, TribAmplitude div (f + m * (3125000000 / div : ℝ)) g → belowDb 90 g)

/-- The amplitude from the tributary output to the FIR output at `f` Hz off the context's centre: CIC, half-bands and channel FIR. -/
def ChannelAmplitude (id : Nat) (r : Response) (div : Nat) (f g : ℝ) : Prop :=
  ∃ w a b c, Radians f 3125000000 div w ∧ CicAmplitude (cEff r div) w a ∧
    (∃ gs : List ℝ, gs.length = (ctxHalves r.h).length ∧ b = gs.prod ∧ ∀ k, ∀ h : k < gs.length,
      Amplitude (halfBand (fun i => (Config.halfTap ((ctxHalves r.h).getD k 0) i).toInt) ((ctxHalves r.h).getD k 0))
        ((ctxHalves r.h).getD k 0) (w * cEff r div * 2 ^ k) gs[k]) ∧
    Amplitude (fun i => (Config.firTap id (fromCentre r.taps i)).toInt) r.taps (w * cEff r div * 2 ^ r.h) c ∧ g = a * b * c

/-- R142 and R140: a named response within ±0.05 dB up to its pass edge, CIC droop included, and 90 dB from its stop edge to f_ch × d / 2. -/
def namedHolds : Prop :=
  ∀ id r, responseOf id = some r → id < 32 → ∀ div ∈ r.divs, ∀ f g : ℝ, ChannelAmplitude id r div f g →
    (|f| ≤ r.pass → withinDb 20 g) ∧ ((r.stop : ℝ) ≤ |f| → |f| * (2 * r.c * 2 ^ r.h) ≤ 48828125 → belowDb 90 g)

/-- Table 4.4: an I/Q response within ±0.02 dB up to ±0.2 f_ch. -/
def iqHolds : Prop :=
  ∀ id r, responseOf id = some r → 32 ≤ id → ∀ div ∈ r.divs, ∀ f g : ℝ, ChannelAmplitude id r div f g →
    |f| * (5 * r.fch.2) ≤ r.fch.1 → withinDb 50 g

/-- Stopband of a preset in dB (Table 4.5). -/
def presetDb : Nat → Nat
  | 0 => 60
  | 1 => 80
  | _ => 100

/-- R144: the rate stage within ±0.01 dB to 0.4 f_out, and the preset's stopband from 0.6 f_out, with f_ch = 2 f_out. -/
def rateHolds : Prop :=
  ∀ p, p < 3 → ∀ w g : ℝ, Amplitude (halfBand (fun i => (Config.rateTap p i).toInt) (rateTaps p)) (rateTaps p) w g →
    (|w| ≤ 0.4 * Real.pi → withinDb 100 g) ∧ (0.6 * Real.pi ≤ |w| → |w| ≤ Real.pi → belowDb (presetDb p) g)

/-- R148: the resampler's prototype, at 1,024 times f_ch, within ±0.01 dB to ±0.30 f_ch, and the preset's stopband on every image of
that band. -/
def resampHolds : Prop :=
  ∀ p, p < 3 → ∀ w : ℝ, |w| ≤ 0.6 * Real.pi / 1024 →
    (∀ g, Amplitude (protoAt p) (phaseTaps p * 1024 + 1) w (1024 * g) → withinDb 100 g) ∧
    (∀ m : ℤ, m ≠ 0 → |m| ≤ 512 → ∀ g, Amplitude (protoAt p) (phaseTaps p * 1024 + 1) (w + m * (2 * Real.pi / 1024)) (1024 * g) → belowDb (presetDb p) g)

/-- R218, R219, R227: the rate converter of an audio path has unit gain, at every position between two samples, and no component from the
band limit on passes with more than half its power. -/
def audioHolds : Prop :=
  ∀ e : Entry, (e.std = stdFm ∨ e.std = stdAm) → e.pcmMode ≤ 6 →
    let r := e.pcmRatio
    let tap := Config.audioTap e.audioLimit r.1 r.2
    (∀ p < r.1, (∑ k ∈ Finset.range Config.audioLength, tap (p + r.1 * k)) = 2 ^ 17) ∧
    (∀ w g : ℝ, 2 * Real.pi * e.audioLimit ≤ w * pcmRate e.pcmMode * r.2 → w ≤ Real.pi →
      Amplitude tap (r.1 * Config.audioLength) w (r.1 * g) → belowDb 3 g)

/-- A first-order section of coefficient `a` passes at least half the power at `w` radians for each sample. -/
def HalfPasses (a w : ℝ) : Prop := 1 - 2 * (1 - a) * Real.cos w + (1 - a) ^ 2 ≤ 2 * a ^ 2

/-- R220: the corner of the de-emphasis, where half the power passes, lies at the time constant to one step of the coefficient. -/
def deemphHolds : Prop :=
  ∀ us : Nat, us ∈ [50, 75] → ∀ m ≤ 6, ∀ w : ℝ, w * pcmRate m * us = 10 ^ 6 →
    ¬HalfPasses ((Config.deemph us (pcmRate m) - 1) / 2 ^ 17) w ∧ HalfPasses ((Config.deemph us (pcmRate m) + 1) / 2 ^ 17) w

/-- R227: what the envelope detector removes is a mean of magnitudes. -/
def meanHolds : Prop := 0 < Config.amMean ∧ Config.amMean ≤ 2 ^ 17

/-- What the manual requires of the coefficients. -/
structure RomHolds : Prop where
  audio : audioHolds
  deemph : deemphHolds
  mean : meanHolds
  trib : tribHolds
  named : namedHolds
  iq : iqHolds
  rate : rateHolds
  resamp : resampHolds

end Sys2Proof.Machine
end

