-- ==== Sys2Proof/Machine/Waveform.lean ====
section
/-! DEFINITION. The instantaneous frequency that a transmitter forms (R286), as a function of real time. -/

namespace Sys2Proof.Machine

/-- Impulse response of a Gaussian filter over time in symbol periods, whose bandwidth at −3 dB is `bt` of the symbol rate. -/
noncomputable def gaussian (bt u : ℝ) : ℝ :=
  bt * Real.sqrt (2 * Real.pi / Real.log 2) * Real.exp (-(2 * (Real.pi * bt * u) ^ 2) / Real.log 2)

/-- A rectangular pulse of one symbol period and height 1 through the Gaussian filter of BT = 0.5, truncated to three symbol periods
centred on the pulse (R286); `u` counts symbol periods from the pulse's centre. -/
noncomputable def symbolPulse (u : ℝ) : ℝ := if |u| ≤ 3 / 2 then ∫ v in (u - 1 / 2)..(u + 1 / 2), gaussian (1 / 2) v else 0

/-- Envelope of a ramp `u` of its length after its start (R371). -/
noncomputable def rampUp (u : ℝ) : ℝ := (1 - Real.cos (Real.pi * u)) / 2

/-- Envelope of a transmission of `n` symbols, ramps of 8 included, or with `n` and the ramps in other units of time; `u` counts from ramp
start (R371, R378). -/
noncomputable def envelope (n ramp u : ℝ) : ℝ :=
  if u < 0 ∨ n < u then 0 else if u < ramp then rampUp (u / ramp) else if n - ramp < u then 1 - rampUp ((u - (n - ramp)) / ramp) else 1

/-- Instantaneous frequency of a run of symbols in Hz above the carrier, `u` symbol periods after the start of the first (R285, R286). -/
noncomputable def quadsFrequency (channel : Bool) (l : List Quad) (u : ℝ) : ℝ :=
  (l.zipIdx.map (fun p => (deviationOf channel p.1 : ℝ) * symbolPulse (u - p.2 - 1 / 2))).sum

end Sys2Proof.Machine
end

