-- ==== Sys2Proof/WellFormed.lean ====
section
/-! DEFINITION. Which command terms are well formed: the ranges of operands that their types do not already bound. -/

namespace Sys2Proof

/-- COUNT of a NAK entry is 16 bits; which counts are taken is R530's. -/
def NakEntry.wf (e : NakEntry) : Bool := decide (e.count < 65536)

/-- An ADC code, 14 bits (chapter 03). -/
def codeWf (c : Int) : Bool := decide (-8192 ≤ c ∧ c < 8192)

/-- A FIB has 32 bytes, its CRC included (chapter 07, "The FIC"). -/
def Fib.wf (f : Fib) : Bool := f.bytes.length == 32

/-- The FIC of a CIF has 2,304 bits, a quarter of the frame's 9,216, and three FIBs (chapter 07, "The MSC"). -/
def Fic.wf (f : Fic) : Bool := f.soft.length == 2304 && f.fibs.length == 3 && f.fibs.all Fib.wf

/-- The MSC of a CIF has 55,296 bits in 18 symbols (R266). -/
def MscCif.wf (m : MscCif) : Bool := m.soft.length == 55296 && m.symbols.length == 18

/-- A CIF as a landing's engine takes it. -/
def LandedCif.wf (q : LandedCif) : Bool :=
  q.fic.wf && q.symbols.length == 4 && (match q.msc with | some m => m.wf | none => true)

/-- A demodulator's word has 16 bits (R181). -/
def AudioIn.wf (a : AudioIn) : Bool := decide (-32768 ≤ a.i ∧ a.i < 32768 ∧ -32768 ≤ a.q ∧ a.q < 32768)

/-- Well-formed command: every operand within the range that its row and its tables give. -/
def Instr.wf : Instr → Bool
  | .engineRound _ _ codes => codes.all codeWf
  | .pcmRecord _ _ audio _ => audio.all AudioIn.wf
  | .dabFicDecode _ _ fic msc _ _ symbols => fic.wf && symbols.length == 4 && (match msc with | some m => m.wf | none => true)
  | .landingReady _ _ d => d.cifs.all LandedCif.wf
  | .afSwitch _ _ o _ _ d _ => o.cifs.all LandedCif.wf && d.cifs.all LandedCif.wf
  | .nak _ _ entries => decide (1 ≤ entries.length ∧ entries.length ≤ 64) && entries.all NakEntry.wf
  | .eabHeaderDecoded _ _ _ d .. => d.length == 256
  | .eabCodewordDecoded _ _ _ d .. => d.length == 1024 || d.length == 768 || d.length == 640
  | .transmit _ _ _ a => decide (a.body.length ≤ 508)
  | .twWrite _ _ _ words _ => words.all (fun w => decide (w.bytes ≤ 4))
  | .twRead _ _ _ count _ => decide (1 ≤ count)
  | _ => true

end Sys2Proof
end

