-- ==== Sys2Proof/Tests/Slice0.lean ====
section
/-! SUPPORT. The model's own tests: ill-formed terms for each check, values worked out in the manual, and for each statement with
hypotheses a state and operands that meet them. -/

namespace Sys2Proof.Tests

open Sys2Proof.Machine

set_option Elab.async false

/-! ### Well-formed commands: each check refuses a term just outside it and takes one at its edge -/

theorem test_wf_codes :
    (Instr.engineRound 0 0 [8192]).wf = false ∧ (Instr.engineRound 0 0 [-8193]).wf = false ∧ (Instr.engineRound 0 0 [8191, -8192]).wf = true := by decide

theorem test_wf_audio :
    (Instr.pcmRecord 0 0 [{ i := 32768, q := 0 }] 0).wf = false ∧ (Instr.pcmRecord 0 0 [{ i := 32767, q := -32768 }] 0).wf = true := by decide

/-- A FIC with `n` soft bits, whose FIBs have `k` bytes. -/
def fic (n k : Nat) : Fic := ⟨0, List.replicate n .zero, List.replicate 3 ⟨0, List.replicate k 0⟩⟩

theorem test_wf_fic :
    (Instr.dabFicDecode 0 0 (fic 2303 32) none 0 false (List.replicate 4 {})).wf = false ∧
    (Instr.dabFicDecode 0 0 (fic 2304 31) none 0 false (List.replicate 4 {})).wf = false ∧
    (Instr.dabFicDecode 0 0 (fic 2304 32) none 0 false (List.replicate 3 {})).wf = false ∧
    (Instr.dabFicDecode 0 0 (fic 2304 32) none 0 false (List.replicate 4 {})).wf = true ∧
    (Instr.dabFicDecode 0 0 (fic 2304 32) (some ⟨[], [], 0, {}⟩) 0 false (List.replicate 4 {})).wf = false := by decide +kernel

theorem test_wf_nak :
    (Instr.nak 0 ⟨1, 1⟩ []).wf = false ∧ (Instr.nak 0 ⟨1, 1⟩ (List.replicate 65 ⟨0, 1, 0⟩)).wf = false ∧
    (Instr.nak 0 ⟨1, 1⟩ [⟨0, 65536, 0⟩]).wf = false ∧ (Instr.nak 0 ⟨1, 1⟩ (List.replicate 64 ⟨0, 65535, 0⟩)).wf = true := by decide

theorem test_wf_codeword :
    (Instr.eabCodewordDecoded 0 0 [] (List.replicate 1023 false) 1 0).wf = false ∧
    (Instr.eabCodewordDecoded 0 0 [] (List.replicate 640 false) 1 0).wf = true ∧
    (Instr.eabHeaderDecoded 0 0 [] (List.replicate 255 false) 1 0).wf = false ∧
    (Instr.eabHeaderDecoded 0 0 [] (List.replicate 256 false) 1 0).wf = true := by decide +kernel

/-- Arguments of a TRANSMIT with a body of `n` bytes. -/
def txArgs (n : Nat) : TxArgs :=
  { carrier := 400000000, channel := 0, level := 0, typ := 2, hop := 1, rate := 1, keySlot := 0, late := 0, start := 0, counter := 1
    body := List.replicate n 0 }

theorem test_wf_transmit :
    (Instr.transmit 0 ⟨1, 1⟩ 1 (txArgs 509)).wf = false ∧ (Instr.transmit 0 ⟨1, 1⟩ 1 (txArgs 508)).wf = true := by decide +kernel

theorem test_wf_two_wire :
    (Instr.twWrite 0 0x40 0x3F00 [⟨0, 5, 0⟩] true).wf = false ∧ (Instr.twWrite 0 0x40 0x3F00 [⟨0, 4, 0⟩] true).wf = true ∧
    (Instr.twRead 0 0x40 none 0 true).wf = false ∧ (Instr.twRead 0 0x40 none 1 true).wf = true := by decide

/-! ### Values that the manual or the standards it names work out -/

/-- "123456789" in ASCII. -/
def digits : List Byte := [0x31, 0x32, 0x33, 0x34, 0x35, 0x36, 0x37, 0x38, 0x39]

/-- R290 gives the CRC-16 of "123456789". -/
theorem test_crc16 : crc16 digits = 0x29B1 := by decide +kernel

/-- Chapter 15, worked example: the PEC byte of the read of READY_REACHES through address 0x12, and of the same read through 0x44. -/
theorem test_pec :
    crc8 [0x24, 0x01, 0x00, 0x25, 0x00, 0x00, 0x3F, 0x1F] = 0x13 ∧ crc8 [0x88, 0x01, 0x00, 0x89, 0x00, 0x00, 0x3F, 0x1F] = 0x73 := by decide +kernel

/-- Chapter 13, below Table 13.2, gives the CRC-32 of "123456789". -/
theorem test_crc32 : crc32 digits = 0xCBF43926 := by decide +kernel

/-- FIPS 197: the S-box of 0x53, and a column of MixColumns. -/
theorem test_aes_steps : sbox 0x53 = 0xED ∧ mixColumn [0xD4, 0xBF, 0x5D, 0x30] = [0x04, 0x66, 0x81, 0xE5] := by decide +kernel

/-- Chapter 16, worked example: COUNT 0x3AB3_2DA8 is 09:26:00 on Monday 2031-03-17, and 12:56 there with OFFSET 14. -/
theorem test_calendar :
    timeWord 0x3AB32DA8 = (9 <<< 16 ||| 26 <<< 8) ∧ dateWord 0x3AB32DA8 = (1 <<< 28 ||| 31 <<< 16 ||| 3 <<< 8 ||| 17) ∧
    timeWord (0x3AB32DA8 + 14 * 900) = (12 <<< 16 ||| 56 <<< 8) := by decide +kernel

/-- The calendar ends with 2199-12-31 (R594): YEAR 199. -/
theorem test_calendar_end : dateWord 6311433599 = (2 <<< 28 ||| 199 <<< 16 ||| 12 <<< 8 ||| 31) := by decide +kernel

/-! ### States in which the witnesses stand -/

/-- The collector of the sessions below. -/
def peer : Peer := ⟨0x0A000002, 5000⟩

/-- A running part, 100 s after its reset: references, reaches, Outfall, journal and host port are up, and a session of version 3 runs. -/
def up : State := { State.reset with
  phase := .locked, clock := 100 * 10 ^ 12, cause := 0
  pins := { porHold := false }
  refs := { ok1 := true, ok2 := true, active := 1 }
  reaches := Vector.replicate 4 { st := .ready, pll := true, adc := true, pass := true, gain := 0 }
  image := { accepted := true, stillOk := true, windows := [(10, 20)] }
  journal := { ready := true, base := 0x80, fill := 32 }
  tw := { ready := true }
  rtc := { timeLost := false, lostReport := false, seconds := 100 }
  outfall := { ready := true, st := .locked, carrier := 400000000 }
  host := { link := true, ip := 0x0A000001, mask := 0xFFFFFF00, sessions := 1, nextHop := some (0x0A000002, 0x020000000001, 100 * 10 ^ 12)
            session := some { peer := peer, version := 3, timeoutS := 5, mask := 0, lastRxPs := 100 * 10 ^ 12 } } }

/-- `s` frozen. -/
def frozen (s : State) : State := { s with still := { s.still with frozen := true } }

/-- Management-only mode. -/
def alone (s : State) : State := { s with mgmtOnly := true }

/-- `s` with reach 0 changed. -/
def withReach (s : State) (f : Reach → Reach) : State := s.modReach 0 f

/-- `s` with context `c`. -/
def withCtx (s : State) (c : Fin 256) (x : Ctx) : State := { s with ctxs := s.ctxs.set c x }

/-- An entry of a standard that requests `req`, with W10. -/
def entry (req std : Nat) (w10 : Word := 0) : Entry :=
  (Entry.zero.set 0 (BitVec.ofNat 32 (req * 2 ^ 30 + std * 2 ^ 24))).set 10 w10

/-- A context of a standard on engine 0 of reach 0, requested to run. -/
def ctx (std : Nat) (st : CtxSt) (w10 : Word := 0) : Ctx :=
  { active := entry 1 std w10, st := st, place := some { slots := 1 }, invalid := false }

/-- A running part with one context, number 0. -/
def one (x : Ctx) : State := withCtx up 0 x

/-- A session of another version. -/
def spoken (v : Nat) : State := { up with host := { up.host with session := some { peer := peer, version := v, timeoutS := 5, mask := 0, lastRxPs := 0 } } }

/-- A burst of the Outfall's queue, due at once on its carrier. -/
def burst : Tx := { source := .twoWire, tone := false, carrier := 400000000, channel := false, level := 0, due := 0, latest := none }

/-- That burst on air, or with BLANK_OUT asserted for it. -/
def onAir (a : OnAir) : State := { up with outfall := { up.outfall with st := if a.started then .onAir else .locked, air := some a } }

/-! ### Worked examples of the manual on the running part -/

/-- The state that a command answers. -/
def after (i : Instr) (s : State) : State :=
  match exec i s with
  | .next t => t
  | _ => s

/-- Chapter 03, worked example: a peak of -5.7 dBFS at G = +24 dB brings 7 dB down, to +17 dB, LNA +24 and ATTN 7. -/
theorem test_agc_reduction :
    let x := (after (.agcWindowEnd 0 0 (-570) 0) (withReach up (fun x => { x with gain := 24, lna := 2, attn := 0 }))).reaches[(0 : Fin 4)]
    x.step.map (fun q => (q.gain, q.lna, q.attn)) = some (17, 2, 7) := by decide +kernel

/-- The same example: after 100 ms below LO the gain rises by 3 dB, and the rise to +24 dB is the last. -/
theorem test_agc_increase :
    let at_ (g : Int) := withReach up (fun x => { x with gain := g, quietPs := 100 * 10 ^ 9 })
    ((at_ 17).reaches[(0 : Fin 4)].law (-4000) 0 up.clock false).decided = 20 ∧ ((at_ 23).reaches[(0 : Fin 4)].law (-4000) 0 up.clock false).decided = 24 := by
  decide +kernel

/-- Chapter 17, worked example: HEALTH_STATUS returns 0x0001_013A and captures the entry; after NEXT it returns 0x8000_013B and zeros. -/
theorem test_draining_an_alert :
    let s := ({ up with mailbox := { up.mailbox with rdPtr := 0x13A } } : State).post 0 0xFF 0xFFFF 2 3 [0]
    let a := after (.healthStatusRead 0) s
    let b := after (.healthStatusRead 0) (after (.healthNext 0) a)
    a.readData = [0x0001013A] ∧ a.peek 0x0228 = 0x00FFFFFF ∧ a.peek 0x022C = 0x00020301 ∧ a.mailbox.alertPending = true ∧
    b.readData = [0x8000013B] ∧ b.peek 0x0228 = 0 ∧ b.mailbox.alertPending = false := by decide +kernel

/-- Chapter 16, worked example: 0.28 ppm fast over an hour against REFCLK is e = 18, and TRIM goes from -1480 to -1498. -/
theorem test_trim_window :
    let s : State := { up with rtc := { up.rtc with ctrl := 0x2000003C, winState := 3, winStartNs := 0, trim := -1480, seconds := 3600 } }
    let t := after (.rtcTrimWindowEnd 0 3600001008000 3600000000000 2) s
    t.rtc.trim = -1498 ∧ t.rtc.lastErr = 18 := by decide +kernel

/-- Chapter 08, worked example: the first eight bytes of M for VERSION 2, TYPE 0x02, ORIGIN 0x0A1, RATE 1, CWS 0, KEY_SLOT 2, COUNTER 0x2F4C. -/
theorem test_tag_input : (cmacInput (BitVec.ofNat 128 (headerWord 2 2 0x0A1 0x0A1 2 1 0 2 0x2F4C)) []).take 8 =
    [0x42, 0x0A, 0x10, 0x42, 0x00, 0x00, 0x2F, 0x4C] := by decide +kernel

/-! ### Statements with hypotheses: states and operands that meet them -/

/-- The bounds hold in the running part. -/
theorem up_sound : up.Sound :=
  { flash := by decide +kernel, ring := by decide +kernel, ptr := by decide +kernel, second := by decide +kernel
    otp := fun _ _ h => absurd (show (none : Option (Nat × Fin 8 × BitVec 128)) = some _ from h).symm (Option.some_ne_none _) }

theorem witness_StepRunsFrontCommand : up.pending = [] := rfl

theorem witness_StepKeepsSound : up.Sound ∧ step up = .next (up.advance 1) := ⟨up_sound, rfl⟩

/-- A part with slot 7 programmed and both fuses blown. -/
def otp : State := { up with keys := { up.keys with slots := up.keys.slots.set 7 (some 5), authBlown := true, stillBlown := true } }

theorem witness_OtpOnlyGains : otp.Sound ∧ step otp = .next (otp.advance 1) ∧ otp.keys.slots[(7 : Fin 8)] = some 5 ∧
    otp.keys.authBlown = true ∧ otp.keys.stillBlown = true ∧ (∃ t, exec (.reset 0 10) otp = .next t) :=
  ⟨{ flash := by decide +kernel, ring := by decide +kernel, ptr := by decide +kernel, second := by decide +kernel
     otp := fun _ _ h => absurd (show (none : Option (Nat × Fin 8 × BitVec 128)) = some _ from h).symm (Option.some_ne_none _) }, rfl, by decide +kernel, rfl, rfl, ⟨_, rfl⟩⟩

theorem witness_FreezeHoldsTheState : (frozen up).still.frozen = true ∧ (frozen up).phase = .locked ∧ (Instr.syncGo 0).actsInFreeze = false := by
  decide +kernel

theorem witness_KeysAreNeverRead :
    (0x2800 ≤ (0x2800 : Addr).toNat ∧ (0x2800 : Addr).toNat ≤ 0x2FFF) ∧ (0x2800 ≤ (0x2FFF : Addr).toNat ∧ (0x2FFF : Addr).toNat ≤ 0x2FFF) ∧
    (∀ n : Fin 8, (otp.keys.slots.set 7 (some 9))[n].isSome = otp.keys.slots[n].isSome) := by decide +kernel

theorem witness_AbsentReachBlocks :
    ({ up with part := { is8120 := true } } : State).part.is8120 = true ∧ 0x0600 ≤ (0x0600 : Addr).toNat ∧ (0x07FF : Addr).toNat ≤ 0x07FF := by
  decide +kernel

theorem witness_ResetCommands :
    let held : State := { State.reset with pins := { porHold := true } }
    let button : State := { State.reset with pins := { porHold := false, resetN := true } }
    ((held.advance 1).pins.porHold = true ∧ (held.advance 1).pins.resetN = false ∧ (held.advance 1).phase = .held) ∧
    ((button.advance 1).pins.resetN = true ∧ (button.advance 1).pins.porHold = false ∧ (button.advance 1).phase = .held) ∧
    ((up.advance 1).awake = true ∧ (up.advance 1).pins.porHold = false ∧ (up.advance 1).pins.resetN = false) ∧
    (0x5252 : BitVec 16) ≠ 0x5253 ∧ (10 : Nat) ≤ 10 ∧ (10000 : Nat) ≤ 10000 ∧ ((699 : Nat) < 700 ∨ (880 : Nat) < 880 ∨ (1550 : Nat) < 1550) := by
  decide +kernel

/-- One mailbox entry. -/
def letter : MboxEntry := up.entryNow 0 0xFF 0xFFFF 1 3 []

/-- A mailbox with `n` entries. -/
def letters (n : Nat) : State :=
  { up with mailbox := { up.mailbox with pending := List.replicate n letter, toConsume := List.replicate n letter } }

theorem witness_PostEntersMailbox :
    (letters 1023).mailbox.pending.length < 1024 ∧ 1024 ≤ (letters 1024).mailbox.pending.length ∧
    (∀ x ∈ (letters 1).mailbox.pending, x.atPs ≠ (letters 1).clock ∨ x.source ≤ 0) ∧ (1 : Nat) < 2 := by decide +kernel

theorem witness_ReadsWithEffects :
    let small : State := { up with part := { is8120 := true } }
    (up.advance 1).awake = true ∧ (up.advance 1).reachExists 3 = true ∧
    (small.advance 1).awake = true ∧ (small.advance 1).reachExists 2 = false ∧
    (up.advance 1).reachExists (Fin.ofNat 4 (7 / 2)) = true ∧ (small.advance 1).reachExists (Fin.ofNat 4 (4 / 2)) = false := by decide +kernel

theorem witness_HealthWindow :
    ((letters 1).advance 1).awake = true ∧ ((letters 1).advance 1).mailbox.pending = letter :: [] ∧
    ((letters 1).advance 1).mailbox.toConsume = letter :: [] ∧ (up.advance 1).mailbox.pending = [] ∧ (up.advance 1).mailbox.toConsume = [] ∧
    letter.reach = 0xFF := by decide +kernel

theorem witness_RegisterWrites :
    (up.advance 1).canWrite .twoWire 0x3F00 = true ∧ (up.advance 1).canWrite .qrp 0x0424 = true ∧ (up.advance 1).awake = true ∧
    (up.advance 1).reaches[(0 : Fin 4)].st = .ready ∧ ((withReach up (fun x => { x with st := .bringup })).advance 1).reaches[(0 : Fin 4)].st ≠ .ready ∧
    0x4000 ≤ (0x4000 : Addr).toNat := by decide +kernel

theorem witness_FreezeInstant :
    let fused : State := { up with keys := { up.keys with stillInEffect := true } }
    let permitted (u : State) := u.phase = .locked ∧ u.image.accepted = true ∧ u.image.stillOk = true ∧ u.keys.stillInEffect = false
    ((up.advance 1).still.frozen = false ∧ (up.advance 1).awake = true ∧ permitted (up.advance 1)) ∧
    (¬ permitted (fused.advance 1) ∧ (fused.advance 1).awake = true) ∧
    (0x5355 : BitVec 16) ≠ 0x5354 ∧ ((200 : Nat) ≤ 200 ∧ (50 : Nat) ≤ 50 ∧ (50 : Nat) < 200 ∧ (49 : Nat) < 50) ∧ ((frozen up).advance 1).still.frozen = true := by decide +kernel

/-- A part with PEC in force, the read-only additional address 0x51, and an alert pending. -/
def checked : State := { up with
  tw := { up.tw with ctrl := 0x800A0800, liveCtrl := 0x800A0800, active := 2, attr := 0x00000100, addr := 0x0000D100, liveAddr := 0x0000D100 }
  mailbox := { up.mailbox with alertPending := true } }

theorem witness_BusTransactions :
    let tw := (up.advance 1).tw.start
    let pec := (checked.advance 1).tw.start
    ((up.advance 1).phase = .locked ∧ (up.advance 1).tw.ready = true ∧ (up.advance 1).still.frozen = false ∧ (up.advance 1).doze.fabAwake = true) ∧
    (tw.answers 0x40 = true ∧ tw.readOnly 0x40 = false ∧ tw.pec = false) ∧
    (pec.answers 0x40 = true ∧ pec.readOnly 0x40 = false ∧ pec.pec = true) ∧ tw.answers 0x41 = false ∧
    (pec.answers 0x51 = true ∧ pec.readOnly 0x51 = true) ∧ (up.advance 1).mailbox.alertPending = false ∧
    (crc8 [0x80, 0x3F] ≠ crc8 [0x80, 0x3F] + 1 ∧ (34900 : Nat) ≤ 34900 ∧ (35000 : Nat) ≤ 35000) ∧
    ((checked.advance 1).mailbox.alertPending = true ∧ (checked.advance 1).doze.fabAwake = true) ∧
    (let mine : Byte := ({ checked.advance 1 with tw := pec } : State).araAddress.setWidth 8 <<< 1 ||| 1
     mine ≤ mine ∧ ¬ mine ≤ mine - 1) ∧
    (((frozen up).advance 1).phase = .locked ∧ ((frozen up).advance 1).tw.ready = true ∧ ((frozen up).advance 1).still.frozen = true) := by decide +kernel

theorem witness_BringUp :
    let released : State := { State.reset with phase := .released, pins := { porHold := false }, clock := 20000000 }
    let rising : State := withReach up (fun x => { x with st := .bringup, deadlinePs := some 1 })
    let adc : State := withReach rising (fun x => { x with adc := false })
    let pll : State := withReach adc (fun x => { x with pll := false })
    ((released.advance 0).phase = .released ∧ (released.advance 0).releasedPs + 20000000 ≤ (released.advance 0).clock) ∧
    ((({ released with phase := .classified } : State).advance 0).phase = .classified) ∧
    ((rising.advance 1).reachStarts 0 = true ∧ (rising.advance 1).image.accepted = true ∧
      (rising.advance 1).reaches[(0 : Fin 4)].pll = true ∧ (rising.advance 1).reaches[(0 : Fin 4)].adc = true ∧
      (rising.advance 1).reaches[(0 : Fin 4)].pass = true ∧ (rising.advance 1).reaches[(0 : Fin 4)].deadlinePs = some 1 ∧
      1 ≤ (rising.advance 1).clock) ∧
    (classOf 9499999 = .absent ∧ classOf 9500000 = .mhz10 ∧ classOf 131250000 = .mhz125) ∧
    (rising.advance 1).reaches[(0 : Fin 4)].passPs + fallowPassPs ≤ (rising.advance 1).clock ∧
    ((pll.advance 1).reachStarts 0 = true ∧ (pll.advance 1).reaches[(0 : Fin 4)].pll = false) ∧
    ((adc.advance 1).reachStarts 0 = true ∧ (adc.advance 1).reaches[(0 : Fin 4)].pll = true ∧ (adc.advance 1).reaches[(0 : Fin 4)].adc = false) := by
  decide +kernel

theorem witness_ReferenceFailover :
    let u (f : Refs) : State := ({ up with refs := f, image := { up.image with revertive := true, restoreS := 10 } } : State).advance 0
    let both := u { freq := 1, ok1 := true, ok2 := true, active := 1 }
    let back := u { freq := 1, ok1 := true, ok2 := true, active := 2, restoreFrom := some (90 * 10 ^ 12) }
    (both.phase = .locked ∧ both.still.frozen = false) ∧
    (both.refs.ok1 = true ∧ both.refs.active = 1 ∧ both.refs.ok2 = true ∧ both.refs.ignore2 = false ∧ 4 * refPeriodNs both.refs.freq ≤ 400 ∧
      (16 ≤ (List.replicate 16 91).length ∧ ∀ d ∈ (List.replicate 16 91).drop 0, 90 < d)) ∧
    ((u { freq := 1, ok1 := true, active := 1 }).refs.ok2 = false ∧ back.refs.ok2 = true ∧ back.refs.ok1 = true) ∧ back.refs.active ≠ 1 ∧
    (let f := (u { freq := 1, ok2 := true, active := 2, holdover := true, postCode := 1 }).refs
     f.holdover = true ∧ f.active ≠ 0 ∧ f.postCode = 1 ∧ f.switchPs + 10 ^ 8 ≤ both.clock ∧ f.active ≠ 1 ∧ f.ok1 = false ∧ refFreq (classOf 10000000) = f.freq) ∧
    (let f := (u { freq := 1, ok1 := true, active := 1 }).refs
     f.active ≠ 0 ∧ f.active ≠ 2 ∧ f.ok2 = false ∧ f.ignore2 = false ∧ (u { freq := 1, ok1 := true, active := 1, ignore2 := true }).refs.ignore2 = true) ∧
    (back.image.revertive = true ∧ back.refs.active = 2 ∧ back.refs.ok1 = true ∧ back.refs.holdover = false ∧
      back.refs.restoreFrom = some (90 * 10 ^ 12) ∧ 90 * 10 ^ 12 + back.image.restoreS * 10 ^ 12 ≤ back.clock) ∧
    ((u { holdover := true, noRef := true }).refs.holdover = true ∧ (u { holdover := true, noRef := true }).refs.active = 0 ∧
      (u { holdover := true, noRef := true }).refs.ignore2 = false) := by decide +kernel

theorem witness_GainRealisation :
    (-30 : Int) ≤ -30 ∧ (24 : Int) ≤ 24 ∧ (realise (-7)).1.toNat < (2 : BitVec 2).toNat ∧ (2 : BitVec 2).toNat ≤ 2 := by decide +kernel

theorem witness_ReachAgcLaw :
    let reach (s : State) := s.reaches[(0 : Fin 4)].settle s.clock
    let u := up.advance 1
    let x := reach u
    let at_ (f : Reach → Reach) := (withReach up f).advance 1
    let y := at_ (fun x => { x with clipDone := true, discardPeak := true, deferred := some 1 })
    let q := at_ (fun x => { x with quietPs := 100 * 10 ^ 9 })
    let rx : State := one { ctx 4 .valid with eab := { st := .payload } }
    (u.sampling 0 = true ∧ x.auto = true ∧ x.agcFrozen u.clock = false ∧ u.reaches[(0 : Fin 4)].clipDone = false ∧ x.discardPeak = false ∧
      x.oneShot = false ∧ x.step = none ∧ x.deferred = none ∧ u.burstIn 0 = false) ∧
    (y.sampling 0 = true ∧ y.reaches[(0 : Fin 4)].clipDone = true ∧ y.reaches[(0 : Fin 4)].auto = true ∧
      y.reaches[(0 : Fin 4)].agcFrozen y.clock = false ∧ y.burstIn 0 = false ∧ (reach y).deferred = some 1 ∧ (reach y).discardPeak = true) ∧
    ((reach (at_ (fun x => { x with oneShot := true }))).oneShot = true ∧
      (reach (at_ (fun x => { x with live := { x.live with agc := 0x4060C183 } }))).auto = false) ∧
    -100 * x.hi < -100 * x.hi + 1 ∧ (-100 * x.lo - 1 < -100 * x.lo ∧ -100 * x.lo - 1 ≤ -100 * x.hi ∧ -100 * x.lo ≤ -100 * x.hi) ∧
    ((reach q).decayHoldPs ≤ (reach q).quietPs + agcWindowPs ∧ (reach q).lastRisePs = none) ∧ (rx.advance 1).burstIn 0 = true := by decide +kernel

theorem witness_GainWrites :
    let valid (v : Word) := 1 ≤ bits v 11 6 ∧ bits v 11 6 < bits v 17 12 ∧ bits v 17 12 < bits v 23 18 ∧ bits v 23 18 ≤ 60
    let manual (st : ReachSt) := (withReach up (fun x => { x with st := st, regs := { x.regs with agc := 0x4060C183 } })).advance 1
    let reach (s : State) := s.reaches[(0 : Fin 4)].settle s.clock
    ((up.advance 1).awake = true ∧ (up.advance 1).reachExists 3 = true) ∧ valid 0x00F02040 ∧ ¬ valid 0x00F41040 ∧
    ((up.advance 1).reaches[(3 : Fin 4)].st = .ready ∧ (manual .bringup).reaches[(0 : Fin 4)].st ≠ .ready) ∧
    (bits (reach (manual .ready)).regs.agc 31 30 = 1 ∧ (reach (manual .ready)).st = .ready ∧ (reach (manual .ready)).step = none) ∧
    (bits (reach (manual .bringup)).regs.agc 31 30 = 1 ∧ (reach (manual .bringup)).st ≠ .ready) ∧ bits (reach (up.advance 1)).regs.agc 31 30 ≠ 1 := by
  decide +kernel

theorem witness_TributaryWrite :
    let u := up.advance 1
    let used := (withReach (one (ctx 1 .valid)) (fun x => { x with tribs := x.tribs.set 0 { reg := 0xC0100000 } })).advance 1
    (u.awake = true ∧ u.reachExists 0 = true ∧ u.tribInUse 0 0 = false) ∧ tribInRange 0xC0100000 = true ∧ tribInRange 0 = true ∧
    tribInRange 0x40000000 = false ∧ used.tribInUse 0 0 = true ∧ (∀ c : Fin 256, u.ctxs[c].pending = none) := by decide +kernel

theorem witness_SpateOverrangeBlanking :
    let u := (one (ctx 1 .valid)).advance 1
    let low := (withReach up (fun x => { x with gain := -30 })).advance 1
    let late := (withReach up (fun x => { x with gain := -30, ovrPostPs := some (100 * 10 ^ 12) })).advance 1
    0 < 0 + ({ u.reaches[(0 : Fin 4)] with live := { u.reaches[(0 : Fin 4)].live with blankTail := 1 } } : Reach).tailPs ∧ (u.spateValid = true ∧ u.sampling 0 = true ∧ u.ctxs[(0 : Fin 256)].st ≠ .idle ∧ u.ctxs[(0 : Fin 256)].reachOf = 0 ∧
      (u.reaches[(0 : Fin 4)].settle u.clock).gain ≠ -30) ∧
    (low.sampling 0 = true ∧ (low.reaches[(0 : Fin 4)].settle low.clock).gain = -30 ∧ low.since (low.reaches[(0 : Fin 4)].settle low.clock).ovrPostPs (10 ^ 12) = true) ∧
    (late.reaches[(0 : Fin 4)].settle late.clock).gain = -30 ∧ late.since (late.reaches[(0 : Fin 4)].settle late.clock).ovrPostPs (10 ^ 12) = false := by decide +kernel

/-- A reach in a blanking tail that began with the block's clock. -/
def tailing : State := withReach up (fun x => { x with blank := .tail 0 0 })

/-- The tail has passed, with the latency at the longest that R118 allows. -/
theorem witness_SpateOverrangeBlanking_tail :
    (tailing.advance 1).sampling 0 = true ∧ (tailing.advance 1).reaches[(0 : Fin 4)].blank = .tail 0 0 ∧
    0 + (tailing.advance 1).reaches[(0 : Fin 4)].tailPs + blankLatencyPs ≤ (tailing.advance 1).clock :=
  ⟨by decide +kernel, by decide +kernel, Nat.le_trans
    (Nat.add_le_add_left (show blankLatencyPs ≤ 160000 by unfold blankLatencyPs; omega) _) (by decide +kernel)⟩

theorem witness_SynchronisingResets :
    let due : State := { up with sync := { up.sync with pending := [(1, 5)] } }
    let none_ : State := { up with reaches := Vector.replicate 4 {} }
    let held : State := { up with sync := { up.sync with released := 2 } }
    let off : State := { up with sync := { up.sync with pinEn := false } }
    ((up.advance 1).serving = true ∧ (up.advance 1).sync.pinEn = true ∧ (up.advance 1).sync.released < 2 ∧ 2 ≤ (held.advance 1).sync.released ∧ (off.advance 1).sync.pinEn = false) ∧ ((up.advance 1).awake = true ∧ (up.advance 1).reachUp 3 = true) ∧
    ((none_.advance 1).awake = true ∧ ∀ r, (none_.advance 1).reachUp r = false) ∧ (due.advance 1).syncDue = some (1, 5) := by decide +kernel

theorem witness_StagedTime :
    let at_ (t : Nat) : State := { up with rtc := { up.rtc with staged := some (7, t) } }
    let set_ (lo : Word) : State := { up with rtc := { up.rtc with setHi := 1, setLo := lo } }
    (up.advance 1).awake = true ∧ ((set_ 0x7830D57F).advance 1).rtc.setHi.toNat * 2 ^ 32 + ((set_ 0x7830D57F).advance 1).rtc.setLo.toNat ≤ 6311433599 ∧
    6311433599 < ((set_ 0xFFFFFFFF).advance 1).rtc.setHi.toNat * 2 ^ 32 + ((set_ 0xFFFFFFFF).advance 1).rtc.setLo.toNat ∧
    (((at_ (100 * 10 ^ 12 - 10 ^ 9)).advance 0).stagedNow = some (7, 100 * 10 ^ 12 - 10 ^ 9) ∧
      100 * 10 ^ 12 - 10 ^ 9 + 10 ^ 9 ≤ ((at_ (100 * 10 ^ 12 - 10 ^ 9)).advance 0).clock) ∧
    ((at_ (100 * 10 ^ 12 - 10 ^ 9 + 1)).advance 0).stagedNow = some (7, 100 * 10 ^ 12 - 10 ^ 9 + 1) ∧
    ((at_ (100 * 10 ^ 12 - 10 ^ 9 + 1)).advance 0).clock < 100 * 10 ^ 12 - 10 ^ 9 + 1 + 10 ^ 9 ∧
    ((up.advance 1).stagedNow = none ∧ (up.advance 1).rtc.autoset = none ∧ (up.advance 1).rtc.offsetNext = none ∧
      (up.advance 1).rtc.summerNext = none ∧ (((up.advance 1).rtc.seconds + 1) % 2 ^ 40) % 6311433600 ≠ 0 ∧ (up.advance 1).rtc.winState = 0) ∧
    (let r : State := ({ up with rtc := { up.rtc with ctrl := 0x20000001, winState := 3 } } : State).advance 1
     r.stagedNow = none ∧ r.rtc.autoset = none ∧ r.rtc.offsetNext = none ∧ r.rtc.summerNext = none ∧ r.rtc.src = 1 ∧ r.rtc.winState ≠ 0 ∧
       r.rtc.srcLast = none) := by decide +kernel

theorem witness_CivilTime :
    (up.advance 1).awake = true ∧ (-56 ≤ (0xC8 : BitVec 8).toInt ∧ (0xC8 : BitVec 8).toInt ≤ 56) ∧ (-56 ≤ (56 : BitVec 8).toInt ∧ (56 : BitVec 8).toInt ≤ 56) ∧
    (0xC7 : BitVec 8).toInt < -56 ∧ 56 < (57 : BitVec 8).toInt ∧ (up.advance 1).rtc.summer = false ∧
    (({ up with rtc := { up.rtc with summer := true } } : State).advance 1).rtc.summer = true ∧
    (bit (0xC0000000 : Word) 31 = true ∧ bit (0xC0000000 : Word) 30 = true) := by decide +kernel

theorem witness_RateTrimming :
    let at_ (ctrl : Word) (n : Nat) (last : Nat) : State := ({ up with rtc := { up.rtc with
      ctrl := ctrl, winState := 3, winStartNs := 40000000000, srcCount := n, srcFirst := some (0, 0), srcLast := some (0, last) } } : State).advance 0
    let u := at_ 0x20000001 1 0
    let m := (({ up with rtc := { up.rtc with ctrl := 0x80000001, winState := 1 } } : State).advance 1)
    (u.awake = true ∧ u.rtc.winState ≠ 0 ∧ u.rtc.winStartNs + u.rtc.windowNs ≤ u.nowNs ∧ u.rtc.src = 1 ∧ u.rtc.srcCount < 2 ∧ u.refs.noRef = false) ∧
    (0 < u.rtc.windowNs / 2 ∧ u.rtc.windowNs ≤ 2 * (u.rtc.windowNs / 2)) ∧ 2 * (u.rtc.windowNs / 2 - 1) < u.rtc.windowNs ∧ u.rtc.src ≠ 4 ∧
    (∀ k ∈ [at_ 0x20000001 2 (90000000000), at_ 0x80000001 2 (90000000000)], k.rtc.winState ≠ 0 ∧ k.rtc.src ≠ 0 ∧
      k.rtc.winStartNs + k.rtc.windowNs ≤ k.nowNs ∧ 2 ≤ k.rtc.srcCount ∧ k.rtc.srcFirst = some (0, 0) ∧ k.rtc.srcLast = some (0, 90000000000) ∧
      3 * k.rtc.windowNs ≤ 2 * (90000000000 - 0) ∧ k.refs.noRef = false ∧ 2 * (89999999999 - 0) < 3 * k.rtc.windowNs) ∧
    ((at_ 0x80000001 1 0).rtc.src ≠ 1 ∧ (at_ 0x80000001 1 0).rtc.srcCount < 2) ∧
    (m.awake = true ∧ m.rtc.src = 4 ∧ m.rtc.winState ≠ 0 ∧ m.rtc.mainsLast = none ∧ m.rtc.srcLast = none) := by decide +kernel

theorem witness_SuppliesAndDomain :
    let u := up.advance 1
    let valid := (({ up with rtc := { up.rtc with swValid := { on := true } } } : State).advance 1)
    let cell := (({ up with rtc := { up.rtc with onVbat := true } } : State).advance 1)
    let low := (({ up with pins := { up.pins with supplyNow := 0x20 } } : State).advance 1)
    (u.rtc.onVbat = false ∧ u.rtc.swValid.on = false ∧ (1549 : Nat) < 1550 ∧ (1500 : Nat) ≤ 1500) ∧ (valid.rtc.onVbat = false ∧ valid.rtc.swValid.on = true) ∧
    (valid.awake = true ∧ bit (0x80000000 : Word) 31 = true ∧ valid.rtc.swValid.atPs ≠ valid.clock) ∧
    (cell.rtc.onVbat = true ∧ ((1650 : Nat) < 1651 ∧ (1000 : Nat) ≤ 1000) ∧ ((1500 : Nat) ≤ 1500 ∧ (1499 : Nat) < 1500)) ∧ (2000 : Nat) ≤ 2000 ∧ (1799 : Nat) < 1800 ∧
    (u.still.frozen = false ∧ u.since u.rtc.vbatPs (3600 * 10 ^ 12) = true ∧ u.phase = .locked ∧ u.pins.supplyNow.getLsbD (5 : Fin 6).val = false ∧
      u.pins.supplyOut 5 3701 0 = true ∧ u.pins.supplyOut 0 800 0 = false) ∧
    (low.pins.supplyNow.getLsbD (5 : Fin 6).val = true ∧ low.since low.pins.supplyPostPs[(5 : Fin 6)] (10 ^ 12) = true) := by decide +kernel

theorem witness_DozeRequestsAndExit :
    let at_ (minute : Nat) (d : Doze) : State := { up with rtc := { up.rtc with seconds := 60 * minute }, doze := d }
    let start := (at_ 10 { scheduleEn := true }).advance 0
    let end_ := (at_ 30 { scheduleEn := true }).advance 0
    let off := (at_ 30 {}).advance 0
    let asleep := (at_ 5 { inDoze := true, fabAwake := false }).advance 0
    let awake_ := (at_ 5 { inDoze := true, lastTwPs := 100 * 10 ^ 12 - 10 ^ 10, exitRequested := true }).advance 0
    ((up.advance 1).awake = true ∧ (up.advance 1).doze.scheduleEn = false) ∧
    (start.awake = true ∧ start.doze.scheduleEn = true ∧ start.inWindow = true ∧ start.phase = .locked ∧ start.still.frozen = false ∧
      start.rtc.seconds % 60 = 0 ∧ (∃ w ∈ start.image.windows, w.1 = minuteOf start.rtc.seconds) ∧ start.rtc.timeLost = false) ∧
    (((at_ 10 {}).advance 0).doze.scheduleEn = false ∧ ∃ w ∈ ((at_ 10 {}).advance 0).image.windows, w.1 = minuteOf ((at_ 10 {}).advance 0).rtc.seconds) ∧
    ((∃ w ∈ end_.image.windows, (w.1 + w.2) % 1440 = minuteOf end_.rtc.seconds) ∧ end_.inWindow = false ∧
      (end_.doze.scheduleEn = true ∧ end_.rtc.timeLost = false ∧ end_.doze.suppressed = false)) ∧
    (off.inWindow = false ∧ ¬ (off.doze.scheduleEn = true ∧ off.rtc.timeLost = false ∧ off.doze.suppressed = false)) ∧
    (asleep.phase = .locked ∧ asleep.still.frozen = false ∧ asleep.doze.inDoze = true ∧ asleep.doze.fabAwake = false) ∧
    (awake_.doze.inDoze = true ∧ awake_.doze.fabAwake = true ∧ awake_.doze.lastTwPs + 10 ^ 10 ≤ awake_.clock ∧ awake_.doze.exitRequested = true) := by
  decide +kernel

theorem witness_DozeEntry :
    let u := (({ up with doze := { up.doze with requested := true } } : State).advance 1)
    u.serving = true ∧ u.doze.requested = true ∧ u.dozeFree = true := by decide +kernel

/-- `s` with its journal changed. -/
def withJournal (s : State) (f : Journal → Journal) : State := { s with journal := f s.journal }

theorem witness_JournalSessions :
    let k : Session := ⟨.append 4 2 0 [], false⟩
    let m : Session := ⟨.append 3 1 0 [], false⟩
    let asleep : State := { up with doze := { inDoze := true } }
    let q := withJournal up (fun j => { j with queue := [k, m] })
    let u := q.advance 1
    let d := (withJournal up (fun j => { j with compactDue := true })).advance 1
    asleep.journalRefusal k.job ≠ 0 ∧ (up.journalRefusal k.job = 0 ∧ up.journalFree = true) ∧ (q.journalRefusal k.job = 0 ∧ q.journalFree = false) ∧
    (u.awake = true ∧ u.doze.inDoze = false ∧ u.doze.requested = false ∧ u.journal.ready = true ∧ u.journal.running = none ∧ u.journal.compactDue = false ∧
      u.journal.nextSession = some m) ∧
    (d.awake = true ∧ d.journal.running = none ∧ d.journal.compactDue = true) ∧
    ((up.advance 1).journal.compactDue = false ∧ (up.advance 1).journal.queue = []) ∧
    (∀ x ∈ u.journal.queue, 1 ≤ x.job.cls ∧ x.job.cls ≤ 5) := by decide +kernel

/-- A committed bank of generation 1 at JNL_BASE 0x80. -/
def banked : State := { withJournal up (fun j => { j with ready := false }) with
  flash := Memory.program [] 0x800000 (bytesOf 4 0x46454E42 ++ bytesOf 4 1 ++ bytesOf 4 0 ++
    bytesOf 4 (crc32 (bytesOf 4 0x46454E42 ++ bytesOf 4 1 ++ bytesOf 4 0)).toNat ++ [0]) }

theorem witness_JournalAppendAndCompaction :
    let a := (withJournal up (fun j => { j with running := some ⟨.append 5 6 1 [1, 2], true⟩ })).advance 1
    let c := (withJournal up (fun j => { j with running := some ⟨.compact 1, false⟩ })).advance 1
    let n := (withJournal up (fun j => { j with ready := false, base := 0 })).advance 1
    let blank := (withJournal up (fun j => { j with ready := false })).advance 1
    let u := banked.advance 1
    (a.awake = true ∧ a.journal.running = some ⟨.append 5 6 1 [1, 2], true⟩) ∧ (c.awake = true ∧ c.journal.running = some ⟨.compact 1, false⟩ ∧ c.journal.failedCompactions = 0) ∧
    (up.advance 1).journal.running = none ∧
    (n.awake = true ∧ (n.image.accepted = true ∨ n.image.refused = true) ∧ n.journal.ready = false ∧ n.journal.base = 0) ∧
    (u.awake = true ∧ u.image.accepted = true ∧ u.journal.ready = false ∧ u.journal.base ≠ 0 ∧ activeBank u.flash u.journal.base = some (0, 1)) ∧
    (blank.journal.base ≠ 0 ∧ activeBank blank.flash blank.journal.base = none) := by decide +kernel

theorem witness_AppendedRecordBytes :
    let start := bankAddr up.journal.base up.journal.bank + up.journal.fill
    Memory.wf up.flash = true ∧ start - 1 < start ∧ start + 16 + 2 ≤ start + 18 := by decide +kernel

theorem witness_JournalCommands :
    let b := (withJournal up (fun j => { j with busy := true })).advance 1
    (b.awake = true ∧ b.journal.busy = true) ∧ ((up.advance 1).awake = true ∧ (up.advance 1).journal.busy = false) := by decide +kernel

theorem witness_KeysBlock :
    let with_ (k : Keys) : State := ({ up with keys := k } : State).advance 0
    let u := with_ { data := #v[1, 0, 0, 0], dataPs := some (99 * 10 ^ 12) }
    let zero := with_ {}
    let held := with_ { slots := (Vector.replicate 8 none).set 7 (some 1) }
    let busy (n : Nat) := with_ { busy := some (n, 7, 1) }
    (u.awake = true ∧ u.keys.busy = none ∧ u.keys.dataPs = some (99 * 10 ^ 12) ∧ 99 * 10 ^ 12 + 10 ^ 12 ≤ u.clock) ∧
    (u.keys.slotSet 7 = false ∧ u.keys.word ≠ 0) ∧ (held.keys.busy = none ∧ held.keys.slotSet 7 = true) ∧
    (zero.keys.slotSet 0 = false ∧ zero.keys.word = 0) ∧ (0x4B58 : BitVec 16) ≠ 0x4B59 ∧
    ((busy 1).keys.busy = some (1, 7, 1) ∧ (busy 2).keys.busy = some (2, 7, 1) ∧ (busy 3).keys.busy = some (3, 7, 1) ∧
      (busy 1).keys.busy.isSome = true ∧ (busy 1).awake = true) := by decide +kernel

/-- A frame to the running part that carries a UDP datagram of the collector. -/
def framed (l : List Byte) : List Byte :=
  etherBytes up.host.mac 0x020000000001 0x0800 (ipBytes 0 17 peer.ip up.host.ip 0 false (udpBytes peer.ip up.host.ip 5000 up.host.udpPort l))

/-- A COMMAND datagram (Tables 14.2 and 14.13). -/
def commandFrame (id : BitVec 32) (op n : Nat) (args : List Byte) : List Byte :=
  framed (datagramHead 3 0x20 0 ++ bytesOf 4 id.toNat ++ bytesOf 2 op ++ bytesOf 2 n ++ args)

theorem witness_received_frames :
    up.host.verdict [] = .discard ∧ up.host.verdict (etherBytes broadcast 2 0x0806 (arpBytes 1 2 0x0A000009 0 0x0A000001)) = .taken ∧
    up.host.verdict (commandFrame 7 0x40 0 []) = .taken ∧ up.host.verdict (commandFrame 7 0x03 0 []) = .bad ⟨peer, 7, 0x03⟩ ∧
    up.host.verdict (commandFrame 7 0x40 1 [0]) = .bad ⟨peer, 7, 0x40⟩ := by decide +kernel

theorem witness_HostPortLink :
    let with_ (f : HPort → HPort) : State := ({ up with host := f up.host } : State).advance 0
    let down := with_ (fun h => { h with link := false, ctrl := 0x480A03E8 })
    let lost (n at_ : Nat) := with_ (fun h => { h with nextHop := none, arpTries := n, arpPs := at_ })
    let u := up.advance 0
    (u.portRuns = true ∧ u.host.link = true ∧ (10000 : Nat) ≤ 10000) ∧
    (down.portRuns = true ∧ down.host.link = false ∧ down.host.mode ≠ 0 ∧ (false = true ∨ down.host.mode = 2 ∨ down.host.anEn = false)) ∧
    u.awake = true ∧ (u.hostUp = true ∧ u.host.nextHopIp ≠ 0x0A000009 ∧ (0x0A000001 : BitVec 32) = u.host.ip ∧ (0x0A000003 : BitVec 32) ≠ u.host.ip) ∧
    (u.host.resolved = true ∧ u.host.nextHopIp = 0x0A000002 ∧ u.host.nextHop = some (0x0A000002, 0x020000000001, 100 * 10 ^ 12)) ∧
    ((lost 0 0).host.nextHopIp ≠ 0 ∧ (lost 0 0).host.resolved = false ∧ (lost 0 0).hostUp = true ∧ (lost 0 0).host.arpTries = 0) ∧
    ((lost 3 (99 * 10 ^ 12)).host.arpTries = 3 ∧ (lost 3 (99 * 10 ^ 12)).host.arpPs + 10 ^ 12 ≤ (lost 3 (99 * 10 ^ 12)).clock ∧
      (lost 3 (99 * 10 ^ 12 + 1)).clock < (lost 3 (99 * 10 ^ 12 + 1)).host.arpPs + 10 ^ 12) ∧
    (3 < (lost 4 (90 * 10 ^ 12)).host.arpTries ∧ (lost 4 (90 * 10 ^ 12)).host.arpPs + 10 ^ 13 ≤ (lost 4 (90 * 10 ^ 12)).clock ∧
      (lost 4 (90 * 10 ^ 12 + 1)).clock < (lost 4 (90 * 10 ^ 12 + 1)).host.arpPs + 10 ^ 13) ∧
    (let old := with_ (fun h => { h with nextHop := some (0x0A000002, 1, 40 * 10 ^ 12) })
     old.host.resolved = true ∧ old.host.nextHop = some (0x0A000002, 1, 40 * 10 ^ 12) ∧ 40 * 10 ^ 12 + 60 * 10 ^ 12 ≤ old.clock) ∧
    ((0x0A000002 : BitVec 32) ≠ 0 ∧ u.host.ackDue = false) ∧ (List.replicate 1472 (0 : Byte)).length ≤ 1472 := by decide +kernel

/-- An address that is not the collector's. -/
def stranger : Peer := ⟨0x0A000009, 6000⟩

/-- The host port with no session. -/
def silent : State := { up with host := { up.host with session := none } }

theorem witness_Sessions :
    let u := up.advance 1
    let q : QSession := { peer := peer, version := 3, timeoutS := 5, mask := 0, lastRxPs := 100 * 10 ^ 12 }
    let told : State := { up with host := { up.host with byeSent := [(stranger, 100 * 10 ^ 12)] } }
    u.hostUp = true ∧ ((2 : BitVec 8).toNat < (3 : BitVec 8).toNat ∨ (2 : BitVec 8).toNat = 0 ∨ min 3 (2 : BitVec 8).toNat < (3 : BitVec 8).toNat) ∧
    (1 ≤ (3 : BitVec 8).toNat ∧ (3 : BitVec 8).toNat ≤ min 3 (3 : BitVec 8).toNat) ∧ ((silent.advance 1).hostUp = true ∧ (silent.advance 1).host.session = none) ∧
    (u.host.session = some q ∧ q.peer = peer ∧ q.version = min 3 (3 : BitVec 8).toNat ∧ q.version ≠ min 3 (2 : BitVec 8).toNat ∧ q.peer ≠ stranger) ∧
    (u.fromCollector stranger = false ∧
      (u.host.byeSent.any (fun p => p.1 == stranger && decide (u.clock < p.2 + 10 ^ 12))) = false ∧
      ((told.advance 1).host.byeSent.any (fun p => p.1 == stranger && decide ((told.advance 1).clock < p.2 + 10 ^ 12))) = true) ∧
    (((spoken 3).advance 1).portRuns = true ∧ ((spoken 3).advance 1).host.session = some { q with lastRxPs := 0 } ∧
      0 + 5 * 10 ^ 12 ≤ ((spoken 3).advance 1).clock) := by decide +kernel

theorem witness_RecordFlow :
    let r : Record := { typ := 0x40, ctx := 0xFFFF, reach := 0xFF, stamp := 0, payload := [] }
    let h : Held := { record := r, from_ := 0, atPs := 100 * 10 ^ 12 - 50000000 }
    let later : Held := { h with atPs := 100 * 10 ^ 12 - 50000000 + 1 }
    let u := ({ up with held := [h, later] } : State).advance 0
    let q : QSession := { peer := peer, version := 3, timeoutS := 5, mask := 0, lastRxPs := 100 * 10 ^ 12 }
    let busy := ({ up with host := { up.host with lastTxPs := 100 * 10 ^ 12 } } : State).advance 0
    (u.serving = true ∧ u.held = h :: [later] ∧ h.atPs + 50000000 ≤ u.clock ∧ ∀ x ∈ [later], u.clock < x.atPs + 50000000) ∧
    (u.hostUp = true ∧ u.host.resolved = true ∧ u.host.session = some q ∧ u.host.lastTxPs + 10 ^ 12 ≤ u.clock) ∧
    (busy.host.session = some q ∧ busy.clock < busy.host.lastTxPs + 10 ^ 12) ∧ q.peer = peer ∧ ((5 : Nat) ≠ r.ctx ∧ (5 < 256 ∨ r.ctx < 256)) ∧
    r.size ≤ queueMax := by decide +kernel

/-- `n` unended lifecycle commands of the session, CMD_ID 1 on. -/
def laden (n : Nat) : State := { up with host := { up.host with
  open_ := (List.range n).map (fun i => { id := BitVec.ofNat 32 (i + 1), op := 0x11, session := 1, status := 2, reason := 0 })
  cmds := (List.range n).map (fun i => { id := BitVec.ofNat 32 (i + 1), op := 0x11, session := 1, status := 2, reason := 0 }) } }

theorem witness_CommandAdmission :
    let closed : State := { up with host := { up.host with ctrl := 0x200A03E8 } }
    (alone up).hostUp = false ∧ (up.hostUp = true ∧ up.fromCollector stranger = false ∧ up.fromCollector peer = true) ∧
    (closed.hostUp = true ∧ closed.fromCollector peer = true ∧ closed.host.cmdEn = false) ∧
    (up.host.cmdEn = true ∧ up.host.cmds.find? (fun c => c.id == 7) = none ∧ 2 ≤ up.sessionVersion ∧ up.host.open_.length < 32) ∧
    ((0x03 : BitVec 16) ∉ ([0x01, 0x02, 0x10, 0x11, 0x20, 0x30, 0x40, 0x41, 0xF0, 0xF1] : List (BitVec 16)) ∧ 1 ≤ up.sessionVersion) ∧
    ((laden 1).host.cmds.find? (fun c => c.id == 1) = some { id := 1, op := 0x11, session := 1, status := 2, reason := 0 }) ∧
    ((spoken 1).sessionVersion < 2 ∧ (spoken 1).hostUp = true) ∧
    (32 ≤ (laden 32).host.open_.length ∧ (laden 32).host.cmds.find? (fun c => c.id == 77) = none) := by decide +kernel

theorem witness_QrpCommands :
    let u := up.advance 1
    let ready (s : State) (id : BitVec 32) := s.hostUp = true ∧ s.fromCollector peer = true ∧ s.host.cmdEn = true ∧ id ≠ 0 ∧
      s.host.cmds.find? (fun c => c.id == id) = none
    let many (k : Nat) := k = 0 ∨ 64 < k
    let w (s : State) := ((s.advance 1).heard.remember 99 0xF0)
    let none_ : State := { up with reaches := Vector.replicate 4 {} }
    ready u 99 ∧ 1 ≤ u.sessionVersion ∧ 2 ≤ u.sessionVersion ∧ many 0 ∧ many 65 ∧ ¬ many 64 ∧ ¬ many 1 ∧ u.sessionVersion ≠ 1 ∧
    (addrsFrom 0x2FFC 2).any qrpRefused = true ∧ (addrsFrom 0x0000 64).any qrpRefused = false ∧
    ([(0x2800, 0)] : List (Addr × Word)).any (fun x => qrpRefused x.1) = true ∧ ([(0x3F00, 0)] : List (Addr × Word)).any (fun x => qrpRefused x.1) = false ∧
    ((u.heard.remember 99 0x02).writeAll 99 [(0x3F00, 1)]).runsOn = true ∧ (1 : BitVec 8).toNat ≤ 1 ∧ 1 < (2 : BitVec 8).toNat ∧
    u.host.open_.length < 32 ∧ u.reachUp 0 = true ∧ (ready (none_.advance 1) 99 ∧ ∀ r, (none_.advance 1).reachUp r = false) ∧
    (w up).cmdOf 7 = none ∧ ready ((laden 1).advance 1) 99 ∧
    (let c : Cmd := { id := 1, op := 0x11, session := 1, status := 2, reason := 0 }
     let ended : State := { laden 1 with host := { (laden 1).host with open_ := [] } }
     ((w (laden 1)).cmdOf 1 = some c ∧ (w (laden 1)).unended c = true) ∧ ((w ended).cmdOf 1 = some c ∧ (w ended).unended c = false)) := by
  decide +kernel

theorem witness_ContextWindow :
    let busy : State := { up with window := { up.window with busyUntil := 101 * 10 ^ 12 } }
    ((up.advance 1).awake = true ∧ (up.advance 1).window.busyUntil ≤ (up.advance 1).clock) ∧
    ((busy.advance 1).awake = true ∧ (busy.advance 1).clock < (busy.advance 1).window.busyUntil) ∧
    (up.commit (.window .twoWire) 0 (entry 1 1)).2 ≠ 0 ∧ (up.commitPair (.window .twoWire) 0 0 (entry 1 1) (entry 1 1)).2 ≠ 0 := by decide +kernel

theorem witness_FrameBoundaries :
    let p (at_ : Nat) : Pending := { entry := Entry.zero, place := {}, origin := .window .twoWire, at_ := at_ }
    let u (x : Ctx) := (one x).advance 0
    let x := ctx 1 .valid
    let inv (st : CtxSt) (req std : Nat) : State := u { ctx std st with invalid := true, active := entry req std }
    (u x).serving = true ∧ ((u x).ctxs[(0 : Fin 256)].boundaryIs (u x).clock .tick = true ∧ (u x).ctxs[(0 : Fin 256)].pending = none) ∧
    (let y := (u { x with pending := some (p 1) }); y.ctxs[(0 : Fin 256)].boundaryIs y.clock .tick = true ∧ y.ctxs[(0 : Fin 256)].pending = some (p 1) ∧
      y.ctxs[(0 : Fin 256)].st ≠ .migrating ∧ y.ctxs[(0 : Fin 256)].fade = none ∧ (p 1).at_ < y.clock) ∧
    (let y := (u { x with pending := some (p (100 * 10 ^ 12)) }); y.ctxs[(0 : Fin 256)].pending = some (p (100 * 10 ^ 12)) ∧ y.clock ≤ 100 * 10 ^ 12) ∧
    (u x).ctxs[(0 : Fin 256)].boundaryIs (u x).clock .dabFrame = false ∧
    (let y := u { ctx 3 .valid with dab := { sync := true } }
     y.ctxs[(0 : Fin 256)].boundaryIs y.clock .dabFrame = true ∧ y.ctxs[(0 : Fin 256)].boundaryIs y.clock .tick = false) ∧
    (let y := u { ctx 4 .valid with eab := { endPs := some (100 * 10 ^ 12) } }; y.ctxs[(0 : Fin 256)].boundaryIs y.clock .burstEnd = true) ∧
    (let f : Fade := { spare := { slots := 2 }, endPs := 100 * 10 ^ 12 }
     let y := u { x with fade := some f }
     y.ctxs[(0 : Fin 256)].fade = some f ∧ f.endPs ≤ y.clock ∧ y.clock < 100 * 10 ^ 12 + 1 ∧ (u x).ctxs[(0 : Fin 256)].fade = none) ∧
    (let y := u { ctx 1 .migrating with pending := some (p 1) }
     y.ctxs[(0 : Fin 256)].boundaryIs y.clock .tick = true ∧ y.ctxs[(0 : Fin 256)].st = .migrating ∧ y.ctxs[(0 : Fin 256)].waiting = false) ∧
    (let q : Pending := { p 1 with entry := (entry 1 1).set 3 0x40000000 }
     let y := u { ctx 1 .migrating with waiting := true, pending := some q }
     y.ctxs[(0 : Fin 256)].boundaryIs y.clock .tick = true ∧ y.ctxs[(0 : Fin 256)].pending = some q ∧ y.ctxs[(0 : Fin 256)].st = .migrating ∧
       y.ctxs[(0 : Fin 256)].waiting = true ∧ q.early = false ∧ q.entry.idle = false ∧ q.entry.reach ≠ y.ctxs[(0 : Fin 256)].reachOf ∧ q.pair = none ∧
       y.ctxs[(0 : Fin 256)].fade = none ∧ q.at_ < y.clock) ∧
    ((inv .valid 1 1).ctxs[(0 : Fin 256)].validPs ≤ (inv .valid 1 1).clock ∧
      (let y := u { ctx 1 .valid with invalid := true, validPs := 100 * 10 ^ 12 + 1 }; y.chainRuns 0 = true ∧ y.clock < y.ctxs[(0 : Fin 256)].validPs)) ∧
    (∀ q ∈ [inv .acquire 2 1, inv .acquire 1 5, inv .acquire 1 1, u { ctx 1 .settling with invalid := true, resettle := true }, inv .valid 1 1, inv .hold 1 1],
      q.chainRuns 0 = true ∧ q.ctxs[(0 : Fin 256)].invalid = true ∧ q.ctxs[(0 : Fin 256)].placed = false) ∧
    ((inv .acquire 2 1).ctxs[(0 : Fin 256)].active.req = 2 ∧ (inv .acquire 1 5).ctxs[(0 : Fin 256)].active.std = 5 ∧
      (inv .acquire 1 1).ctxs[(0 : Fin 256)].active.std ≠ 5 ∧ (inv .acquire 1 1).ctxs[(0 : Fin 256)].active.req ≠ 2) := by decide +kernel

theorem witness_EngineService :
    let with6 (m : Nat) : State := (one { ctx 1 .valid with active := (entry 1 1).set 6 (BitVec.ofNat 32 (m * 2 ^ 30 + 20 * 256)) }).advance 1
    let cagc (s : State) := s.ctxs[(0 : Fin 256)].active.cagcNow
    (up.advance 1).engineUp 0 = true ∧ (up.advance 1).engineUp 7 = true ∧ (∀ m ∈ [0, 1, 2], (with6 m).chainRuns 0 = true ∧ cagc (with6 m) = m) ∧
    (let x := (with6 1).ctxs[(0 : Fin 256)]
     (false || x.agcHeld ((with6 1).reaches[x.reachOf].blanked (with6 1).clock)) = false ∧ (true || x.agcHeld false) = true ∧
       (79 : Int) < (4 * x.active.cagcTarget : Nat) ∧ (4 * x.active.cagcTarget : Nat) ≤ (80 : Int)) ∧
    ((up.advance 1).pageWait 0 = false ∧ (({ up with ecc := { up.ecc with badPages := [0] } } : State).advance 1).pageWait 0 = true) := by
  decide +kernel

theorem witness_FmAmLock :
    let x (s : State) := s.ctxs[(0 : Fin 256)]
    let fm (st : CtxSt) (f : Fm) : State := (one { ctx 1 st with fm := f }).advance 0
    let am (a : Am) (w10 : Word) : State := (one { ctx 2 .settling w10 with am := a }).advance 0
    let window (t : Nat) := fm .settling { carrierLock := true, pilotWindow := true, sincePs := t }
    let held (s : State) (us : Nat) := (x s).validPs + us * 10 ^ 6 ≤ s.clock
    let loop (on : Bool) := am { loopLocked := on, lock := !on, loopPs := 99 * 10 ^ 12 } 0x40000000
    ((fm .settling {}).engineServes 0 1 = true ∧ (x (fm .settling {})).fm.carrierLock = false ∧ (x (fm .settling {})).fm.pilotKnown = false ∧
      (x (fm .settling {})).active.lockCnr ≤ 20 ∧ 19 < (x (fm .settling {})).active.lockCnr ∧ held (fm .settling {}) 8000) ∧
    ((window 1).engineServes 0 1 = true ∧ (x (window 1)).fm.carrierLock = true ∧ 13 + 6 < (x (window 1)).active.lockCnr ∧ held (window 1) 50000 ∧
      (x (window 1)).fm.pilotWindow = true ∧ (x (window (100 * 10 ^ 12 - 150 * 10 ^ 9))).fm.sincePs + 150 * 10 ^ 9 ≤ (window 1).clock ∧
      (window 1).clock < (x (window (100 * 10 ^ 12 - 150 * 10 ^ 9 + 1))).fm.sincePs + 150 * 10 ^ 9) ∧
    (let y (on : Bool) := fm .valid { pilotKnown := true, stereo := on }
     (y true).engineServes 0 1 = true ∧ (x (y true)).st = .valid ∧ (x (y true)).active.stereoAuto = true ∧ (x (y true)).fm.pilotKnown = true ∧
       (x (y true)).fm.stereo = true ∧ (x (y false)).fm.stereo = false) ∧
    ((am {} 0).engineServes 0 2 = true ∧ (x (am {} 0)).am.lock = false ∧ (x (am {} 0)).active.detect ≠ 1 ∧ (x (am {} 0)).active.lockCnr ≤ 20 ∧
      held (am {} 0) 20000 ∧ (x (am { lock := true } 0)).am.lock = true ∧ 13 + 6 < (x (am {} 0)).active.lockCnr ∧ held (am {} 0) 100000) ∧
    ((x (loop true)).active.detect = 1 ∧ (x (loop true)).am.loopLocked = true ∧ (x (loop true)).am.lock = false ∧
      (x (loop true)).am.loopPs + 20 * 10 ^ 9 ≤ (loop true).clock ∧ (x (loop false)).am.loopLocked = false ∧ (x (loop false)).am.lock = true ∧
      (x (loop false)).am.loopPs + 100 * 10 ^ 9 ≤ (loop false).clock) ∧
    (let v := true && decide ((200 : Int).natAbs ≤ 200); (x (loop true)).am.loopLocked = v ∧ (x (loop false)).am.loopLocked ≠ v) ∧
    (let y := x (am { lock := true } 0); y.locked = true ∧ y.st = .settling ∧ y.resettle = false) ∧
    (let y := x (fm .hold { lock := true }); y.locked = true ∧ y.st = .hold ∧ y.active.req = 1) ∧
    ((x (fm .valid {})).locked = false ∧ (x (fm .valid {})).st = .valid ∧ (x (am {} 0)).locked = false) := by decide +kernel

theorem witness_RdsAndPcm :
    let x := { ctx 1 .valid 0x04000000 with active := (entry 1 1 0x04000000).set 9 0x40000000 }
    let fm (f : Fm) : State := (one { x with fm := f }).advance 1
    let group (o : RdsOffset) : Fm := { carrierLock := true, rdsSync := true, group := [(o, 0x54A8, 0), (if o == .e then .e else .b, 0, 0), (if o == .e then .e else .c, 0, 0), (if o == .e then .e else .d, 0, 0)] }
    let a := fm (group .a)
    let e := fm (group .e)
    (a.engineServes 0 1 = true ∧ a.ctxs[(0 : Fin 256)].active.rdsEn = true ∧ a.ctxs[(0 : Fin 256)].fm.carrierLock = true ∧
      a.ctxs[(0 : Fin 256)].fm.rdsSync = true ∧ a.ctxs[(0 : Fin 256)].fm.group.length = 4 ∧ a.ctxs[(0 : Fin 256)].fm.mmbs = false ∧
      a.ctxs[(0 : Fin 256)].fm.isCt = false) ∧
    (e.engineServes 0 1 = true ∧ e.ctxs[(0 : Fin 256)].fm.rdsSync = true ∧ e.ctxs[(0 : Fin 256)].fm.group.length = 4 ∧ e.ctxs[(0 : Fin 256)].fm.mmbs = true) ∧
    (a.ctxs[(0 : Fin 256)].active.outPcm = true ∧ a.ctxs[(0 : Fin 256)].active.scout = false ∧ a.ctxs[(0 : Fin 256)].st = .valid ∧
      a.ctxs[(0 : Fin 256)].gate = none ∧ a.turnTo 0 = none ∧ ([] : List PcmFrame).length < (pcmFormat a.ctxs[(0 : Fin 256)].active.pcmMode).1) ∧
    (let full : Fm := { audio := { frames := List.replicate 512 { left := 0, right := 0, clip := false, weight := 0, marks := {}, atPs := 0 } } }
     (pcmFormat (fm full).ctxs[(0 : Fin 256)].active.pcmMode).1 ≤ (fm full).ctxs[(0 : Fin 256)].fm.audio.frames.length) ∧
    (let f : Fm := { rdsReg := BitVec.ofNat 26 (offsetWord .b), rdsMarks := List.replicate 26 {}, rdsCands := [⟨25, .a, 0, 0, {}⟩] }
     matchOffset (entry 1 1).rbds f.rdsReg.toNat = some .b ∧ 26 ≤ f.rdsMarks.length ∧ (⟨25, .a, 0, 0, {}⟩ : RdsCand) ∈ f.rdsCands ∧
       follows (entry 1 1).rbds .a .b = true ∧ matchOffset (entry 1 1).rbds 1 = none) ∧
    (follows (entry 1 1).rbds .d .a = true ∧ rdsRem (offsetWord .c) = offsetWord .c) ∧
    21 ≤ (((List.replicate 21 (3 : Fin 4)).take 49).filter (· == 3)).length := by decide +kernel

/-- A FIC all of whose soft bits are 0, with the three FIBs that the Viterbi decoder returns from it: the energy dispersal alone. -/
def zeroFic : Fic :=
  let l := bytesOfBits 96 (dispersal 768 (List.replicate 9 true))
  ⟨0, List.replicate 2304 .zero, [⟨0, l.take 32⟩, ⟨1, (l.drop 32).take 32⟩, ⟨2, l.drop 64⟩]⟩

theorem witness_DabReception :
    let org : SubOrg := { sub := 5, start := 0, size := 84, profile := 3, defined := true }
    let dab (d : Dab) (w8 : Word := 0) : State := (one { ctx 3 .valid with active := (entry 1 3).set 8 w8, dab := d }).advance 1
    let d (s : State) := s.ctxs[(0 : Fin 256)].dab
    let y : DabSub := { sub := 5, frames := List.replicate 5 ([], { stamp := 0, cif := 0, errors := 0, compared := 0, marks := {}, combined := false }) }
    let u := dab { sync := true, stored := 16, orgs := [org], newOrgs := [org], newComplete := true, reached := true, classes := [(5, .dabPlus)], subs := [y] }
    let scout := dab { sync := true, onlyFrame := some 1 } 0x80000000
    ((dab {}).engineServes 0 3 = true ∧ (d (dab {})).sync = false ∧ (10000 : Int).natAbs ≤ 10000) ∧
    (u.engineServes 0 3 = true ∧ (d u).sync = true ∧ (d u).occurrence = none ∧ 16 ≤ (d u).stored ∧ (d u).newComplete = true ∧ (d u).reached = true ∧
      (3 : Nat) ≤ 3 ∧ (2 : Nat) < 3) ∧
    (u.ctxs[(0 : Fin 256)].active.scout = false ∧ u.ficWaited 0 zeroFic 0 = true ∧ u.ficReturned 0 { zeroFic with fibs := [] } 0 [] = false ∧
      u.partnerFic 0 ((d u).ficCount 0 zeroFic.cif) = none) ∧
    (scout.engineServes 0 3 = true ∧ (d scout).sync = true ∧ scout.ctxs[(0 : Fin 256)].active.scout = true ∧ (d scout).onlyFrame = some 1 ∧ (1 : Nat) ≠ 0) ∧
    (u.frameWaited 0 = true ∧ u.frameReturned 0 6 { bits := [] } = true) ∧
    ((d u).yields 5 = true ∧ (d u).classOf 5 = .dabPlus ∧ (d u).sub? 5 = some y ∧ y.frames.length = 5 ∧ rsReturns y.raw [] [] = true ∧ fireOk [] = false) ∧
    (d (dab { sync := true, stored := 15 })).stored < 16 ∧
    (let d : Dab := { sync := true, frameGood := 6, eid := some 0xE123 }
     d.sync = true ∧ d.eidLost = false ∧ 6 ≤ d.frameGood ∧ (0xE123 % 65536 = 0 ∨ d.eid = some (0xE123 % 65536))) ∧
    (let d : Dab := { sync := true, frameGood := 5 }; d.sync = false ∨ d.frameGood < 6) ∧
    (let d : Dab := { badFrames := 9 }; d.frameGood = 0 ∧ 9 ≤ d.badFrames) ∧ (let d : Dab := { frameGood := 1 }; d.frameGood ≠ 0) := by decide +kernel

theorem compareBits_zero : ∀ (n : Nat) (l : List Soft), .one ∉ l → (compareBits (List.replicate n false) l).1 = 0
  | 0, _, _ => rfl
  | _ + 1, [], _ => rfl
  | n + 1, v :: t, h => by
    have k := compareBits_zero n t (fun m => h (List.mem_cons_of_mem v m))
    cases v <;> simp_all [List.replicate_succ, compareBits]

/-- Where no soft bit is 1, the empty path stays the nearest. -/
theorem leastDistance_zero : ∀ (n : Nat) (l : List Soft) (m : List Nat), .one ∉ l → m.getD 0 0 = 0 → leastDistance n l m = 0
  | 0, _, m, _, k => by cases m <;> first | rfl | exact k
  | n + 1, l, m, h, k => by
    refine leastDistance_zero n _ _ (fun q => h (List.mem_of_mem_drop q)) ?_
    have z : (compareBits (List.replicate 4 false) (l.take 4)).1 = 0 := compareBits_zero 4 _ (fun q => h (List.mem_of_mem_take q))
    change min (m.getD 0 0 + (compareBits (List.replicate 4 false) (l.take 4)).1) _ = 0
    rw [k, z]; exact Nat.zero_min _

/-- The Viterbi decoder returns the zero code word from its soft bits (R262). -/
theorem witness_DabReception_fic : (one { ctx 3 .valid with dab := { sync := true } }).ficReturned 0 zeroFic 0 (List.replicate 4 {}) = true := by
  have a : (one { ctx 3 .valid with dab := { sync := true } }).ficSoft 0 zeroFic 0 (List.replicate 4 {}) = zeroFic.soft := by decide +kernel
  have b : xorBits ((zeroFic.fibs.flatMap (fun f => f.bytes)).flatMap bitsOfByte) (dispersal 768 (List.replicate 9 true)) = List.replicate 768 false := by
    decide +kernel
  have d : (reencode (List.replicate 768 false) (depuncture .erased ficMask zeroFic.soft)).1 = 0 := by decide +kernel
  have z : Soft.one ∉ depuncture .erased ficMask zeroFic.soft := by decide +kernel
  rw [State.ficReturned, a, b, viterbiReturns, d, leastDistance_zero _ _ _ z rfl]
  decide +kernel

/-- A version 2 header of rate 1 from TX_ID 0x0A1 with one codeword and its CRC. -/
def head : BitVec 128 :=
  let top := 2 * 2 ^ 109 + 2 * 2 ^ 104 + 0x0A1 * 2 ^ 92 + 0x0A1 * 2 ^ 80 + 2 * 2 ^ 76 + 1 * 2 ^ 74
  BitVec.ofNat 128 (top * 2 ^ 16 + (crc16 (bytesOf 14 top)).toNat)

/-- One EAB context with a reception, under W10. -/
def eab (e : Eab) (w10 : Word := 0) : State := (one { ctx 4 .valid w10 with eab := e }).advance 1

/-- A reception that has ended with its header. -/
def ended : Ended :=
  { rx := { header := some head }, status := 0, stage := 4, auth := 0, symbols := 0, other := none, endStamp := 100 * 10 ^ 9, atPs := 100 * 10 ^ 12 }

/-- The decisions of a burst from the detection on: 24 symbols of the preamble, the sync word and `n` more symbols. -/
def heardQuads (n : Nat) : List (Option Quad) := (alternation 24 ++ syncQuads).map some ++ List.replicate n (some .p1)

/-- A context in the state of a reception that has heard `l`. -/
def hearing (st : RxSt) (l : List (Option Quad)) (rx : Reception := {}) : State := eab { st := st, rx := { rx with syms := l, raw := l.map (fun _ => { value := .p1 }) } }

theorem witness_EabReceptionStates :
    let x (s : State) := s.ctxs[(0 : Fin 256)]
    let rx (st : RxSt) (l : List (Option Quad)) := (x (hearing st l)).heard []
    let loud : List EabSym := (alternation 16).map (fun q => { value := q, power := 1000 })
    ((eab {}).engineServes 0 4 = true ∧ (x (eab {})).eab.lock = false ∧ (x (eab {})).eab.lockLost = false ∧ (x (eab { lock := true })).eab.lock = true ∧
      (x (eab {})).active.eabChannel = false) ∧
    (let y := eab { st := .armed, noise := 1 }
     (x y).eab.st = .armed ∧ (x y).detects loud (x y).agcLevel (snrOver loud 1) = true ∧ 11 < (x y).active.detSnr) ∧
    ((x (hearing .preamble [])).eab.st = .preamble ∧ endsPreamble (rx .preamble ((heardQuads 0).take 26)).syms = true ∧
      falsePreamble (rx .preamble ((alternation 80).map some)).syms = true) ∧
    ((x (hearing .syncWait [])).eab.st = .syncWait ∧
      (rx .syncWait (heardQuads 0)).finds (x (eab {})).active.eabChannel (symbolsNs (x (eab {})).active.eabChannel 8) = true ∧
      missesSync (rx .syncWait ((alternation 24).map some ++ List.replicate 33 (some .p3))).syms = true) ∧
    (hCrcOk 0 = false ∧ hCrcOk head = true ∧ hBadFormat (x (eab {})).active head = false ∧ hBadFormat (((entry 1 4).set 11 1)) head = true) ∧
    (let y := hearing .filtered (heardQuads (128 + codewordSymbols 1)) { header := some head }
     y.heardHeader 0 = some head ∧ y.burstEnds 0 [] = true ∧ (y.hearSymbols 0 []).echoes 0 = false ∧ (x y).eab.st = .filtered) ∧
    ((eab {}).reachUp (x (eab {})).reachOf = true ∧ (x (eab {})).st ≠ .migrating ∧ (x (eab { ended := [ended] })).eab.toHandOver = some ended ∧
      (x (eab {})).eab.toHandOver = none) := by
  decide +kernel

/-- The header as its decoder returns it, and a member of a matched pair that does not decode. -/
theorem witness_EabReceptionStates_header :
    let x (s : State) := s.ctxs[(0 : Fin 256)]
    let member (w7 : Word) (e : Eab) : Ctx := { ctx 4 .valid with active := (entry 1 4).set 7 w7, eab := e }
    let first : Reception := { syms := heardQuads 128, syncStamp := some 0 }
    let echoing : State := (withCtx (withCtx up 0 (member 0x40010000 { st := .header, rx := first })) 1 (member 0x40000000 { st := .header, rx := first })).advance 1
    let y := hearing .header (heardQuads 128)
    (x y).eab.st = .header ∧ y.echoes 0 = false ∧ ((x y).heard []).arrived 152 [] = true ∧ y.mayDecode 0 152 = true ∧
      (y.hearSymbols 0 []).headerReturns 0 (List.replicate 256 false) 1 = true ∧ echoing.echoes 1 = true ∧
      echoing.ctxs[(1 : Fin 256)].eab.st = .header ∧ (echoing.ctxs[(1 : Fin 256)].heard []).arrived 152 [] = true := by
  decide +kernel

/-- A codeword as its decoder returns it. -/
theorem witness_EabReceptionStates_codeword :
    let y := hearing .payload (heardQuads (128 + codewordSymbols 1)) { header := some head }
    let x := y.ctxs[(0 : Fin 256)]
    hRate head = 1 ∧ x.eab.st = .payload ∧ y.echoes 0 = false ∧ y.heardHeader 0 = some head ∧ x.eab.rx.cwDone < hCw head ∧
      (x.heard []).arrived (syncToEnd 1 1) [] = true ∧ y.mayDecode 0 (syncToEnd 1 1) = true ∧
      (y.hearSymbols 0 []).codewordReturns 0 head (List.replicate 768 false) 1 = true := by decide +kernel

/-- R310: 20 ms of samples, and 1 s with more than half of them marked. -/
theorem witness_EabReceptionStates_lock :
    lockSamples false ≤ (1000 : Nat) ∧ ((ctx 4 .valid).eabLoses 48829 24415 = true ∧ (ctx 4 .valid).active.eabChannel = false) := by
  have h : (ctx 4 .valid).active.eabChannel = false := by decide +kernel
  refine ⟨by norm_num [lockSamples], ?_, h⟩
  rw [Ctx.eabLoses, h, decide_eq_true_iff]
  norm_num [lockSamples]

/-- R293: what a decoder answers when every check is satisfied, in the two codes. -/
theorem test_code_words : headerChecks (encodeHeader (bitsOf 128 5)) = true ∧ payloadChecks 1 ((encodePayload (bitsOf 512 5)).take 768) = true := by
  decide +kernel

theorem witness_EabShadowAndNoise :
    let x (s : State) := s.ctxs[(0 : Fin 256)]
    let rx (l : Int) := eab { st := .payload, noise := 1, rx := { level := l } }
    let idle := eab { st := .armed, nfStartPs := 1 } 5
    let late := ({ up with replayJournalPs := some (99 * 10 ^ 12) } : State).advance 0
    let syms (p : Nat) : List EabSym := (alternation 16).map (fun q => { value := q, power := p })
    let key : ReplayKey := { origin := 1, slot := 0, highest := 1, window := 1, dirty := true }
    let k (l : Int) (p : Nat) := (x (rx l)).candidate (syms p) 300 0
    ((rx 0).engineServes 0 4 = true ∧ (x (rx 0)).eab.receiving = true ∧ (x (rx 0)).eab.st = .payload ∧ (x (rx 0)).shadowFinds (k 0 1000) = true ∧
      (k 0 1000).level < 0 + 60 ∧ -2000 + 60 ≤ (k (-2000) 1000).level ∧ (x (rx 0)).shadowGoesOn (k 0 1) = false ∧
      (x (rx 0)).candidateSnr (k 0 1) < (x (rx 0)).active.detSnr) ∧
    (let y := eab { st := .payload, noise := 1, shadow := some { level := 0, foffset := 300, stamp := 0, syms := (alternation 16).map some } }
     (x y).eab.receiving = true ∧ (x y).shadowGoesOn ((x y).candidate (syms 1) 300 0) = true ∧ (x y).shadowDrops (List.replicate 8 { value := .p3 }) (List.replicate 8 0) = true) ∧
    (((x (rx (-2000))).heard (List.replicate 32 { value := .p3, power := 1000 })).levelRose = true ∧ (x (rx 0)).eab.rx.raw.length + 0 < 32) ∧
    (idle.engineServes 0 4 = true ∧ (x idle).eab.receiving = false ∧ (x idle).eab.shadow = none ∧ (x idle).spateFlag = false ∧
      (x idle).eab.endPs = none ∧ (x idle).eab.spatePs = none ∧
      (x idle).active.nfPeriod ≠ 0 ∧ (x idle).eab.nfStartPs + (x idle).active.nfPeriod * 10 ^ 12 ≤ idle.clock) ∧
    (late.serving = true ∧ 99 * 10 ^ 12 + 10 ^ 12 ≤ late.clock ∧ late.replayJournalPs = some (99 * 10 ^ 12) ∧ late.replay.all (fun k => !k.dirty) = true) ∧
    (let y : State := ({ up with replay := [key] } : State).advance 0
     y.serving = true ∧ y.replayJournalPs = none ∧ (y.replay.filter (fun k => k.dirty)).take 128 ≠ [] ∧
       (y.journalRequest ⟨.append 4 3 0 (((y.replay.filter (fun k => k.dirty)).take 128).flatMap ReplayKey.bytes), false⟩).2 ≤ 1) ∧
    late.clock < 99 * 10 ^ 12 + 1 + 10 ^ 12 := by decide +kernel

theorem witness_ReplayProtection :
    let k : ReplayKey := { origin := 0x0A1, slot := 0, highest := 5, window := 1 }
    replayStatus (([] : List ReplayKey).find? (fun k => k.isFor head)) (hCounter head) = 0 ∧
    replayStatus ([k].find? (fun k => k.isFor head)) (hCounter head) = 0 ∧ [k].find? (fun k => k.isFor head) = some k := by decide +kernel

theorem witness_FollowingAndTwins :
    let cand : Cand := { carrier := ⟨1, false, 97000000, 0xC301⟩, sources := 1, checks := [(true, -600, 99 * 10 ^ 12)] }
    let af (e : Entry) : Entry := e.set 8 0x00004000
    let pair (e : Entry) : Entry := e.set 7 0x40010000
    let x : Ctx := { ctx 1 .hold with active := af (entry 1 1), follow := { cands := [cand], holdSince := some (98 * 10 ^ 12) } }
    let u (y : Ctx) : State := (one y).advance 0
    let scout (k : Option (Fin 256 × Carrier)) := u { ctx 1 .valid with active := (entry 1 1).set 8 0x80000000, follow := { check := k } }
    let paired (std : Nat) := (u { ctx std .hold with active := pair (entry 1 std) })
    ((scout none).serving = true ∧ (scout none).scoutFree 0 = true) ∧
    ((scout (some (1, cand.carrier))).ctxs[(0 : Fin 256)].follow.check = some (1, cand.carrier) ∧
      (scout (some (1, cand.carrier))).ctxs[(0 : Fin 256)].pending = none) ∧
    (let y := scout (some (1, cand.carrier))
     y.ctxs[(0 : Fin 256)].sequencerPending = false ∧ y.checkResult 0 1 cand.carrier 0 0 0 = some 3 ∧
       (let z := u { ctx 1 .valid with active := (entry 1 1).set 8 0x80000000, follow := { check := some (1, cand.carrier), checkPs := 100 * 10 ^ 12 } }
        z.checkResult 0 1 { cand.carrier with std := 2 } 0 0 0 = none) ∧
       (let z := withCtx (scout (some (1, cand.carrier))) 1 (ctx 2 .valid)
        z.ctxs[(0 : Fin 256)].invalid = false ∧ z.ctxs[(1 : Fin 256)].active.belowCnr 0 = true ∧ z.checkResult 0 1 cand.carrier 0 0 0 = some 1) ∧
       y.ownLevel 1 = none ∧ (withCtx y 1 (ctx 1 .valid)).ownLevel 1 = some (withCtx y 1 (ctx 1 .valid)).ctxs[(1 : Fin 256)].agcLevel) ∧
    ((u x).ctxs[(0 : Fin 256)].follow.learnedDirty = false ∧
      (let y := u { x with follow := { learnedDirty := true, learnedAt := some (40 * 10 ^ 12) } }
       y.ctxs[(0 : Fin 256)].follow.learnedDirty = true ∧ y.since y.ctxs[(0 : Fin 256)].follow.learnedAt (60 * 10 ^ 12) = true)) ∧
    (∀ n ∈ [1, 2, 3, 4], ((paired n).partnerOf 0).isSome = true ∧ (paired n).ctxs[(0 : Fin 256)].active.std = n ∧ (paired n).combineOverdue 0 = false) ∧
    (let y (f : Ctx → Ctx) (std : Nat) := u (f { ctx std .valid with active := pair (entry 1 std) })
     let e := y (fun x => { x with eab := { st := .header, rx := { syncStamp := some 0 } } }) 4
     let d := y (fun x => { x with dab := { sync := true, lines := [{ msc := ⟨[], [], 0, {}⟩, count := some 7 }] } }) 3
     let v := y (fun x => { x with twin := { x.twin with selected := some false } }) 1
     let w := withCtx v 1 { ctx 1 .valid with active := (entry 1 1).set 7 0x40000000 }
     (e.decodingMember 0 = 0 ∧ e.combineOverdue 0 = true ∧ e.ctxs[(0 : Fin 256)].active.std = 4) ∧
     (d.decodingMember 0 = 0 ∧ d.combineOverdue 0 = true ∧ d.ctxs[(0 : Fin 256)].active.std = 3) ∧
     ((w.partnerOf 0).isSome = true ∧ w.recordCtx 0 = 0 ∧ w.higherCtx 0 = 1 ∧ (w.ownLevel 0).isSome = true ∧ (w.ownLevel 1).isSome = true ∧
       w.switchMember 0 = 0 ∧ w.atOutput 0 (w.sampleTime 0 w.clock) = true ∧
       selectionAt w.ctxs[(0 : Fin 256)].twin.selected (w.isValid 0) (w.isValid 1) [] = w.ctxs[(0 : Fin 256)].twin.selected)) := by decide +kernel

theorem witness_FollowingAndTwins_landing :
    let cand : Cand := { carrier := ⟨1, false, 97000000, 0xC301⟩, sources := 1, checks := [(true, -600, 99 * 10 ^ 12)] }
    let af (e : Entry) : Entry := e.set 8 0x00004000
    let pair (e : Entry) : Entry := e.set 7 0x40010000
    let x : Ctx := { ctx 1 .hold with active := af (entry 1 1), follow := { cands := [cand], holdSince := some (98 * 10 ^ 12) } }
    let u (y : Ctx) : State := (one y).advance 0
    let l (started ready : Bool) : Landing :=
      { entry := entry 1 1, place := {}, cand := cand.carrier, started := started, ready := ready, startedPs := 98 * 10 ^ 12 }
    let landing (k : Landing) := u { ctx 1 .hold with follow := { landing := some k } }
    ((u x).ctxs[(0 : Fin 256)].follow.landing = none ∧ (u x).ctxs[(0 : Fin 256)].follow.hard = none ∧ (u x).ctxs[(0 : Fin 256)].sequencerPending = false ∧
      (u x).chosen 0 = some cand ∧ (u x).partnerOf 0 = none) ∧
    (let y := u { x with active := pair (af (entry 1 1)) }
     y.chosen 0 = some cand ∧ y.partnerOf 0 = some 1 ∧ y.ctxs[(0 : Fin 256)].follow.landing = none ∧
       y.ctxs[(1 : Fin 256)].st ≠ .valid ∧ y.ctxs[(1 : Fin 256)].st ≠ .hold ∧
       (withCtx y 1 { ctx 1 .hold with active := (entry 1 1).set 7 0x40000000 }).ctxs[(1 : Fin 256)].st = .hold) ∧
    (u { x with follow := {} }).chosen 0 = none ∧
    (∀ k ∈ [l false false, l true false, l true true], (landing k).ctxs[(0 : Fin 256)].follow.landing = some k ∧ k.pair = none) ∧
    ((landing (l true false)).clock ≤ (l true false).startedPs + 2 * 10 ^ 12 ∧ (l true false).startedPs + 2 * 10 ^ 12 ≤ (landing (l true false)).clock) ∧
    (landing (l true false)).clock < (landing (l true false)).clock + 2 * 10 ^ 12 ∧
    (let o (t : Nat) := u { ctx 1 .hold with follow := { runOut := some { entry := entry 1 1, chain := none, place := {}, sincePs := t } } }
     (o 0).ctxs[(0 : Fin 256)].follow.runOut.isSome = true ∧ (o 0).clock ≤ 99 * 10 ^ 12 + 10 ^ 12 ∧ 99 * 10 ^ 12 - 1 + 10 ^ 12 < (o 0).clock) ∧
    (let k : Landing := { l true true with fm := { carrierLock := true, lock := true } }
     let y := u { ctx 1 .hold with boundaryPs := some (100 * 10 ^ 12), follow := { landing := some k } }
     let x := y.ctxs[(0 : Fin 256)]
     k.decidedPs < y.clock ∧ x.boundaryPs = some y.clock ∧ (landing k).ctxs[(0 : Fin 256)].boundaryPs ≠ some (landing k).clock ∧
       (y.landingTakes 0 k {}).ready = true ∧ ({} : Landed).burst = false ∧ x.fade = none ∧ x.eab.receiving = false ∧ x.pending = none ∧
       y.atOutput 0 (y.sampleTime 0 y.clock) = true) := by decide +kernel

/-- `s` with its Outfall changed. -/
def fitted (s : State) (f : Outfall → Outfall) : State := ({ s with outfall := f s.outfall } : State).advance 0

/-- `up` with its Outfall changed. -/
def withOut (f : Outfall → Outfall) : State := fitted up f

theorem witness_TransmitAndTone :
    let w := (up.advance 0).heard.remember 99 0x20
    let sender : State := { w with outfall := { w.outfall with ctrl := 0x080000A3 } }
    let off := withOut (fun o => { o with ready := false })
    let far := withOut (fun o => { o with queue := [{ burst with carrier := 152750000 }] })
    let near := withOut (fun o => { o with queue := [burst] })
    let going (st : TxSt) (at_ : Nat) := withOut (fun o => { o with st := st, retuneTo := some 152750000, retunePs := at_ })
    let waits := withOut (fun o => { o with st := .settling, retuneTo := some 152750000, retunePs := 100 * 10 ^ 12 - 10 ^ 9
                                            queue := [{ burst with carrier := 152750000 }] })
    ((up.advance 0).hostUp = true ∧ (up.advance 0).fromCollector peer = true ∧ (up.advance 0).host.cmdEn = true ∧ (99 : BitVec 32) ≠ 0 ∧
      (up.advance 0).host.cmds.find? (fun c => c.id == 99) = none ∧ 1 ≤ (up.advance 0).sessionVersion ∧ (up.advance 0).host.open_.length < 32) ∧
    w.transmitRefusal (txArgs 1) ≠ 0 ∧ sender.transmitRefusal (txArgs 508) = 0 ∧
    ((up.advance 0).awake = true ∧ (withOut (fun o => { o with toneLevel := 152 })).toneRefusal = 0 ∧ off.outfall.ready = false) ∧
    ((withOut (fun o => { o with toneLevel := 153 })).outfall.ready = true ∧ (withOut (fun o => { o with toneLevel := 153 })).toneRefusal ≠ 0) ∧
    (far.serving = true ∧ far.mgmtOnly = false ∧ far.outfall.st ≠ .off ∧ far.outfall.idle = true ∧
      far.outfall.head = some { burst with carrier := 152750000 } ∧ (152750000 ≠ far.outfall.carrier ∨ far.outfall.st ≠ .locked)) ∧
    (near.outfall.idle = true ∧ near.outfall.queue = burst :: [] ∧ near.outfall.lbtHeld = [] ∧ near.outfall.head = some burst ∧ burst.carrier = near.outfall.carrier ∧ near.outfall.st = .locked) ∧
    ((up.advance 0).outfall.queue = [] ∧ (withOut (fun o => { o with queue := [burst], lbtHeld := [burst.order] })).outfall.lbtHeld.contains burst.order = true) ∧
    (waits.serving = true ∧ waits.mgmtOnly = false ∧ waits.outfall.st ≠ .off ∧ waits.outfall.retuneTo = some 152750000 ∧
      waits.outfall.retunePs + waits.outfall.lockTimeoutPs ≤ waits.clock ∧ waits.outfall.queue.any (fun x => x.carrier == 152750000) = true ∧
      (going .settling 0).outfall.queue.any (fun x => x.carrier == 152750000) = false) ∧
    ((going .settling 0).outfall.retuneTo = some 152750000 ∧ (going .settling 0).outfall.st = .settling ∧ (going .calibrating 0).outfall.st = .calibrating ∧
      (going .settling (100 * 10 ^ 12 - 10 ^ 9)).outfall.retunePs + (going .settling 0).outfall.lockTimeoutPs ≤ (going .settling 0).clock ∧
      (going .settling 0).clock < (going .settling (100 * 10 ^ 12 - 10 ^ 9 + 1)).outfall.retunePs + (going .settling 0).outfall.lockTimeoutPs) := by
  decide +kernel

theorem witness_OutfallOnAir :
    let air (a : OnAir) := (onAir a).advance 0
    let wait : OnAir := { tx := { burst with coex := true } }
    let on : OnAir := { tx := { burst with coex := true }, started := true, startPs := 99 * 10 ^ 12, downPs := 100 * 10 ^ 12 + 10 ^ 9 }
    let past : OnAir := { on with down := true, corr := some 3, downPs := 99 * 10 ^ 12, tx := { burst with carrier := 174000000 } }
    let go (l : Nat) : OnAir := { tx := { burst with latest := some l } }
    let q := withOut (fun o => { o with queue := [burst] })
    let blanked := ({ up with pins := { up.pins with blankOut := true } } : State).advance 0
    let dozing := ({ up with doze := { up.doze with requested := true } } : State).advance 0
    let det := ({ onAir on with outfall := { (onAir on).outfall with ctrl := 0x28000000 } } : State).advance 0
    ((up.advance 0).outfall.air = none ∧ (air wait).outfall.air = some wait ∧ wait.started = false ∧ wait.cxOk = false ∧ wait.tx.coex = true) ∧
    ((air on).outfall.air = some on ∧ on.started = true ∧ on.down = false ∧ on.status = 0 ∧ on.tx.coex = true ∧ on.ending (air on).clock = false ∧
      past.ending (air past).clock = true) ∧
    (q.serving = true ∧ q.mgmtOnly = false ∧ q.outfall.st ≠ .off ∧ q.outfall.airFree = true ∧ q.outfall.lbtHeld = [] ∧ q.doze.requested = false ∧
      q.headReady 20000 = some burst ∧ (up.advance 0).headReady 20000 = none ∧ dozing.doze.requested = true ∧ dozing.serving = true) ∧
    (blanked.outfall.air = none ∧ blanked.pins.blankOut = true ∧ blanked.outfall.lastEndPs + 20000000 ≤ blanked.clock ∧ blanked.rampNear = false ∧
      blanked.clock < 100 * 10 ^ 12 - 20000000 + 1 + 20000000) ∧
    (wait.cxAsked + (air wait).outfall.cxWaitPs ≤ (air wait).clock ∧
      (air wait).clock < ({ wait with cxAsked := 100 * 10 ^ 12 } : OnAir).cxAsked + (air wait).outfall.cxWaitPs) ∧
    (let a := go (100 * 10 ^ 9)
     let w : State := ({ onAir a with outfall := { (onAir a).outfall with queue := [a.tx] } } : State).advance 0
     w.outfall.air = some a ∧ a.started = false ∧ a.tx.coex = false ∧ a.blankPs + 20000000 ≤ w.clock ∧ w.doze.requested = false ∧
       (w.headReady 0).map (fun x => x.order) = some a.tx.order ∧ w.headReady 0 = some a.tx ∧
       a.tx.latest = some (100 * 10 ^ 9) ∧ w.nowNs ≤ 100 * 10 ^ 9 ∧ 100 * 10 ^ 9 - 1 < w.nowNs) ∧
    ((air wait).headReady 0 = none ∧ (air wait).clock < ({ wait with blankPs := 100 * 10 ^ 12 } : OnAir).blankPs + 20000000) ∧
    ((up.advance 0).blankHeld = false) ∧
    (on.corr = none ∧ on.startPs + on.tx.loopPs ≤ (air on).clock ∧ (air on).clock < 100 * 10 ^ 12 + on.tx.loopPs ∧ (air on).clock < on.downPs ∧
      past.downPs ≤ (air past).clock ∧ ((air on).outfall.loop on.tx [⟨0, 0⟩]).fell = false ∧ (det.outfall.loop on.tx (List.replicate 4 ⟨0, 10 ^ 9⟩)).fell = true) ∧
    ((air past).outfall.air = some past ∧ past.started = true ∧ past.down = true ∧ past.corr = some 3 ∧ 136000000 ≤ past.tx.carrier ∧
      past.tx.carrier ≤ 174000000 ∧ past.downPs + past.tx.rampPs ≤ (air past).clock ∧ (air past).clock < 100 * 10 ^ 12 + past.tx.rampPs) := by
  decide +kernel

theorem witness_RelayDecisions :
    let h := head
    let message : Ended := { ended with handedOver := true, handedPs := 100 * 10 ^ 12 }
    let heard := one { ctx 4 .valid with eab := { ended := [message] } }
    let source := fitted heard (fun o => { o with rCtrl := 0x8000FF00, rSrc := 0x00FFFFFF, rFreq := 0x17D78400, ctrl := 0x080000B4 })
    let relayed : Tx := { burst with source := .relay 0 0 }
    let w (end_ : Nat) : Watch := { tx := { burst with txId := 0x0A1, origin := 0x0A1 }, status := 0, startNs := 0, rampEndPs := end_ }
    let watching (end_ : Nat) := fitted heard (fun o => { o with watches := [w end_] })
    let busy := fitted (one { ctx 4 .valid with eab := { st := .payload } }) (fun o => { o with rCtrl := 0x80000000, queue := [relayed] })
    (source.serving = true ∧ source.outfall.relayOn = true ∧ source.outfall.isSource 0 = true ∧
      source.ctxs[(0 : Fin 256)].eab.ended.find? (Ended.forRelay source.clock) = some message ∧ message.rx.header = some h) ∧
    ((up.advance 0).outfall.relayOn = false ∧ (up.advance 0).ctxs[(0 : Fin 256)].eab.ended.find? (Ended.forRelay (up.advance 0).clock) = none) ∧
    (source.takenNow h = none ∧ source.relayRefusal message h = 0 ∧ source.relayRefusal { message with auth := 1 } h ≠ 0 ∧
      (fitted source (fun o => { o with taken := [(100 * 10 ^ 12, 5, relayKey h)] })).takenNow h = some 5) ∧
    (busy.mgmtOnly = false ∧ busy.outfall.st ≠ .off ∧ busy.outfall.air = none ∧ busy.outfall.lbtHeld = [] ∧ busy.outfall.head = some relayed ∧
      relayed.isRelay = true ∧ busy.lbtBusy = true ∧ burst.isRelay = false) ∧
    ((watching (100 * 10 ^ 12 - 10 ^ 10)).outfall.watches = [w (100 * 10 ^ 12 - 10 ^ 10)] ∧
      (w (100 * 10 ^ 12 - 10 ^ 10)).rampEndPs + 10 ^ 10 ≤ (watching 0).clock ∧
      (watching (100 * 10 ^ 12 - 10 ^ 10)).confirming (w (100 * 10 ^ 12 - 10 ^ 10)) = some message) ∧
    ((watching 0).confirming { w 0 with startNs := 100 * 10 ^ 9 + 1 } = none) ∧ (watching 0).clock < (w (100 * 10 ^ 12 - 10 ^ 10 + 1)).rampEndPs + 10 ^ 10 := by decide +kernel

/-- `up` with the maintenance state of reach 0. -/
def tending (f : Upkeep → Upkeep) : State := (up.modUpkeep 0 f).advance 0

theorem witness_MaintenanceEvents :
    let a : Activity := { kind := .selftest }
    let small := ({ up with part := { is8120 := true } } : State).advance 1
    let asked := tending (fun x => { x with queue := [a] })
    let runs := tending (fun x => { x with running := some a })
    let gone := (up.modFallow 0 (fun f => { f with retired := some (3, false) })).advance 0
    let bursting := (one { ctx 4 .valid with eab := { st := .payload } }).advance 0
    let due (m : Nat) : State := ({ up with selftestPs := 100 * 10 ^ 12 - m, cal := { up.cal with ctrl := 0x84000001 } } : State).advance 0
    (small.serving = true ∧ small.part.is8120 = true) ∧
    ((due (60 * 10 ^ 12)).serving = true ∧ bits (due 0).cal.ctrl 15 0 ≠ 0 ∧
      (due (60 * 10 ^ 12)).selftestPs + bits (due 0).cal.ctrl 15 0 * 60 * 10 ^ 12 ≤ (due 0).clock ∧
      (due 0).clock < (due (60 * 10 ^ 12 - 1)).selftestPs + bits (due 0).cal.ctrl 15 0 * 60 * 10 ^ 12) ∧
    (asked.reachUp 0 = true ∧ (asked.forEach allReaches (fun q t => t.calSettle q)).admissible 0 = some a) ∧
    (runs.runOf 0 .selftest = some a ∧ a.startedPs + 10 ^ 9 ≤ runs.clock ∧ runs.clock < ({ a with startedPs := 100 * 10 ^ 12 } : Activity).startedPs + 10 ^ 9) ∧
    ((up.advance 0).burstIn 0 = false ∧ (up.advance 0).reachUp 0 = true ∧ (up.advance 0).fallowSuspended 0 = false ∧
      (up.advance 0).fallow[(0 : Fin 4)].boundPs + 4 * 10 ^ 10 ≤ (up.advance 0).clock ∧ (up.advance 0).fallow[(0 : Fin 4)].swept 0 = false ∧ ((up.advance 0).fallow[(0 : Fin 4)].periods + 1) % 17 ≠ 0) ∧
    ((up.modFallow 0 (fun f => { f with periods := 16 })).advance 0).fallow[(0 : Fin 4)].periods + 1 = 17 ∧
    (∀ p, small.upkeep[(0 : Fin 4)].tempPs = some p → p + 10 ^ 11 ≤ small.clock) ∧
    (bursting.reachUp 0 = true ∧ bursting.burstIn 0 = true ∧ bursting.fallowSuspended 0 = false ∧
      (bursting.fallow[(0 : Fin 4)].periods + 1) % 17 ≠ 0) ∧ gone.fallowSuspended 0 = true := by decide +kernel

theorem witness_CalCommands :
    let down := ({ up with reaches := Vector.replicate 4 {} } : State).advance 0
    let u := up.advance 0
    let blocked := (one (ctx 1 .valid)).advance 0
    (u.awake = true ∧ u.reachUp 3 = true ∧ u.reachUp u.cal.reach = true ∧ (u.absoluteAsked 15).points.any (u.pointBlocked 3) = false) ∧
    (blocked.reachUp 0 = true ∧ (blocked.absoluteAsked 0).points.any (blocked.pointBlocked 0) = true) ∧
    (down.awake = true ∧ down.reachUp 0 = false ∧ down.reachUp down.cal.reach = false) ∧
    (u.hostUp = true ∧ u.fromCollector peer = true ∧ u.host.cmdEn = true ∧ u.host.cmds.find? (fun c => c.id == 99) = none ∧
      1 ≤ u.sessionVersion ∧ u.host.open_.length < 32) ∧
    (bits (6 : Word) 2 0 = 6 ∧ bits (1 : Word) 2 0 = 1 ∧ bit (6 : Word) 31 = false ∧ bit (1 : Word) 31 = false) ∧
    (down.heard.remember 99 0x30).reachUp (Fin.ofNat 4 (bits (1 : Word) 9 8)) = false ∧
    (u.heard.remember 99 0x30).reachUp (Fin.ofNat 4 (bits (1 : Word) 9 8)) = true := by decide +kernel

theorem witness_CalibrationRuns :
    let recal (t : Nat) : Activity := { kind := .recal, startedPs := t }
    let tone : RampTone := { low := -4000, high := 0, risePs := 98 * 10 ^ 12 }
    let abs (n : Nat) (slot : Option Nat) : Activity :=
      { kind := .absolute, points := [100000], blocks := List.replicate n (0, 40), pointPs := 98 * 10 ^ 12, blockPs := 98 * 10 ^ 12, slot := slot }
    let runs (a : Activity) : State :=
      (withReach (up.modUpkeep 0 (fun x => { x with running := some a, inject := some tone })) (fun x => { x with tribs := x.tribs.set 0 { reg := 0xC00186A0 } })).advance 0
    let v (a : Activity) := (runs a).calSettle 0
    let kept (a : Activity) := (v a).holdSlot 0 100000 (v a).clock a
    (let a := recal 0
     (runs a).reachUp 0 = true ∧ (runs a).upkeep[(0 : Fin 4)].running = some a ∧ a.ready = false ∧ a.startedPs + 372 * 10 ^ 8 ≤ (runs a).clock ∧
       (runs a).clock < (recal (100 * 10 ^ 12)).startedPs + 372 * 10 ^ 8) ∧
    (∀ a ∈ [abs 7 (some 0), abs 8 (some 0)], (runs a).reachUp 0 = true ∧ (v a).upkeep[(0 : Fin 4)].running = some a ∧ a.points = 100000 :: [] ∧
      a.outcome = none ∧ a.blockPs + 10 ^ 10 ≤ (v a).clock ∧ kept a = a ∧ a.slot.isSome = true ∧ (v a).burstDuring 0 = false ∧
      (v a).upkeep[(0 : Fin 4)].inject = some tone ∧ tone.downPs = none ∧ a.pointPs + 2 * 10 ^ 12 ≤ (v a).clock) ∧
    ((abs 7 (some 0)).blocks.length < 8 ∧ (abs 8 (some 0)).blocks.length = 8 ∧ (abs 7 (some 0)).blocks.length ≠ 8) ∧
    (let a := { abs 7 (some 0) with blockPs := 100 * 10 ^ 12, pointPs := 100 * 10 ^ 12 }
     (v a).upkeep[(0 : Fin 4)].running = some a ∧ (v a).clock < a.blockPs + 10 ^ 10 ∧ (v a).clock < a.pointPs + 2 * 10 ^ 12 ∧ a.noSlotPs = none) ∧
    (let a := abs 8 (some 64)
     (v a).upkeep[(0 : Fin 4)].running = some a ∧ kept a ≠ a) ∧
    ((one { ctx 4 .valid with eab := { st := .payload } }).burstIn 0 = true) := by
  decide +kernel

theorem witness_ProposalsAndVotes :
    let u := up.advance 0
    let id : ProposalId := ⟨.reachFailure, 0⟩
    let n := u.noteLines 0 1 (u.clock - 1000 * 1000)
    let p (votes : List (Option (Fin 4))) : Proposal :=
      { proposer := none, reach := 0, act := .reachFailure, lines := 1, ident := 0, drift := false, evidence := 0, raisedPs := 100 * 10 ^ 12 - 20000000, votes := votes }
    let with_ (votes : List (Option (Fin 4))) : State := { n with proposals := [p votes] }
    let found (s : State) := s.proposals.find? (fun q => q.live && q.isOn 0 id && !q.votes.contains (some 1) && decide (q.votes.length < 2) &&
      decide (s.clock ≤ q.raisedPs + 20000000))
    let lost := ({ up with wardens := Vector.replicate 4 { failed := true } } : State).advance 0
    (u.awake = true ∧ n.grounds 0 .reachFailure 1 0 false = true ∧ 2 ≤ (n.voters 0).length ∧
      n.proposals.find? (fun q => q.reach == 0 && q.act == .reachFailure) = none) ∧
    (lost.awake = true ∧ (lost.noteLines 0 1 (u.clock - 1000000)).grounds 0 .reachFailure 1 0 false = true ∧
      ((lost.noteLines 0 1 (u.clock - 1000000)).voters 0).length < 2) ∧ (u.noteLines 0 16 u.clock).grounds 0 .subAdcRetire 16 3 false = false ∧
    ((with_ []).proposals.find? (fun q => q.isOn 0 id) = some (p []) ∧ (p []).live = true) ∧
    (((with_ []).voters 0).contains (some 1) = true ∧ found (with_ []) = some (p []) ∧ found (with_ [some 2]) = some (p [some 2]) ∧
      (p [some 2]).votes.length = 1 ∧ (with_ []).stands (p []) = true ∧ (p []).lines &&& 1 = (p []).lines) ∧
    (found u = none ∧ ((with_ []).voters 0).contains (some 0) = false ∧ (u.stands (p []) = false) ∧ (p []).lines &&& 2 ≠ (p []).lines) ∧
    ((with_ []).proposals.find? (fun q => q.live && q.isOn 0 id && decide (q.raisedPs + 20000000 ≤ (with_ []).clock)) = some (p []) ∧
      (p []).lapses < 2) := by decide +kernel

theorem witness_WardensAndMemory :
    let u := up.advance 0
    let kept (u : State) := (u.wardens[(0 : Fin 4)].failPs.filter (fun t => decide (u.clock < t + 3600 * 10 ^ 12))).length + 1
    let worn : State := (up.modWarden 0 (fun x => { x with failPs := [1, 2], restarting := true })).advance 0
    let eng : State := (up.modEngine 7 (fun x => { x with restarting := true })).advance 0
    let tmr : State := ({ up with tmr := { differs := 4 } } : State).advance 0
    let page : State := ({ up with ecc := { up.ecc with badPages := [9], postPs := Vector.replicate 4 (some (100 * 10 ^ 12 - 1)) } } : State).advance 0
    (u.awake = true ∧ u.wardenWorks 0 = true ∧ kept u < 3 ∧ u.reachRuns 0 = true ∧ u.fallow[(0 : Fin 4)].retired = none ∧
      u.fallow[(0 : Fin 4)].faulty 3 (.power 1 2) = true ∧ u.fallow[(0 : Fin 4)].faulty 3 .beyond = false) ∧
    (worn.awake = true ∧ worn.wardenWorks 0 = true ∧ 3 ≤ kept worn ∧ worn.wardens[(0 : Fin 4)].restarting = true) ∧
    eng.engines[(7 : Fin 8)].restarting = true ∧ u.tmr.retired = 0 ∧
    (tmr.tmr.differs.getLsbD (2 : Fin 3).val = true ∧ tmr.tmr.retired = 0 ∧ tmr.tmr.rewrites = [] ∧ tickOf tmr.tmr.sincePs[(2 : Fin 3)] < tickOf tmr.clock ∧
      tickOf tmr.clock ≤ tickOf (100 * 10 ^ 12)) ∧
    (u.since u.ecc.postPs[(3 : Fin 4)] (10 ^ 12) = true ∧ page.since page.ecc.postPs[(3 : Fin 4)] (10 ^ 12) = false ∧ page.ecc.badPages.contains 9 = true ∧
      page.image.changed = false ∧ ({ page with image := { page.image with changed := true } } : State).image.changed = true) ∧
    (u.ueReach .control = none ∧ u.ueReach (.engineRuntime 7) = some 3 ∧ (one (ctx 1 .valid)).ctxs[(0 : Fin 256)].st ≠ .idle ∧
      (one (ctx 1 .valid)).ctxs[(0 : Fin 256)].st ≠ .migrating) := by
  decide +kernel

/-- The header of an image without modules or TLVs for this part: FORMAT 2, LENGTH 64, no journal, its two CRCs behind it. -/
def imageBytes : List Byte :=
  let h := bytesOf 4 0x56544346 ++ bytesOf 2 2 ++ bytesOf 2 0 ++ bytesOf 4 64 ++ bytesOf 4 0x56548140 ++ List.replicate 44 0
  let a := h ++ bytesOf 4 (crc32 h).toNat
  a ++ bytesOf 4 (crc32 a).toNat

theorem witness_ImageLoad :
    let s (f : List Host.Cell) : State := ({ up with image := {}, flash := f } : State).advance 0
    let m (u : State) := fun (a n : Nat) => Memory.readMany u.flash a n
    let good := s (Memory.program [] 0 imageBytes)
    let refused : State := ({ up with image := { refused := true } } : State).advance 0
    ((up.advance 0).awake = true ∧ (up.advance 0).image.accepted = true) ∧ refused.image.refused = true ∧
    ((s []).awake = true ∧ (s []).image.accepted = false ∧ (s []).image.refused = false ∧ (s []).flash = [] ∧
      ((s []).imageFault (headerOf (m (s []) 0 64)) (m (s []))).isSome = true) ∧
    (good.imageFault (headerOf (m good 0 64)) (m good) = none ∧ (headerOf (m good 0 64)).fastEn = false) := by decide +kernel

/-! ### Completion -/

/-- The conditions that the clauses of the completion statement share, each in one state; the conditions of one command alone are met by the
witness of that command's own statement above. -/
theorem witness_CommandsComplete :
    let u := up.advance 1
    let fm := (one (ctx stdFm .valid)).advance 1
    let eab := (one (ctx stdEab .valid)).advance 1
    let doze : State := ({ up with doze := { up.doze with inDoze := true, exitRequested := true, fabAwake := false } } : State).advance 1
    (u.awake = true ∧ u.serving = true ∧ u.hostUp = true ∧ u.portRuns = true ∧ u.busUp = true ∧ u.refsRun = true ∧ u.monitors = true) ∧
    (u.fromCollector peer = true ∧ u.host.cmdEn = true ∧ 2 ≤ u.sessionVersion ∧ u.host.open_.length < 32 ∧ u.sendable = true) ∧
    (u.reachUp 0 = true ∧ u.reachAccess 0 = true ∧ u.sampling 0 = true ∧ u.burstIn 0 = false ∧ u.reachRuns 0 = true ∧ u.wardenWorks 0 = true ∧
      u.engineUp 0 = true ∧ u.spateValid = true) ∧
    (u.outfallRuns = true ∧ u.sends = true ∧ u.outfall.idle = true) ∧ (doze.scheduleRuns = true ∧ doze.doze.inDoze = true ∧ doze.doze.fabAwake = false) ∧
    (fm.chainRuns 0 = true ∧ fm.engineServes 0 stdFm = true) ∧ eab.eabServes 0 = true ∧
    (u.tw.start.answers u.tw.start.primary = true) := by
  decide +kernel

end Sys2Proof.Tests
end

/-! ## The scope: what a step is, which commands complete, and the reaches a part does not have -/

namespace Sys2Proof.Machine

/-! ### The machine as a whole -/

/-- Settles O1: `step` is defined by the queue's two forms. -/
theorem stepRunsFrontCommand : Obligations.StepRunsFrontCommand := by
  refine ⟨fun c rest s => rfl, fun s h => ?_⟩
  unfold step
  rw [h]
  rfl

/-- Settles O2: every meaning answers a next state that keeps the part and the queue (`exec_keeps`). -/
theorem everyCommandCompletes : Obligations.EveryCommandCompletes := by
  intro c s
  obtain ⟨t, next, keeps⟩ := exec_keeps c s
  exact ⟨t, next, keeps.part, keeps.queue⟩

/-! ### Conditions and effects of an event -/

/-- What a command or event does in the state `u` that its FAB cycles lead to, where its condition holds there. -/
theorem State.occurs_at {s u t : State} {dt : Nat} {cond : State → Bool} {f : State → State} (at_u : s.advance dt = u)
    (holds : cond u = true) (effect : f u = t) : s.occurs dt cond f = .next t := by
  subst at_u
  rw [State.occurs_of _ _ _ _ holds, effect]

/-- An event whose effect leaves the state as it is only lets time pass, whatever its condition. -/
theorem State.occurs_idle {s : State} {dt : Nat} {cond : State → Bool} {f : State → State} (effect : f (s.advance dt) = s.advance dt) :
    s.occurs dt cond f = .next (s.advance dt) := by
  cases holds : cond (s.advance dt)
  · exact State.occurs_not _ _ _ _ holds
  · exact State.occurs_at rfl holds effect

theorem State.withSome_of {α : Type} {s : State} {o : Option α} {a : α} {f : α → State → State} (present : o = some a) :
    s.withSome o f = f a s := by
  rw [present]
  rfl

theorem State.when_of {s : State} {c : Bool} {f : State → State} (holds : c = true) : s.when c f = f s := by
  rw [holds]
  rfl

/-- A two-wire transaction that the running part answers is served, and FAB stays awake for it (R94). -/
theorem State.addressed_served (s : State) {a : BitVec 7} {f : State → State} (running : s.still.frozen = false)
    (awake : s.doze.fabAwake = true) (answers : s.tw.start.answers a = true) :
    s.addressed a f = f { s with tw := s.tw.start, doze := { s.doze with lastTwPs := s.clock } } := by
  simp [State.addressed, running, awake, answers]

/-- A NAK of the session's own collector reaches the session, whose time of reception it renews (R515). -/
theorem State.nak_of_collector (s : State) {src : Peer} {q : QSession} {f : QSession → State → State} (up : s.hostUp = true)
    (session : s.host.session = some q) (own : q.peer = src) :
    s.datagram src (fun u => u.withSome u.host.session f) = f { q with lastRxPs := s.clock } s.heard := by
  rw [State.datagram_of s src _ up (by simp [State.fromCollector, session, own])]
  exact State.withSome_of (by simp [State.heard, session])

/-! ### The reaches that the VTN-8120 does not have -/

/-- The reach whose block holds the address. -/
def reachOfAddr (addr : Addr) : Fin 4 := Fin.ofNat 4 ((addr.toNat / 4 * 4 - 0x400) / 0x100)

/-- The end of a transaction acts on the VERSION and TW blocks alone. -/
theorem State.busEnd_outside (s : State) (stop : Bool) (a : Nat) (v : Word) (low : 0x44 < a) (high : a < 0x1C00) : s.busEnd stop a v = s := by
  unfold State.busEnd
  split
  case h_5 => rfl
  all_goals omega

section
variable {s : State} {addr : Addr} (part : s.part.is8120 = true) (low : 0x0600 ≤ addr.toNat) (high : addr.toNat ≤ 0x07FF)
include part low high

/-- The addresses 0x0600 to 0x07FF are those of reaches C and D, which the VTN-8120 does not have (R1, R2). -/
theorem State.not_reachExists_of_addr : s.reachExists (reachOfAddr addr) = false := by
  have two : 2 ≤ (reachOfAddr addr).val := by
    simp only [reachOfAddr, Fin.val_ofNat]
    omega
  simp [State.reachExists, part, two]

theorem State.peek_absentReach : s.peek addr = 0 := by
  have absent := Bool.eq_false_iff.1 (State.not_reachExists_of_addr part low high)
  unfold State.peek
  dsimp only
  rw [if_neg (by omega), if_neg (by omega), if_neg (by omega), if_pos (by omega)]
  exact if_neg absent

theorem State.readEffect_absentReach : s.readEffect addr = s := by
  have absent := State.not_reachExists_of_addr part low high
  unfold State.readEffect
  dsimp only
  by_cases frozen : s.still.frozen = true
  · rw [if_pos frozen, if_neg (by omega)]
  · rw [if_neg frozen, if_neg (by omega), if_neg (by omega), if_neg (by omega), if_neg (by omega), if_neg (by omega),
      if_neg (by omega), if_pos (by omega)]
    exact if_pos (congrArg not absent)

theorem State.writeReg_absentReach (via : Via) (id : BitVec 32) (v : Word) : s.writeReg via id addr v = s := by
  have absent := Bool.eq_false_iff.1 (State.not_reachExists_of_addr part low high)
  unfold State.writeReg
  dsimp only
  by_cases frozen : s.still.frozen = true
  · rw [if_pos frozen, if_neg (by omega)]
  · rw [if_neg frozen, if_neg (by omega), if_neg (by omega), if_pos (by omega)]
    exact if_neg absent

theorem State.writeWhole_absentReach (via : Via) (id : BitVec 32) (v : Word) : s.writeWhole via id addr v = s := by
  rw [State.writeWhole, State.writeReg_absentReach part low high, State.busEnd_outside _ _ _ _ (by omega) (by omega)]

end

/-- Settles O8: the reach of such an address does not exist, so a read gives 0 and has no effect, and a write leaves the state as it is. -/
theorem absentReachBlocks : Obligations.AbsentReachBlocks := by
  intro s dt addr part low high
  constructor
  · rw [State.readReg, State.readEffect_absentReach part low high, State.peek_absentReach part low high]
  · intro via v
    change execRegisterWrite dt via addr v s = _
    exact State.occurs_idle (State.writeWhole_absentReach (s := s.advance dt) part low high via 0 v)

/-! ### Completion of each command -/

/-- Settles O60: `exec` gives each command its meaning, an event with a condition and an effect. In each clause `does` takes the condition,
which the clause's own hypotheses make true, and the effect, in which they choose the branch or the operand that the clause names. -/
theorem commandsComplete : Obligations.CommandsComplete := by
  intro s dt u
  dsimp -zeta only [exec]
  have at_u : s.advance dt = u := rfl
  clear_value u
  have does {cond : State → Bool} {f : State → State} {t : State} : cond u = true → f u = t → s.occurs dt cond f = .next t :=
    State.occurs_at at_u
  -- Resets and their release (chapters 2 and 18)
  refine ⟨fun us h => does (decide_eq_true h) rfl,
    fun core ana a18 h => does (decide_eq_true h) rfl,
    fun pins aboveUs bank18 h1 h2 => does (by simp [h1, h2]) rfl,
    fun pins h => does h rfl, ?_⟩
  -- References and bring-up (chapter 2)
  refine ⟨fun hz1 hz2 h1 h2 _ => does (by simp [h1, h2]) rfl,
    fun ref2 ns degrees words h1 h2 h3 => does (by simp [h1, h2, h3]) rfl,
    fun us h1 h2 h3 h4 h5 h6 => does (by simp [h1, h2, h3, h4, h5, h6]) rfl,
    fun h1 h2 h3 h4 h5 h6 p h7 h8 => does (by simp [h1, h2, h3, h4, h5, h6, h7, h8]) rfl,
    fun hz1 hz2 h1 h2 h3 h4 => does (by simp [h1, h2, h3, h4]) rfl,
    fun ref2 hz h1 h2 h3 => does (by simp [h1, h2, h3]) rfl,
    fun h => does (by simp [h]) rfl,
    fun r h1 h2 => does (by simp [-Fin.getElem_fin, h1, h2]) rfl,
    fun r h1 h2 h3 => does (by simp [-Fin.getElem_fin, h1, h2, h3]) rfl,
    fun r bad h1 h2 h3 => does (by simp [-Fin.getElem_fin, h1, h2, h3]) rfl,
    fun r h1 h2 h3 h4 h5 => does (by simp [-Fin.getElem_fin, h1, h2, h3, h4, h5]) rfl,
    fun r h1 p h2 h3 => does (by simp [-Fin.getElem_fin, h1, h2, h3]) rfl, ?_⟩
  -- The supply monitors and the freeze pin (chapters 18 and 15)
  refine ⟨fun k mv ioc us h1 h2 h3 h4 => does (by simp [-BitVec.getLsbD_eq_getElem, h1, h2, h3, h4]) rfl,
    fun k h1 h2 h3 => does (by simp [-Fin.getElem_fin, -BitVec.getLsbD_eq_getElem, h1, h2, h3]) rfl,
    fun k mv ioc h1 h2 => does (by simp [h1, h2]) rfl,
    fun ns h1 h2 h3 _ => does (by simp [h1, h2, h3]) rfl, ?_⟩
  -- Two-wire transactions (chapter 15)
  refine ⟨fun address reg words byStop h1 h2 h3 h4 => does h1 (u.addressed_served h2 h3 h4 |>.trans (by simp [h2])),
    fun address reg count whole h1 h2 h3 h4 => does h1 (({ u with readData := [] } : State).addressed_served h2 h3 h4),
    fun us h1 h2 h3 => does (by simp [h1, h2, h3]) (by simp [h2]),
    fun others h1 h2 h3 h4 => does (by simp [h1, h2, h3]) (if_neg (by simp [h4])), ?_⟩
  -- Fallow rotation, maintenance and calibration (chapter 11)
  refine ⟨fun r err spur h1 h2 h3 => does (by simp [-Fin.getElem_fin, h1, h2, h3]) rfl,
    fun r h1 h2 => does (by simp [h1, h2]) rfl,
    fun r h a ha => does h (State.withSome_of ha),
    fun r h1 h2 => does h1 (u.calTrigger_up _ _ h2),
    fun r points h1 h2 => does h1 (u.calTrigger_up _ _ h2),
    fun r h1 h2 => does h1 (u.calTrigger_up _ _ h2),
    fun store h1 h2 => does h1 (u.calTrigger_up _ _ h2),
    fun r node store h1 h2 => does h1 (u.calTrigger_up _ _ h2),
    fun h => does h rfl,
    fun r op h1 h2 => does h1 (u.calTrigger_up _ _ h2),
    fun src id word up own en named fresh version room _ _ =>
      does rfl (u.command_admitted _ _ _ _ _ _ up own en named fresh version (.inr room)),
    fun h1 h2 h3 => does (by simp [h1, h2, h3]) rfl,
    fun tA tB tC tD h1 h2 => does (by simp [-Fin.getElem_fin, h1, h2]) rfl,
    fun r table gainErr a h1 h2 h3 h4 => does h1 (State.withSome_of (by simp [h2, h3, h4])),
    fun r power snr marked h a ha => does h (State.withSome_of ha),
    fun r check h a ha => does h (State.withSome_of ha),
    fun r a h ha due => does h (State.withSome_of (by simp [ha, due])),
    fun r h a ha => does h (State.withSome_of ha),
    fun r h1 h2 => does (by simp [h1, h2]) rfl,
    fun r bad a h ha ran => does h (State.withSome_of (by simp [ha, ran])), ?_⟩
  -- Chains and engines (chapters 4 and 5)
  refine ⟨fun c mean held h => does h rfl, fun e codes h => does h rfl, fun e h => does h rfl, ?_⟩
  -- Commands of the collector (chapter 14)
  refine ⟨fun src id addr count up own en named fresh version _ _ _ _ =>
      does rfl (u.command_admitted _ _ _ _ _ _ up own en named fresh version (.inl rfl)),
    fun src id pairs up own en named fresh version _ _ _ _ =>
      does rfl (u.command_admitted _ _ _ _ _ _ up own en named fresh version (.inl rfl)),
    fun src id c copy up own en named fresh version h =>
      does rfl ((u.command_admitted _ _ _ _ _ _ up own en named fresh version (.inl rfl)).trans (if_neg (Nat.not_lt.2 h))),
    fun src id c p pair e1 e2 up own en named fresh version room =>
      does rfl (u.command_admitted _ _ _ _ _ _ up own en named fresh version (.inr room)),
    fun src id up own en named fresh version _ =>
      does rfl (u.command_admitted _ _ _ _ _ _ up own en named fresh version (.inl rfl)),
    fun src id up own en named fresh version =>
      does rfl (u.command_admitted _ _ _ _ _ _ up own en named fresh version (.inl rfl)),
    fun src id target up own en named fresh version _ =>
      does rfl (u.command_admitted _ _ _ _ _ _ up own en named fresh version (.inl rfl)),
    fun src id target up own en named fresh version =>
      does rfl (u.command_admitted _ _ _ _ _ _ up own en named fresh version (.inl rfl)), ?_⟩
  -- DAB (chapter 7)
  refine ⟨fun c apartMs prs offset h1 h2 h3 h4 h5 => does (by simp [-Fin.getElem_fin, h1, h2, h3, h4, h5]) rfl,
    fun c missed h1 h2 h3 => does (by simp [-Fin.getElem_fin, h1, h2, h3]) rfl,
    fun c fic msc stamp symbols h1 h2 h3 h4 h5 => does (by simp [-Fin.getElem_fin, h1, h2, h3, h4, h5]) rfl,
    fun c sub f h1 h2 h3 h4 h5 => does (by simp [-Fin.getElem_fin, h1, h2, h3, h4, h5]) rfl,
    fun c sub corrected failed x h1 h2 h3 h4 h5 h6 =>
      does (by simp [-Fin.getElem_fin, h1, h2, h3]) (by simp [-Fin.getElem_fin, h4, h5, h6]),
    fun c h1 h2 h3 h4 => does (by simp [-Fin.getElem_fin, h1, h2, h3, h4]) rfl, ?_⟩
  -- Doze (chapters 1 and 2)
  refine ⟨fun h => does h rfl, fun h => does h rfl,
    fun h1 h2 h3 => does (by rw [h1, h2, h3]; rfl) rfl,
    fun h1 h2 h3 h4 h5 => does (by rw [h1, h2, h3, h4, h5]; rfl) rfl,
    fun h1 h2 h3 => does (by simp [h1, h2, h3]) rfl,
    fun h1 h2 h3 => does (by simp [h1, h2, h3]) rfl,
    fun h1 h2 h3 => does (by simp [h1, h2, h3]) rfl,
    fun h1 h2 h3 => does (by simp [h1, h2, h3]) rfl, ?_⟩
  -- EAB receivers (chapter 8)
  refine ⟨fun c samples span h1 h2 h3 => does (by simp [-Fin.getElem_fin, h1, h2, h3]) rfl,
    fun c samples marked h1 h2 h3 => does (by simp [-Fin.getElem_fin, h1, h2, h3]) rfl,
    fun c last level snr foffset stamp h1 h2 h3 => does (by simp [-Fin.getElem_fin, h1, h2, h3]) rfl,
    fun c syms foffset h1 h2 h3 => does (by simp [-Fin.getElem_fin, h1, h2, h3]) rfl,
    fun c syms h1 h2 h3 => does (by simp [-Fin.getElem_fin, h1, h2, h3]) rfl,
    fun c syms stamp h1 h2 h3 => does (by simp [-Fin.getElem_fin, h1, h2, h3]) rfl,
    fun c syms h1 h2 h3 => does (by simp [-Fin.getElem_fin, h1, h2, h3]) rfl,
    fun c syms decoded iter h1 h2 h3 h4 h5 h6 =>
      does (by simp [-Fin.getElem_fin, h1, h2, h3, h4, h5, h6]) (if_neg (Bool.eq_false_iff.1 h3)),
    fun c syms decoded iter h h1 h2 h3 h4 h5 h6 h7 h8 =>
      does (by simp [-Fin.getElem_fin, h1, h2, h3, h4, h5, h6, h7, h8])
        ((State.withSome_of h4).trans (if_neg (Bool.eq_false_iff.1 h3))),
    fun c syms h1 h2 h h3 => does (by simp [h1, h2]) (State.withSome_of h3),
    fun c h1 h2 h3 q h4 => does (by simp [-Fin.getElem_fin, h1, h2, h3]) (State.withSome_of h4),
    fun c syms main foffset stamp now h1 h2 h3 => does (by simp [-Fin.getElem_fin, h1, h2, h3]) rfl,
    fun c syms snrs h1 h2 h3 => does (by simp [-Fin.getElem_fin, h1, h2, h3]) rfl,
    fun c syms stamp h1 h2 h3 => does (by simp [-Fin.getElem_fin, h1, h2, h3]) rfl,
    fun c power invalid marks h1 h2 => does (by simp [h1, h2]) rfl,
    fun c h1 h2 h3 => does (by simp [-Fin.getElem_fin, Ctx.nfEnd, h1, h2, h3]) rfl,
    fun h1 h2 => does (by simp [h1, h2]) rfl, ?_⟩
  -- Memory errors (chapter 12)
  refine ⟨fun region count h => does h rfl, fun h => does h rfl, fun area address h => does h rfl,
    fun page ok h1 h2 => does (by rw [h1, h2]; rfl) rfl, ?_⟩
  -- FM, RDS and AM (chapter 6)
  refine ⟨fun c lowest overUs h1 h2 h3 => does (by simp [-Fin.getElem_fin, h1, h2, h3]) rfl,
    fun c highest overUs h1 h2 h3 => does (by simp [-Fin.getElem_fin, h1, h2, h3]) rfl,
    fun c lockedUs deviation h1 h2 h3 => does (by simp [-Fin.getElem_fin, h1, h2, h3]) rfl,
    fun c unlockedUs h1 h2 h3 => does (by simp [-Fin.getElem_fin, h1, h2, h3]) rfl,
    fun c lockedUs h1 h2 h3 => does (by simp [-Fin.getElem_fin, h1, h2, h3]) rfl,
    fun c lowest overUs h1 h2 h3 => does (by simp [-Fin.getElem_fin, h1, h2, h3]) rfl,
    fun c highest overUs h1 h2 h3 => does (by simp [-Fin.getElem_fin, h1, h2, h3]) rfl,
    fun c loopLocked offset h => does h rfl,
    fun c bits stamp marks h1 h2 h3 => does (by simp [-Fin.getElem_fin, h1, h2, h3]) rfl,
    fun c level cnr h1 h2 h3 => does (by simp [-Fin.getElem_fin, h1, h2, h3]) rfl,
    fun c audio cnr h1 h2 => does (by rw [h1, h2]; rfl) rfl, ?_⟩
  -- Service following and twins (chapter 9)
  refine ⟨fun sc h1 h2 => does (by simp [h1, h2]) rfl,
    fun c h _ _ => does h rfl,
    fun sc level cnr lowest heldUs ownLevel h1 h2 q h3 h4 n h5 =>
      does (by simp [-Fin.getElem_fin, h1, h2, h3])
        ((State.withSome_of h3).trans ((State.when_of (beq_iff_eq.2 h4)).trans (State.withSome_of h5))),
    fun c h1 h2 _ => does (by simp [-Fin.getElem_fin, h1, h2]) rfl,
    fun c l h1 h2 h3 h4 h5 => does (by simp [-Fin.getElem_fin, State.landingIs, h1, h2, h3, h4, h5]) rfl,
    fun c d l h1 h2 h3 h4 => does (by simp [-Fin.getElem_fin, State.landingIs, h1, h2, h3, h4]) (State.withSome_of h2),
    fun c l h1 h2 h3 h4 h5 => does (by simp [-Fin.getElem_fin, State.landingIs, h1, h2, h3, h4, h5]) rfl,
    fun c other otherBuilt stamp d built h1 h2 h3 h4 => does (by simp [-Fin.getElem_fin, h1, h2, h3, h4]) rfl,
    fun c built h o ho h1 => does h ((State.withSome_of ho).trans (by rw [if_pos h1])),
    fun c h1 h2 h3 h4 => does (by rw [h1, h2, h3, h4]; rfl) rfl,
    fun c ticks levelL levelH stamp h1 h2 h3 h4 h5 h6 => does (by simp [-Fin.getElem_fin, h1, h2, h3, h4, h5, h6]) rfl, ?_⟩
  -- The front end and synchronisation (chapters 3 and 4)
  refine ⟨fun r peak mean h => does h rfl,
    fun r h1 h2 h3 h4 => does (by simp [-Fin.getElem_fin, h1, h2, h3, h4]) rfl,
    fun r h1 h2 h3 h4 => does (by simp [-Fin.getElem_fin, h1, h2, h3, h4]) rfl,
    fun r value h _ _ _ _ => does h rfl,
    fun r value h _ => does h rfl,
    fun d levels h => does h rfl,
    fun d levels h => does h rfl,
    does rfl rfl,
    does rfl rfl,
    fun r h1 h2 => does (by simp [-Fin.getElem_fin, h1, h2]) rfl,
    fun r h => does h rfl,
    fun r h => does h rfl,
    fun r n value h _ _ => does h rfl,
    fun levels h _ => does h rfl,
    fun h _ => does h rfl,
    fun h _ => does h rfl, ?_⟩
  -- The host port (chapter 14)
  refine ⟨fun src minVer maxVer takeover timeout mask h _ _ _ => does h rfl,
    fun src h1 h2 => does h1 (u.datagram_of _ _ h1 h2),
    fun h1 h2 _ => does (by simp [h1, h2]) rfl,
    fun syncUs h1 h2 h3 h4 => does (by simp [h1, h2, h3, h4]) rfl,
    fun h _ => does h rfl,
    fun value h => does h rfl,
    fun addr value h => does h rfl,
    fun sender target mac h _ => does h rfl,
    fun h1 h2 h3 _ => does (by rw [h1, h3, bne_iff_ne.2 h2]; rfl) rfl,
    fun h1 h2 p h3 h4 => does (by simp [h1, h2, h3, h4]) rfl,
    fun sender mac h1 h2 h3 => does (by rw [h1, beq_iff_eq.2 h2, bne_iff_ne.2 h3]; rfl) rfl,
    fun sender mac ident seq payload h1 h2 => does (by simp [h1, h2]) rfl,
    fun frame h1 h2 _ => does (by simp [h1, h2]) rfl,
    fun h q hq => does h (State.withSome_of hq),
    fun h1 h2 q hq => does (by simp [h1, h2]) (State.withSome_of hq),
    fun src entries q h1 h2 h3 => does h1 (u.nak_of_collector h1 h2 h3), ?_⟩
  -- The image, the journal and the keys (chapter 13)
  refine ⟨fun ok h1 h2 h3 => does (by simp [h1, h2, h3]) rfl,
    fun ok w cls typ key p h hj => does h (State.withSome_of hj),
    fun ok w cls h hj => does h (State.withSome_of hj),
    fun h1 h2 h3 h4 h5 _ => does (by rw [h1, h2, h3, h4, h5]; rfl) rfl,
    fun h1 h2 h3 => does (by rw [h1, h2, h3]; rfl) rfl,
    fun len h1 h2 => does h1 (u.journalOp_idle _ h2),
    fun len key h1 h2 => does h1 (u.journalOp_idle _ h2),
    fun h1 h2 => does h1 (u.journalOp_idle _ h2),
    fun len h1 h2 => does h1 (u.journalOp_idle _ h2),
    fun h1 h2 => does h1 (u.journalOp_idle _ h2),
    fun h1 h2 => does h1 (u.journalOp_idle _ h2),
    fun h1 h2 => does h1 (u.journalOp_idle _ h2),
    fun n value h => does h rfl,
    fun h1 h2 p h3 h4 => does (by rw [h1, h2, h3]; simp [h4]) rfl,
    fun slot h _ _ _ => does h rfl,
    fun h _ => does h rfl,
    fun h _ => does h rfl,
    fun ok h b hb => does h (State.withSome_of hb), ?_⟩
  -- The Outfall and the relay (chapter 10)
  refine ⟨fun src id a up own en named fresh version room h =>
      does rfl ((u.command_admitted _ _ _ _ _ _ up own en named fresh version (.inr room)).trans (if_neg (not_not.2 h))),
    fun via id h _ => does h rfl,
    fun h _ => does h rfl,
    fun h1 h2 x h3 h4 => does (by simp [h1, h2]) ((State.withSome_of h3).trans (if_neg (by simp [h4]))),
    fun h f hf => does h (State.withSome_of hf),
    fun f h1 h2 h3 h4 => does (by simp [h1, h3]) ((State.withSome_of h2).trans (State.when_of h4)),
    fun x h1 h2 h3 h4 h5 => does (by simp [h1, h2]) (by simp [h3, h4, h5]),
    fun x h1 h2 h3 => does (by simp [h1, h2]) (State.withSome_of h3),
    does rfl rfl,
    fun a h1 h2 h3 h4 h5 h6 => does h1 ((State.withSome_of h2).trans (if_neg (by simp [h3, h4, h5, h6]))),
    does rfl rfl,
    fun a h1 h2 inTime => does h1 ((State.withSome_of h2).trans (if_neg (by
      split
      · simpa using inTime _ ‹_›
      · exact Bool.false_ne_true))),
    fun readings a h1 h2 h3 h4 h5 h6 h7 => does h1 ((State.withSome_of h2).trans (if_pos (by simp [h3, h4, h5, h6, h7]))),
    fun a h1 h2 h3 h4 h5 => does h1 (by simp [State.modOut, h2, h3, h4, h5]),
    fun a h1 h2 h3 h4 h5 => does h1 ((State.withSome_of h2).trans (if_pos (by simp [h3, h4, h5]))),
    fun h1 h2 h3 h4 h5 => does (by rw [h1, h2, h3, decide_eq_true h4, h5]; rfl) rfl,
    fun h => does h rfl,
    fun c q h h1 h2 h3 h4 h5 => does (by simp [h1, h2, h3]) ((State.withSome_of h4).trans (State.withSome_of h5)),
    fun w q h1 h2 h3 => does h1 ((State.withSome_of h2).trans (State.withSome_of h3)),
    fun w h1 h2 => does h1 (State.withSome_of h2), ?_⟩
  -- Registers, the mailbox and the two-wire commands (chapters 15 to 17)
  refine ⟨fun via addr value h => does h rfl,
    fun r h => does h rfl, fun r h => does h rfl, fun e h => does h rfl,
    fun h => does h rfl, fun h => does h rfl, fun h => does h rfl, fun h => does h rfl,
    fun h _ => does h rfl, fun h => does h rfl,
    fun e l h1 h2 => does h1 (by simp [h2]),
    fun hostMax h => does h rfl, fun confirm h _ => does h rfl, fun confirm h _ _ => does h rfl, fun value h => does h rfl, ?_⟩
  -- The real-time clock (chapter 16)
  refine ⟨fun h => does h rfl, fun h _ => does h rfl,
    fun deltaS deltaR events h1 h2 h3 => does (by simp [h1, h2, h3]) rfl,
    fun value h => does h rfl, fun h _ => does h rfl, fun h => does h rfl, fun h _ => does h rfl, fun h _ => does h rfl,
    fun value h _ _ => does h rfl, does rfl rfl,
    fun a18 vbat h1 h2 => does (by simp [h1, h2]) rfl,
    fun a18 vbat aboveUs h1 h2 => does (by simp [h1, h2]) rfl,
    fun oscillator outageUs _ => does rfl rfl,
    fun millivolts h1 h2 => does (by simp [h1, h2]) rfl, ?_⟩
  -- Frame boundaries, cross-fades and migrations (chapters 1, 4 and 12)
  refine ⟨fun c kind h _ => does h rfl,
    fun c f h1 h2 h3 => does (by simp [-Fin.getElem_fin, Ctx.fadeOver, h1, h2, h3]) rfl,
    fun c gapStart gapEnd h1 h2 h3 h4 => does (by simp [-Fin.getElem_fin, h1, h2, h3, h4]) rfl, ?_⟩
  -- Votes, restarts and containment (chapter 12)
  refine ⟨fun r act lines ident drift ago h1 h2 _ => does (by simp [h1, h2]) rfl,
    fun voter r id sight p h _ _ _ => does h rfl,
    fun r id p h1 h2 => does h1 (State.withSome_of h2),
    fun e h1 h2 => does (by simp [-Fin.getElem_fin, h1, h2]) rfl,
    fun w h1 h2 => does (by simp [-Fin.getElem_fin, h1, h2]) rfl,
    fun w h1 h2 => does (by simp [h1, h2]) rfl,
    fun w h1 h2 => does (by simp [h1, h2]) rfl,
    fun r i fault h1 h2 h3 h4 => does (by simp [-Fin.getElem_fin, h1, h2, h3, h4]) rfl,
    fun copy h => does h rfl,
    fun copy h1 h2 h3 h4 => does (by simp [-Fin.getElem_fin, -BitVec.getLsbD_eq_getElem, h1, h2, h3, h4]) rfl, ?_⟩
  -- Held records and the context window (chapters 12 and 5)
  exact ⟨fun h => does h rfl, fun h => does h rfl, fun pair h _ => does h rfl, fun pair load h _ => does h rfl⟩

end Sys2Proof.Machine

/-! ## Reaches and planes: the bounds every step keeps, the event mailbox, journal sessions and frame boundaries -/

namespace Sys2Proof.Machine

/-! ### The bounds of the stores -/

/-- The bounds do not speak of the commands that wait. -/
theorem State.Sound.withPending {s : State} (sound : s.Sound) (rest : List Instr) : ({ s with pending := rest } : State).Sound :=
  ⟨sound.flash, sound.ring, sound.ptr, sound.second, sound.otp⟩

/-- A step with a command in front is that command on the state with the queue's rest. -/
theorem step_of_front {s : State} {c : Instr} {rest : List Instr} (queue : s.pending = c :: rest) :
    step s = exec c { s with pending := rest } := by
  unfold step
  rw [queue]

/-- Settles O4: idling keeps the bounds (`State.advance_keeps`), and so does every command (`exec_keeps`), whatever waits behind it. -/
theorem stepKeepsSound : Obligations.StepKeepsSound := by
  intro s t sound stepped
  cases queue : s.pending with
  | nil =>
    rw [stepRunsFrontCommand.2 s queue] at stepped
    obtain rfl := Host.Outcome.next.inj stepped
    exact (s.advance_keeps 1).sound sound
  | cons c rest =>
    rw [step_of_front queue] at stepped
    obtain ⟨u, next, keeps⟩ := exec_keeps c { s with pending := rest }
    obtain rfl : u = t := Host.Outcome.next.inj (next.symm.trans stepped)
    exact keeps.sound (sound.withPending rest)

/-! ### Posts to the event mailbox -/

/-- An entry stands last unless the last entries are of its FAB cycle and of a higher SOURCE (R34). -/
theorem insertPost_last {l : List MboxEntry} {e : MboxEntry} (before : ∀ x ∈ l, x.atPs ≠ e.atPs ∨ x.source ≤ e.source) :
    insertPost l e = l ++ [e] := by
  have none_passed : l.reverse.takeWhile (fun x => x.atPs == e.atPs && decide (e.source < x.source)) = [] := by
    rw [List.takeWhile_eq_nil_iff]
    intro nonempty passed
    have last := before _ (List.mem_reverse.1 (List.getElem_mem nonempty))
    simp only [List.get_eq_getElem, Bool.and_eq_true, beq_iff_eq, decide_eq_true_eq] at passed
    omega
  simp [insertPost, none_passed]

/-- A post to a ring with room (R33). -/
theorem Mailbox.post_room {m : Mailbox} (e : MboxEntry) (room : m.pending.length < 1024) :
    (m.post e).pending = insertPost m.pending e ∧ (m.post e).rdPtr = m.rdPtr ∧ (m.post e).lost = m.lost ∧
      (m.post e).alertPending = (m.alertPending || e.alert) := by
  simp [Mailbox.post, Nat.not_le.2 room]

/-- A post to a full ring skips the oldest entry (R36). -/
theorem Mailbox.post_full {m : Mailbox} (e : MboxEntry) (full : 1024 ≤ m.pending.length) :
    (m.post e).pending = insertPost (m.pending.drop 1) e ∧ (m.post e).rdPtr = (m.rdPtr + 1) % 1024 ∧
      (m.post e).lost.n = min (m.lost.n + 1) (2 ^ 32 - 1) ∧ (m.post e).alertPending = true ∧ (m.post e).alertSkip = true := by
  simp [Mailbox.post, Tally.add, full]

/-- The FAULT record of a post changes no more of the mailbox than the instants of the last FAULT records. -/
theorem State.faultRecord_mailbox (s : State) (e : MboxEntry) :
    (s.faultRecord e).mailbox = { s.mailbox with faultPs := (s.faultRecord e).mailbox.faultPs } := by
  unfold State.faultRecord
  split
  · rfl
  · dsimp only
    rw [State.journalAppend_frame]

section
variable (s : State) (src reach ctx code sev : Nat) (data : List Byte)

theorem State.post_mailbox :
    (s.post src reach ctx code sev data).mailbox =
      { s.mailbox.post (s.entryNow src reach ctx code sev data) with faultPs := (s.post src reach ctx code sev data).mailbox.faultPs } :=
  State.faultRecord_mailbox _ _

/-- A post of SEVERITY 0 or 1 leaves no FAULT record (R489): it changes the mailbox alone. -/
theorem State.post_minor (minor : sev < 2) :
    s.post src reach ctx code sev data = { s with mailbox := s.mailbox.post (s.entryNow src reach ctx code sev data) } := by
  have severity : (s.entryNow src reach ctx code sev data).severity < 2 := minor
  simp [State.post, State.faultRecord, severity]

end

/-- Settles O11: the mailbox after a post is `Mailbox.post` but for the instants of FAULT records, and `Mailbox.post` goes by the room in
the ring. -/
theorem postEntersMailbox : Obligations.PostEntersMailbox := by
  intro s src reach ctx code sev data e t m
  have posted : t.mailbox = { m.post e with faultPs := t.mailbox.faultPs } := s.post_mailbox src reach ctx code sev data
  refine ⟨⟨rfl, rfl, rfl⟩, fun room => ?_, fun full => ?_, fun before => insertPost_last before, ?_, ?_,
    fun minor => s.post_minor src reach ctx code sev data minor, ?_⟩
  · rw [posted]
    exact Mailbox.post_room e room
  · rw [posted]
    exact Mailbox.post_full e full
  · rw [posted]
    rfl
  · rw [posted]
    rfl
  · simp [t]

/-! ### Journal sessions -/

section
variable {s : State} {j : Session}

theorem State.journalRequest_refused (refused : s.journalRefusal j.job ≠ 0) :
    s.journalRequest j = (s, s.journalRefusal j.job) :=
  if_pos refused

theorem State.journalRequest_started (taken : s.journalRefusal j.job = 0) (free : s.journalFree = true) :
    (s.journalRequest j).1 = s.journalStart j := by
  simp [State.journalRequest, taken, free]

theorem State.journalRequest_queued (taken : s.journalRefusal j.job = 0) (busy : s.journalFree = false) :
    s.journalRequest j = ({ s with journal := { s.journal with queue := s.journal.queue ++ [j] } }, 1) := by
  simp [State.journalRequest, taken, busy]

theorem State.grant_compaction (due : s.journal.compactDue = true) :
    s.grant = ({ s with journal := { s.journal with compactDue := false } } : State).journalStart ⟨.compact 1, false⟩ :=
  if_pos due

theorem State.grant_next (due : s.journal.compactDue = false) (next : s.journal.nextSession = some j) :
    s.grant = ({ s with journal := { s.journal with queue := s.journal.queue.erase j } } : State).journalStart j :=
  (if_neg (Bool.eq_false_iff.1 due)).trans (State.withSome_of next)

theorem State.grant_idle (due : s.journal.compactDue = false) (empty : s.journal.queue = []) : s.grant = s := by
  have none_next : s.journal.nextSession = none := by simp [Journal.nextSession, empty]
  simp [State.grant, State.withSome, due, none_next]

/-- JOURNAL_SESSION_GRANT grants while neither doze nor a running session holds the writer (R38, Table 1.12). -/
theorem execJournalSessionGrant_of {dt : Nat} (awake : (s.advance dt).awake = true) (dozes : (s.advance dt).doze.inDoze = false)
    (requested : (s.advance dt).doze.requested = false) (ready : (s.advance dt).journal.ready = true)
    (idle : (s.advance dt).journal.running = none) : exec (.journalSessionGrant dt) s = .next (s.advance dt).grant := by
  change execJournalSessionGrant dt s = _
  exact State.occurs_of _ _ _ _ (by rw [awake, dozes, requested, ready, idle]; rfl)

end

/-- The session granted next stands in the queue, before it none of its class, and no queued class of Table 1.10 is lower (R41). -/
theorem Journal.nextSession_first {j : Journal} {k : Session} (classes : ∀ x ∈ j.queue, 1 ≤ x.job.cls ∧ x.job.cls ≤ 5)
    (next : j.nextSession = some k) :
    ∃ a b, j.queue = a ++ k :: b ∧ (∀ x ∈ j.queue, k.job.cls ≤ x.job.cls) ∧ (∀ x ∈ a, x.job.cls ≠ k.job.cls) := by
  obtain ⟨lower, c, higher, order, found, no_lower⟩ := List.findSome?_eq_some_iff.1 next
  obtain ⟨class_k, a, b, queue, before⟩ := List.find?_eq_some_iff_append.1 found
  obtain rfl : k.job.cls = c := beq_iff_eq.1 class_k
  refine ⟨a, b, queue, fun x queued => ?_, fun x first => by simpa using before x first⟩
  have sorted : (lower ++ k.job.cls :: higher).Pairwise (· ≤ ·) := by
    rw [← order]
    decide
  have listed : x.job.cls ∈ lower ++ k.job.cls :: higher := by
    have := classes x queued
    rw [← order]
    simp only [List.mem_cons, List.not_mem_nil, or_false]
    omega
  rcases List.mem_append.1 listed with low | high
  · exact absurd (beq_self_eq_true x.job.cls) (List.find?_eq_none.1 (no_lower _ low) x queued)
  · rcases List.mem_cons.1 high with same | above
    · exact same.ge
    · exact List.rel_of_pairwise_cons (List.pairwise_append.1 sorted).2.1 above

/-- Settles O31: a request goes by its refusal and by whether the writer is free, a grant by the compaction that is due and the queue. -/
theorem journalSessions : Obligations.JournalSessions := by
  refine ⟨?_, fun j k => Journal.nextSession_first⟩
  intro s dt j u
  refine ⟨State.journalRequest_refused, State.journalRequest_started, State.journalRequest_queued, ?_⟩
  intro awake dozes requested ready idle
  rw [execJournalSessionGrant_of awake dozes requested ready idle]
  refine ⟨fun due => ?_, fun due k next => ?_, fun due empty => ?_⟩
  · rw [State.grant_compaction due]
  · rw [State.grant_next due next]
  · rw [State.grant_idle due empty]

/-! ### Frame boundaries -/

/-- `t` with the instant of a tick that `s` reports noted as the context's last one. -/
def State.noteTick (s t : State) (c : Fin 256) (k : BoundaryKind) : State :=
  if k == .tick then t.modCtx c (fun y => { y with tickPs := some s.clock }) else t

/-- What a frame boundary of the context does before any swap: the snapshot, the end of a run-out, and the instants of tick and boundary. -/
def State.boundaryKept (s : State) (c : Fin 256) (k : BoundaryKind) : State :=
  (s.noteTick ((s.snapshot c).expireRunOut c) c k).modCtx c (fun y => { y with boundaryPs := some s.clock })

section
variable {s : State} {c : Fin 256} {k : BoundaryKind} {p : Pending}

theorem State.frameBoundary_foreign (foreign : s.ctxs[c].boundaryIs s.clock k = false) : s.frameBoundary c k = s.noteTick s c k := by
  unfold State.frameBoundary
  simp only [foreign]
  rfl

theorem State.frameBoundary_unpended (own : s.ctxs[c].boundaryIs s.clock k = true) (unpended : s.ctxs[c].pending = none) :
    s.frameBoundary c k = s.boundaryKept c k := by
  unfold State.frameBoundary
  simp only [own, unpended]
  rfl

/-- An entry does not swap in a fade (R173), at the boundary of its own commit (R29), or while its context migrates (Table 1.8). -/
theorem State.frameBoundary_deferred (own : s.ctxs[c].boundaryIs s.clock k = true) (entry : s.ctxs[c].pending = some p)
    (defers : s.ctxs[c].fade.isSome = true ∨ s.clock ≤ p.at_ ∨
      (s.ctxs[c].st = .migrating ∧ (s.ctxs[c].waiting = false ∨ p.early = true))) : s.frameBoundary c k = s.boundaryKept c k := by
  unfold State.frameBoundary
  simp only [own, entry, Bool.not_true, Bool.false_eq_true, ↓reduceIte]
  refine if_pos ?_
  rcases defers with fade | late | ⟨migrating, waiting | early⟩
  · simp only [fade, Bool.true_or]
  · simp only [late, decide_true, Bool.or_true, Bool.true_or]
  · simp [-Fin.getElem_fin, migrating, waiting]
  · simp [-Fin.getElem_fin, migrating, early]

/-- An entry swaps when nothing defers it (R27): of a migrating context, one that it was given while it waited and that names another
reach (Table 12.5). -/
theorem State.frameBoundary_swaps (own : s.ctxs[c].boundaryIs s.clock k = true) (entry : s.ctxs[c].pending = some p)
    (unfaded : s.ctxs[c].fade = none) (committed : p.at_ < s.clock)
    (pair : ∀ q, p.pair = some q → s.ctxs[q].st ≠ .migrating)
    (placed : s.ctxs[c].st ≠ .migrating ∨
      (s.ctxs[c].waiting = true ∧ p.early = false ∧ p.entry.idle = false ∧ p.entry.reach ≠ s.ctxs[c].reachOf)) :
    s.frameBoundary c k = (s.boundaryKept c k).swap c p := by
  unfold State.frameBoundary
  simp only [own, entry, Bool.not_true, Bool.false_eq_true, ↓reduceIte]
  refine if_neg ?_
  have stays : (s.ctxs[c].st == CtxSt.migrating &&
      !(s.ctxs[c].waiting && !p.early && !p.entry.idle && p.entry.reach != s.ctxs[c].reachOf)) = false := by
    rcases placed with settled | ⟨waiting, early, idle, elsewhere⟩
    · rw [beq_false_of_ne settled, Bool.false_and]
    · simp [-Fin.getElem_fin, waiting, early, idle, elsewhere]
  rw [stays, unfaded, decide_eq_false (Nat.not_le.2 committed)]
  cases partner : p.pair with
  | none => simp
  | some q => simp [-Fin.getElem_fin, pair q partner]

/-- FRAME_BOUNDARY of a part that serves. -/
theorem execFrameBoundary_of {dt : Nat} (serving : (s.advance dt).serving = true) :
    exec (.frameBoundary dt c k) s = .next ((s.advance dt).frameBoundary c k) := by
  change execFrameBoundary dt c k s = _
  exact State.occurs_of _ _ _ _ serving

end

/-! ### The end of a fade and the first valid sample -/

section
variable {s : State} {dt : Nat} {c : Fin 256}

theorem Ctx.fadeOver_none {x : Ctx} (unfaded : x.fade = none) (now : Nat) : x.fadeOver now = false := by
  rw [Ctx.fadeOver, unfaded]

theorem Ctx.fadeOver_of {x : Ctx} {f : Fade} (fade : x.fade = some f) (now : Nat) : x.fadeOver now = decide (f.endPs ≤ now) := by
  rw [Ctx.fadeOver, fade]

/-- CROSS_FADE_END after the fade's last output leaves the new configuration in the slot borrowed for it (R171). -/
theorem execCrossFadeEnd_over {f : Fade} (serving : (s.advance dt).serving = true) (fade : (s.advance dt).ctxs[c].fade = some f)
    (ended : f.endPs ≤ (s.advance dt).clock) :
    exec (.crossFadeEnd dt c) s =
      .next ((s.advance dt).modCtx c (fun x => { x with fade := none, place := some f.spare })) := by
  have passed : (s.advance dt).ctxs[c].fadeOver (s.advance dt).clock = true := by
    rw [Ctx.fadeOver_of fade, decide_eq_true ended]
  change execCrossFadeEnd dt c s = _
  refine (State.occurs_of _ _ _ _ (by rw [serving, passed]; rfl)).trans ?_
  simp only [State.modCtx, Ctx.endFade, fade]

/-- Before that, or without a fade, it does nothing. -/
theorem execCrossFadeEnd_early (early : (s.advance dt).ctxs[c].fadeOver (s.advance dt).clock = false) :
    exec (.crossFadeEnd dt c) s = .next (s.advance dt) := by
  change execCrossFadeEnd dt c s = _
  exact State.occurs_not _ _ _ _ (by rw [early, Bool.and_false])

/-- FIRST_VALID_SAMPLE before the chain's own delay has passed does nothing (R157). -/
theorem execFirstValidSample_early {a b : Nat} (early : (s.advance dt).clock < (s.advance dt).ctxs[c].validPs) :
    exec (.firstValidSample dt c a b) s = .next (s.advance dt) := by
  change execFirstValidSample dt c a b s = _
  exact State.occurs_not _ _ _ _ (by rw [decide_eq_false (Nat.not_le.2 early), Bool.and_false, Bool.false_and])

/-- After it, a context that was not moved gets its new state and no MIGRATED post. -/
theorem execFirstValidSample_unmoved {a b : Nat} (runs : (s.advance dt).chainRuns c = true)
    (invalid : (s.advance dt).ctxs[c].invalid = true) (unmoved : (s.advance dt).ctxs[c].placed = false)
    (formed : (s.advance dt).ctxs[c].validPs ≤ (s.advance dt).clock) (settled : (s.advance dt).ctxs[c].st ≠ .migrating) :
    exec (.firstValidSample dt c a b) s =
      .next (((s.advance dt).modCtx c (fun y => { y with invalid := false, resettle := false, paused := y.active.req == 2 })).toState c
        (s.advance dt).ctxs[c].afterValid) := by
  change execFirstValidSample dt c a b s = _
  refine (State.occurs_of _ _ _ _ (by rw [runs, invalid, decide_eq_true formed, beq_false_of_ne settled]; rfl)).trans ?_
  simp only [State.firstValid, unmoved, Bool.false_eq_true, ↓reduceIte]

end

section
variable {x : Ctx}

theorem Ctx.afterValid_paused (acquire : x.st = .acquire) (paused : x.active.req = 2) : x.afterValid = .hold := by
  simp [Ctx.afterValid, acquire, paused]

theorem Ctx.afterValid_passThrough (acquire : x.st = .acquire) (running : x.active.req ≠ 2) (iq : x.active.std = 5) :
    x.afterValid = .valid := by
  simp [Ctx.afterValid, stdIq, acquire, running, iq]

theorem Ctx.afterValid_demodulated (acquire : x.st = .acquire) (running : x.active.req ≠ 2) (demod : x.active.std ≠ 5) :
    x.afterValid = .settling := by
  simp [Ctx.afterValid, stdIq, acquire, running, demod]

theorem Ctx.afterValid_hardChange (settling : x.st = .settling) (hard : x.resettle = true) :
    x.afterValid = if x.locked then .valid else .hold := by
  simp [Ctx.afterValid, settling, hard]

theorem Ctx.afterValid_kept (kept : x.st = .valid ∨ x.st = .hold) : x.afterValid = x.st := by
  rcases kept with st | st <;> simp [Ctx.afterValid, st]

end

/-- Settles O42: a boundary goes by what stands pending and what defers it, the end of a fade by its last output, and the first valid
sample leads to the state of `Ctx.afterValid`. -/
theorem frameBoundaries : Obligations.FrameBoundaries := by
  constructor
  · intro s dt c k f u x tick kept serving
    rw [execFrameBoundary_of serving]
    refine ⟨fun own => ⟨fun unpended => ?_, fun p entry settled pair unfaded committed => ?_,
      fun p entry _ waiting early idle elsewhere single unfaded committed => ?_, fun p entry defers => ?_⟩,
      fun foreign => ?_, execCrossFadeEnd_over serving, fun early => execCrossFadeEnd_early ?_⟩
    · exact congrArg Host.Outcome.next (State.frameBoundary_unpended own unpended)
    · exact congrArg Host.Outcome.next (State.frameBoundary_swaps own entry unfaded committed pair (.inl settled))
    · exact congrArg Host.Outcome.next (State.frameBoundary_swaps own entry unfaded committed (by simp [single])
        (.inr ⟨waiting, early, idle, elsewhere⟩))
    · exact congrArg Host.Outcome.next (State.frameBoundary_deferred own entry defers)
    · exact congrArg Host.Outcome.next (State.frameBoundary_foreign foreign)
    · rcases early with unfaded | ⟨fade, before⟩
      · exact Ctx.fadeOver_none unfaded _
      · exact (Ctx.fadeOver_of fade _).trans (decide_eq_false (Nat.not_le.2 before))
  · intro s dt c a b u x valid runs invalid unmoved
    refine ⟨execFirstValidSample_early, fun formed => ?_⟩
    have leads {n : CtxSt} (settled : x.st ≠ .migrating) (after : x.afterValid = n) :
        exec (.firstValidSample dt c a b) s = .next (valid.toState c n) :=
      after ▸ execFirstValidSample_unmoved runs invalid unmoved formed settled
    refine ⟨fun acquire => ?_, fun settling hard => leads (by simp [settling]) (Ctx.afterValid_hardChange settling hard),
      fun kept => leads (by rcases kept with st | st <;> simp [st]) (Ctx.afterValid_kept kept)⟩
    have settled : x.st ≠ .migrating := by simp [acquire]
    exact ⟨fun paused => leads settled (Ctx.afterValid_paused acquire paused),
      fun running iq => leads settled (Ctx.afterValid_passThrough acquire running iq),
      fun running demod => leads settled (Ctx.afterValid_demodulated acquire running demod)⟩

end Sys2Proof.Machine

/-! ## Clocks and bring-up: resets and their release, the references, the bring-up of a reach, doze -/

namespace Sys2Proof.Machine

/-! ### Resets and their release -/

/-- The cause of a reset by RESET_N (Table 2.9, R582). -/
theorem State.pinCause_eq (s : State) : s.pinCause = if s.still.frozen then 4 else if s.phase = .held then s.cause else 2 := by
  simp only [State.pinCause, beq_iff_eq]

/-- The release of the last hold (R75, R625). -/
theorem State.released_of {s : State} (pins : BitVec 3) (supplied : s.pins.porHold = false) (high : s.pins.resetN = false)
    (held : s.phase = .held) :
    s.released pins = { s with phase := .released, releasedPs := s.clock, tw := { s.tw with pins := pins } } := by
  simp [State.released, supplied, high, held]

/-- A word with CONFIRM and the command 1 reads back as these two (Table 15.10). -/
theorem bits_twResetWord (confirm : BitVec 16) :
    bits (fieldAt confirm.toNat 16 ||| 1) 31 16 = confirm.toNat ∧ bits (fieldAt confirm.toNat 16 ||| 1) 1 0 = 1 := by
  have bound := confirm.isLt
  have joined : (fieldAt confirm.toNat 16 ||| 1).toNat = 2 ^ 16 * confirm.toNat + 1 := by
    rw [Nat.two_pow_add_eq_or_of_lt (by norm_num), fieldAt, BitVec.toNat_or, BitVec.toNat_ofNat, Nat.mod_eq_of_lt (by omega),
      Nat.mul_comm]
    rfl
  simp only [bits, joined]
  omega

/-- The reset of TW_CMD acts on its own CONFIRM alone (Table 15.10). -/
theorem State.twCommand_reset (s : State) (confirm : BitVec 16) :
    s.twCommand (fieldAt confirm.toNat 16 ||| 1) = if confirm = 0x5253 then s.commandReset else s := by
  obtain ⟨key, cmd⟩ := bits_twResetWord confirm
  have spelled : confirm.toNat = 0x5253 ↔ confirm = 0x5253 := BitVec.toNat_inj (y := 0x5253#16)
  simp only [State.twCommand, key, cmd, spelled]

/-- The reset of TW_CMD holds neither RESET_N nor a supply, so bring-up starts at once with the address pins as they are. -/
theorem State.commandReset_of {s : State} (supplied : s.pins.porHold = false) (high : s.pins.resetN = false) :
    s.commandReset = { s.resetTo s.pinCause with
      phase := .released, releasedPs := s.clock, tw := { State.reset.tw with pins := s.tw.pins } } :=
  State.released_of _ supplied high rfl

/-- A part that is awake is neither frozen nor held, so the cause of a reset is PIN. -/
theorem State.pinCause_awake {s : State} (awake : s.awake = true) : s.pinCause = 2 := by
  simp only [State.awake, Bool.and_eq_true, beq_iff_eq, Bool.not_eq_true'] at awake
  obtain ⟨⟨locked, unfrozen⟩, -⟩ := awake
  simp [State.pinCause, locked, unfrozen]

section
variable {s : State} {dt : Nat}

theorem execReset_of {us : Nat} (low : 10 ≤ us) :
    exec (.reset dt us) s = .next
      (({ s.advance dt with pins := { (s.advance dt).pins with resetN := true } } : State).resetTo (s.advance dt).pinCause) := by
  change execReset dt us s = _
  exact State.occurs_of _ _ _ _ (decide_eq_true low)

theorem execPowerOnReset_of {core ana a18 : Nat} (below : core < 700 ∨ ana < 880 ∨ a18 < 1550) :
    exec (.powerOnReset dt core ana a18) s = .next
      (({ s.advance dt with pins := { (s.advance dt).pins with porHold := true } } : State).resetTo 1) := by
  change execPowerOnReset dt core ana a18 s = _
  exact State.occurs_of _ _ _ _ (decide_eq_true below)

theorem execPowerOnResetRelease_of {pins : BitVec 3} {above : Nat} {bank : BitVec 2} (holds : (s.advance dt).pins.porHold = true)
    (long : 10000 ≤ above) :
    exec (.powerOnResetRelease dt pins above bank) s = .next
      (({ s.advance dt with pins := { (s.advance dt).pins with porHold := false, bank18 := bank } } : State).released pins) := by
  change execPowerOnResetRelease dt pins above bank s = _
  exact State.occurs_of _ _ _ _ (by rw [holds, decide_eq_true long]; rfl)

theorem execResetNRelease_of {pins : BitVec 3} (low : (s.advance dt).pins.resetN = true) :
    exec (.resetNRelease dt pins) s = .next
      (({ s.advance dt with pins := { (s.advance dt).pins with resetN := false } } : State).released pins) := by
  change execResetNRelease dt pins s = _
  exact State.occurs_of _ _ _ _ low

theorem execTwCmdReset_of {confirm : BitVec 16} (awake : (s.advance dt).awake = true) :
    exec (.twCmdReset dt confirm) s = .next (if confirm = 0x5253 then (s.advance dt).commandReset else s.advance dt) := by
  change execTwCmdReset dt confirm s = _
  exact State.occurs_at rfl awake (State.twCommand_reset _ _)

end

/-- Settles O10: every reset is `State.resetTo` with its own cause and hold, and the end of the last hold is `State.released`. -/
theorem resetCommands : Obligations.ResetCommands := by
  intro s dt us above core ana a18 pins bank confirm u after
  refine ⟨fun low => ?_, fun below => execPowerOnReset_of below,
    fun holds high held long =>
      (execPowerOnResetRelease_of holds long).trans (congrArg Host.Outcome.next (State.released_of pins rfl high held)),
    fun low supplied held => (execResetNRelease_of low).trans (congrArg Host.Outcome.next (State.released_of pins supplied rfl held)),
    fun awake supplied high => ?_, fun awake other => ?_⟩
  · rw [execReset_of low, State.pinCause_eq]
    rfl
  · rw [execTwCmdReset_of awake, if_pos rfl, State.commandReset_of supplied high, State.pinCause_awake awake, State.resetTo, supplied, high]
  · rw [execTwCmdReset_of awake, if_neg other]

/-! ### The choice of a reference -/

/-- The classes of R58 in their order: the bands, 5 % to either side, do not meet. -/
theorem classOf_eq (hz : Nat) :
    classOf hz = if 9500000 ≤ hz ∧ hz ≤ 10500000 then .mhz10 else if 23750000 ≤ hz ∧ hz ≤ 26250000 then .mhz25
      else if 118750000 ≤ hz ∧ hz ≤ 131250000 then .mhz125 else .absent := by
  simp only [classOf, nearClass, List.find?, classHz]
  grind

theorem classOf_iff (hz : Nat) :
    (classOf hz = .mhz10 ↔ 9500000 ≤ hz ∧ hz ≤ 10500000) ∧ (classOf hz = .mhz25 ↔ 23750000 ≤ hz ∧ hz ≤ 26250000) ∧
      (classOf hz = .mhz125 ↔ 118750000 ≤ hz ∧ hz ≤ 131250000) := by
  rw [classOf_eq]
  split_ifs <;> simp only [false_iff, true_iff] <;> omega

/-- The class in which the choice takes REFCLK2: absent while it is ignored (R59). -/
def Refs.class2 (f : Refs) (c : RefClass) : RefClass := if f.ignore2 then .absent else c

section
variable {f : Refs} {s : State} {a c : RefClass}

/-- With REFCLK present, REFCLK2 stands by at the same frequency and is ignored at another (R59). -/
theorem Refs.classed_first (present : a ≠ .absent) :
    f.classed a c = { f with ok1 := true, ok2 := f.class2 c == a, ignore2 := f.ignore2 || (f.class2 c != .absent && f.class2 c != a)
                             freq := refFreq a } := by
  unfold Refs.classed Refs.class2
  cases a with
  | absent => exact absurd rfl present
  | mhz10 | mhz25 | mhz125 => cases f.ignore2 <;> cases c <;> rfl

/-- Without REFCLK, REFCLK2 counts alone. -/
theorem Refs.classed_second :
    f.classed .absent c = { f with ok1 := false, ok2 := f.class2 c != .absent, freq := refFreq (f.class2 c) } := by
  unfold Refs.classed Refs.class2
  cases f.ignore2 <;> rfl

/-- REFCLK when present, else REFCLK2 (R59, R68). -/
theorem Refs.classed_choice :
    (f.classed a c).choice = if a ≠ .absent then 1 else if f.class2 c ≠ .absent then 2 else 0 := by
  by_cases present : a = .absent
  · subst present
    simp [Refs.classed_second, Refs.choice]
  · simp [Refs.classed_first present, Refs.choice, present]

/-- A reference is chosen (R59). -/
theorem State.classify_chosen {n : Nat} (choice : (s.refs.classed a c).choice = n) (some_present : n ≠ 0) :
    s.classify a c = { s with
      phase := .classified, releasedPs := if s.refs.noRef then s.clock else s.releasedPs
      refs := { s.refs.classed a c with active := n, noRef := false } } := by
  subst choice
  exact if_neg some_present

theorem State.classify_first (present : a ≠ .absent) :
    s.classify a c = { s with
      phase := .classified, releasedPs := if s.refs.noRef then s.clock else s.releasedPs
      refs := { s.refs with ok1 := true, ok2 := s.refs.class2 c == a, active := 1, freq := refFreq a, noRef := false
                            ignore2 := s.refs.ignore2 || (s.refs.class2 c != .absent && s.refs.class2 c != a) } } := by
  have choice : (s.refs.classed a c).choice = 1 := by rw [Refs.classed_choice, if_pos present]
  rw [State.classify_chosen choice one_ne_zero, Refs.classed_first present]

theorem State.classify_second (absent : a = .absent) (present : s.refs.class2 c ≠ .absent) :
    s.classify a c = { s with
      phase := .classified, releasedPs := if s.refs.noRef then s.clock else s.releasedPs
      refs := { s.refs with ok1 := false, ok2 := true, active := 2, freq := refFreq (s.refs.class2 c), ignore2 := false, noRef := false } } := by
  subst absent
  have choice : (s.refs.classed .absent c).choice = 2 := by rw [Refs.classed_choice, if_neg (not_not.2 rfl), if_pos present]
  have heeded : s.refs.ignore2 = false := by
    by_contra ignored
    exact present (if_pos (Bool.eq_true_of_not_eq_false ignored))
  rw [State.classify_chosen choice two_ne_zero, Refs.classed_second, bne_iff_ne.2 present, heeded]

/-- With neither input present the part waits (R60). -/
theorem State.classify_none (absent : a = .absent) (absent2 : s.refs.class2 c = .absent) :
    s.classify a c = { s with refs := { s.refs with noRef := true } } := by
  subst absent
  have choice : (s.refs.classed .absent c).choice = 0 := by
    rw [Refs.classed_choice, if_neg (not_not.2 rfl), if_neg (not_not.2 absent2)]
  exact if_pos choice

end

/-! ### Bring-up -/

section
variable {s : State} {dt : Nat} {r : Fin 4}

theorem execRefClassify_of {hz1 hz2 : Nat} (released : (s.advance dt).phase = .released)
    (measured : (s.advance dt).releasedPs + 20000000 ≤ (s.advance dt).clock) :
    exec (.refClassify dt hz1 hz2) s = .next ((s.advance dt).classify (classOf hz1) (classOf hz2)) := by
  change execRefClassify dt hz1 hz2 s = _
  exact State.occurs_of _ _ _ _ (by rw [released, decide_eq_true measured]; rfl)

theorem execConfluencePllLock_of (classified : (s.advance dt).phase = .classified) :
    exec (.confluencePllLock dt) s = .next
      (({ s.advance dt with phase := .locked, tw := { (s.advance dt).tw with ready := true }, selftestPs := (s.advance dt).clock
                            sync := { (s.advance dt).sync with tick0 := (s.advance dt).clock } } : State).firstReports.sendReports) := by
  change execConfluencePllLock dt s = _
  exact State.occurs_of _ _ _ _ (by rw [classified]; rfl)

section
variable (starts : (s.advance dt).reachStarts r = true)
include starts

theorem execReachPllLock_of (unlocked : (s.advance dt).reaches[r].pll = false) :
    exec (.reachPllLock dt r) s = .next { (s.advance dt).modReach r (fun x =>
      x.lockPll (Config.sampPhase (s.advance dt).draws % 320) (s.advance dt).clock) with draws := (s.advance dt).draws + 1 } := by
  change execReachPllLock dt r s = _
  exact State.occurs_of _ _ _ _ (by rw [starts, unlocked]; rfl)

theorem execAdcSettled_of (locked : (s.advance dt).reaches[r].pll = true) (unsettled : (s.advance dt).reaches[r].adc = false) :
    exec (.adcSettled dt r) s = .next ((s.advance dt).adcSettles r) := by
  change execAdcSettled dt r s = _
  exact State.occurs_of _ _ _ _ (by rw [starts, locked, unsettled]; rfl)

theorem execInitialFallowPassEnd_of {bad : Bool} (settled : (s.advance dt).reaches[r].adc = true)
    (passed : (s.advance dt).reaches[r].passPs + fallowPassPs ≤ (s.advance dt).clock) :
    exec (.initialFallowPassEnd dt r bad) s = .next
      (((s.advance dt).modReach r (fun x => { x with pass := true })).modFallow r (fun f => f.afterPass bad (s.advance dt).clock)) := by
  change execInitialFallowPassEnd dt r bad s = _
  exact State.occurs_of _ _ _ _ (by rw [starts, settled, decide_eq_true passed]; rfl)

theorem execReachReady_of (image : (s.advance dt).image.accepted = true) (locked : (s.advance dt).reaches[r].pll = true)
    (settled : (s.advance dt).reaches[r].adc = true) (passed : (s.advance dt).reaches[r].pass = true) :
    exec (.reachReady dt r) s = .next ((s.advance dt).reachReady r) := by
  change execReachReady dt r s = _
  exact State.occurs_of _ _ _ _ (by rw [starts, image, locked, settled, passed]; rfl)

theorem execBringupTimeout_of {p : Nat} (deadline : (s.advance dt).reaches[r].deadlinePs = some p) (late : p ≤ (s.advance dt).clock) :
    exec (.bringupTimeout dt r) s = .next ((s.advance dt).failReach r 0 0 true (s.advance dt).clock) := by
  change execBringupTimeout dt r s = _
  refine State.occurs_of _ _ _ _ ?_
  simp only [starts, deadline, late, decide_true, Bool.and_self]

end
end

/-- Settles O17: the classification is `classOf` and `State.classify`, and each step of a reach's bring-up is its own effect. -/
theorem bringUp : Obligations.BringUp := by
  constructor
  · intro s dt hz1 hz2 u a b
    refine ⟨classOf_iff, fun released measured => ?_, execConfluencePllLock_of⟩
    rw [execRefClassify_of released measured]
    refine ⟨fun absent absent2 => ⟨_, congrArg Host.Outcome.next (State.classify_none absent absent2), released, rfl⟩,
      fun present => congrArg Host.Outcome.next (State.classify_first present),
      fun absent present => congrArg Host.Outcome.next (State.classify_second absent present)⟩
  · intro s dt r bad u x starts
    refine ⟨fun unlocked => ?_, fun locked unsettled => ?_, fun settled passed => ?_,
      execReachReady_of starts, fun p => execBringupTimeout_of starts⟩
    · have locks : (u.modReach r (fun x => x.lockPll (Config.sampPhase u.draws % 320) u.clock)).reaches[r] =
          x.lockPll (Config.sampPhase u.draws % 320) u.clock := State.modReach_same ..
      exact ⟨_, _, execReachPllLock_of starts unlocked, Nat.mod_lt _ (by norm_num), locks, congrArg Reach.pll locks⟩
    · exact ⟨_, execAdcSettled_of starts locked unsettled, rfl, rfl, rfl, rfl, rfl, rfl⟩
    · refine ⟨_, execInitialFallowPassEnd_of starts settled passed, ?_⟩
      rw [State.modFallow_same, State.modFallow_reaches, State.modReach_same]
      exact ⟨rfl, rfl, rfl, rfl, rfl, rfl⟩

/-! ### Failover -/

section
variable {f : Refs} {two : Bool}

theorem Refs.good_inputOf : f.good (inputOf two) = if two then f.ok2 else f.ok1 := by
  cases two <;> rfl

theorem Refs.drop_inputOf :
    f.drop (inputOf two) = if two then { f with ok2 := false } else { f with ok1 := false, restoreFrom := none } := by
  cases two <;> rfl

@[simp] theorem Refs.drop_switches (f : Refs) (input : Nat) : (f.drop input).switches = f.switches := by
  unfold Refs.drop
  split <;> rfl

/-- When an input counts as lost (R61). -/
theorem Refs.lost_iff {input n : Nat} {degrees : List Nat} :
    f.lost input n degrees = true ↔ 4 * refPeriodNs f.freq ≤ n ∨
      (f.active = input ∧ 16 ≤ degrees.length ∧ ∀ d ∈ degrees.drop (degrees.length - 16), 90 < d) := by
  simp only [Refs.lost, Bool.or_eq_true, Bool.and_eq_true, decide_eq_true_eq, beq_iff_eq, List.all_eq_true, and_assoc]

/-- The input that stands by is good (R63). -/
def Refs.standbyGood (f : Refs) : Prop := if f.active = 1 then f.ok2 = true ∧ f.ignore2 = false else f.ok1 = true

/-- The other input than the active one stands by when it is good. -/
theorem Refs.standby_good (active : f.active = inputOf two) (good : f.standbyGood) : f.standby = if two then 1 else 2 := by
  cases two with
  | false =>
    have first : f.active = 1 := active
    obtain ⟨ok, heeded⟩ : f.ok2 = true ∧ f.ignore2 = false := by rwa [Refs.standbyGood, if_pos first] at good
    simp [Refs.standby, first, ok, heeded]
  | true =>
    have second : f.active = 2 := active
    have ok : f.ok1 = true := by rwa [Refs.standbyGood, if_neg (by rw [second]; decide)] at good
    simp [Refs.standby, second, ok]

theorem Refs.standby_none (lacks : ¬ f.standbyGood) : f.standby = 0 := by
  unfold Refs.standbyGood at lacks
  unfold Refs.standby
  split
  · next first =>
    rw [if_pos first] at lacks
    simpa using lacks
  · next other =>
    rw [if_neg other] at lacks
    exact if_neg lacks

/-- An input returns at the frequency in use: REFCLK starts the wait-to-restore time, REFCLK2 counts unless it is ignored (R67). -/
theorem Refs.restored_inputOf {c : RefClass} {now : Nat} (lost : f.good (inputOf two) = false) (same : refFreq c = f.freq) :
    f.restored (inputOf two) c now = if two then (if f.ignore2 then f else { f with ok2 := true })
      else { f with ok1 := true, restoreFrom := some now } := by
  rw [Refs.restored, lost, same, bne_self_eq_false]
  cases two <;> rfl

end

section
variable {s : State} {dt n below hz hz1 hz2 : Nat} {two : Bool} {degrees : List Nat} {words : Vector Nat 5}

/-- The loss of the active reference with a good standby (R63, R64). -/
theorem State.loseRef_switch {d : Refs} {input : Nat} (locked : s.phase = .locked) (dropped : s.refs.dropActive = d)
    (standby : s.refs.standby = input) (good : input ≠ 0) :
    s.loseRef n words = { s with refs := { d with
      words := words, active := input, holdover := true, switches := min (s.refs.switches + 1) 255, postCode := 1
      lastEdge := s.nowNs - n, restoreFrom := none, switchPs := s.clock } } := by
  subst dropped standby
  simp [State.loseRef, Refs.switchTo, Refs.dropActive, locked, good]

/-- The loss of the active reference without a standby (R66). -/
theorem State.loseRef_alone {d : Refs} (locked : s.phase = .locked) (dropped : s.refs.dropActive = d) (standby : s.refs.standby = 0) :
    s.loseRef n words =
      (let t : State := { s with refs := { d with
         words := words, active := 0, holdover := true, noRef := true, postCode := 0, lastEdge := s.nowNs - n } }
       (if t.rtc.src = 1 then t.discardWindow else t).post 0 0xFF 0xFFFF 2 3 (bytesOf 1 0 ++ bytesOf 7 0 ++ bytesOf 8 (s.nowNs - n))) := by
  subst dropped
  simp [State.loseRef, Refs.data, locked, standby]

theorem State.exitHoldover_posts (posts : s.refs.postCode ≠ 0) :
    s.exitHoldover = ({ s with refs := { s.refs with holdover := false, postCode := 0 } } : State).post 0 0xFF 0xFFFF
      s.refs.postCode (if s.refs.postCode = 1 then 1 else 0) (bytesOf 1 s.refs.active ++ bytesOf 7 0 ++ bytesOf 8 s.refs.lastEdge) :=
  if_neg posts

/-- The first present input is taken from no reference, with its own post and the end of the loss noted (R68). -/
theorem State.recoverRef_chosen {a c : RefClass} {input : Nat} (choice : (s.refs.classed a c).choice = input) (some_present : input ≠ 0) :
    s.recoverRef a c = { s with
      refs := { (s.refs.classed a c).switchTo input 1 s.nowNs s.clock with noRef := false, noRefEnd := some s.nowNs } } := by
  subst choice
  exact if_neg some_present

theorem State.recoverRef_none {a c : RefClass} (choice : (s.refs.classed a c).choice = 0) : s.recoverRef a c = s :=
  if_pos choice

theorem State.refsRun_of (locked : s.phase = .locked) (unfrozen : s.still.frozen = false) : s.refsRun = true := by
  rw [State.refsRun, locked, unfrozen]
  rfl

section
variable (locked : (s.advance dt).phase = .locked) (unfrozen : (s.advance dt).still.frozen = false)
include locked unfrozen

theorem execRefLost_of (good : (s.advance dt).refs.good (inputOf two) = true)
    (lost : (s.advance dt).refs.lost (inputOf two) n degrees = true) :
    exec (.refLost dt two n degrees words) s = .next
      (if (s.advance dt).refs.active = inputOf two then (s.advance dt).loseRef n words
       else { s.advance dt with refs := (s.advance dt).refs.drop (inputOf two) }) := by
  change execRefLost dt two n degrees words s = _
  exact State.occurs_of _ _ _ _ (by rw [State.refsRun_of locked unfrozen, good, lost]; rfl)

theorem execHoldoverExit_of (holdover : (s.advance dt).refs.holdover = true) (active : (s.advance dt).refs.active ≠ 0)
    (steady : 100 ≤ below) (since : (s.advance dt).refs.switchPs + 100000000 ≤ (s.advance dt).clock) :
    exec (.holdoverExit dt below) s = .next (s.advance dt).exitHoldover := by
  change execHoldoverExit dt below s = _
  exact State.occurs_of _ _ _ _ (by
    rw [locked, unfrozen, holdover, bne_iff_ne.2 active, decide_eq_true steady, decide_eq_true since]; rfl)

theorem execRefclkRestored_of (active : (s.advance dt).refs.active ≠ 0) (other : (s.advance dt).refs.active ≠ inputOf two) :
    exec (.refclkRestored dt two hz) s = .next { s.advance dt with
      refs := (s.advance dt).refs.restored (inputOf two) (classOf hz) (s.advance dt).clock } := by
  change execRefclkRestored dt two hz s = _
  exact State.occurs_of _ _ _ _ (by
    rw [State.refsRun_of locked unfrozen, bne_iff_ne.2 active, bne_iff_ne.2 other]; rfl)

theorem execRefRevert_of {p : Nat} (revertive : (s.advance dt).image.revertive = true) (second : (s.advance dt).refs.active = 2)
    (ok : (s.advance dt).refs.ok1 = true) (steady : (s.advance dt).refs.holdover = false)
    (waits : (s.advance dt).refs.restoreFrom = some p) (waited : p + (s.advance dt).image.restoreS * secPs ≤ (s.advance dt).clock) :
    exec (.refRevert dt) s = .next { s.advance dt with
      refs := (s.advance dt).refs.switchTo 1 3 (s.advance dt).nowNs (s.advance dt).clock } := by
  change execRefRevert dt s = _
  refine State.occurs_of _ _ _ _ ?_
  simp only [locked, unfrozen, revertive, second, ok, steady, waits, waited, decide_true, beq_self_eq_true, Bool.not_false, Bool.and_self]

theorem execRefRecovered_of (holdover : (s.advance dt).refs.holdover = true) (inactive : (s.advance dt).refs.active = 0) :
    exec (.refRecovered dt hz1 hz2) s = .next ((s.advance dt).recoverRef (classOf hz1) (classOf hz2)) := by
  change execRefRecovered dt hz1 hz2 s = _
  exact State.occurs_of _ _ _ _ (by rw [locked, unfrozen, holdover, inactive]; rfl)

end
end

/-- Settles O18: a loss goes by the standby (`Refs.standby`), a recovery by the choice of R59 (`Refs.classed_choice`). -/
theorem referenceFailover : Obligations.ReferenceFailover := by
  intro s dt n below hz hz1 hz2 two degrees words u f input standby lostRef isLost locked unfrozen
  have second : (10 : Nat) ^ 12 = secPs := by norm_num [secPs]
  have window : (10 : Nat) ^ 8 = 100000000 := by norm_num
  refine ⟨fun good lost => ?_, fun holdover active posts steady since => ?_, fun active other bad same => ?_,
    fun p revertive active ok steady waits waited => execRefRevert_of locked unfrozen revertive active ok steady waits (second ▸ waited),
    fun holdover inactive heeded => ?_⟩
  · have loses := execRefLost_of (words := words) locked unfrozen (Refs.good_inputOf.trans good) (Refs.lost_iff.2 lost)
    have dropped (active : f.active = input) : f.dropActive = lostRef := by
      rw [Refs.dropActive, active]
      exact Refs.drop_inputOf
    refine ⟨fun active held => ?_, fun active lacks => ?_, fun other => ?_⟩ <;> refine loses.trans (congrArg Host.Outcome.next ?_)
    · exact (if_pos active).trans
        (State.loseRef_switch locked (dropped active) (Refs.standby_good active held) (by split <;> decide))
    · exact (if_pos active).trans (State.loseRef_alone locked (dropped active) (Refs.standby_none lacks))
    · exact (if_neg other).trans (congrArg (fun f => ({ u with refs := f } : State)) Refs.drop_inputOf)
  · exact (execHoldoverExit_of locked unfrozen holdover active steady (window ▸ since)).trans
      (congrArg Host.Outcome.next (State.exitHoldover_posts (show f.postCode ≠ 0 by omega)))
  · rw [execRefclkRestored_of locked unfrozen active other, Refs.restored_inputOf (Refs.good_inputOf.trans bad) same]
    refine ⟨fun first => ?_, fun second heeded => ?_, fun second ignored => ?_⟩
    · rw [if_neg (Bool.eq_false_iff.1 first)]
    · rw [if_pos second, if_neg (Bool.eq_false_iff.1 heeded)]
    · rw [if_pos second, if_pos ignored]
  · have choice : (f.classed (classOf hz1) (classOf hz2)).choice =
        if classOf hz1 ≠ .absent then 1 else if classOf hz2 ≠ .absent then 2 else 0 := by
      rw [Refs.classed_choice, Refs.class2, heeded]
      rfl
    rw [execRefRecovered_of locked unfrozen holdover inactive]
    refine ⟨fun present => ?_, fun absent absent2 => ?_⟩
    · have chosen : (f.classed (classOf hz1) (classOf hz2)).choice = if classOf hz1 ≠ .absent then 1 else 2 := by
        rw [choice]
        rcases present with present | present <;> simp [present]
      exact ⟨_, congrArg Host.Outcome.next (State.recoverRef_chosen chosen (by split <;> decide)), rfl, rfl, rfl, rfl, rfl, rfl, rfl⟩
    · rw [State.recoverRef_none (by rw [choice, absent, absent2]; rfl)]

/-! ### Doze -/

section
variable {s : State} {dt : Nat}

/-- A part whose FAB runs is awake. -/
theorem State.awake_of (locked : s.phase = .locked) (unfrozen : s.still.frozen = false) (runs : s.doze.fabAwake = true) :
    s.awake = true := by
  rw [State.awake, locked, unfrozen, runs]
  rfl

theorem State.scheduleRuns_of (locked : s.phase = .locked) (unfrozen : s.still.frozen = false) : s.scheduleRuns = true := by
  rw [State.scheduleRuns, locked, unfrozen]
  rfl

theorem State.scheduleActs_iff : s.scheduleActs = true ↔
    s.doze.scheduleEn = true ∧ s.rtc.timeLost = false ∧ s.doze.suppressed = false := by
  simp only [State.scheduleActs, Bool.and_eq_true, Bool.not_eq_true', and_assoc]

/-- What a request of entry does, whatever else of the doze state changes with it. -/
theorem State.requestDoze_eq (d : Doze) :
    ({ s with doze := d } : State).requestDoze =
      { s with doze := if d.inDoze && !d.exitRequested then d else { d with requested := true } } := by
  unfold State.requestDoze
  split <;> rfl

/-- What a request of exit does, whatever else of the doze state changes with it. -/
theorem State.requestExit_eq (d : Doze) :
    ({ s with doze := d } : State).requestExit =
      { s with doze := if d.inDoze || d.requested then { d with exitRequested := true } else d } := by
  unfold State.requestExit
  split <;> rfl

/-- The host's exit silences the schedule inside a window alone (R90). -/
theorem State.hostExit_outside (outside : s.doze.scheduleEn = false ∨ s.inWindow = false) : s.hostExit = s.requestExit := by
  have free : (s.doze.scheduleEn && s.inWindow) = false := Bool.and_eq_false_iff.2 outside
  rw [State.hostExit, free, State.when_false]

theorem State.hostExit_inside (scheduled : s.doze.scheduleEn = true) (inside : s.inWindow = true) :
    s.hostExit = ({ s with doze := { s.doze with suppressed := true } } : State).requestExit := by
  rw [State.hostExit, scheduled, inside, Bool.and_self, State.when_true]

theorem State.enterWindow_acts (acts : s.scheduleActs = true) (inside : s.inWindow = true) : s.enterWindow = s.requestDoze := by
  rw [State.enterWindow, acts, inside]
  rfl

theorem State.enterWindow_idle (idle : s.scheduleActs = false) : s.enterWindow = s := by
  rw [State.enterWindow, idle]
  rfl

/-- The start of a window ends the silence of the schedule, which then goes by SCHEDULE_EN and TIME_LOST alone (R88, R90). -/
theorem State.scheduleActs_unsilenced : ({ s with doze := { s.doze with suppressed := false } } : State).scheduleActs =
    (s.doze.scheduleEn && !s.rtc.timeLost) := by
  rw [State.scheduleActs, Bool.not_false, Bool.and_true]

/-- Queued journal sessions start at doze exit when the journal is ready and its writer free (Table 2.12). -/
theorem State.when_journalFree (a : State) : a.when (a.journal.ready && a.journal.running.isNone) State.grant =
    if a.journal.ready = true ∧ a.journal.running = none then a.grant else a := by
  simp only [State.when, Bool.and_eq_true, Option.isNone_iff_eq_none]

theorem execDozeEnter_of (awake : (s.advance dt).awake = true) : exec (.dozeEnter dt) s = .next (s.advance dt).requestDoze := by
  change execDozeEnter dt s = _
  exact State.occurs_of _ _ _ _ awake

theorem execDozeExit_of (awake : (s.advance dt).awake = true) : exec (.dozeExit dt) s = .next (s.advance dt).hostExit := by
  change execDozeExit dt s = _
  exact State.occurs_of _ _ _ _ awake

section
variable (locked : (s.advance dt).phase = .locked) (unfrozen : (s.advance dt).still.frozen = false)
include locked unfrozen

theorem execDozeWindowStart_of (minute : (s.advance dt).rtc.seconds % 60 = 0)
    (starts : ∃ w ∈ (s.advance dt).image.windows, w.1 = minuteOf (s.advance dt).rtc.seconds) :
    exec (.dozeWindowStart dt) s = .next
      ({ s.advance dt with doze := { (s.advance dt).doze with suppressed := false } } : State).enterWindow := by
  have starts_any : (s.advance dt).image.windows.any (fun w => w.1 == minuteOf (s.advance dt).rtc.seconds) = true := by
    simpa only [List.any_eq_true, beq_iff_eq] using starts
  change execDozeWindowStart dt s = _
  exact State.occurs_of _ _ _ _ (by
    rw [State.scheduleRuns_of locked unfrozen, State.minuteStarts, decide_eq_true minute, starts_any]; rfl)

theorem execDozeWindowEnd_of (minute : (s.advance dt).rtc.seconds % 60 = 0) (outside : (s.advance dt).inWindow = false)
    (ends : ∃ w ∈ (s.advance dt).image.windows, (w.1 + w.2) % 1440 = minuteOf (s.advance dt).rtc.seconds)
    (acts : (s.advance dt).scheduleActs = true) : exec (.dozeWindowEnd dt) s = .next (s.advance dt).requestExit := by
  have ends_any : (s.advance dt).image.windows.any (fun w => (w.1 + w.2) % 1440 == minuteOf (s.advance dt).rtc.seconds) = true := by
    simpa only [List.any_eq_true, beq_iff_eq] using ends
  change execDozeWindowEnd dt s = _
  exact State.occurs_of _ _ _ _ (by
    rw [State.scheduleRuns_of locked unfrozen, State.minuteStarts, decide_eq_true minute, outside, acts, ends_any]; rfl)

omit locked unfrozen in
theorem execDozeWindowEnd_idle (idle : (s.advance dt).scheduleActs = false) : exec (.dozeWindowEnd dt) s = .next (s.advance dt) := by
  change execDozeWindowEnd dt s = _
  exact State.occurs_not _ _ _ _ (by rw [idle, Bool.and_false, Bool.false_and])

theorem execDozeTwWake_of (dozes : (s.advance dt).doze.inDoze = true) (stopped : (s.advance dt).doze.fabAwake = false) :
    exec (.dozeTwWake dt) s = .next (s.advance dt).wakeFab := by
  change execDozeTwWake dt s = _
  exact State.occurs_of _ _ _ _ (by rw [State.scheduleRuns_of locked unfrozen, dozes, stopped]; rfl)

theorem execDozeFabIdleStop_of (dozes : (s.advance dt).doze.inDoze = true) (runs : (s.advance dt).doze.fabAwake = true)
    (quiet : (s.advance dt).doze.lastTwPs + 10 * msPs ≤ (s.advance dt).clock) :
    exec (.dozeFabIdleStop dt) s = .next { s.advance dt with doze := { (s.advance dt).doze with fabAwake := false } } := by
  change execDozeFabIdleStop dt s = _
  exact State.occurs_of _ _ _ _ (by rw [State.awake_of locked unfrozen runs, dozes, decide_eq_true quiet]; rfl)

theorem execDozeExitSequence_of (dozes : (s.advance dt).doze.inDoze = true) (requested : (s.advance dt).doze.exitRequested = true) :
    exec (.dozeExitSequence dt) s = .next (s.advance dt).leaveDoze := by
  change execDozeExitSequence dt s = _
  exact State.occurs_of _ _ _ _ (by rw [State.scheduleRuns_of locked unfrozen, dozes, requested]; rfl)

end
end

/-- Settles O29: the requests are `State.requestDoze` and `State.requestExit` on the doze state they leave, FAB in doze goes by its two
commands, and the exit is `State.leaveDoze`. -/
theorem dozeRequestsAndExit : Obligations.DozeRequestsAndExit := by
  constructor
  · intro s dt u d acts enter
    refine ⟨fun awake => ⟨(execDozeEnter_of awake).trans (congrArg Host.Outcome.next (State.requestDoze_eq (s := u) d)),
      fun outside => ?_, fun scheduled inside => ?_⟩, fun locked unfrozen minute => ⟨fun starts => ?_, fun ends outside => ?_⟩⟩
    · rw [execDozeExit_of awake, State.hostExit_outside outside]
      exact congrArg Host.Outcome.next (State.requestExit_eq (s := u) d)
    · rw [execDozeExit_of awake, State.hostExit_inside scheduled inside]
      exact congrArg Host.Outcome.next (State.requestExit_eq (s := u) { d with suppressed := true })
    · rw [execDozeWindowStart_of locked unfrozen minute starts]
      refine ⟨fun scheduled timed inside => congrArg Host.Outcome.next ?_, fun idle => congrArg Host.Outcome.next ?_⟩
      · exact (State.enterWindow_acts (State.scheduleActs_unsilenced.trans (Bool.and_eq_true_iff.2 ⟨scheduled, congrArg not timed⟩)) inside).trans
          (State.requestDoze_eq { d with suppressed := false })
      · exact State.enterWindow_idle (State.scheduleActs_unsilenced.trans (Bool.and_eq_false_iff.2 (idle.imp_right (congrArg not))))
    · refine ⟨fun acting => ?_, fun idle => execDozeWindowEnd_idle (Bool.eq_false_iff.2 (mt State.scheduleActs_iff.1 idle))⟩
      rw [execDozeWindowEnd_of locked unfrozen minute outside ends (State.scheduleActs_iff.2 acting)]
      exact congrArg Host.Outcome.next (State.requestExit_eq (s := u) d)
  · intro s dt u locked unfrozen dozes
    have idle_time : (10 : Nat) ^ 10 = 10 * msPs := by norm_num [msPs]
    have deadline : 220 * msPs = 220 * 10 ^ 9 := by norm_num [msPs]
    refine ⟨execDozeTwWake_of locked unfrozen dozes, fun runs quiet => execDozeFabIdleStop_of locked unfrozen dozes runs (idle_time ▸ quiet),
      fun requested => ?_⟩
    rw [execDozeExitSequence_of locked unfrozen dozes requested]
    simp only [State.leaveDoze, State.when_journalFree, deadline]
    rfl

end Sys2Proof.Machine

/-! ## The front end: the reach AGC, writes of its registers, the spate path, overrange and blanking -/

namespace Sys2Proof.Machine

/-- A change of one reach is the value that it gives that reach. -/
theorem State.modReach_eq {s : State} {r : Fin 4} {f : Reach → Reach} {y : Reach} (gives : f s.reaches[r] = y) :
    s.modReach r f = s.modReach r (fun _ => y) := by
  subst gives
  rfl

/-- The value last given to a reach stands. -/
theorem State.modReach_modReach (s : State) (r : Fin 4) (f g : Reach → Reach) :
    (s.modReach r f).modReach r g = s.modReach r (fun x => g (f x)) := by
  simp [State.modReach]

/-! ### Gain steps -/

/-- A step that is decided takes effect at an instant at most 64 samples later, or at the one that already waits (R108). -/
theorem Reach.decideStep_eq (x : Reach) (lna : BitVec 2) (attn : BitVec 5) (g : Int) (n now : Nat) :
    ∃ q : GainStep, x.decideStep lna attn g n now = { x with step := some q } ∧ q.lna = lna ∧ q.attn = attn ∧ q.gain = g ∧
      (∀ o, x.step = some o → q.atPs = o.atPs) ∧ (x.step = none → now ≤ q.atPs ∧ q.atPs ≤ now + 64 * 320) := by
  refine ⟨_, rfl, rfl, rfl, rfl, fun o waits => ?_, fun free => ?_⟩
  · simp only [waits]
  · have draw : Config.stepSamples n % 65 < 65 := Nat.mod_lt _ (by norm_num)
    simp only [free]
    omega

/-- A decided gain has its realisation (R100). -/
theorem Reach.setGain_step (x : Reach) (g : Int) (n now : Nat) :
    (x.setGain g n now).decided = g ∧ ∃ q, (x.setGain g n now).step = some q ∧ q.gain = g ∧ (q.lna, q.attn) = realise g ∧
      (∀ o, x.step = some o → q.atPs = o.atPs) ∧ (x.step = none → now ≤ q.atPs ∧ q.atPs ≤ now + 64 * 320) := by
  obtain ⟨q, decides, lna, attn, gain, shared, fresh⟩ := Reach.decideStep_eq x (realise g).1 (realise g).2 g n now
  rw [Reach.setGain, decides]
  exact ⟨gain, q, rfl, gain, by rw [lna, attn], shared, fresh⟩

/-! ### The law at the end of a window -/

/-- The marks of a window, taken back at its end. -/
def Reach.windowClosed (x : Reach) : Reach := { x with clipDone := false, ovrThis := false, discardPeak := false }

/-- A window's end with its peak and mean in REACH_x_LEVEL (Table 3.8). -/
def Reach.windowLevel (x : Reach) (p : Int) (mean : Nat) : Reach :=
  { x.windowClosed with peak := BitVec.ofInt 8 (clamp 0 255 (roundDiv (-p) 50)), mean := BitVec.ofNat 8 (min mean 255) }

/-- DECAY_HOLD has passed below LO with this window, and DECAY_PERIOD since the last rise (R101). -/
def Reach.RiseDue (x : Reach) (now : Nat) : Prop :=
  x.decayHoldPs ≤ x.quietPs + agcWindowPs ∧ ∀ t, x.lastRisePs = some t → t + x.decayPeriodPs ≤ now

/-- The increase of R101 for a peak below LO. -/
def Reach.riseBy (x : Reach) (p : Int) : Int := min x.decayStep ((-100 * x.target - p) / 100)

section
variable {w : Reach} {p : Int} {mean n now : Nat} {burst : Bool}

theorem Reach.windowEnd_discards (discard : (w.settle now).discardPeak = true) :
    w.windowEnd p mean n now burst = (w.settle now).windowClosed :=
  if_pos discard

section
variable (keep : (w.settle now).discardPeak = false)
include keep

/-- A window whose peak counts is judged on the reach with its level in place (R101, R105). -/
theorem Reach.windowEnd_keeps_peak :
    w.windowEnd p mean n now burst =
      if !(w.settle now).auto || (w.settle now).agcFrozen now then (w.settle now).windowLevel p mean
      else if (w.settle now).oneShot then ((w.settle now).windowLevel p mean).shot p n now
      else ((w.settle now).windowLevel p mean).law p n now burst :=
  if_neg (Bool.eq_false_iff.1 keep)

theorem Reach.windowEnd_idle (idle : (w.settle now).auto = false ∨ (w.settle now).agcFrozen now = true) :
    w.windowEnd p mean n now burst = (w.settle now).windowLevel p mean := by
  rw [Reach.windowEnd_keeps_peak keep, if_pos]
  exact Bool.or_eq_true_iff.2 (idle.imp_left (congrArg not))

section
variable (auto : (w.settle now).auto = true) (acts : (w.settle now).agcFrozen now = false)
include auto acts

theorem Reach.windowEnd_shot (first : (w.settle now).oneShot = true) :
    w.windowEnd p mean n now burst = ((w.settle now).windowLevel p mean).shot p n now := by
  rw [Reach.windowEnd_keeps_peak keep, auto, acts, first]
  rfl

theorem Reach.windowEnd_law (later : (w.settle now).oneShot = false) :
    w.windowEnd p mean n now burst = ((w.settle now).windowLevel p mean).law p n now burst := by
  rw [Reach.windowEnd_keeps_peak keep, auto, acts, later]
  rfl

end
end
end

section
variable {x : Reach} {p : Int} {n now : Nat} {burst : Bool}

theorem Reach.law_above (above : -100 * x.hi < p) :
    x.law p n now burst =
      { x.setGain (max (x.decided - max 1 (ceilDb (p + 100 * x.target))) (-30)) n now with quietPs := 0, deferred := none } :=
  if_pos above

theorem Reach.law_between (low : -100 * x.lo ≤ p) (high : p ≤ -100 * x.hi) :
    x.law p n now burst = { x with quietPs := 0, deferred := none } :=
  (if_neg (not_lt.2 high)).trans (if_neg (not_lt.2 low))

theorem Reach.not_riseDue_iff :
    ¬ x.RiseDue now ↔ x.quietPs + agcWindowPs < x.decayHoldPs ∨ ∃ t, x.lastRisePs = some t ∧ now < t + x.decayPeriodPs := by
  simp only [Reach.RiseDue, not_and_or, not_le, not_forall, exists_prop]

section
variable (below : p < -100 * x.lo) (high : p ≤ -100 * x.hi)
include below high

/-- Below LO the quiet time grows; an increase that is due waits for the end of a burst (R101, R104). -/
theorem Reach.law_below [Decidable (x.RiseDue now)] :
    x.law p n now burst =
      if ¬ x.RiseDue now then { x with quietPs := x.quietPs + agcWindowPs, deferred := none }
      else if burst then { x with quietPs := x.quietPs + agcWindowPs, deferred := some (x.riseBy p) }
      else { x.setGain (min (x.decided + x.riseBy p) 24) n now with
        quietPs := x.quietPs + agcWindowPs, lastRisePs := some now, deferred := none } := by
  refine (if_neg (not_lt.2 high)).trans ((if_pos below).trans (if_congr ?_ rfl rfl))
  cases last : x.lastRisePs with
  | none => simp [Reach.RiseDue, last]
  | some t => simp [Reach.RiseDue, last]; omega

theorem Reach.law_early (early : ¬ x.RiseDue now) :
    x.law p n now burst = { x with quietPs := x.quietPs + agcWindowPs, deferred := none } := by
  classical
  rw [Reach.law_below below high, if_pos early]

theorem Reach.law_rises (due : x.RiseDue now) :
    x.law p n now false = { x.setGain (min (x.decided + x.riseBy p) 24) n now with
      quietPs := x.quietPs + agcWindowPs, lastRisePs := some now, deferred := none } := by
  classical
  rw [Reach.law_below below high, if_neg (not_not.2 due)]
  rfl

theorem Reach.law_defers (due : x.RiseDue now) :
    x.law p n now true = { x with quietPs := x.quietPs + agcWindowPs, deferred := some (x.riseBy p) } := by
  classical
  rw [Reach.law_below below high, if_neg (not_not.2 due)]
  rfl

end

theorem Reach.raiseDeferred_some {up : Int} (waits : (x.settle now).deferred = some up) :
    x.raiseDeferred n now = { (x.settle now).setGain (min ((x.settle now).decided + up) 24) n now with
      lastRisePs := some now, deferred := none } := by
  simp only [Reach.raiseDeferred, waits]

theorem Reach.raiseDeferred_none (free : (x.settle now).deferred = none) : x.raiseDeferred n now = x.settle now := by
  simp only [Reach.raiseDeferred, free]

end

/-! ### The commands of the AGC -/

section
variable {s : State} {dt : Nat} {r : Fin 4} (samples : (s.advance dt).sampling r = true)
include samples

theorem execAgcWindowEnd_of {p : Int} {mean : Nat} {y : Reach}
    (ends : (s.advance dt).reaches[r].windowEnd p mean ((s.advance dt).stepDraw r) (s.advance dt).clock ((s.advance dt).burstIn r) = y) :
    exec (.agcWindowEnd dt r p mean) s = .next ((s.advance dt).modReach r (fun _ => y)) := by
  change execAgcWindowEnd dt r p mean s = _
  exact State.occurs_at rfl samples (State.modReach_eq ends)

section
variable (auto : (s.advance dt).reaches[r].auto = true) (acts : (s.advance dt).reaches[r].agcFrozen (s.advance dt).clock = false)
include auto acts

theorem execAgcClipReduction_of (first : (s.advance dt).reaches[r].clipDone = false) :
    exec (.agcClipReduction dt r) s = .next ((s.advance dt).modReach r (fun w =>
      { (w.settle (s.advance dt).clock).setGain (max ((w.settle (s.advance dt).clock).decided - 6) (-30))
          ((s.advance dt).stepDraw r) (s.advance dt).clock with clipDone := true })) := by
  change execAgcClipReduction dt r s = _
  exact State.occurs_of _ _ _ _ (by rw [samples, auto, acts, first]; rfl)

theorem execAgcDeferredIncrease_of {y : Reach} (quiet : (s.advance dt).burstIn r = false)
    (raises : (s.advance dt).reaches[r].raiseDeferred ((s.advance dt).stepDraw r) (s.advance dt).clock = y) :
    exec (.agcDeferredIncrease dt r) s = .next ((s.advance dt).modReach r (fun _ => y)) := by
  change execAgcDeferredIncrease dt r s = _
  exact State.occurs_at rfl (by rw [samples, auto, acts, quiet]; rfl) (State.modReach_eq raises)

end

omit samples in
/-- One reduction by R103 in a window. -/
theorem execAgcClipReduction_again (again : (s.advance dt).reaches[r].clipDone = true) :
    exec (.agcClipReduction dt r) s = .next (s.advance dt) := by
  change execAgcClipReduction dt r s = _
  exact State.occurs_not _ _ _ _ (by rw [again, Bool.not_true, Bool.and_false])

end

/-- Settles O20: a decision is `Reach.setGain`, the end of a window is judged on `Reach.windowLevel`, and below LO the law goes by whether
an increase is due (`Reach.RiseDue`) and by the burst. -/
theorem reachAgcLaw : Obligations.ReachAgcLaw := by
  intro s dt mean r p u x set closed level answers samples
  refine ⟨fun g => Reach.setGain_step x g _ _, execAgcClipReduction_of samples, fun _ _ => execAgcClipReduction_again,
    fun auto acts quiet => ⟨fun up waits => execAgcDeferredIncrease_of samples auto acts quiet (Reach.raiseDeferred_some waits),
      fun free => execAgcDeferredIncrease_of samples auto acts quiet (Reach.raiseDeferred_none free)⟩,
    fun discard => execAgcWindowEnd_of samples (Reach.windowEnd_discards discard),
    fun keep idle => execAgcWindowEnd_of samples (Reach.windowEnd_idle keep idle), fun keep auto acts => ?_⟩
  have by_law {y : Reach} (later : x.oneShot = false) (law : level.law p (u.stepDraw r) u.clock (u.burstIn r) = y) : answers y :=
    execAgcWindowEnd_of samples ((Reach.windowEnd_law keep auto acts later).trans law)
  refine ⟨fun first => execAgcWindowEnd_of samples (Reach.windowEnd_shot keep auto acts first),
    fun later above => by_law later (Reach.law_above above), fun later low high => by_law later (Reach.law_between low high),
    fun later below high => ⟨fun early => by_law later (Reach.law_early below high (Reach.not_riseDue_iff.2 early)),
      fun held spaced => ⟨fun quiet => by_law later ?_, fun burst => by_law later ?_⟩⟩⟩
  · rw [quiet]
    exact Reach.law_rises below high ⟨held, spaced⟩
  · rw [burst]
    exact Reach.law_defers below high ⟨held, spaced⟩

/-! ### Writes of the gain registers -/

/-- The range of REACH_x_AGC that R102 takes. -/
def AgcWriteValid (v : Word) : Prop :=
  1 ≤ bits v 11 6 ∧ bits v 11 6 < bits v 17 12 ∧ bits v 17 12 < bits v 23 18 ∧ bits v 23 18 ≤ 60

/-- REACH_x_AGC lies in its reach's block, at 0x010 (Table 17.2). -/
theorem reachAddr_agc (r : Fin 4) : (reachAddr r 0x10).toNat = 0x410 + 0x100 * r.val := by
  rw [reachAddr, BitVec.toNat_ofNat, Nat.mod_eq_of_lt (by omega)]
  omega

section
variable {s : State} {r : Fin 4} {v : Word}

theorem State.writeAgc_taken (valid : AgcWriteValid v) :
    s.writeAgc r v = s.modReach r (fun x => x.writeAgc v (s.stepDraw r) s.clock) :=
  if_pos valid

theorem State.writeAgc_ignored (invalid : ¬ AgcWriteValid v) :
    s.writeAgc r v = s.post 7 0xFF 0xFFFF 0x70 0 (bytesOf 2 (0x410 + 0x100 * r.val)) := by
  rw [← reachAddr_agc]
  exact if_neg invalid

end

section
variable {x : Reach} {v : Word} {n now : Nat}

/-- The value in force after a load of REACH_x_AGC; what is written stays (R79). -/
theorem Reach.loadAgc_live_regs : (x.loadAgc v n now).live.agc = v ∧ (x.loadAgc v n now).regs = x.regs := by
  rw [← Reach.settle_regs x now]
  unfold Reach.loadAgc
  dsimp only
  split
  · exact ⟨rfl, rfl⟩
  · split <;> exact ⟨rfl, rfl⟩

theorem Reach.writeAgc_waits (unready : x.st ≠ .ready) :
    x.writeAgc v n now = { x with regs := { x.regs with agc := v &&& 0xC0FFFFC7 } } :=
  if_neg (mt beq_iff_eq.1 unready)

theorem Reach.writeAgc_ready (ready : x.st = .ready) :
    x.writeAgc v n now = ({ x with regs := { x.regs with agc := v &&& 0xC0FFFFC7 } } : Reach).loadAgc (v &&& 0xC0FFFFC7) n now :=
  if_pos (beq_iff_eq.2 ready)

theorem Reach.writeAgc_live (ready : x.st = .ready) : (x.writeAgc v n now).live.agc = v &&& 0xC0FFFFC7 := by
  rw [Reach.writeAgc_ready ready, Reach.loadAgc_live_regs.1]

theorem Reach.writeAgc_regs : (x.writeAgc v n now).regs.agc = v &&& 0xC0FFFFC7 := by
  by_cases ready : x.st = .ready
  · rw [Reach.writeAgc_ready ready, Reach.loadAgc_live_regs.2]
  · rw [Reach.writeAgc_waits ready]

end

/-- The LNA step once the step decided last is in force. -/
def Reach.decidedLna (x : Reach) : BitVec 2 := match x.step with | some q => q.lna | none => x.lna

/-- A step to an LNA code and attenuation is decided. -/
def Reach.stepTo (x : Reach) (q : BitVec 2 × BitVec 5) (n now : Nat) : Reach := x.decideStep q.1 q.2 (gainOf q.1 q.2) n now

theorem Reach.stepTo_eq (x : Reach) (w : BitVec 2 × BitVec 5) (n now : Nat) :
    ∃ q : GainStep, x.stepTo w n now = { x with step := some q } ∧ q.lna = w.1 ∧ q.attn = w.2 ∧ q.gain = gainOf w.1 w.2 ∧
      (x.step = none → now ≤ q.atPs ∧ q.atPs ≤ now + 64 * 320) := by
  obtain ⟨q, decides, lna, attn, gain, -, fresh⟩ := Reach.decideStep_eq x w.1 w.2 (gainOf w.1 w.2) n now
  exact ⟨q, decides, lna, attn, gain, fresh⟩

/-- The attenuation written, 31 treated as 30 (Table 3.7). -/
theorem attnOf_written (v : Word) : attnOf (BitVec.ofNat 5 (bits v 4 0)) = min (bits v 4 0) 30 := by
  have five : bits v 4 0 < 2 ^ 5 := Nat.mod_lt _ (by norm_num)
  rw [attnOf, BitVec.toNat_ofNat, Nat.mod_eq_of_lt five]

section
variable {s : State} {dt : Nat} {r : Fin 4} {v : Word}

theorem State.reachAccess_of (awake : s.awake = true) (has : s.reachExists r = true) : s.reachAccess r = true := by
  rw [State.reachAccess, awake, has]
  rfl

section
variable (manual : bits (s.reaches[r].settle s.clock).regs.agc 31 30 = 1)
include manual

/-- In MANUAL a ready reach decides a step to what is written (R106). -/
theorem State.writeAttn_ready (ready : (s.reaches[r].settle s.clock).st = .ready) :
    s.writeAttn r v = s.modReach r (fun _ => { (s.reaches[r].settle s.clock).stepTo
      (attnWrite (s.reaches[r].settle s.clock).decidedLna v) (s.stepDraw r) s.clock with discardPeak := true }) :=
  State.modReach_eq ((if_neg (not_not.2 manual)).trans (if_pos (beq_iff_eq.2 ready)))

theorem State.writeAttn_waits (unready : (s.reaches[r].settle s.clock).st ≠ .ready) :
    s.writeAttn r v = s.modReach r (fun _ => { s.reaches[r].settle s.clock with
      regs := { (s.reaches[r].settle s.clock).regs with attn := some (attnWrite ((s.reaches[r].settle s.clock).regs.attn.getD
        ((s.reaches[r].settle s.clock).lna, (s.reaches[r].settle s.clock).attn)).1 v) } }) :=
  State.modReach_eq ((if_neg (not_not.2 manual)).trans (if_neg (mt beq_iff_eq.1 unready)))

end

theorem State.writeAttn_ignored (other : bits (s.reaches[r].settle s.clock).regs.agc 31 30 ≠ 1) :
    s.writeAttn r v = s.modReach r (fun _ => s.reaches[r].settle s.clock) :=
  State.modReach_eq (if_pos other)

variable (awake : (s.advance dt).awake = true) (has : (s.advance dt).reachExists r = true)
include awake has

theorem execReachAgcWrite_of : exec (.reachAgcWrite dt r v) s = .next ((s.advance dt).writeAgc r v) := by
  change execReachAgcWrite dt r v s = _
  exact State.occurs_of _ _ _ _ (State.reachAccess_of awake has)

theorem execReachAttnWrite_of : exec (.reachAttnWrite dt r v) s = .next ((s.advance dt).writeAttn r v) := by
  change execReachAttnWrite dt r v s = _
  exact State.occurs_of _ _ _ _ (State.reachAccess_of awake has)

end

/-- Settles O21: a write of REACH_x_AGC goes by its range (`AgcWriteValid`) and by whether the reach is ready, one of REACH_x_ATTN by the MODE
written and by whether the reach is ready. -/
theorem gainWrites : Obligations.GainWrites := by
  constructor
  · intro s dt r v u valid awake has
    refine ⟨fun taken => ?_, fun invalid => ?_⟩
    · rw [execReachAgcWrite_of awake has, State.writeAgc_taken taken]
      refine ⟨_, rfl, ?_, fun ready => ?_, fun unready => ?_⟩
      · rw [State.modReach_same, Reach.writeAgc_regs]
      · rw [State.modReach_same, Reach.writeAgc_live ready]
      · exact State.modReach_eq (Reach.writeAgc_waits unready)
    · rw [execReachAgcWrite_of awake has, State.writeAgc_ignored invalid]
  · intro s dt r v u x lna awake has
    rw [execReachAttnWrite_of awake has]
    refine ⟨fun manual ready => ?_, fun manual unready => ?_, fun other => congrArg Host.Outcome.next (State.writeAttn_ignored other)⟩
    · obtain ⟨q, decides, to_lna, to_attn, to_gain, fresh⟩ := Reach.stepTo_eq x (attnWrite x.decidedLna v) (u.stepDraw r) u.clock
      rw [State.writeAttn_ready manual ready, decides]
      refine ⟨_, q, rfl, ?_, to_lna, to_attn, ?_, fresh, rfl⟩
      · rw [State.modReach_same]
      · rw [to_gain, to_lna, attnWrite, gainOf, attnOf_written]
    · rw [State.writeAttn_waits manual unready]
      cases x.regs.attn <;> rfl

/-! ### The spate detectors -/

/-- The flag after a level E, judged against the average with it (R116). -/
def Reach.spateJudged (x : Reach) (e : Int) (flag : Bool) (a : Option Int) : Bool :=
  if flag then !x.spateClears e (spateAverage a e) else x.spateRaises e (spateAverage a e)

section
variable {s : State} {r : Fin 4} (samples : s.sampling r = true)
include samples

theorem State.spateDeliver_trib (n : Fin 8) (e : Int) :
    s.spateDeliver (.trib r n) [e] = s.modTrib r n (fun t => { t with
      spateLevel := e, spateFlag := s.reaches[r].spateJudged e t.spateFlag t.spateAvg, spateAvg := some (spateAverage t.spateAvg e) }) :=
  if_neg (Bool.eq_false_iff.1 (congrArg not samples))

/-- A context's detector changes its own context alone, whose flag blanking that it honours holds clear (R116, R119). -/
theorem State.spateDeliver_ctx {c : Fin 256} (e : Int) (placed : s.ctxs[c].st ≠ .idle) (on_reach : s.ctxs[c].reachOf = r) :
    ∃ y : Ctx, s.spateDeliver (.ctx c) [e] = s.modCtx c (fun _ => y) ∧ y.spateLevel = e ∧
      y.spateAvg = some (spateAverage s.ctxs[c].spateAvg e) ∧
      y.spateFlag = (!(s.ctxs[c].active.honour && s.reaches[r].blanked s.clock) &&
        s.reaches[r].spateJudged e s.ctxs[c].spateFlag s.ctxs[c].spateAvg) := by
  subst on_reach
  have runs : ¬ (s.ctxs[c].st == .idle || !s.sampling s.ctxs[c].reachOf) = true := by simp [-Fin.getElem_fin, placed, samples]
  exact ⟨_, if_neg runs, rfl, rfl, rfl⟩

end

section
variable {s : State} {dt : Nat} (valid : (s.advance dt).spateValid = true)
include valid

theorem execSpateFlagRaise_of (d : SpateDet) (levels : List Int) :
    exec (.spateFlagRaise dt d levels) s = .next ((s.advance dt).spateDeliver d levels) := by
  change execSpateFlagRaise dt d levels s = _
  exact State.occurs_of _ _ _ _ valid

theorem execSpateFlagClear_of (d : SpateDet) (levels : List Int) :
    exec (.spateFlagClear dt d levels) s = .next ((s.advance dt).spateDeliver d levels) := by
  change execSpateFlagClear dt d levels s = _
  exact State.occurs_of _ _ _ _ valid

end

/-! ### Overrange and clamps -/

/-- An overrange sample counts once per window (R123). -/
def Reach.countOverrange (x : Reach) (now : Nat) : Reach :=
  { x with ovrWindows := if x.ovrThis then x.ovrWindows else x.ovrWindows.add 65535 now, ovrThis := true }

section
variable {s : State} {r : Fin 4}

theorem State.overrange_above (above : (s.reaches[r].settle s.clock).gain ≠ -30) :
    s.overrange r = s.modReach r (fun _ => (s.reaches[r].settle s.clock).countOverrange s.clock) := by
  rw [State.overrange, beq_false_of_ne above]
  rfl

section
variable (low : (s.reaches[r].settle s.clock).gain = -30)
include low

/-- At −30 dB an overrange sample sets AT_MIN, and is posted when the last post lies a second back (R124). -/
theorem State.overrange_posts (free : s.since (s.reaches[r].settle s.clock).ovrPostPs (10 ^ 12) = true) :
    s.overrange r = (s.modReach r (fun _ => { (s.reaches[r].settle s.clock).countOverrange s.clock with
      atMin := { on := true, atPs := s.clock }, ovrPostPs := some s.clock })).post (0x10 + r.val) r.val 0xFFFF 0x72 3 [] := by
  have second : secPs = 10 ^ 12 := by norm_num [secPs]
  rw [State.overrange, beq_iff_eq.2 low, second, free]
  exact congrArg (fun t : State => t.post _ _ _ _ _ _) (State.modReach_modReach ..)

theorem State.overrange_quiet (posted : s.since (s.reaches[r].settle s.clock).ovrPostPs (10 ^ 12) = false) :
    s.overrange r = s.modReach r (fun _ => { (s.reaches[r].settle s.clock).countOverrange s.clock with
      atMin := { on := true, atPs := s.clock } }) := by
  have second : secPs = 10 ^ 12 := by norm_num [secPs]
  rw [State.overrange, beq_iff_eq.2 low, second, posted]
  rfl

end
end

section
variable {s : State} {dt : Nat} {r : Fin 4} (samples : (s.advance dt).sampling r = true)
include samples

theorem execOverrangeSample_of {t : State} (effect : (s.advance dt).overrange r = t) : exec (.overrangeSample dt r) s = .next t := by
  change execOverrangeSample dt r s = _
  exact State.occurs_at rfl samples effect

theorem execSampleClamped_of :
    exec (.sampleClamped dt r) s = .next
      ((s.advance dt).modReach r (fun x => { x with satEvents := x.satEvents.add 65535 (s.advance dt).clock })) := by
  change execSampleClamped dt r s = _
  exact State.occurs_of _ _ _ _ samples

end

/-! ### Blanking -/

section
variable {s : State} {dt : Nat}

theorem execBlankInAssert_eq : exec (.blankInAssert dt) s = .next
    (({ s.advance dt with pins := { (s.advance dt).pins with blankIn := true } } : State).blankAll) := by
  change execBlankInAssert dt s = _
  exact State.occurs_of _ _ _ _ rfl

theorem execBlankInRelease_eq : exec (.blankInRelease dt) s = .next
    (({ s.advance dt with pins := { (s.advance dt).pins with blankIn := false } } : State).blankAll) := by
  change execBlankInRelease dt s = _
  exact State.occurs_of _ _ _ _ rfl

theorem execBlankingIntervalEnd_of {r : Fin 4} (samples : (s.advance dt).sampling r = true)
    (passed : (s.advance dt).reaches[r].blankOver (s.advance dt).clock = true) :
    exec (.blankingIntervalEnd dt r) s = .next ((s.advance dt).blankEnd r) := by
  change execBlankingIntervalEnd dt r s = _
  exact State.occurs_of _ _ _ _ (by rw [samples, passed]; rfl)

end

section
variable {x : Reach} {now f t : Nat}

/-- TAIL and the latency after the release of the last source (R118). -/
theorem Reach.blankOver_tail (tail : x.blank = .tail f t) : x.blankOver now = true ↔ t + x.tailPs + blankLatencyPs ≤ now := by
  simp only [Reach.blankOver, tail, decide_eq_true_eq]

theorem Reach.blankStep_none (idle : x.blank = .none) :
    x.blankStep true now = { x with blank := .on now, blankCount := x.blankCount + 1 } ∧ x.blankStep false now = x := by
  simp only [Reach.blankStep, idle, and_self]

theorem Reach.blankStep_on (open_ : x.blank = .on f) :
    x.blankStep false now = { x with blank := .tail f now } ∧ x.blankStep true now = x := by
  simp only [Reach.blankStep, open_, and_self]

/-- A source asserted within the tail goes on with the interval (R122). -/
theorem Reach.blankStep_tail (tail : x.blank = .tail f t) (within : now < t + x.tailPs) :
    x.blankStep true now = { x with blank := .on f } := by
  simp only [Reach.blankStep, tail, if_pos within]

end

/-- What the end of an interval does to its reach, and to a context of that reach which honours it (R118, R119). -/
def Reach.endBlank (x : Reach) : Reach :=
  match x.blank with
  | .tail f e => { x with blank := .none, blankLog := x.blankLog ++ [(f, e + x.tailPs)] }
  | _ => x

def Ctx.endBlank (x : Ctx) (r : Fin 4) (now : Nat) : Ctx :=
  if x.st != .idle && x.reachOf == r && x.active.honour then
    { x with spateFlag := false, eab := if x.spateFlag then { x.eab with spatePs := some now } else x.eab }
  else x

theorem State.blankEnd_eq (s : State) (r : Fin 4) :
    s.blankEnd r = { s.modReach r Reach.endBlank with ctxs := s.ctxs.map (fun x => x.endBlank r s.clock) } := rfl

theorem Reach.endBlank_tail {x : Reach} {f e : Nat} (tail : x.blank = .tail f e) : x.endBlank.blank = .none := by
  rw [Reach.endBlank, tail]

theorem Ctx.endBlank_honours {x : Ctx} {r : Fin 4} {now : Nat} (placed : x.st ≠ .idle) (on_reach : x.reachOf = r)
    (honours : x.active.honour = true) : (x.endBlank r now).spateFlag = false := by
  rw [Ctx.endBlank, if_pos]
  rw [bne_iff_ne.2 placed, beq_iff_eq.2 on_reach, honours]
  rfl

section
variable {s : State} {r : Fin 4}

theorem State.blankEnd_reach : (s.blankEnd r).reaches[r] = s.reaches[r].endBlank := by
  rw [State.blankEnd_eq]
  exact State.modReach_same ..

theorem State.blankEnd_ctx (c : Fin 256) : (s.blankEnd r).ctxs[c] = s.ctxs[c].endBlank r s.clock := by
  rw [State.blankEnd_eq]
  exact Vector.getElem_map ..

end

/-- Settles O23: a detector takes a level by `State.spateDeliver`, an overrange sample goes by the gain and the last post, and an interval by
`Reach.blankStep` and `State.blankEnd`. -/
theorem spateOverrangeBlanking : Obligations.SpateOverrangeBlanking := by
  constructor
  · intro s dt r n c e u x y counted delivered onTrib
    refine ⟨fun valid samples => ?_, fun samples => ⟨fun above => execOverrangeSample_of samples (State.overrange_above above),
      fun low free => execOverrangeSample_of samples (State.overrange_posts low free),
      fun low posted => execOverrangeSample_of samples (State.overrange_quiet low posted), execSampleClamped_of samples⟩⟩
    have trib : u.spateDeliver (.trib r n) [e] = onTrib := State.spateDeliver_trib samples n e
    refine ⟨(execSpateFlagRaise_of valid _ _).trans (congrArg Host.Outcome.next trib),
      (execSpateFlagClear_of valid _ _).trans (congrArg Host.Outcome.next trib), fun placed on_reach i listed => ?_⟩
    have delivers : exec i s = .next (u.spateDeliver (.ctx c) [e]) := by
      rcases List.mem_pair.1 listed with rfl | rfl
      · exact execSpateFlagRaise_of valid _ _
      · exact execSpateFlagClear_of valid _ _
    obtain ⟨z, on_ctx, level, average, flag⟩ := State.spateDeliver_ctx samples e placed on_reach
    refine ⟨_, delivers, ?_⟩
    rw [on_ctx, State.modCtx_same]
    exact ⟨level, average, flag, rfl⟩
  · intro s dt r u
    refine ⟨execBlankInAssert_eq, execBlankInRelease_eq, fun f e samples tail passed => ?_,
      fun x now => ⟨Reach.blankStep_none, fun f => Reach.blankStep_on, fun f t => Reach.blankStep_tail⟩⟩
    refine ⟨_, execBlankingIntervalEnd_of samples ((Reach.blankOver_tail tail).2 passed), ?_, fun c placed on_reach honours => ?_⟩
    · rw [State.blankEnd_reach, Reach.endBlank_tail tail]
    · rw [State.blankEnd_ctx, Ctx.endBlank_honours placed on_reach honours]

end Sys2Proof.Machine

/-! ## The filter chain: writes of the tributary registers, synchronising resets -/

namespace Sys2Proof.Machine

/-! ### Writes of the tributary registers -/

/-- Table 17.2 gives REACH_x_TRIBn the offset 0x40 + 4n. -/
theorem reachAddr_trib (r : Fin 4) (n : Fin 8) : (reachAddr r (0x40 + 4 * n.val)).toNat = 0x440 + 0x100 * r.val + 4 * n.val := by
  rw [reachAddr, BitVec.toNat_ofNat]
  omega

/-- The tributary takes the value and its chain starts again (R131, R133); the commits of the same FAB cycle are still to be checked. -/
def State.takeTrib (s : State) (r : Fin 4) (n : Fin 8) (v : Word) : State :=
  (s.modTrib r n (fun t => { t.restart with reg := v &&& 0xC01FFFFF, startPs := s.clock })).modReach r (fun x => { x with
    events := x.events ++ [(s.clock, .trib n)] })

section
variable {s : State} {r : Fin 4} {n : Fin 8} {v : Word}

theorem State.writeTrib_taken (in_range : tribInRange v = true) (free : s.tribInUse r n = false) :
    s.writeTrib r n v = (s.takeTrib r n v).forEach allCtxs (fun c t => t.checkAgain r n c) :=
  if_neg (by rw [in_range, free]; decide)

theorem State.writeTrib_ignored (ignored : tribInRange v = false ∨ s.tribInUse r n = true) :
    s.writeTrib r n v = s.post 7 0xFF 0xFFFF 0x70 0 (bytesOf 2 (0x440 + 0x100 * r.val + 4 * n.val)) := by
  rw [← reachAddr_trib]
  refine if_pos (Bool.or_eq_true_iff.2 ?_)
  exact ignored.imp_left (congrArg not)

/-- A context without an entry placed on the tributary in this FAB cycle has nothing to be checked again. -/
theorem State.checkAgain_of_none {c : Fin 256} (other : s.newOn r n c = none) : s.checkAgain r n c = s := by
  rw [State.checkAgain, other]

theorem State.newOn_eq_none {c : Fin 256} (elsewhere : ∀ p, s.ctxs[c].pending = some p → p.at_ = s.clock →
    p.entry.idle = true ∨ p.entry.reach ≠ r ∨ p.entry.trib ≠ n) : s.newOn r n c = none := by
  refine Option.filter_eq_none_iff.2 fun p waiting counts => ?_
  simp only [Bool.and_eq_true, Bool.not_eq_true', beq_iff_eq] at counts
  obtain ⟨⟨⟨placed, on_reach⟩, on_trib⟩, now⟩ := counts
  rcases elsewhere p waiting now with idle | reach | trib
  · exact Bool.false_ne_true (placed.symm.trans idle)
  · exact reach on_reach
  · exact trib on_trib

/-- The contexts are as they were when the tributary takes its value. -/
theorem State.newOn_takeTrib (c : Fin 256) : (s.takeTrib r n v).newOn r n c = s.newOn r n c := rfl

theorem State.takeTrib_checkAgain_all (elsewhere : ∀ c : Fin 256, s.newOn r n c = none) :
    (s.takeTrib r n v).forEach allCtxs (fun c t => t.checkAgain r n c) = s.takeTrib r n v :=
  List.foldl_fixed' (fun c => State.checkAgain_of_none ((State.newOn_takeTrib c).trans (elsewhere c))) allCtxs

theorem execReachTribWrite_of {dt : Nat} (awake : (s.advance dt).awake = true) (has : (s.advance dt).reachExists r = true) :
    exec (.reachTribWrite dt r n v) s = .next ((s.advance dt).writeTrib r n v) := by
  change execReachTribWrite dt r n v s = _
  exact State.occurs_of _ _ _ _ (State.reachAccess_of awake has)

end

/-- Settles O22: a write goes by the band of its value and by whether the tributary is in use; a value taken is put in by `State.takeTrib`, and
each context's commit of the same FAB cycle is checked again. -/
theorem tributaryWrite : Obligations.TributaryWrite := by
  intro s dt r n v u written awake has
  have taken : u.takeTrib r n v = written := rfl
  rw [execReachTribWrite_of awake has]
  refine ⟨fun in_range free => ?_, fun ignored => congrArg Host.Outcome.next (State.writeTrib_ignored ignored)⟩
  rw [State.writeTrib_taken in_range free, ← taken]
  refine ⟨rfl, fun elsewhere => congrArg Host.Outcome.next ?_⟩
  exact State.takeTrib_checkAgain_all fun c => State.newOn_eq_none (elsewhere c)

/-! ### Synchronising resets -/

theorem mem_allReaches (r : Fin 4) : r ∈ allReaches := by
  revert r
  decide

/-- SYNC_N is released, or asserted, as the ticks so far have found it (R159). -/
def State.syncFound (s : State) (k : Nat) : State := { s with sync := { s.sync with released := k } }

section
variable {s : State} {tick : Nat}

/-- Asserted after at least two ticks released, SYNC_N asks for an edge at the fourth tick after this one (R159). -/
theorem State.syncLevels_asks (pin : s.sync.pinEn = true) (two : 2 ≤ s.sync.released) :
    s.syncLevels tick [true] = (s.syncRequest 0 (tick + 4 * s.tickPs)).syncFound 0 := by
  have asks : (true && decide (2 ≤ s.sync.released) && s.sync.pinEn) = true := by rw [pin, decide_eq_true two]; rfl
  simp only [State.syncLevels, if_pos asks, if_true, State.syncFound]

theorem State.syncLevels_unasked (quiet : s.sync.pinEn = false ∨ s.sync.released < 2) :
    s.syncLevels tick [true] = s.syncFound 0 := by
  have no_request : ¬ (true && decide (2 ≤ s.sync.released) && s.sync.pinEn) = true := by
    rcases quiet with off | early
    · simp [off]
    · simp [early]
  simp only [State.syncLevels, if_neg no_request, if_true, State.syncFound]

theorem State.syncLevels_released : s.syncLevels tick [false] = s.syncFound (min (s.sync.released + 1) 2) := rfl

/-- GO asks for an edge when a reach is ready, at the first tick at least 1 µs on (R160). -/
theorem State.writeSyncGo_ready (ready : ∃ r, s.reachUp r = true) : s.writeSyncGo = s.syncRequest 1 (s.tickFrom (s.clock + 1000000)) := by
  obtain ⟨r, up⟩ := ready
  exact if_pos (List.any_eq_true.2 ⟨r, mem_allReaches r, up⟩)

theorem State.writeSyncGo_discarded (none_ready : ∀ r, s.reachUp r = false) : s.writeSyncGo = s.writeIgnored 0x434 := by
  refine if_neg (Bool.eq_false_iff.1 (List.any_eq_false.2 fun r _ => ?_))
  exact Bool.eq_false_iff.1 (none_ready r)

end

section
variable {s : State} {dt : Nat}

/-- A command with one level tells how SYNC_N was found at the last tick. -/
theorem execSyncNAssert_one (serves : (s.advance dt).serving = true) (level : Bool) :
    exec (.syncNAssert dt [level]) s =
      .next ((s.advance dt).syncLevels ((s.advance dt).tickBefore (s.advance dt).clock) [level]) := by
  change execSyncNAssert dt [level] s = _
  refine State.occurs_at rfl serves ?_
  rw [List.length_singleton, Nat.sub_self, Nat.zero_mul, Nat.sub_zero]

theorem execSyncGo_of (awake : (s.advance dt).awake = true) : exec (.syncGo dt) s = .next (s.advance dt).writeSyncGo := by
  change execSyncGo dt s = _
  exact State.occurs_of _ _ _ _ awake

theorem execSyncResetApply_of (serves : (s.advance dt).serving = true) : exec (.syncResetApply dt) s = .next (s.advance dt).syncApply := by
  change execSyncResetApply dt s = _
  exact State.occurs_of _ _ _ _ serves

end

/-- Settles O24: SYNC_N goes by what the last ticks found and by PIN_EN, GO by whether a reach is ready, and both ask by `State.syncRequest`;
the reset is that of the earliest request whose edge has come. -/
theorem synchronisingResets : Obligations.SynchronisingResets := by
  intro s dt u tick merged asked found
  have request (who edge : Nat) : u.syncRequest who edge = asked who edge := rfl
  have as_found (t : State) (k : Nat) : t.syncFound k = found t k := rfl
  refine ⟨fun serves => ⟨fun pin two => ?_, fun quiet => ?_, execSyncNAssert_one serves false⟩, fun awake ready => ?_,
    fun awake none_ready => ?_, fun serves p due => ?_⟩
  · rw [execSyncNAssert_one serves, State.syncLevels_asks pin two, request, as_found]
  · rw [execSyncNAssert_one serves, State.syncLevels_unasked quiet, as_found]
  · rw [execSyncGo_of awake, State.writeSyncGo_ready ready, request]
  · rw [execSyncGo_of awake, State.writeSyncGo_discarded none_ready]
  · rw [execSyncResetApply_of serves, State.syncApply, State.withSome_of due]

end Sys2Proof.Machine

/-! ## Contexts and engines: reads with effects, the CTX window, service rounds and the context AGC -/

namespace Sys2Proof.Machine

/-! ### Decoding of register addresses -/

/-- The address of a register of a reach's block, and the reach and offset that its decoding finds (Table 17.2). -/
theorem reachAddr_decoded (r : Fin 4) {off : Nat} (inside : off < 0x100) (aligned : off % 4 = 0) :
    ∃ a, (reachAddr r off).toNat / 4 * 4 = a ∧ 0x400 ≤ a ∧ a < 0x800 ∧ Fin.ofNat 4 ((a - 0x400) / 0x100) = r ∧ a % 0x100 = off := by
  have address : (reachAddr r off).toNat = 0x400 + 0x100 * r.val + off := by
    rw [reachAddr, BitVec.toNat_ofNat]
    omega
  refine ⟨_, rfl, ?_⟩
  rw [address]
  refine ⟨by omega, by omega, Fin.ext ?_, by omega⟩
  rw [Fin.val_ofNat]
  omega

/-- The address of ENGINE_En, and the engine that its decoding finds (Table 17.2). -/
theorem engineAddr_decoded (e : Fin 8) :
    ∃ a, a = 0xC00 + 4 * e.val ∧ (BitVec.ofNat 16 (0xC00 + 4 * e.val)).toNat / 4 * 4 = a ∧ 0xC00 ≤ a ∧ a ≤ 0xC1C ∧
      Fin.ofNat 8 ((a - 0xC00) / 4) = e := by
  refine ⟨_, rfl, ?_, by omega, by omega, Fin.ext ?_⟩
  · rw [BitVec.toNat_ofNat]
    omega
  · rw [Fin.val_ofNat]
    omega

theorem State.unfrozen_of_awake {s : State} (awake : s.awake = true) : s.still.frozen = false := by
  simp only [State.awake, Bool.and_eq_true, Bool.not_eq_true'] at awake
  obtain ⟨⟨-, unfrozen⟩, -⟩ := awake
  exact unfrozen

/-! ### What a read of one register returns -/

section
variable {s : State} {r : Fin 4}

theorem State.peek_reach {off : Nat} (inside : off < 0x100) (aligned : off % 4 = 0) :
    s.peek (reachAddr r off) = if s.reachExists r then s.peekReach r off else 0 := by
  obtain ⟨a, at_a, low, high, reach, offset⟩ := reachAddr_decoded r inside aligned
  unfold State.peek
  dsimp only
  rw [at_a, if_neg (by omega), if_neg (by omega), if_neg (by omega), if_pos high, reach, offset]

/-- A gain step that comes into force leaves the counts of the sample path. -/
theorem Reach.settle_counts (x : Reach) (now : Nat) : (x.settle now).ovrWindows = x.ovrWindows ∧ (x.settle now).atMin = x.atMin ∧
    (x.settle now).satEvents = x.satEvents ∧ (x.settle now).hardChanges = x.hardChanges := by
  rw [Reach.settle_frame]
  exact ⟨rfl, rfl, rfl, rfl⟩

/-- REACH_x_OVR (Table 3.9). -/
theorem State.peek_ovr (has : s.reachExists r = true) :
    s.peek (reachAddr r 0x20) = fieldAt (s.reaches[r].ovrWindows.shown s.clock) 16 ||| flag s.reaches[r].atMin.on 0 := by
  obtain ⟨windows, at_min, -, -⟩ := s.reaches[r].settle_counts s.clock
  rw [State.peek_reach (by norm_num) rfl, if_pos has, ← windows, ← at_min]
  rfl

/-- REACH_x_CHAIN (Table 4.11). -/
theorem State.peek_chain (has : s.reachExists r = true) :
    s.peek (reachAddr r 0x30) = fieldAt (s.reaches[r].satEvents.shown s.clock) 16 |||
      fieldAt (s.reaches[r].hardChanges.shown s.clock) 8 ||| fieldAt (min (s.fades r) 15) 0 := by
  obtain ⟨-, -, sat, hard⟩ := s.reaches[r].settle_counts s.clock
  rw [State.peek_reach (by norm_num) rfl, if_pos has, ← sat, ← hard]
  rfl

theorem State.peek_reach_absent {off : Nat} (inside : off < 0x100) (aligned : off % 4 = 0) (absent : s.reachExists r = false) :
    s.peek (reachAddr r off) = 0 := by
  rw [State.peek_reach inside aligned, if_neg (Bool.eq_false_iff.1 absent)]

theorem State.peek_engine (e : Fin 8) : s.peek (BitVec.ofNat 16 (0xC00 + 4 * e.val)) = s.peekEngine (0xC00 + 4 * e.val) := by
  obtain ⟨a, a_eq, at_a, low, high, -⟩ := engineAddr_decoded e
  unfold State.peek
  dsimp only
  rw [at_a, ← a_eq, if_neg (by omega), if_neg (by omega), if_neg (by omega), if_neg (by omega), if_neg (by omega), if_pos (by omega)]

theorem State.peek_engine_absent {e : Fin 8} (absent : s.reachExists (Fin.ofNat 4 (e.val / 2)) = false) :
    s.peek (BitVec.ofNat 16 (0xC00 + 4 * e.val)) = 0 := by
  obtain ⟨a, a_eq, -, -, high, engine⟩ := engineAddr_decoded e
  rw [State.peek_engine, ← a_eq]
  simp only [State.peekEngine, if_neg (Nat.not_lt.2 high), engine, absent, Bool.not_false, if_true]

end

/-! ### What a read of one register does besides -/

section
variable {s : State} (running : s.still.frozen = false)
include running

theorem State.readEffect_reach {r : Fin 4} {off : Nat} (inside : off < 0x100) (aligned : off % 4 = 0) :
    s.readEffect (reachAddr r off) =
      if !s.reachExists r then s
      else if off = 0x20 then s.modReach r (fun x => { x with ovrWindows := x.ovrWindows.taken s.clock })
      else if off = 0x30 then s.modReach r (fun x => { x with
        satEvents := x.satEvents.taken s.clock, hardChanges := x.hardChanges.taken s.clock })
      else s := by
  obtain ⟨a, at_a, low, high, reach, offset⟩ := reachAddr_decoded r inside aligned
  unfold State.readEffect
  dsimp only
  rw [at_a, if_neg (Bool.eq_false_iff.1 running), if_neg (by omega), if_neg (by omega), if_neg (by omega), if_neg (by omega),
    if_neg (by omega), if_neg (by omega), if_pos ⟨low, high⟩, reach, offset]

theorem State.readEffect_reach_absent {r : Fin 4} {off : Nat} (inside : off < 0x100) (aligned : off % 4 = 0)
    (absent : s.reachExists r = false) : s.readEffect (reachAddr r off) = s := by
  rw [State.readEffect_reach running inside aligned, absent]
  rfl

theorem State.readEffect_ovr {r : Fin 4} (has : s.reachExists r = true) :
    s.readEffect (reachAddr r 0x20) = s.modReach r (fun x => { x with ovrWindows := x.ovrWindows.taken s.clock }) := by
  rw [State.readEffect_reach running (by norm_num) rfl, has]
  rfl

theorem State.readEffect_chain {r : Fin 4} (has : s.reachExists r = true) :
    s.readEffect (reachAddr r 0x30) = s.modReach r (fun x => { x with
      satEvents := x.satEvents.taken s.clock, hardChanges := x.hardChanges.taken s.clock }) := by
  rw [State.readEffect_reach running (by norm_num) rfl, has]
  rfl

theorem State.readEffect_engine (e : Fin 8) :
    s.readEffect (BitVec.ofNat 16 (0xC00 + 4 * e.val)) =
      if s.reachExists (Fin.ofNat 4 (e.val / 2)) = true then s.modEngine e (fun x => { x with wdog := x.wdog.taken s.clock }) else s := by
  obtain ⟨a, -, at_a, low, high, engine⟩ := engineAddr_decoded e
  unfold State.readEffect
  dsimp only
  rw [at_a, if_neg (Bool.eq_false_iff.1 running), if_neg (by omega), if_neg (by omega), if_neg (by omega), if_neg (by omega),
    if_neg (by omega), if_neg (by omega), if_neg (by omega), if_pos ⟨low, high⟩, engine]

theorem State.readEffect_hostCounts : s.readEffect 0x2428 = { s with host := { s.host with
    rxDiscards := s.host.rxDiscards.taken s.clock, nakMisses := s.host.nakMisses.taken s.clock } } :=
  if_neg (Bool.eq_false_iff.1 running)

theorem State.readEffect_twStatus : s.readEffect 0x1C10 = { s with tw := { s.tw with
    sdaReleases := s.tw.sdaReleases.taken s.clock, pecErrors := s.tw.pecErrors.taken s.clock,
    araLost := s.tw.araLost.taken s.clock } } :=
  if_neg (Bool.eq_false_iff.1 running)

theorem State.readEffect_healthLost :
    s.readEffect 0x20C = { s with mailbox := { s.mailbox with lost := s.mailbox.lost.taken s.clock } } :=
  if_neg (Bool.eq_false_iff.1 running)

end

/-- The state in which a single read begins: no word is read yet. -/
def State.unread (s : State) : State := { s with readData := [] }

/-- A single read, once what it returns and what it does besides are known. -/
theorem State.readOne_of {s t : State} {addr : Addr} {v : Word} (effect : s.unread.readEffect addr = t) (value : s.unread.peek addr = v) :
    s.readOne addr = { t with readData := [v] } := by
  subst effect value
  rfl

section
variable {s : State} (awake : s.awake = true)
include awake

theorem State.readOne_reach_absent {r : Fin 4} {off : Nat} (inside : off < 0x100) (aligned : off % 4 = 0) (absent : s.reachExists r = false) :
    s.readOne (reachAddr r off) = { s with readData := [0] } :=
  have running : s.unread.still.frozen = false := State.unfrozen_of_awake awake
  State.readOne_of (t := s.unread) (State.readEffect_reach_absent running inside aligned absent) (State.peek_reach_absent inside aligned absent)

theorem State.readOne_engine_absent {e : Fin 8} (absent : s.reachExists (Fin.ofNat 4 (e.val / 2)) = false) :
    s.readOne (BitVec.ofNat 16 (0xC00 + 4 * e.val)) = { s with readData := [0] } :=
  have running : s.unread.still.frozen = false := State.unfrozen_of_awake awake
  have none_there : ¬ s.unread.reachExists (Fin.ofNat 4 (e.val / 2)) = true := Bool.eq_false_iff.1 absent
  State.readOne_of (t := s.unread) ((State.readEffect_engine running e).trans (if_neg none_there)) (State.peek_engine_absent absent)

end

/-- Settles O12: in each clause the read of an awake part has the effect of its address (`State.readEffect`), which is `Tally.taken` on each
count of the register, and returns the word there (`State.peek`), which shows `Tally.shown`. -/
theorem readsWithEffects : Obligations.ReadsWithEffects := by
  refine ⟨?_, by intro s dt u awake; exact ⟨State.occurs_of s dt _ _ awake, State.occurs_of s dt _ _ awake⟩⟩
  intro s dt r e u shown rest awake
  have running : u.unread.still.frozen = false := State.unfrozen_of_awake awake
  have answers {addr : Addr} {t : State} (reads : u.readOne addr = t) : s.occurs dt State.awake (fun t => t.readOne addr) = .next t :=
    State.occurs_at rfl awake reads
  refine ⟨fun has => ⟨answers ?_, answers ?_⟩, fun absent => ⟨answers ?_, answers ?_⟩, fun has => answers ?_, fun absent => answers ?_,
    answers ?_, answers ?_, answers ?_⟩
  · exact (State.readOne_of (State.readEffect_ovr running has) (State.peek_ovr has)).trans rfl
  · exact (State.readOne_of (State.readEffect_chain running has) (State.peek_chain has)).trans rfl
  · exact State.readOne_reach_absent awake (by norm_num) rfl absent
  · exact State.readOne_reach_absent awake (by norm_num) rfl absent
  · exact (State.readOne_of ((State.readEffect_engine running e).trans (if_pos has)) (State.peek_engine e)).trans rfl
  · exact State.readOne_engine_absent awake absent
  · exact (State.readOne_of (State.readEffect_hostCounts running) rfl).trans rfl
  · exact (State.readOne_of (State.readEffect_twStatus running) rfl).trans rfl
  · exact (State.readOne_of (State.readEffect_healthLost running) rfl).trans rfl

/-! ### Refused commits -/

/-- The shadow copy of a context takes what is handed over for a commit (R25). -/
theorem State.setShadow_shadow (s : State) (c : Fin 256) (e : Entry) : (s.setShadow c e).ctxs[c].shadow = e := by
  rw [State.setShadow, State.modCtx_same]

/-- A commit that fails its check leaves the entry that it handed over in the shadow copy, and the rest as it was (R26). -/
theorem State.commit_refused {s : State} {o : Origin} {c : Fin 256} {e : Entry} {n : Nat}
    (refused : (s.setShadow c (s.taken o c e)).checkSingle o c (s.taken o c e) = .refused n) :
    s.commit o c e = (s.setShadow c (s.taken o c e), n) := by
  simp only [State.commit, refused]

/-- An entry that requests context 0 to run with STANDARD none, which is a field out of range (R185). -/
def runEntry : Entry := Entry.zero.set 0 0x40000000

/-- The commit of `runEntry` ends with reason 0x0D (R185). -/
theorem commit_runEntry_at_reset : State.reset.commit (.window .twoWire) 0 runEntry = (State.reset.setShadow 0 runEntry, 0x0D) := by
  have as_written : State.reset.taken (.window .twoWire) 0 runEntry = runEntry := by decide +kernel
  have out_of_range : (State.reset.setShadow 0 runEntry).checkSingle (.window .twoWire) 0 runEntry = .refused 0x0D := by decide +kernel
  rw [← as_written] at out_of_range
  rw [State.commit_refused out_of_range, as_written]

/-- Refutes O41: a refused commit does change its context. The shadow copy, which is part of the context (R25), takes the entry handed over
before the check (R26), and a commit of `runEntry` at reset, refused with 0x0D, leaves it there where zeros stood. -/
theorem not_contextWindow : ¬ Obligations.ContextWindow := by
  intro window
  obtain ⟨-, -, -, unchanged, -⟩ := window State.reset 0 false (.window .twoWire) 0 0 runEntry runEntry
  rw [commit_runEntry_at_reset] at unchanged
  have same : State.reset.setShadow 0 runEntry = State.reset := unchanged (by decide)
  have shadow : runEntry = State.reset.ctxs[(0 : Fin 256)].shadow := by
    rw [← State.setShadow_shadow State.reset 0 runEntry, same]
  exact absurd shadow (by decide +kernel)

/-! ### Service rounds and watchdog events -/

section
variable {s : State} {e : Fin 8}

/-- An overrun while the engine waits for a page is counted and is no evidence (Table 12.3). -/
theorem State.watchdog_waiting (waits : s.pageWait e = true) :
    s.watchdog e = s.modEngine e (fun x => { x with wdog := x.wdog.add 255 s.clock }) := by
  simp only [State.watchdog, waits, Bool.not_true, State.when_false]

/-- Any other overrun is evidence for the warden of the engine's reach (R438). -/
theorem State.watchdog_evidence (reads_on : s.pageWait e = false) :
    s.watchdog e = (s.modEngine e (fun x => { x with wdog := x.wdog.add 255 s.clock })).modWarden (Fin.ofNat 4 (e.val / 2))
      (fun w => w.overran e s.clock) := by
  simp only [State.watchdog, reads_on, Bool.not_false, State.when_true]

variable {dt : Nat} (up : (s.advance dt).engineUp e = true)
include up

theorem execEngineRound_of (codes : List Int) : exec (.engineRound dt e codes) s = .next ((s.advance dt).round e codes) := by
  change execEngineRound dt e codes s = _
  exact State.occurs_of _ _ _ _ up

theorem execEngineWatchdog_of : exec (.engineWatchdog dt e) s = .next ((s.advance dt).watchdog e) := by
  change execEngineWatchdog dt e s = _
  exact State.occurs_of _ _ _ _ up

end

/-! ### The context AGC -/

/-- A hold at the end of a window of the context AGC: one reported with the window, or one of the context's own (R182). -/
def State.cagcHold (s : State) (c : Fin 256) (held : Bool) : Bool :=
  held || s.ctxs[c].agcHeld (s.reaches[s.ctxs[c].reachOf].blanked s.clock)

/-- The levels measured over the last 100 ms, with that of a window that meets no hold. -/
def State.cagcLevels (s : State) (c : Fin 256) (mean : Int) (held : Bool) : List (Nat × Int) :=
  if s.cagcHold c held then s.ctxs[c].levels
  else (s.clock, levelOf mean s.ctxs[c].gain) :: s.ctxs[c].levels.filter (fun p => decide (s.clock ≤ p.1 + 10 ^ 11))

/-- The window's level noted, and the gain set. -/
def State.cagcSet (s : State) (c : Fin 256) (mean : Int) (held : Bool) (g : Int) : State :=
  s.modCtx c (fun y => { y with levels := s.cagcLevels c mean held, gain := g.toNat })

section
variable {s : State} {c : Fin 256} {mean : Int} {held : Bool}

/-- A window of a moving gain that meets a hold is discarded (R182). -/
theorem State.cagcWindow_discarded (moves : s.ctxs[c].active.cagcNow = 1 ∨ s.ctxs[c].active.cagcNow = 2) (hold : s.cagcHold c held = true) :
    s.cagcWindow c mean held = s := by
  have moving : (s.ctxs[c].active.cagcNow == 1 || s.ctxs[c].active.cagcNow == 2) = true := by
    rwa [Bool.or_eq_true, beq_iff_eq, beq_iff_eq]
  exact if_pos (Bool.and_eq_true_iff.2 ⟨moving, hold⟩)

/-- Any other window sets the gain that its mode gives. -/
theorem State.cagcWindow_sets {mode : Nat} (in_force : s.ctxs[c].active.cagcNow = mode)
    (taken : mode = 0 ∨ s.cagcHold c held = false) :
    s.cagcWindow c mean held = s.cagcSet c mean held
      (cagcNext mode (4 * s.ctxs[c].active.cagcGain : Nat) (4 * s.ctxs[c].active.cagcTarget : Nat) mean s.ctxs[c].gain) := by
  subst in_force
  refine if_neg ?_
  rw [Bool.and_eq_true, not_and]
  rcases taken with fixed | free
  · simp [-Fin.getElem_fin, fixed]
  · exact fun _ => Bool.eq_false_iff.1 free

theorem execContextAgcWindow_of {dt : Nat} (runs : (s.advance dt).chainRuns c = true) :
    exec (.contextAgcWindow dt c mean held) s = .next ((s.advance dt).cagcWindow c mean held) := by
  change execContextAgcWindow dt c mean held s = _
  exact State.occurs_of _ _ _ _ runs

end

/-- Settles O43: a round feeds the codes and serves the contexts by `State.roundOrder`, an overrun goes by whether the engine waits for a
page, and the end of an AGC window by the mode in force (`cagcNext`) and by whether it met a hold. -/
theorem engineService : Obligations.EngineService := by
  intro s dt e codes c mean held u x r fed counted hold target levels gain
  have sets (g : Int) : u.cagcSet c mean held g = gain g := rfl
  refine ⟨fun up => ⟨?_, fun waits => ?_, fun reads_on => ?_⟩, fun runs => ?_⟩
  · exact execEngineRound_of up codes
  · rw [execEngineWatchdog_of up, State.watchdog_waiting waits]
  · rw [execEngineWatchdog_of up, State.watchdog_evidence reads_on]
    rfl
  · rw [execContextAgcWindow_of runs]
    refine ⟨fun fixed => ?_, fun slow free above => ?_, fun slow free below => ?_, fun fast free => ?_, fun moves met => ?_⟩
    · rw [State.cagcWindow_sets fixed (.inl rfl), sets]
      rfl
    · rw [State.cagcWindow_sets slow (.inr free), sets]
      exact congrArg (fun g => Host.Outcome.next (gain g)) (if_pos above)
    · rw [State.cagcWindow_sets slow (.inr free), sets]
      exact congrArg (fun g => Host.Outcome.next (gain g)) (if_neg (Int.not_lt.2 below))
    · rw [State.cagcWindow_sets fast (.inr free), sets]
      rfl
    · rw [State.cagcWindow_discarded moves met]

end Sys2Proof.Machine

/-! ## FM and AM reception: lock, stereo, RDS and PCM -/

namespace Sys2Proof.Machine

/-! ### Changes of one context's FM and AM state -/

/-- What a change of a context makes of it where it stands is all that the change does. -/
theorem State.modCtx_congr {s : State} {c : Fin 256} {f g : Ctx → Ctx} (same : f s.ctxs[c] = g s.ctxs[c]) : s.modCtx c f = s.modCtx c g := by
  rw [State.modCtx, same, State.modCtx]

theorem State.modCtx_unchanged {s : State} {c : Fin 256} {f : Ctx → Ctx} (same : f s.ctxs[c] = s.ctxs[c]) : s.modCtx c f = s := by
  rw [State.modCtx, same]
  simp

theorem State.modFm_congr {s : State} {c : Fin 256} {f g : Fm → Fm} (same : f s.ctxs[c].fm = g s.ctxs[c].fm) : s.modFm c f = s.modFm c g :=
  State.modCtx_congr (congrArg (fun y => ({ s.ctxs[c] with fm := y } : Ctx)) same)

theorem State.modAm_congr {s : State} {c : Fin 256} {f g : Am → Am} (same : f s.ctxs[c].am = g s.ctxs[c].am) : s.modAm c f = s.modAm c g :=
  State.modCtx_congr (congrArg (fun y => ({ s.ctxs[c] with am := y } : Ctx)) same)

theorem State.modAm_unchanged {s : State} {c : Fin 256} {f : Am → Am} (same : f s.ctxs[c].am = s.ctxs[c].am) : s.modAm c f = s :=
  State.modCtx_unchanged (congrArg (fun y => ({ s.ctxs[c] with am := y } : Ctx)) same)

/-! ### What a change of lock does to the context (R192) -/

section
variable {s : State} {c : Fin 256}

theorem State.judgeLock_gained (locked : s.ctxs[c].locked = true)
    (awaits : (s.ctxs[c].st = .settling ∧ s.ctxs[c].resettle = false) ∨ (s.ctxs[c].st = .hold ∧ s.ctxs[c].active.req = 1)) :
    s.judgeLock c false = s.toState c .valid := by
  have judged : s.judgeLock c false = s.lockGained c := by
    rw [State.judgeLock, locked]
    rfl
  rw [judged, State.lockGained]
  obtain ⟨settling, settled⟩ | ⟨hold, requested⟩ := awaits
  · rw [settling, settled]
    rfl
  · rw [hold, requested]
    rfl

theorem State.judgeLock_lost (unlocked : s.ctxs[c].locked = false)
    (serves : s.ctxs[c].st = .valid ∨ (s.ctxs[c].st = .settling ∧ s.ctxs[c].resettle = false)) :
    s.judgeLock c true = s.toState c .hold := by
  have judged : s.judgeLock c true = s.lockLost c := by
    rw [State.judgeLock, unlocked]
    rfl
  rw [judged, State.lockLost]
  obtain valid | ⟨settling, settled⟩ := serves
  · rw [valid]
    rfl
  · rw [settling, settled]
    rfl

/-! ### Measurements of the carrier-to-noise ratio (R221, R228) -/

theorem usPs_eq : usPs = 10 ^ 6 := by norm_num [usPs]
theorem msPs_eq : msPs = 10 ^ 9 := by norm_num [msPs]

section
variable {us least cnr : Nat} (held : least ≤ us ∧ s.ctxs[c].validPs + us * 10 ^ 6 ≤ s.clock)
include held

theorem State.measured_of_held : s.measured c us least = true := by
  obtain ⟨long, valid⟩ := held
  rw [State.measured, usPs_eq, decide_eq_true long, decide_eq_true valid]
  rfl

theorem State.cnrHeld_of_held (above : s.ctxs[c].active.lockCnr ≤ cnr) : s.cnrHeld c cnr us least = true := by
  rw [State.cnrHeld, State.measured_of_held held, decide_eq_true above]
  rfl

theorem State.cnrFailed_of_held (below : cnr + 6 < s.ctxs[c].active.lockCnr) : s.cnrFailed c cnr us least = true := by
  rw [State.cnrFailed, State.measured_of_held held, decide_eq_true below]
  rfl

end

theorem State.not_cnrHeld_of_below {us least cnr : Nat} (below : cnr < s.ctxs[c].active.lockCnr) : s.cnrHeld c cnr us least = false := by
  rw [State.cnrHeld, decide_eq_false (Nat.not_le.2 below)]
  rfl

/-! ### What the engines serve -/

theorem State.engineServes_std {std : Nat} (serves : s.engineServes c std = true) : s.ctxs[c].active.std = std := by
  simp only [State.engineServes, Bool.and_eq_true, beq_iff_eq] at serves
  obtain ⟨⟨⟨⟨-, standard⟩, -⟩, -⟩, -⟩ := serves
  exact standard

/-- Stereo follows the pilot in a VALID auto context once it is decided (R223, R224). -/
theorem State.followsPilot_of (serves : s.engineServes c 1 = true) (valid : s.ctxs[c].st = .valid)
    (auto : s.ctxs[c].active.stereoAuto = true) (known : s.ctxs[c].fm.pilotKnown = true) : s.followsPilot c = true := by
  rw [State.followsPilot, stdFm, serves, State.isValid, valid, auto, known]
  rfl

end

/-! ### FM lock and stereo (R221 to R224) -/

/-- Carrier lock without a decided pilot: mono locks at once, auto opens its window (R222, R223). -/
theorem Fm.carrierGained_undecided {f : Fm} (auto : Bool) (cnr now : Nat) (undecided : f.pilotKnown = false) :
    f.carrierGained auto cnr now = { f with
      carrierLock := true, sincePs := now, cnr := cnr, rampPs := none, pilotWindow := auto, pilotKnown := false, stereo := false
      lock := !auto && !f.piLost } :=
  if_neg (by rw [undecided, Bool.and_false]; decide)

section
variable {s : State} {dt us cnr : Nat} {c : Fin 256}

theorem execFmCarrierLock_below (below : cnr < (s.advance dt).ctxs[c].active.lockCnr) :
    exec (.fmCarrierLock dt c cnr us) s = .next (s.advance dt) := by
  change execFmCarrierLock dt c cnr us s = _
  exact State.occurs_not _ _ _ _ (by rw [State.not_cnrHeld_of_below below, Bool.and_false])

theorem execFmPilotDecision_early {dev : Nat} (runs : (s.advance dt).clock < (s.advance dt).ctxs[c].fm.sincePs + 150 * 10 ^ 9) :
    exec (.fmPilotDecision dt c us dev) s = .next (s.advance dt) := by
  change execFmPilotDecision dt c us dev s = _
  exact State.occurs_not _ _ _ _ (by rw [msPs_eq, decide_eq_false (Nat.not_le.2 runs), Bool.and_false])

section
variable (serves : (s.advance dt).engineServes c 1 = true)
include serves

theorem execFmCarrierLock_of (unlocked : (s.advance dt).ctxs[c].fm.carrierLock = false) (held : (s.advance dt).cnrHeld c cnr us 8000 = true) :
    exec (.fmCarrierLock dt c cnr us) s = .next ((s.advance dt).fmStep c (fun f =>
      f.carrierGained (s.advance dt).ctxs[c].active.stereoAuto cnr (s.advance dt).clock)) := by
  change execFmCarrierLock dt c cnr us s = _
  exact State.occurs_of _ _ _ _ (by rw [stdFm, serves, unlocked, held]; rfl)

theorem execFmCarrierLockLost_of (locked : (s.advance dt).ctxs[c].fm.carrierLock = true) (failed : (s.advance dt).cnrFailed c cnr us 50000 = true) :
    exec (.fmCarrierLockLost dt c cnr us) s = .next ((s.advance dt).fmStep c (fun f => f.carrierLost cnr)) := by
  change execFmCarrierLockLost dt c cnr us s = _
  exact State.occurs_of _ _ _ _ (by rw [stdFm, serves, locked, failed]; rfl)

theorem execFmPilotDecision_of {dev : Nat} (window : (s.advance dt).ctxs[c].fm.pilotWindow = true)
    (ended : (s.advance dt).ctxs[c].fm.sincePs + 150 * 10 ^ 9 ≤ (s.advance dt).clock) :
    exec (.fmPilotDecision dt c us dev) s = .next ((s.advance dt).fmStep c (fun f => f.pilotDecided (pilotPresent us dev))) := by
  change execFmPilotDecision dt c us dev s = _
  exact State.occurs_of _ _ _ _ (by rw [stdFm, serves, window, msPs_eq, decide_eq_true ended]; rfl)

end

section
variable (follows : (s.advance dt).followsPilot c = true)
include follows

theorem execFmStereoToMono_of (stereo : (s.advance dt).ctxs[c].fm.stereo = true) (long : 20000 ≤ us) :
    exec (.fmStereoToMono dt c us) s = .next ((s.advance dt).modFm c (fun f => f.turnStereo false (s.advance dt).clock)) := by
  change execFmStereoToMono dt c us s = _
  exact State.occurs_of _ _ _ _ (by rw [follows, stereo, decide_eq_true long]; rfl)

theorem execFmMonoToStereo_of (mono : (s.advance dt).ctxs[c].fm.stereo = false) (long : 100000 ≤ us) :
    exec (.fmMonoToStereo dt c us) s = .next ((s.advance dt).modFm c (fun f => f.turnStereo true (s.advance dt).clock)) := by
  change execFmMonoToStereo dt c us s = _
  exact State.occurs_of _ _ _ _ (by rw [follows, mono, decide_eq_true long]; rfl)

end
end

/-! ### AM lock and the detector in use (R227, R228) -/

section
variable {s : State} {c : Fin 256} {cnr us : Nat}

/-- What AM lock asks for: the ratio, or with DETECT synchronous the carrier loop. -/
theorem State.amGains_of
    (ready : (s.ctxs[c].active.detect ≠ 1 ∧ s.ctxs[c].active.lockCnr ≤ cnr ∧ 20000 ≤ us ∧ s.ctxs[c].validPs + us * 10 ^ 6 ≤ s.clock) ∨
      (s.ctxs[c].active.detect = 1 ∧ s.ctxs[c].am.loopLocked = true ∧ s.ctxs[c].am.loopPs + 20 * 10 ^ 9 ≤ s.clock)) :
    s.amGains c cnr us = true := by
  obtain ⟨by_ratio, above, held⟩ | ⟨synchronous, loop, long⟩ := ready
  · rw [State.amGains, if_neg by_ratio, State.cnrHeld_of_held held above]
  · rw [State.amGains, if_pos synchronous, loop, msPs_eq, decide_eq_true long]
    rfl

theorem State.amLoses_of
    (fails : (s.ctxs[c].active.detect ≠ 1 ∧ cnr + 6 < s.ctxs[c].active.lockCnr ∧ 100000 ≤ us ∧ s.ctxs[c].validPs + us * 10 ^ 6 ≤ s.clock) ∨
      (s.ctxs[c].active.detect = 1 ∧ s.ctxs[c].am.loopLocked = false ∧ s.ctxs[c].am.loopPs + 100 * 10 ^ 9 ≤ s.clock)) :
    s.amLoses c cnr us = true := by
  obtain ⟨by_ratio, below, held⟩ | ⟨synchronous, loop, long⟩ := fails
  · rw [State.amLoses, if_neg by_ratio, State.cnrFailed_of_held held below]
  · rw [State.amLoses, if_pos synchronous, loop, msPs_eq, decide_eq_true long]
    rfl

end

section
variable {a : Am} {detect now : Nat} {v : Bool} {offset : Int}

theorem Am.loop_unchanged (same : a.loopLocked = (v && decide (offset.natAbs ≤ 200))) (unlocked : a.lock = false) :
    a.loop detect v offset now = a := by
  simp only [Am.loop, ← same, BEq.rfl, if_true, unlocked, Bool.false_eq_true, if_false]

section
variable (changes : a.loopLocked ≠ (v && decide (offset.natAbs ≤ 200)))
include changes

theorem Am.loop_unlocked (unlocked : a.lock = false) :
    a.loop detect v offset now = { a with loopLocked := v && decide (offset.natAbs ≤ 200), loopPs := now } := by
  simp only [Am.loop, beq_false_of_ne changes.symm, Bool.false_eq_true, if_false, unlocked]

theorem Am.loop_locked (locked : a.lock = true) :
    a.loop detect v offset now = ({ a with loopLocked := v && decide (offset.natAbs ≤ 200), loopPs := now } : Am).use
      (syncInUse detect (v && decide (offset.natAbs ≤ 200))) now := by
  simp only [Am.loop, beq_false_of_ne changes.symm, Bool.false_eq_true, if_false, locked, if_true]

end
end

section
variable {s : State} {dt us cnr : Nat} {c : Fin 256} (serves : (s.advance dt).engineServes c 2 = true)
include serves

theorem execAmLockGained_of (unlocked : (s.advance dt).ctxs[c].am.lock = false) (gains : (s.advance dt).amGains c cnr us = true) :
    exec (.amLockGained dt c cnr us) s = .next ((((s.advance dt).modAm c (fun a => { a with
      lock := true, blendPs := none, syncDet := syncInUse (s.advance dt).ctxs[c].active.detect a.loopLocked })).modFm c (fun f => { f with
        cnr := cnr })).judgeLock c false) := by
  change execAmLockGained dt c cnr us s = _
  exact State.occurs_of _ _ _ _ (by rw [stdAm, serves, unlocked, gains]; rfl)

theorem execAmLockLost_of (locked : (s.advance dt).ctxs[c].am.lock = true) (loses : (s.advance dt).amLoses c cnr us = true) :
    exec (.amLockLost dt c cnr us) s = .next (((s.advance dt).modAm c (fun a => { a with lock := false, blendPs := none })).judgeLock c true) := by
  change execAmLockLost dt c cnr us s = _
  exact State.occurs_of _ _ _ _ (by rw [stdAm, serves, locked, loses]; rfl)

theorem execAmDetectorSwitch_of {v : Bool} {offset : Int} :
    exec (.amDetectorSwitch dt c v offset) s = .next ((s.advance dt).modAm c (fun a =>
      a.loop (s.advance dt).ctxs[c].active.detect v offset (s.advance dt).clock)) := by
  change execAmDetectorSwitch dt c v offset s = _
  exact State.occurs_of _ _ _ _ serves

end

/-- Settles O44: each event's condition is met by the measurements named, its effect is the change of the engine's state, and `State.judgeLock`
says what that change means for the context. -/
theorem fmAmLock : Obligations.FmAmLock := by
  intro s dt c v cnr us dev offset u x held on
  refine ⟨fun serves => ⟨fun unlocked undecided above measured => ?_, execFmCarrierLock_below, fun locked below measured => ?_,
    fun window ended => execFmPilotDecision_of serves window ended, fun _ runs => execFmPilotDecision_early runs, fun valid auto known => ?_⟩,
    fun serves => ⟨fun unlocked ready => ?_, fun locked fails => ?_, fun same unlocked => ?_, fun changes unlocked => ?_,
    fun changes locked => ?_⟩, State.judgeLock_gained, State.judgeLock_lost⟩
  · exact (execFmCarrierLock_of serves unlocked (State.cnrHeld_of_held measured above)).trans (congrArg
      (fun t : State => Host.Outcome.next (t.judgeLock c x.locked)) (State.modFm_congr (Fm.carrierGained_undecided _ _ _ undecided)))
  · exact execFmCarrierLockLost_of serves locked (State.cnrFailed_of_held measured below)
  · have follows := State.followsPilot_of serves valid auto known
    exact ⟨execFmStereoToMono_of follows, execFmMonoToStereo_of follows⟩
  · exact execAmLockGained_of serves unlocked (State.amGains_of ready)
  · exact execAmLockLost_of serves locked (State.amLoses_of fails)
  · rw [execAmDetectorSwitch_of serves, State.modAm_unchanged (Am.loop_unchanged same unlocked)]
  · exact (execAmDetectorSwitch_of serves).trans (congrArg Host.Outcome.next (State.modAm_congr (Am.loop_unlocked changes unlocked)))
  · exact (execAmDetectorSwitch_of serves).trans (congrArg Host.Outcome.next (State.modAm_congr (Am.loop_locked changes locked)))

/-! ### The block code and synchronisation (R230, R231) -/

theorem correctBlock_of_offset {off : RdsOffset} {w : Nat} (matching : rdsRem w = offsetWord off) : correctBlock off w = (w, 0) :=
  if_pos (by rw [matching, Nat.xor_self])

section
variable (f : Fm) (e : Entry) (stamp : Nat) (m : Marks)

/-- The PI check of R225 leaves block synchronisation as it is. -/
theorem Fm.checkPi_rds (service : Nat) (pi : BitVec 16) (auto : Bool) :
    (f.checkPi service pi auto).rdsSync = f.rdsSync ∧ (f.checkPi service pi auto).rdsClasses = f.rdsClasses := by
  unfold Fm.checkPi
  dsimp only
  split_ifs <;> exact ⟨rfl, rfl⟩

/-- A block in synchronisation keeps it, and its class joins the last 50. -/
theorem Fm.takeBlock_rds (b : RdsOffset × BitVec 16 × Fin 4) (pos : Nat) :
    (f.takeBlock e b pos stamp m).rdsSync = f.rdsSync ∧ (f.takeBlock e b pos stamp m).rdsClasses = (b.2.2 :: f.rdsClasses).take 50 := by
  unfold Fm.takeBlock
  dsimp only
  split_ifs <;> simp only [Fm.checkPi_rds, and_self]

theorem Fm.synchronise_rdsSync (k : RdsCand) (off : RdsOffset) : (f.synchronise e k off stamp m).rdsSync = true := by
  unfold Fm.synchronise
  dsimp only
  obtain ⟨second, -⟩ := Fm.takeBlock_rds _ e stamp m (off, _, 0) _
  obtain ⟨first, -⟩ := Fm.takeBlock_rds _ e k.stamp k.marks (k.off, k.info, 0) _
  exact second.trans first

end

section
variable {f : Fm} {e : Entry} (stamp : Nat) (m : Marks)

/-- A bit that ends no block of a known offset changes nothing in synchronisation. -/
theorem Fm.search_unmatched (unmatched : matchOffset e.rbds f.rdsReg.toNat = none) : (f.search e stamp m).rdsSync = f.rdsSync := by
  unfold Fm.search
  dsimp only
  split
  · rfl
  · rw [unmatched]

/-- The second block of the sequence, 26 bits after the first, synchronises (R230). -/
theorem Fm.search_second {off : RdsOffset} {k : RdsCand} (full : 26 ≤ f.rdsMarks.length) (matched : matchOffset e.rbds f.rdsReg.toNat = some off)
    (first : k ∈ f.rdsCands) (age : k.age = 25) (next : follows e.rbds k.off off = true) : (f.search e stamp m).rdsSync = true := by
  have waits : { k with age := k.age + 1 } ∈ (f.rdsCands.map (fun k => { k with age := k.age + 1 })).filter (fun k => decide (k.age ≤ 26)) :=
    List.mem_filter.2 ⟨List.mem_map_of_mem first, by simp [age]⟩
  unfold Fm.search
  dsimp only
  rw [if_neg (Nat.not_lt.2 full), matched]
  dsimp only
  split
  · exact Fm.synchronise_rdsSync ..
  case h_2 missed =>
    have unfit := List.find?_eq_none.1 missed _ waits
    simp [age, next] at unfit

/-- More than 20 blocks of class 3 among the last 49 fail synchronisation whatever the class of the block that joins them. -/
theorem Fm.syncFails_of_taken {x : Fin 4} {l : List (Fin 4)} (classes : f.rdsClasses = (x :: l).take 50)
    (bad : 21 ≤ ((l.take 49).filter (· == 3)).length) : f.syncFails = true := by
  have more : ((l.take 49).filter (· == 3)).length ≤ ((x :: l.take 49).filter (· == 3)).length :=
    ((List.sublist_cons_self x _).filter _).length_le
  rw [Fm.syncFails, classes, List.take_succ_cons]
  exact decide_eq_true (Nat.lt_of_lt_of_le bad more)

/-- With more than 20 of the last 50 blocks of class 3 synchronisation is lost (R230). -/
theorem Fm.flywheel_loses (bad : 21 ≤ ((f.rdsClasses.take 49).filter (· == 3)).length) : (f.flywheel e stamp m).rdsSync = false := by
  obtain ⟨-, classes⟩ := f.takeBlock_rds e stamp m (judgeBlock e.rbds f.inE f.unread f.nextPos f.rdsReg.toNat) f.nextPos
  exact congrArg Fm.rdsSync (if_pos (Fm.syncFails_of_taken classes bad))

end

/-! ### RDS events (R231 to R243) -/

section
variable {s : State} {dt : Nat} {c : Fin 256} (serves : (s.advance dt).engineServes c 1 = true)
include serves

theorem execRdsBlock_of {bits : List Bool} {stamp : Nat} {m : Marks} (enabled : (s.advance dt).ctxs[c].active.rdsEn = true)
    (locked : (s.advance dt).ctxs[c].fm.carrierLock = true) :
    exec (.rdsBlock dt c bits stamp m) s = .next ((s.advance dt).fmStep c (fun f => f.bits (s.advance dt).ctxs[c].active bits stamp m)) := by
  change execRdsBlock dt c bits stamp m s = _
  exact State.occurs_of _ _ _ _ (by rw [stdFm, serves, enabled, locked]; rfl)

theorem execRdsGroupComplete_of {level : Int} {cnr : Nat} (synchronous : (s.advance dt).ctxs[c].fm.rdsSync = true)
    (full : (s.advance dt).ctxs[c].fm.group.length = 4) :
    exec (.rdsGroupComplete dt c level cnr) s = .next ((s.advance dt).groupComplete c level cnr) := by
  change execRdsGroupComplete dt c level cnr s = _
  exact State.occurs_of _ _ _ _ (by rw [stdFm, serves, synchronous, full]; rfl)

end

/-- The record of a completed group, which ends it (R236). -/
def State.closeGroup (s : State) (c : Fin 256) (level : Int) (cnr : Nat) : State :=
  (s.groupRecord c level cnr).modFm c (fun f => { f with group := [], cnr := cnr })

section
variable {s : State} {c : Fin 256} (level : Int) (cnr : Nat)

/-- An MMBS group gives its record alone (R243). -/
theorem State.groupComplete_mmbs (mmbs : s.ctxs[c].fm.mmbs = true) : s.groupComplete c level cnr = s.closeGroup c level cnr := by
  rw [State.groupComplete, mmbs]
  rfl

theorem State.groupComplete_items (rds : s.ctxs[c].fm.mmbs = false) (other : s.ctxs[c].fm.isCt = false) :
    s.groupComplete c level cnr = (s.groupItems c).closeGroup c level cnr := by
  rw [State.groupComplete, rds, State.ctEdge, other]
  rfl

theorem State.groupComplete_ct (rds : s.ctxs[c].fm.mmbs = false) (ct : s.ctxs[c].fm.isCt = true) :
    s.groupComplete c level cnr =
      ((s.groupItems c).ctItem c s.ctxs[c].fm.ctNs (s.ctxs[c].fm.groupStamp + groupNs)).closeGroup c level cnr := by
  rw [State.groupComplete, rds, State.ctEdge, ct]
  rfl

end

/-! ### PCM (R244 to R246) -/

/-- The audio path's input changes nothing of the context but its audio. -/
theorem Ctx.foldl_hear_frame (l : List AudioIn) (x : Ctx) : ∃ a, l.foldl (Ctx.hear · true) x = { x with fm := { x.fm with audio := a } } := by
  induction l generalizing x with
  | nil => exact ⟨x.fm.audio, rfl⟩
  | cons y l ih =>
    obtain ⟨a, rest⟩ := ih (x.hear true y)
    exact ⟨a, rest⟩

/-- Without a gate what the engine forms is kept as it comes. -/
theorem Ctx.keepOwn_ungated {x : Ctx} (y : Ctx) (ungated : x.gate = none) : x.keepOwn y = y := by
  rw [Ctx.keepOwn, ungated]

theorem Ctx.foldl_keepOwn_ungated (l : List AudioIn) {x : Ctx} (ungated : x.gate = none) :
    l.foldl (fun x y => x.keepOwn (x.hear true y)) x = l.foldl (Ctx.hear · true) x := by
  induction l generalizing x with
  | nil => rfl
  | cons y l ih =>
    rw [List.foldl_cons, Ctx.keepOwn_ungated _ ungated]
    exact ih ungated

section
variable (s : State) (c : Fin 256) (f : Fm → Fm)

/-- A change of one context's FM state leaves every context but for its FM state. -/
theorem State.modFm_frame (d : Fin 256) : ∃ g, (s.modFm c f).ctxs[d] = { s.ctxs[d] with fm := g } := by
  by_cases own : d = c
  · subst own
    exact ⟨_, State.modCtx_same ..⟩
  · exact ⟨_, State.modCtx_other _ _ _ _ own⟩

theorem State.modFm_partnerOf (d : Fin 256) : (s.modFm c f).partnerOf d = s.partnerOf d := by
  obtain ⟨g, frame⟩ := s.modFm_frame c f d
  rw [State.partnerOf, frame, State.partnerOf]

/-- A change of selection under way does not depend on the FM state. -/
theorem State.modFm_turnTo (d : Fin 256) : (s.modFm c f).turnTo d = s.turnTo d := by
  have record : (s.modFm c f).recordCtx d = s.recordCtx d := by rw [State.recordCtx, State.modFm_partnerOf, State.recordCtx]
  have higher : (s.modFm c f).higherCtx d = s.higherCtx d := by rw [State.higherCtx, State.modFm_partnerOf, State.higherCtx]
  obtain ⟨g, frame⟩ := s.modFm_frame c f (s.recordCtx d)
  simp only [State.turnTo, record, higher, frame]

end

/-- The context's audio path takes the demodulator's input, with the carrier-to-noise ratio over it. -/
def State.hearAudio (s : State) (c : Fin 256) (audio : List AudioIn) (cnr : Nat) : State :=
  s.modCtx c (fun x => audio.foldl (Ctx.hear · true) { x with fm := { x.fm with cnr := cnr } })

section
variable {s : State} {c : Fin 256} (audio : List AudioIn) (cnr : Nat)

/-- Hearing changes the FM state alone. -/
theorem State.hearAudio_modFm : ∃ g : Fm, s.hearAudio c audio cnr = s.modFm c (fun _ => g) := by
  obtain ⟨a, frame⟩ := Ctx.foldl_hear_frame audio { s.ctxs[c] with fm := { s.ctxs[c].fm with cnr := cnr } }
  exact ⟨_, State.modCtx_congr frame⟩

/-- Where neither a switch nor a change of selection holds frames back, a record goes out once its frames are full. -/
theorem State.pcm_ungated (ungated : s.ctxs[c].gate = none) (settled : s.turnTo c = none) :
    s.pcm c audio cnr =
      if (pcmFormat s.ctxs[c].active.pcmMode).1 ≤ (s.hearAudio c audio cnr).ctxs[c].fm.audio.frames.length then
        (s.hearAudio c audio cnr).pcmSend c
      else s.hearAudio c audio cnr := by
  have hears : s.modCtx c (fun x => audio.foldl (fun x a => x.keepOwn (x.hear true a)) { x with fm := { x.fm with cnr := cnr } }) =
      s.hearAudio c audio cnr := State.modCtx_congr (Ctx.foldl_keepOwn_ungated audio ungated)
  obtain ⟨g, heard⟩ := s.hearAudio_modFm (c := c) audio cnr
  have turn : (s.hearAudio c audio cnr).turnTo c = none := by rw [heard, State.modFm_turnTo, settled]
  have context : (s.hearAudio c audio cnr).ctxs[c] = { s.ctxs[c] with fm := g } := by
    rw [heard]
    exact State.modCtx_same ..
  rw [State.pcm, hears, State.turnFrames, turn, State.withSome_none, Ctx.framesOut, context, ungated]

end

theorem execPcmRecord_of {s : State} {dt : Nat} {c : Fin 256} {audio : List AudioIn} {cnr : Nat}
    (serves : (s.advance dt).engineServes c 1 = true ∨ (s.advance dt).engineServes c 2 = true)
    (out : (s.advance dt).ctxs[c].active.outPcm = true) (own : (s.advance dt).ctxs[c].active.scout = false)
    (valid : (s.advance dt).ctxs[c].st = .valid) :
    exec (.pcmRecord dt c audio cnr) s = .next ((s.advance dt).pcm c audio cnr) := by
  have selected : selects (s.advance dt).ctxs[c].active.std = true := by
    obtain fm | am := serves
    · rw [State.engineServes_std fm]
      rfl
    · rw [State.engineServes_std am]
      rfl
  have engine : ((s.advance dt).engineServes c stdFm || (s.advance dt).engineServes c stdAm) = true := Bool.or_eq_true_iff.2 serves
  change execPcmRecord dt c audio cnr s = _
  exact State.occurs_of _ _ _ _ (by rw [engine, Ctx.pcmOn, out, own, valid, selected]; rfl)

/-- Settles O45: an RDS event's effect is `Fm.bits` or `State.groupComplete`, the rules of synchronisation are those of `Fm.search` and
`Fm.flywheel`, and PCM without a gate or a turn is what the audio path has heard. -/
theorem rdsAndPcm : Obligations.RdsAndPcm := by
  intro s dt c bits stamp cnr w level m audio off k e f u x done heard
  refine ⟨fun serves => ⟨fun enabled locked => execRdsBlock_of serves enabled locked, fun synchronous full => ?_⟩,
    fun serves out own valid => ⟨execPcmRecord_of serves out own valid, fun ungated settled => ?_⟩,
    Fm.search_unmatched stamp m, Fm.search_second stamp m, Fm.flywheel_loses stamp m, correctBlock_of_offset⟩
  · rw [execRdsGroupComplete_of serves synchronous full]
    exact ⟨fun mmbs => congrArg Host.Outcome.next (State.groupComplete_mmbs level cnr mmbs),
      fun rds other => congrArg Host.Outcome.next (State.groupComplete_items level cnr rds other),
      fun rds ct => congrArg Host.Outcome.next (State.groupComplete_ct level cnr rds ct)⟩
  · rw [execPcmRecord_of serves out own valid, State.pcm_ungated audio cnr ungated settled]
    exact ⟨fun short => congrArg Host.Outcome.next (if_neg (Nat.not_le.2 short)), fun full => congrArg Host.Outcome.next (if_pos full)⟩

end Sys2Proof.Machine

/-! ## DAB reception: synchronisation, lock, the FIC, logical frames, superframes and reconfigurations -/

namespace Sys2Proof.Machine

/-! ### Changes of one context's DAB state -/

theorem State.modDab_congr {s : State} {c : Fin 256} {f g : Dab → Dab} (same : f s.ctxs[c].dab = g s.ctxs[c].dab) : s.modDab c f = s.modDab c g :=
  State.modCtx_congr (congrArg (fun y => ({ s.ctxs[c] with dab := y } : Ctx)) same)

section
variable {d : Dab}

/-- Two null symbols 96 ms apart fit whatever the snapshot of a migration predicts (R256, R458). -/
theorem Dab.nullFits_frame (d : Dab) : d.nullFits 96 = true := rfl

/-- Without a reconfiguration that waits, what the FIC gave stays when synchronisation is lost (Table 7.9). -/
theorem Dab.syncLost_unsignalled (unsignalled : d.occurrence = none) :
    d.syncLost = { d with
      sync := false, lock := false, frameStamp := none, frameCif := none, inFrame := 0, lines := [], stored := 0, frameGood := 0, badFrames := 0
      newOrgs := [], newClasses := [], newComplete := false, occurrence := none, reached := false, passed := false, relock := false
      fic := [], alone := [] } := by
  rw [Dab.syncLost, unsignalled]
  rfl

/-! ### Lock (R257) -/

theorem Dab.gain_of {service : Nat} (synced : d.sync = true) (kept : d.eidLost = false) (good : 6 ≤ d.frameGood)
    (expected : service % 65536 = 0 ∨ d.eid = some (service % 65536)) : d.gain service = { d with lock := true } :=
  if_pos (by simp [synced, kept, good, expected])

theorem Dab.gain_not (lacks : d.sync = false ∨ d.frameGood < 6) (service : Nat) : d.gain service = d := by
  refine if_neg ?_
  obtain unsynced | few := lacks
  · simp [unsynced]
  · simp [few]

theorem Dab.endFrame_bad (bad : d.frameGood = 0) (before : 9 ≤ d.badFrames) : d.endFrame.lock = false := by
  have ten : ¬ d.badFrames + 1 < 10 := by omega
  simp [Dab.endFrame, bad, ten]

theorem Dab.endFrame_good (good : d.frameGood ≠ 0) : d.endFrame.lock = d.lock ∧ d.endFrame.badFrames = 0 := by
  simp [Dab.endFrame, good]

/-- The time de-interleaver holds the last 16 CIFs (R266). -/
theorem Dab.store_bounded (d : Dab) (k : MscCif) (now : Nat) :
    (d.store k now).stored = min (d.stored + 1) 16 ∧ (d.store k now).lines.length ≤ 16 :=
  ⟨rfl, List.length_take_le ..⟩

end

/-! ### Frame synchronisation (R256) -/

section
variable {s : State} {dt : Nat} {c : Fin 256}

theorem execDabFrameSync_uncorrelated {apartMs : Nat} {offset : Int} :
    exec (.dabFrameSync dt c apartMs false offset) s = .next (s.advance dt) := by
  change execDabFrameSync dt c apartMs false offset s = _
  exact State.occurs_not _ _ _ _ (by rw [Bool.and_false, Bool.false_and])

theorem execDabFrameSyncLost_short {missed : Nat} (short : missed < 3) :
    exec (.dabFrameSyncLost dt c missed) s = .next (s.advance dt) := by
  change execDabFrameSyncLost dt c missed s = _
  exact State.occurs_not _ _ _ _ (by rw [decide_eq_false (Nat.not_le.2 short), Bool.and_false])

section
variable (serves : (s.advance dt).engineServes c 3 = true)
include serves

theorem execDabFrameSync_of {apartMs : Nat} {offset : Int} (unsynced : (s.advance dt).ctxs[c].dab.sync = false)
    (fits : (s.advance dt).ctxs[c].dab.nullFits apartMs = true) (near : offset.natAbs ≤ 10000) :
    exec (.dabFrameSync dt c apartMs true offset) s = .next ((s.advance dt).dabStep c Dab.synced) := by
  change execDabFrameSync dt c apartMs true offset s = _
  exact State.occurs_of _ _ _ _ (by rw [stdDab, serves, unsynced, fits, decide_eq_true near]; rfl)

theorem execDabFrameSyncLost_of {missed : Nat} (synced : (s.advance dt).ctxs[c].dab.sync = true) (long : 3 ≤ missed) :
    exec (.dabFrameSyncLost dt c missed) s = .next ((s.advance dt).dabStep c Dab.syncLost) := by
  change execDabFrameSyncLost dt c missed s = _
  exact State.occurs_of _ _ _ _ (by rw [stdDab, serves, synced, decide_eq_true long]; rfl)

end
end

/-! ### The FIC (R262, R263, R339) -/

theorem State.ficOpen_iff {s : State} {c : Fin 256} {stamp : Nat} :
    s.ficOpen c stamp = true ↔
      s.ctxs[c].active.scout = false ∨ s.ctxs[c].dab.onlyFrame = none ∨ s.ctxs[c].dab.onlyFrame = some stamp := by
  rw [State.ficOpen, Bool.or_eq_true, Bool.not_eq_true']
  cases s.ctxs[c].dab.onlyFrame <;> simp

/-- A scout that keeps to one transmission frame decodes the FIC of no other (R339). -/
theorem State.ficOpen_other {s : State} {c : Fin 256} {stamp o : Nat} (scout : s.ctxs[c].active.scout = true)
    (only : s.ctxs[c].dab.onlyFrame = some o) (other : o ≠ stamp) : s.ficOpen c stamp = false := by
  rw [State.ficOpen, scout, only]
  exact beq_false_of_ne other

section
variable {s : State} {dt stamp : Nat} {c : Fin 256} {fic : Fic} {msc : Option MscCif} {symbols : List DabSym} {combined : Bool}

theorem execDabFicDecode_closed (closed : (s.advance dt).ficOpen c stamp = false) :
    exec (.dabFicDecode dt c fic msc stamp combined symbols) s = .next (s.advance dt) := by
  change execDabFicDecode dt c fic msc stamp combined symbols s = _
  exact State.occurs_not _ _ _ _ (by rw [closed, Bool.and_false, Bool.false_and, Bool.false_and, Bool.false_and])

theorem execDabFicDecode_unreturned (unreturned : (s.advance dt).ficReturned c fic stamp symbols = false) :
    exec (.dabFicDecode dt c fic msc stamp combined symbols) s = .next (s.advance dt) := by
  change execDabFicDecode dt c fic msc stamp combined symbols s = _
  exact State.occurs_not _ _ _ _ (by rw [unreturned, Bool.and_false])

theorem execDabFicDecode_of (serves : (s.advance dt).engineServes c 3 = true) (synced : (s.advance dt).ctxs[c].dab.sync = true)
    (isOpen : (s.advance dt).ficOpen c stamp = true)
    (sum : combined = ((s.advance dt).partnerFic c ((s.advance dt).ctxs[c].dab.ficCount stamp fic.cif)).isSome)
    (waited : (s.advance dt).ficWaited c fic stamp = true) (returned : (s.advance dt).ficReturned c fic stamp symbols = true) :
    exec (.dabFicDecode dt c fic msc stamp combined symbols) s = .next ((s.advance dt).ficDecode c fic msc stamp symbols) := by
  change execDabFicDecode dt c fic msc stamp combined symbols s = _
  exact State.occurs_of _ _ _ _ (by rw [stdDab, serves, synced, isOpen, sum, BEq.rfl, waited, returned]; rfl)

end

/-! ### Logical frames, superframes and reconfigurations (R266, R269, R270, R275) -/

section
variable {s : State} {dt : Nat} {c : Fin 256} {q : Fin 64} {f : LogicalFrame} {y : DabSub} {corrected : List Byte} {failed : List Nat}

theorem execDabLogicalFrame_unready (few : (s.advance dt).ctxs[c].dab.stored < 16) :
    exec (.dabLogicalFrame dt c q f) s = .next (s.advance dt) := by
  change execDabLogicalFrame dt c q f s = _
  exact State.occurs_not _ _ _ _ (by rw [Dab.frameReady, decide_eq_false (Nat.not_le.2 few), Bool.and_false, Bool.false_and, Bool.false_and])

/-- Without its fire code a superframe is counted lost, and its frames are gone (R270). -/
theorem State.superframe_unfired (unfired : fireOk corrected = false) :
    s.superframe c q y corrected =
      (s.modSub c q (fun x => { x with frames := [] })).modSub c q (fun x => { x with sfLost := min (x.sfLost + 1) 255 }) := by
  rw [State.superframe, unfired]
  rfl

section
variable (serves : (s.advance dt).engineServes c 3 = true)
include serves

theorem execDabLogicalFrame_of (synced : (s.advance dt).ctxs[c].dab.sync = true) (ready : 16 ≤ (s.advance dt).ctxs[c].dab.stored)
    (waited : (s.advance dt).frameWaited c = true) (returned : (s.advance dt).frameReturned c q f = true) :
    exec (.dabLogicalFrame dt c q f) s = .next ((s.advance dt).logicalFrame c q f) := by
  change execDabLogicalFrame dt c q f s = _
  exact State.occurs_of _ _ _ _ (by rw [stdDab, serves, synced, Dab.frameReady, decide_eq_true ready, waited, returned]; rfl)

theorem execDabSuperframe_of (yields : (s.advance dt).ctxs[c].dab.yields q = true)
    (dabPlus : (s.advance dt).ctxs[c].dab.classOf q = .dabPlus) (selected : (s.advance dt).ctxs[c].dab.sub? q = some y)
    (five : y.frames.length = 5) (returned : rsReturns y.raw corrected failed = true) :
    exec (.dabSuperframe dt c q corrected failed) s = .next ((s.advance dt).superframe c q y corrected) := by
  change execDabSuperframe dt c q corrected failed s = _
  refine State.occurs_at rfl (by rw [stdDab, serves, yields, dabPlus]; rfl) ?_
  rw [selected]
  exact if_pos ⟨five, returned⟩

theorem execDabReconfiguration_of (synced : (s.advance dt).ctxs[c].dab.sync = true)
    (complete : (s.advance dt).ctxs[c].dab.newComplete = true) (reached : (s.advance dt).ctxs[c].dab.reached = true) :
    exec (.dabReconfiguration dt c) s = .next ((s.advance dt).modDab c Dab.reconfigure) := by
  change execDabReconfiguration dt c s = _
  exact State.occurs_of _ _ _ _ (by rw [stdDab, serves, synced, complete, reached]; rfl)

end
end

/-- Settles O46: each event's condition is met, or one of its conjuncts fails, by what its clause names, its effect is the change of the
engine's state, and lock and the de-interleaver go by `Dab.gain`, `Dab.endFrame` and `Dab.store`. -/
theorem dabReception : Obligations.DabReception := by
  intro s dt c offset missed stamp fic msc symbols q f y corrected failed k now d service u x combined
  refine ⟨fun serves => ⟨fun unsynced near => execDabFrameSync_of serves unsynced (Dab.nullFits_frame _) near,
      execDabFrameSync_uncorrelated, fun synced => ?_, fun yields dabPlus selected five returned => ?_⟩,
    Dab.gain_of, fun lacks => Dab.gain_not lacks service, Dab.endFrame_bad, Dab.endFrame_good, d.store_bounded k now⟩
  · refine ⟨fun long unsignalled => ?_, execDabFrameSyncLost_short,
      fun scouted waited returned => execDabFicDecode_of serves synced (State.ficOpen_iff.2 scouted) rfl waited returned,
      execDabFicDecode_unreturned, fun o scout only other => execDabFicDecode_closed (State.ficOpen_other scout only other),
      execDabLogicalFrame_of serves synced, execDabLogicalFrame_unready, execDabReconfiguration_of serves synced⟩
    exact (execDabFrameSyncLost_of serves synced long).trans (congrArg
      (fun t : State => Host.Outcome.next (t.judgeLock c x.locked)) (State.modDab_congr (Dab.syncLost_unsignalled unsignalled)))
  · have taken := execDabSuperframe_of serves yields dabPlus selected five returned
    exact ⟨fun unfired => taken.trans (congrArg Host.Outcome.next (State.superframe_unfired unfired)), taken⟩

end Sys2Proof.Machine

/-! ## EAB reception: the replay table, the states of a reception, the shadow detector and the noise floor -/

namespace Sys2Proof.Machine

/-! ### The replay table (R304, R305) -/

section
variable {k : ReplayKey} {h : BitVec 128} {n : Nat} {l : List ReplayKey}

theorem ReplayKey.accept_isFor (k : ReplayKey) (n : Nat) (h : BitVec 128) : (k.accept n).isFor h = k.isFor h := by
  unfold ReplayKey.accept
  split <;> rfl

theorem ReplayKey.accept_highest (k : ReplayKey) (n : Nat) : (k.accept n).highest = max k.highest n := by
  unfold ReplayKey.accept
  split
  case isTrue above => exact (Nat.max_eq_right above.le).symm
  case isFalse reached => exact (Nat.max_eq_left (Nat.not_lt.1 reached)).symm

/-- A counter that the highest one has reached and whose bit in the window is set is REPLAYED or DUPLICATE (R305). -/
theorem replayStatus_marked (reached : n ≤ k.highest) (marked : k.window.getLsbD (k.highest - n) = true) :
    replayStatus (some k) n ≠ 0 := by
  unfold replayStatus
  dsimp only
  split
  · decide
  · rw [marked, decide_eq_true reached]
    decide

/-- A counter that VERIFIED lies less than the window's 32 bits below the highest one (R305). -/
theorem replayStatus_verified (verified : replayStatus (some k) n = 0) : k.highest < n + 32 := by
  by_contra old
  have replayed : replayStatus (some k) n = 2 := by simp [replayStatus, Nat.not_lt.1 old]
  omega

/-- The window of an entry marks the counter that it has accepted (R304). -/
theorem ReplayKey.accept_marks (near : k.highest < n + 32) : (k.accept n).window.getLsbD ((k.accept n).highest - n) = true := by
  rw [ReplayKey.accept_highest]
  unfold ReplayKey.accept
  split
  case isTrue above => simp [Nat.max_eq_right above.le]
  case isFalse reached =>
    have bit : k.highest - n < 32 := by omega
    simp [Nat.max_eq_left (Nat.not_lt.1 reached), bit]

/-- The entry of a message's key after it was VERIFIED, where the table had none: the oldest may go, and the new one comes last (R304). -/
theorem replayAccept_new (absent : l.find? (fun k => k.isFor h) = none) :
    (replayAccept l h).find? (fun k => k.isFor h) =
      some { origin := hOrigin h, slot := (hSlot h).val, highest := hCounter h, window := 1 } := by
  have rest : (if 256 ≤ l.length then l.drop 1 else l).find? (fun k => k.isFor h) = none := by
    rw [List.find?_eq_none] at absent ⊢
    split
    · exact fun x dropped => absent x (List.mem_of_mem_drop dropped)
    · exact absent
  rw [replayAccept, absent]
  dsimp only
  rw [List.find?_append, rest, List.find?_singleton, if_pos (by simp [ReplayKey.isFor])]
  rfl

/-- The entry of a message's key after it was VERIFIED is the one the table had, having accepted the counter (R304). -/
theorem replayAccept_known (present : l.find? (fun k => k.isFor h) = some k) :
    (replayAccept l h).find? (fun k => k.isFor h) = some (k.accept (hCounter h)) := by
  have own : k.isFor h = true := List.find?_some (p := fun x : ReplayKey => x.isFor h) present
  simp only [replayAccept, present]
  split
  · have rest : (l.filter (fun x => !x.isFor h)).find? (fun k => k.isFor h) = none := by simp
    rw [List.find?_append, rest, List.find?_singleton, ReplayKey.accept_isFor, own]
    rfl
  · have kept : ((fun k : ReplayKey => k.isFor h) ∘ fun x : ReplayKey => if x.isFor h then x.accept (hCounter h) else x) = fun k => k.isFor h := by
      funext x
      dsimp only [Function.comp]
      split
      · exact ReplayKey.accept_isFor ..
      · rfl
    rw [List.find?_map, kept, present, Option.map_some, if_pos own]

end

/-- Settles O49: the entry that the message's key has afterwards (`replayAccept_new`, `replayAccept_known`) marks its counter in the window,
and accepting raises the highest counter or keeps it. -/
theorem replayProtection : Obligations.ReplayProtection := by
  intro l h verified
  cases present : l.find? (fun k => k.isFor h) with
  | none =>
    refine ⟨_, replayAccept_new present, replayStatus_marked le_rfl ?_, le_rfl, nofun⟩
    simp
  | some o =>
    rw [present] at verified
    have highest := o.accept_highest (hCounter h)
    have reached : hCounter h ≤ (o.accept (hCounter h)).highest := highest ▸ le_max_right ..
    refine ⟨_, replayAccept_known present, replayStatus_marked reached (ReplayKey.accept_marks (replayStatus_verified verified)), reached, ?_⟩
    rintro _ ⟨⟩
    exact highest ▸ le_max_left ..

/-! ### Changes of one context's EAB state -/

section
variable {s : State} {c : Fin 256}

theorem State.modEab_same (s : State) (c : Fin 256) (f : Eab → Eab) :
    (s.modEab c f).ctxs[c] = { s.ctxs[c] with eab := f s.ctxs[c].eab } :=
  State.modCtx_same ..

theorem State.hearSymbols_same (s : State) (c : Fin 256) (l : List EabSym) :
    (s.hearSymbols c l).ctxs[c] = { s.ctxs[c] with eab := { s.ctxs[c].eab with rx := s.ctxs[c].heard l } } :=
  State.modCtx_same ..

theorem State.modEab_congr {f g : Eab → Eab} (same : f s.ctxs[c].eab = g s.ctxs[c].eab) : s.modEab c f = s.modEab c g :=
  State.modCtx_congr (congrArg (fun y => ({ s.ctxs[c] with eab := y } : Ctx)) same)

theorem State.hearSymbols_active (s : State) (c : Fin 256) (l : List EabSym) : (s.hearSymbols c l).ctxs[c].active = s.ctxs[c].active := by
  rw [State.hearSymbols_same]

theorem State.hearSymbols_st (s : State) (c : Fin 256) (l : List EabSym) : (s.hearSymbols c l).ctxs[c].eab.st = s.ctxs[c].eab.st := by
  rw [State.hearSymbols_same]

theorem State.hearSymbols_shadow (s : State) (c : Fin 256) (l : List EabSym) : (s.hearSymbols c l).ctxs[c].eab.shadow = s.ctxs[c].eab.shadow := by
  rw [State.hearSymbols_same]

/-- L_ref is the level of the detection, whatever symbols come after it (R312). -/
theorem State.hearSymbols_level (s : State) (c : Fin 256) (l : List EabSym) :
    (s.hearSymbols c l).ctxs[c].eab.rx.level = s.ctxs[c].eab.rx.level := by
  rw [State.hearSymbols_same]
  rfl

theorem State.eabServes_of (serves : s.engineServes c 4 = true) : s.eabServes c = true := serves

/-- A change that keeps the EAB lock keeps what the context's lock is. -/
theorem State.modEab_locked {f : Eab → Eab} (keeps : (f s.ctxs[c].eab).lock = s.ctxs[c].eab.lock) :
    (s.modEab c f).ctxs[c].locked = s.ctxs[c].locked := by
  rw [State.modEab_same, Ctx.locked, keeps, Ctx.locked]

/-- A change that keeps the lock, and a change of the lock, are judged together against the lock before them. -/
theorem State.eabStep_modEab {f : Eab → Eab} (keeps : (f s.ctxs[c].eab).lock = s.ctxs[c].eab.lock) (lock : Bool) :
    (s.modEab c f).eabStep c lock = ((s.modEab c f).modEab c (fun e => { e with lock := lock })).judgeLock c s.ctxs[c].locked := by
  rw [State.eabStep, State.modEab_locked keeps]

/-! ### Lock (R310) -/

theorem Ctx.eabGains_of {x : Ctx} {samples marked : Nat} (long : lockSamples x.active.eabChannel ≤ samples)
    (clean : x.eab.lockLost = false ∨ 2 * marked ≤ samples) : x.eabGains samples marked = true := by
  simpa [Ctx.eabGains, long] using clean

end

section
variable {s : State} {dt : Nat} {c : Fin 256}

section
variable (serves : (s.advance dt).engineServes c 4 = true)
include serves

theorem execEabLock_of {samples : Nat} {span : EabSpan} (unlocked : (s.advance dt).ctxs[c].eab.lock = false)
    (gains : (s.advance dt).ctxs[c].eabGains samples span.marked = true) :
    exec (.eabLock dt c samples span) s = .next (((s.advance dt).modEab c (fun e => { e with noise := span.power })).eabStep c true) := by
  change execEabLock dt c samples span s = _
  exact State.occurs_of _ _ _ _ (by rw [State.eabServes_of serves, unlocked, gains]; rfl)

theorem execEabLockLost_of {samples marked : Nat} (locked : (s.advance dt).ctxs[c].eab.lock = true)
    (loses : (s.advance dt).ctxs[c].eabLoses samples marked = true) :
    exec (.eabLockLost dt c samples marked) s = .next (((s.advance dt).modEab c (fun e => { e with lockLost := true })).eabStep c false) := by
  change execEabLockLost dt c samples marked s = _
  exact State.occurs_of _ _ _ _ (by rw [State.eabServes_of serves, locked, loses]; rfl)

end

/-! ### Preamble and sync word (R311 to R314) -/

section
variable {syms : List EabSym} {level foffset : Int} {snr stamp : Nat}

/-- What a detection reports is the AGC's level and the ratio over its symbols (R312). -/
theorem Ctx.detects_reported {x : Ctx} (detects : x.detects syms level snr = true) :
    level = x.agcLevel ∧ snr = snrOver (x.kept syms) x.eab.noise := by
  simp only [Ctx.detects, Bool.and_eq_true, beq_iff_eq] at detects
  obtain ⟨⟨-, reported⟩, ratio⟩ := detects
  exact ⟨reported, ratio⟩

theorem Ctx.detects_below {x : Ctx} (below : snr < x.active.detSnr) : x.detects syms level snr = false := by
  rw [Ctx.detects, decide_eq_false (Nat.not_le.2 below), Bool.and_false, Bool.false_and, Bool.false_and]

theorem execEabPreambleDetect_below (below : snr < (s.advance dt).ctxs[c].active.detSnr) :
    exec (.eabPreambleDetect dt c syms level snr foffset stamp) s = .next (s.advance dt) := by
  change execEabPreambleDetect dt c syms level snr foffset stamp s = _
  exact State.occurs_not _ _ _ _ (by rw [Ctx.detects_below below, Bool.and_false])

section
variable (serves : (s.advance dt).engineServes c 4 = true)
include serves

theorem execEabPreambleDetect_of (armed : (s.advance dt).ctxs[c].eab.st = .armed)
    (detects : (s.advance dt).ctxs[c].detects syms level snr = true) :
    exec (.eabPreambleDetect dt c syms level snr foffset stamp) s = .next
      (((s.advance dt).calSettle (s.advance dt).ctxs[c].reachOf).modEab c (fun e =>
        e.detect (s.advance dt).ctxs[c].spateLevel (s.advance dt).clock
          (({ level := level, foffset := foffset, detectStamp := stamp, noise := e.noise } : Reception).take (s.advance dt).ctxs[c] syms))) := by
  change execEabPreambleDetect dt c syms level snr foffset stamp s = _
  exact State.occurs_of _ _ _ _ (by rw [State.eabServes_of serves, armed, detects]; rfl)

theorem execEabPreambleEnd_of (preamble : (s.advance dt).ctxs[c].eab.st = .preamble)
    (ends : endsPreamble ((s.advance dt).ctxs[c].heard syms).syms = true) :
    exec (.eabPreambleEnd dt c syms foffset) s = .next (((s.advance dt).hearSymbols c syms).modEab c (fun e =>
      { e with st := .syncWait, afcFrozen := true, rx := { e.rx with foffset := afcEstimate foffset } })) := by
  change execEabPreambleEnd dt c syms foffset s = _
  exact State.occurs_of _ _ _ _ (by rw [State.eabServes_of serves, preamble, ends]; rfl)

theorem execEabFalsePreamble_of (preamble : (s.advance dt).ctxs[c].eab.st = .preamble)
    (endless : falsePreamble ((s.advance dt).ctxs[c].heard syms).syms = true) :
    exec (.eabFalsePreamble dt c syms) s = .next ((s.advance dt).eabFail c 1 syms) := by
  change execEabFalsePreamble dt c syms s = _
  exact State.occurs_of _ _ _ _ (by rw [State.eabServes_of serves, preamble, endless]; rfl)

theorem execEabSyncFound_of (waits : (s.advance dt).ctxs[c].eab.st = .syncWait)
    (finds : ((s.advance dt).ctxs[c].heard syms).finds (s.advance dt).ctxs[c].active.eabChannel stamp = true) :
    exec (.eabSyncFound dt c syms stamp) s = .next (((s.advance dt).hearSymbols c syms).modEab c (fun e =>
      { e with st := .header, rx := { e.rx with syncErr := syncErrors e.rx.syms ((syncStart e.rx.syms).getD 0), syncStamp := some stamp } })) := by
  change execEabSyncFound dt c syms stamp s = _
  exact State.occurs_of _ _ _ _ (by rw [State.eabServes_of serves, waits, finds]; rfl)

theorem execEabNoSync_of (waits : (s.advance dt).ctxs[c].eab.st = .syncWait)
    (misses : missesSync ((s.advance dt).ctxs[c].heard syms).syms = true) :
    exec (.eabNoSync dt c syms) s = .next ((s.advance dt).eabFail c 2 syms) := by
  change execEabNoSync dt c syms s = _
  exact State.occurs_of _ _ _ _ (by rw [State.eabServes_of serves, waits, misses]; rfl)

end
end

/-! ### The end of a reception (R311, R319) -/

/-- The receiver that goes on keeps what waits for its records. -/
theorem Eab.next_ended (e : Eab) (channel : Bool) (spate : Int) : (e.next channel spate).ended = e.ended := by
  unfold Eab.next
  split <;> rfl

/-- The reception that ended last has the STATUS it ended with. -/
theorem State.eabAbandon_status (s : State) (c : Fin 256) (status symbols : Nat) (other : Option Int) :
    (s.eabAbandon c status symbols other).ctxs[c].eab.ended.getLast?.map (fun q => q.status) = some status := by
  rw [State.eabAbandon, State.eabFinish, State.modCtx_same]
  dsimp only
  rw [if_pos rfl, Eab.next_ended, List.getLast?_concat]
  rfl

/-! ### The header (R290, R292, R300, R307) -/

section
variable {s : State} {c : Fin 256} {d : List Bool} {h : BitVec 128} {iter : Nat} (word : BitVec.ofNat 128 (natOfBits (d.take 128)) = h)
include word

theorem State.headerDecoded_failed (fails : headerChecks d = false ∨ hCrcOk h = false) :
    (s.headerDecoded c d iter).ctxs[c].eab.ended.getLast?.map (fun q => q.status) = some 3 := by
  have refused : (!headerChecks d || !hCrcOk h) = true := by simpa using fails
  rw [State.headerDecoded]
  dsimp only
  rw [word, if_pos refused, State.eabAbandon_status]

section
variable (checks : headerChecks d = true) (crc : hCrcOk h = true)
include checks crc

theorem State.headerDecoded_badFormat (bad : hBadFormat s.ctxs[c].active h = true) :
    (s.headerDecoded c d iter).ctxs[c].eab.ended.getLast?.map (fun q => q.status) = some 4 := by
  rw [State.headerDecoded]
  dsimp only
  rw [word, checks, crc, if_neg (by decide), if_pos bad, State.eabAbandon_status]

/-- A header of another TX_ID than SERVICE_ID is received without output (R307). -/
theorem State.headerDecoded_good (good : hBadFormat s.ctxs[c].active h = false) :
    (s.headerDecoded c d iter).ctxs[c].eab.rx.header = some h ∧
      (s.headerDecoded c d iter).ctxs[c].eab.st =
        if s.ctxs[c].active.service % 4096 ≠ 0 ∧ s.ctxs[c].active.service % 4096 ≠ hTxId h then .filtered else .payload := by
  rw [State.headerDecoded]
  dsimp only
  rw [word, checks, crc, if_neg (by decide), good, if_neg (by decide)]
  split
  case isTrue other =>
    rw [Bool.and_eq_true, decide_eq_true_iff, decide_eq_true_iff] at other
    rw [State.modEab_same, State.modEab_same, if_pos other]
    exact ⟨rfl, rfl⟩
  case isFalse own =>
    rw [Bool.and_eq_true, decide_eq_true_iff, decide_eq_true_iff] at own
    rw [State.modEab_same, State.modEab_same, if_neg own]
    exact ⟨rfl, rfl⟩

end
end

section
variable {syms : List EabSym} {d : List Bool} {iter snr : Nat} (serves : (s.advance dt).engineServes c 4 = true)
  (header : (s.advance dt).ctxs[c].eab.st = .header) (arrived : ((s.advance dt).ctxs[c].heard syms).arrived (24 + 128) syms = true)
include serves header arrived

/-- The member of a matched pair that does not decode hears its symbols and no more (R355). -/
theorem execEabHeaderDecoded_echo (echoes : (s.advance dt).echoes c = true) :
    exec (.eabHeaderDecoded dt c syms d iter snr) s = .next ((s.advance dt).hearSymbols c syms) := by
  change execEabHeaderDecoded dt c syms d iter snr s = _
  exact State.occurs_at rfl (by rw [State.eabServes_of serves, header, arrived, echoes]; rfl) (if_pos echoes)

theorem execEabHeaderDecoded_own (own : (s.advance dt).echoes c = false) (free : (s.advance dt).mayDecode c (24 + 128) = true)
    (returned : ((s.advance dt).hearSymbols c syms).headerReturns c d iter = true) :
    exec (.eabHeaderDecoded dt c syms d iter (((s.advance dt).hearSymbols c syms).decodingSnr c (24 + 128))) s =
      .next ((((s.advance dt).hearSymbols c syms).headerDecoded c d iter).combineDone c) := by
  change execEabHeaderDecoded dt c syms d iter _ s = _
  exact State.occurs_at rfl (by rw [State.eabServes_of serves, header, BEq.rfl, arrived, own, free, returned, BEq.rfl]; rfl)
    (if_neg (Bool.eq_false_iff.1 own))

end

/-! ### Payload codewords (R298, R300) -/

/-- A decoding changes what the report says of it alone (Table 8.18). -/
theorem Reception.decoded_frame (r : Reception) (iter : Nat) (q : Option Reception) :
    r.decoded iter q = { r with iter := max r.iter iter, combined := r.combined || q.isSome, pairSnr := (r.decoded iter q).pairSnr
                                pairBest := (r.decoded iter q).pairBest } := by
  cases q <;> simp [Reception.decoded]

theorem State.codewordDecoded_rx (s : State) (c : Fin 256) (h : BitVec 128) (d : List Bool) (iter : Nat) :
    (s.codewordDecoded c h d iter).ctxs[c].eab.rx =
      (s.ctxs[c].eab.rx.decoded iter (s.addend c (s.ctxs[c].eab.rx.nextEnd h))).codeword d :=
  congrArg (fun x : Ctx => x.eab.rx) (State.modEab_same ..)

theorem execEabCodewordDecoded_of {syms : List EabSym} {d : List Bool} {iter : Nat} {h : BitVec 128}
    (serves : (s.advance dt).engineServes c 4 = true) (payload : (s.advance dt).ctxs[c].eab.st = .payload)
    (own : (s.advance dt).echoes c = false) (heard : (s.advance dt).heardHeader c = some h)
    (more : (s.advance dt).ctxs[c].eab.rx.cwDone < hCw h)
    (arrived : ((s.advance dt).ctxs[c].heard syms).arrived ((s.advance dt).ctxs[c].eab.rx.nextEnd h) syms = true)
    (free : (s.advance dt).mayDecode c ((s.advance dt).ctxs[c].eab.rx.nextEnd h) = true)
    (returned : ((s.advance dt).hearSymbols c syms).codewordReturns c h d iter = true) :
    exec (.eabCodewordDecoded dt c syms d iter
        (((s.advance dt).hearSymbols c syms).decodingSnr c ((s.advance dt).ctxs[c].eab.rx.nextEnd h))) s =
      .next ((((s.advance dt).hearSymbols c syms).codewordDecoded c h d iter).combineDone c) := by
  change execEabCodewordDecoded dt c syms d iter _ s = _
  refine State.occurs_at rfl ?_ ?_
  · rw [State.eabServes_of serves, heard]
    dsimp only
    rw [decide_eq_true more, arrived, own, payload, BEq.rfl, free, returned, BEq.rfl]
    rfl
  · exact (State.withSome_of heard).trans (if_neg (Bool.eq_false_iff.1 own))

/-! ### The end of a burst (R288, R311, R358) -/

section
variable {syms : List EabSym} {h : BitVec 128}

theorem execEabBurstEnd_of (serves : (s.advance dt).engineServes c 4 = true) (heard : (s.advance dt).heardHeader c = some h)
    (ends : (s.advance dt).burstEnds c syms = true) :
    exec (.eabBurstEnd dt c syms) s = .next (((s.advance dt).hearSymbols c syms).burstEnd c h) := by
  change execEabBurstEnd dt c syms s = _
  exact State.occurs_at rfl (by rw [State.eabServes_of serves, ends]; rfl) (State.withSome_of heard)

section
variable {stamp : Nat} (stamped : s.ctxs[c].eab.rx.endNs s.ctxs[c].active.eabChannel h = stamp)
include stamped

theorem State.burstEnd_echo (echoes : s.echoes c = true) :
    s.burstEnd c h = s.eabFinish c 0 4 0 s.ctxs[c].eab.rx.count none stamp true false true :=
  stamped ▸ if_pos echoes

theorem State.burstEnd_filtered (own : s.echoes c = false) (filtered : s.ctxs[c].eab.st = .filtered) :
    s.burstEnd c h = s.eabFinish c 8 4 0 s.ctxs[c].eab.rx.count none stamp false false true := by
  rw [State.burstEnd, own, filtered, stamped]
  rfl

theorem State.burstEnd_payload (own : s.echoes c = false) (taken : s.ctxs[c].eab.st ≠ .filtered) :
    s.burstEnd c h = s.payloadEnd c h s.ctxs[c].eab.rx.count stamp := by
  rw [State.burstEnd, own, beq_false_of_ne taken, stamped]
  rfl

end
end

/-! ### Records (R321) -/

theorem execEabRecordHandover_of {q : Ended} (up : (s.advance dt).reachUp (s.advance dt).ctxs[c].reachOf = true)
    (placed : (s.advance dt).ctxs[c].st ≠ .migrating) (waits : (s.advance dt).ctxs[c].eab.toHandOver = some q) :
    exec (.eabRecordHandover dt c) s = .next
      (((s.advance dt).modEab c (fun e => { e with ended := markHanded (s.advance dt).clock e.ended })).eabRecords c q) := by
  change execEabRecordHandover dt c s = _
  refine State.occurs_at rfl ?_ (State.withSome_of waits)
  have serving : (s.advance dt).serving = true := (Bool.and_eq_true _ _ ▸ up).1
  rw [serving, up, bne_iff_ne.2 placed]
  rfl

theorem execEabRecordHandover_none (settled : (s.advance dt).ctxs[c].eab.toHandOver = none) :
    exec (.eabRecordHandover dt c) s = .next (s.advance dt) := by
  change execEabRecordHandover dt c s = _
  exact State.occurs_idle (by rw [settled]; rfl)

end

/-- Settles O47: each event's condition is met by what its clause names; the header goes by its checks (`State.headerDecoded_failed`,
`State.headerDecoded_badFormat`, `State.headerDecoded_good`), and the end of a burst by whether the partner decodes the pair's sum. -/
theorem eabReceptionStates : Obligations.EabReceptionStates := by
  intro s dt c level foffset snr stamp iter samples marked span syms d g u x e on hearing rx ended h serves
  refine ⟨fun unlocked long clean => ?_, fun locked loses => ?_, execEabPreambleDetect_of serves, execEabPreambleDetect_below,
    Ctx.detects_reported, fun preamble => ⟨execEabPreambleEnd_of serves preamble, execEabFalsePreamble_of serves preamble⟩,
    fun waits => ⟨execEabSyncFound_of serves waits, execEabNoSync_of serves waits⟩,
    fun header arrived => ⟨execEabHeaderDecoded_own serves header arrived, execEabHeaderDecoded_echo serves header arrived⟩,
    fun t => ⟨State.headerDecoded_failed rfl, fun checks crc =>
      ⟨State.headerDecoded_badFormat rfl checks crc, State.headerDecoded_good rfl checks crc⟩⟩,
    fun payload own heard more arrived free returned => execEabCodewordDecoded_of serves payload own heard more arrived free returned,
    fun t => ?_, fun heard ends => ?_, fun up placed => ⟨fun q => execEabRecordHandover_of up placed, execEabRecordHandover_none⟩⟩
  · exact (execEabLock_of serves unlocked (Ctx.eabGains_of long clean)).trans (congrArg Host.Outcome.next (State.eabStep_modEab rfl true))
  · exact execEabLockLost_of serves locked loses
  · rw [State.codewordDecoded_rx, Reception.decoded_frame]
    exact ⟨rfl, rfl, rfl, rfl, rfl⟩
  · intro t stamp
    have taken := execEabBurstEnd_of serves heard ends
    have stamped : t.rx.endNs hearing.ctxs[c].active.eabChannel g = stamp :=
      congrArg (fun y : Entry => t.rx.endNs y.eabChannel g) (State.hearSymbols_active u c syms)
    have st : t.st = e.st := State.hearSymbols_st u c syms
    exact ⟨fun echoes => taken.trans (congrArg Host.Outcome.next (State.burstEnd_echo stamped echoes)),
      fun own filtered => taken.trans (congrArg Host.Outcome.next (State.burstEnd_filtered stamped own (st.trans filtered))),
      fun own payload => taken.trans (congrArg Host.Outcome.next (State.burstEnd_payload stamped own (st ▸ payload)))⟩

/-! ### The shadow detector (R315 to R317) -/

/-- The candidate of a detection is held, and a preamble that is new is counted (R316, Table 8.21). -/
def Eab.hold (e : Eab) (k : Candidate) : Eab :=
  { e with shadow := some (shadowAfter e.shadow k), bursts := if shadowIsNew e.shadow k then e.bursts + 1 else e.bursts }

section
variable {s : State} {c : Fin 256} {k : Candidate} {now : Nat}

theorem State.shadowDetect_below (below : (shadowAfter s.ctxs[c].eab.shadow k).level < s.ctxs[c].eab.rx.level + 60) :
    s.shadowDetect c k now = s.modEab c (fun e => e.hold k) :=
  if_neg (Int.not_le.2 below)

/-- A candidate at least 6 dB above the reception captures: the reception ends with STATUS 6 (R317). -/
theorem State.shadowDetect_captures (above : s.ctxs[c].eab.rx.level + 60 ≤ (shadowAfter s.ctxs[c].eab.shadow k).level) :
    s.shadowDetect c k now = (s.modEab c (fun e => e.hold k)).eabAbandon c 6 ((s.modEab c (fun e => e.hold k)).symbolsTo c now)
      (some (shadowAfter s.ctxs[c].eab.shadow k).level) :=
  if_pos above

theorem Ctx.shadowFinds_below {x : Ctx} (below : x.candidateSnr k < x.active.detSnr) : x.shadowFinds k = false := by
  simp [Ctx.shadowFinds, below]

end

section
variable {s : State} {dt : Nat} {c : Fin 256} {syms main : List EabSym} {foffset : Int} {stamp now : Nat}

theorem execEabShadowDetect_unfound {snr : Nat}
    (passed : (s.advance dt).ctxs[c].shadowGoesOn ((s.advance dt).ctxs[c].candidate syms foffset stamp) = false)
    (unfound : (s.advance dt).ctxs[c].shadowFinds ((s.advance dt).ctxs[c].candidate syms foffset stamp) = false) :
    exec (.eabShadowDetect dt c syms main snr foffset stamp now) s = .next (s.advance dt) := by
  change execEabShadowDetect dt c syms main snr foffset stamp now s = _
  exact State.occurs_not _ _ _ _ (by dsimp only; rw [passed, unfound, Bool.or_self, Bool.and_false])

section
variable (serves : (s.advance dt).engineServes c 4 = true)
include serves

section
variable (receiving : (s.advance dt).ctxs[c].eab.receiving = true)
include receiving

theorem execEabShadowDetect_of {k : Candidate} (candidate : (s.advance dt).ctxs[c].candidate syms foffset stamp = k)
    (found : (s.advance dt).ctxs[c].shadowGoesOn k = true ∨ (s.advance dt).ctxs[c].shadowFinds k = true) :
    exec (.eabShadowDetect dt c syms main ((s.advance dt).ctxs[c].candidateSnr k) foffset stamp now) s =
      .next (((s.advance dt).hearSymbols c main).shadowDetect c k now) := by
  subst candidate
  change execEabShadowDetect dt c syms main _ foffset stamp now s = _
  rw [← Bool.or_eq_true] at found
  exact State.occurs_of _ _ _ _ (by dsimp only; rw [State.eabServes_of serves, receiving, BEq.rfl, found]; rfl)

theorem execEabShadowDrop_of {snrs : List Nat} (drops : (s.advance dt).ctxs[c].shadowDrops syms snrs = true) :
    exec (.eabShadowDrop dt c syms snrs) s = .next ((s.advance dt).modEab c (fun e => { e with shadow := none })) := by
  change execEabShadowDrop dt c syms snrs s = _
  exact State.occurs_of _ _ _ _ (by rw [State.eabServes_of serves, receiving, drops]; rfl)

end

/-! ### Level rises (R318) -/

theorem execEabLevelRise_of (rises : (s.advance dt).ctxs[c].eab.st.rises = true)
    (rose : ((s.advance dt).ctxs[c].heard syms).levelRose = true) :
    exec (.eabLevelRise dt c syms stamp) s = .next (((s.advance dt).hearSymbols c syms).eabAbandon c 7 ((s.advance dt).symbolsTo c stamp)
      ((s.advance dt).ctxs[c].heard syms).riseLevel) := by
  change execEabLevelRise dt c syms stamp s = _
  exact State.occurs_of _ _ _ _ (by rw [State.eabServes_of serves, rises, rose]; rfl)

end

theorem RxSt.rises_of {st : RxSt} (past : st = .header ∨ st = .payload ∨ st = .filtered) : st.rises = true := by
  obtain rfl | rfl | rfl := past <;> rfl

/-- A rise lasts 32 symbols. -/
theorem Ctx.levelRose_short {x : Ctx} (short : x.eab.rx.raw.length + syms.length < 32) : (x.heard syms).levelRose = false := by
  have length : (x.heard syms).raw.length = x.eab.rx.raw.length + syms.length := by simp [Ctx.heard, Reception.take, Ctx.kept]
  have few : (x.heard syms).rise.length ≠ 32 := by
    rw [Reception.rise, List.length_drop]
    omega
  rw [Reception.levelRose, beq_false_of_ne few]
  rfl

theorem execEabLevelRise_short (short : (s.advance dt).ctxs[c].eab.rx.raw.length + syms.length < 32) :
    exec (.eabLevelRise dt c syms stamp) s = .next (s.advance dt) := by
  change execEabLevelRise dt c syms stamp s = _
  exact State.occurs_not _ _ _ _ (by rw [Ctx.levelRose_short short, Bool.and_false])

end

/-! ### Times since an instant -/

theorem secPs_eq : secPs = 10 ^ 12 := by norm_num [secPs]

theorem State.since_of {s : State} {o : Option Nat} {n : Nat} (passed : ∀ p, o = some p → p + n ≤ s.clock) : s.since o n = true := by
  cases o with
  | none => rfl
  | some p => exact decide_eq_true (passed p rfl)

theorem State.since_not {s : State} {p n : Nat} (early : s.clock < p + n) : s.since (some p) n = false :=
  decide_eq_false (Nat.not_le.2 early)

/-! ### The noise floor (R322, R323) -/

section
variable {s : State} {c : Fin 256}

theorem State.nfQualifies_quiet (idle : s.ctxs[c].eab.receiving = false) (unheld : s.ctxs[c].eab.shadow = none)
    (low : s.ctxs[c].spateFlag = false) (ended : ∀ p, s.ctxs[c].eab.endPs = some p → p + 10 ^ 10 ≤ s.clock)
    (cleared : ∀ p, s.ctxs[c].eab.spatePs = some p → p + 10 ^ 10 ≤ s.clock) : s.nfQualifies c false {} = true := by
  have block : 10 * msPs = 10 ^ 10 := by norm_num [msPs]
  rw [State.nfQualifies]
  dsimp only
  rw [idle, unheld, low, block, State.since_of ended, State.since_of cleared]
  rfl

theorem State.nfQualifies_disturbed {invalid : Bool} {m : Marks}
    (disturbed : invalid = true ∨ m.overrange = true ∨ s.ctxs[c].eab.receiving = true ∨ s.ctxs[c].spateFlag = true) :
    s.nfQualifies c invalid m = false := by
  rw [State.nfQualifies]
  obtain bad | bad | bad | bad := disturbed <;> rw [bad] <;> simp

section
variable {last : Nat} (ends : s.ctxs[c].nfEnd = last)
include ends

theorem State.nfReport_off (off : s.dataOn c = false) : s.nfReport c = s.modEab c (fun e => e.newPeriod last) := by
  rw [State.nfReport, ends, off]
  rfl

theorem State.nfReport_on (on : s.dataOn c = true) :
    s.nfReport c = (s.modEab c (fun e => e.newPeriod last)).deliver c s.ctxs[c].reachOf
      { typ := 0x60, stamp := s.sampleTime c last, spanEnd := s.sampleTime c last
        payload := nfPayload s.ctxs[c].eab.nfBlocks (1000 * s.ctxs[c].active.nfPeriod) s.ctxs[c].busyMs s.ctxs[c].eab.bursts } := by
  rw [State.nfReport, ends, on]
  rfl

end
end

section
variable {s : State} {dt power : Nat} {c : Fin 256} {invalid : Bool} {m : Marks}

theorem execEabNfBlock_not (fails : (s.advance dt).nfQualifies c invalid m = false) :
    exec (.eabNfBlock dt c power invalid m) s = .next (s.advance dt) := by
  change execEabNfBlock dt c power invalid m s = _
  exact State.occurs_not _ _ _ _ (by rw [fails, Bool.and_false])

section
variable (serves : (s.advance dt).engineServes c 4 = true)
include serves

theorem execEabNfBlock_of (qualifies : (s.advance dt).nfQualifies c invalid m = true) :
    exec (.eabNfBlock dt c power invalid m) s = .next ((s.advance dt).modEab c (fun e => { e with
      noise := power
      nfBlocks := e.nfBlocks ++ [(s.advance dt).densityAt (s.advance dt).ctxs[c].reachOf power (s.advance dt).ctxs[c].active.eabChannel
        (s.advance dt).ctxs[c].active.centre] })) := by
  change execEabNfBlock dt c power invalid m s = _
  exact State.occurs_of _ _ _ _ (by rw [State.eabServes_of serves, qualifies]; rfl)

theorem execEabNfReport_of (reports : (s.advance dt).ctxs[c].active.nfPeriod ≠ 0)
    (ended : (s.advance dt).ctxs[c].nfEnd ≤ (s.advance dt).clock) :
    exec (.eabNfReport dt c) s = .next ((s.advance dt).nfReport c) := by
  change execEabNfReport dt c s = _
  exact State.occurs_of _ _ _ _ (by rw [State.eabServes_of serves, bne_iff_ne.2 reports, decide_eq_true ended]; rfl)

end
end

/-! ### The replay journal (R306) -/

section
variable {s : State} {dt : Nat}

theorem State.replaySession_clean (clean : s.replay.all (fun k => !k.dirty) = true) : s.replaySession = s := by
  have none_dirty : s.replay.filter (fun k => k.dirty) = [] := by simpa [List.filter_eq_nil_iff] using clean
  rw [State.replaySession, none_dirty]
  rfl

/-- A session for the entries that changed, which is taken or queued, marks them as journalled. -/
theorem State.replaySession_of {l : List ReplayKey} {q : State × Nat} (changed : (s.replay.filter (fun k => k.dirty)).take 128 = l)
    (asked : s.journalRequest ⟨.append 4 3 0 (l.flatMap ReplayKey.bytes), false⟩ = q) (some_changed : l ≠ []) (taken : q.2 ≤ 1) :
    s.replaySession = { q.1 with
      replay := q.1.replay.map (fun k => if l.contains k then { k with dirty := false } else k), replayJournalPs := some s.clock } := by
  rw [State.replaySession, changed]
  dsimp only
  rw [asked, if_neg (by simpa using some_changed), if_neg (Nat.not_lt.2 taken)]

theorem execEabReplayJournal_of (serving : (s.advance dt).serving = true)
    (free : ∀ p, (s.advance dt).replayJournalPs = some p → p + 10 ^ 12 ≤ (s.advance dt).clock) :
    exec (.eabReplayJournal dt) s = .next (s.advance dt).replaySession := by
  change execEabReplayJournal dt s = _
  exact State.occurs_of _ _ _ _ (by rw [serving, secPs_eq, State.since_of free]; rfl)

theorem execEabReplayJournal_early {p : Nat} (journalled : (s.advance dt).replayJournalPs = some p)
    (early : (s.advance dt).clock < p + 10 ^ 12) : exec (.eabReplayJournal dt) s = .next (s.advance dt) := by
  change execEabReplayJournal dt s = _
  exact State.occurs_not _ _ _ _ (by rw [journalled, secPs_eq, State.since_not early, Bool.and_false])

end

/-- Settles O48: a detection holds a candidate (`Eab.hold`) and captures by its level (`State.shadowDetect_captures`), a block of the noise
floor goes by `State.nfQualifies`, and the journal by the second since its last session and by what changed. -/
theorem eabShadowAndNoise : Obligations.EabShadowAndNoise := by
  intro s dt c foffset power stamp now syms main snrs invalid m u x e k held seen ended
  refine ⟨fun serves => ⟨fun receiving => ⟨fun found => ?_,
        fun passed below => execEabShadowDetect_unfound passed (Ctx.shadowFinds_below below), execEabShadowDrop_of serves receiving⟩,
      fun past => ⟨execEabLevelRise_of serves (RxSt.rises_of past), execEabLevelRise_short⟩, ?_,
      fun disturbed => execEabNfBlock_not (State.nfQualifies_disturbed disturbed), ?_⟩,
    fun serving free => ⟨fun clean => ?_, ?_⟩,
    fun p journalled early => execEabReplayJournal_early journalled early⟩
  · have detected := execEabShadowDetect_of (main := main) (now := now) serves receiving rfl found
    have holds : shadowAfter (u.hearSymbols c main).ctxs[c].eab.shadow k = held :=
      congrArg (fun o => shadowAfter o k) (State.hearSymbols_shadow u c main)
    have level : (u.hearSymbols c main).ctxs[c].eab.rx.level = e.rx.level := State.hearSymbols_level u c main
    have same : (u.hearSymbols c main).modEab c (fun e => e.hold k) = seen := State.modEab_congr (by rw [Eab.hold, holds]; rfl)
    rw [← level, ← holds, detected]
    refine ⟨fun below => ?_, fun above => ?_⟩
    · rw [State.shadowDetect_below below, same]
    · rw [State.shadowDetect_captures above, same]
      rfl
  · rintro rfl rfl idle unheld low finished cleared
    exact execEabNfBlock_of serves (State.nfQualifies_quiet idle unheld low finished cleared)
  · intro last reports passed
    have ends : x.nfEnd = last := by rw [Ctx.nfEnd, secPs_eq]
    have reported := execEabNfReport_of serves reports (ends ▸ passed)
    exact ⟨fun off => reported.trans (congrArg Host.Outcome.next (State.nfReport_off ends off)),
      fun on => reported.trans (congrArg Host.Outcome.next (State.nfReport_on ends on))⟩
  · rw [execEabReplayJournal_of serving free, State.replaySession_clean clean]
  · intro l q changed taken
    rw [execEabReplayJournal_of serving free, State.replaySession_of rfl rfl changed taken]

end Sys2Proof.Machine

/-! ## The Outfall and the eddy relay: transmissions and the synthesiser, coexistence and the course on air, the relay's decisions -/

namespace Sys2Proof.Machine

/-! ### What the events of the Outfall share -/

theorem State.withSome_of_none {α : Type} {s : State} {o : Option α} {f : α → State → State} (absent : o = none) : s.withSome o f = s := by
  rw [absent]
  rfl

theorem State.when_of_not {s : State} {c : Bool} {f : State → State} (fails : c = false) : s.when c f = s := by
  rw [fails]
  rfl

section
variable {s u : State} {dt : Nat} {cond : State → Bool} {f : State → State} (at_u : s.advance dt = u)
include at_u

/-- An event that leaves the state `u` of its instant as it is, whatever its condition. -/
theorem State.occurs_idle_at (effect : f u = u) : s.occurs dt cond f = .next u := by
  subst at_u
  exact State.occurs_idle effect

/-- An event whose condition fails in the state `u` of its instant. -/
theorem State.occurs_not_at (fails : cond u = false) : s.occurs dt cond f = .next u := by
  subst at_u
  exact State.occurs_not _ _ _ _ fails

end

section
variable {u : State}

theorem State.outfallRuns_of (serving : u.serving = true) (full : u.mgmtOnly = false) (on : u.outfall.st ≠ .off) : u.outfallRuns = true := by
  rw [State.outfallRuns, serving, full, bne_iff_ne.2 on]
  rfl

theorem State.sends_of (runs : u.outfallRuns = true) (undozed : u.doze.requested = false) : u.sends = true := by
  rw [State.sends, runs, undozed]
  rfl

/-- No transmission starts while doze entry waits (Table 1.12). -/
theorem State.sends_requested (requested : u.doze.requested = true) : u.sends = false := by
  rw [State.sends, requested, Bool.not_true, Bool.and_false]

/-- LBT judges the entries that it holds, and no other. -/
theorem State.lbtSettle_unheld (unheld : u.outfall.lbtHeld = []) : u.lbtSettle = u := by
  simp [State.lbtSettle, State.forEach, unheld]

end

/-! ### The head of the queue (R382, R392) -/

section
variable {o : Outfall}

theorem Outfall.head_empty (empty : o.queue = []) : o.head = none := by
  rw [Outfall.head, empty, List.find?_nil]

section
variable {x : Tx} {l : List Tx} (queue : o.queue = x :: l)
include queue

theorem Outfall.head_unheld (unheld : o.lbtHeld = []) : o.head = some x := by
  simp [Outfall.head, queue, unheld]

/-- An entry that LBT holds lets the others pass (R382, R392). -/
theorem Outfall.head_held (held : o.lbtHeld.contains x.order = true) : o.head = l.find? (fun y => !o.lbtHeld.contains y.order) := by
  rw [Outfall.head, queue, List.find?_cons_of_neg (by rw [held]; decide)]

end

end

/-! ### TRANSMIT and the tone (R378, R380) -/

section
variable {u : State} {via : Via} {id : BitVec 32}

theorem State.toneRefusal_unready (unready : u.outfall.ready = false) : u.toneRefusal = txNotReady := by
  simp [State.toneRefusal, unready]

/-- Once the Outfall is ready, a tone is refused for its values or for want of room alone. -/
theorem State.toneRefusal_ready (ready : u.outfall.ready = true) : u.toneRefusal ≠ txNotReady := by
  rw [State.toneRefusal, ready, Bool.not_true, if_neg Bool.false_ne_true]
  split_ifs <;> decide

theorem State.startTone_taken (taken : u.toneRefusal = 0) : u.startTone via id = u.modOut (fun o => o.enqueue (u.toneTx via id)) :=
  if_pos taken

theorem State.startTone_unready (unready : u.outfall.ready = false) :
    u.startTone via id = (u.writeIgnored 0x1814).txReport (u.toneTx via id) 6 8 0 none none u.nowNs := by
  rw [State.startTone, State.toneRefusal_unready unready]
  rfl

theorem State.startTone_refused (ready : u.outfall.ready = true) (refused : u.toneRefusal ≠ 0) :
    u.startTone via id = u.txReport (u.toneTx via id) 6 u.toneRefusal 0 none none u.nowNs := by
  rw [State.startTone, if_neg refused, State.when_of_not (beq_false_of_ne (State.toneRefusal_ready ready))]

end

section
variable {s u : State} {dt : Nat} (at_u : s.advance dt = u)
include at_u

section
variable {src : Peer} {id : BitVec 32} {a : TxArgs} (up : u.hostUp = true) (own : u.fromCollector src = true)
  (enabled : u.host.cmdEn = true) (named : id ≠ 0) (fresh : u.host.cmds.find? (fun c => c.id == id) = none)
  (version : 1 ≤ u.sessionVersion) (room : u.host.open_.length < 32)
include up own enabled named fresh version room

theorem execTransmit_taken (taken : (u.heard.remember id 0x20).transmitRefusal a = 0) :
    exec (.transmit dt src id a) s = .next
      (((u.heard.remember id 0x20).modOut (fun o => o.enqueue ((u.heard.remember id 0x20).buildTx id a))).accept id 0x20 []) := by
  change execTransmit dt src id a s = _
  exact State.occurs_at at_u rfl
    ((u.command_admitted _ _ _ _ _ _ up own enabled named fresh version (.inr room)).trans (if_neg (not_not.2 taken)))

theorem execTransmit_refused (refused : (u.heard.remember id 0x20).transmitRefusal a ≠ 0) :
    exec (.transmit dt src id a) s = .next
      ((u.heard.remember id 0x20).refuse id 0x20 ((u.heard.remember id 0x20).transmitRefusal a)) := by
  change execTransmit dt src id a s = _
  exact State.occurs_at at_u rfl
    ((u.command_admitted _ _ _ _ _ _ up own enabled named fresh version (.inr room)).trans (if_pos refused))

end

section
variable (awake : u.awake = true)
include awake

theorem execOutfallToneStart_of {via : Via} {id : BitVec 32} : exec (.outfallToneStart dt via id) s = .next (u.startTone via id) := by
  change execOutfallToneStart dt via id s = _
  exact State.occurs_at at_u awake rfl

theorem execOutfallAbort_ready (ready : u.outfall.ready = true) :
    exec (.outfallAbort dt) s = .next (u.abortTx (fun _ => true) txAborted) := by
  change execOutfallAbort dt s = _
  exact State.occurs_at at_u awake (if_pos ready)

theorem execOutfallAbort_unready (unready : u.outfall.ready = false) : exec (.outfallAbort dt) s = .next (u.writeIgnored 0x1814) := by
  change execOutfallAbort dt s = _
  exact State.occurs_at at_u awake (if_neg (Bool.eq_false_iff.1 unready))

end

/-! ### The synthesiser (R369, R370, R383, R384) -/

theorem execOutfallRetuneStart_empty (empty : u.outfall.queue = []) : exec (.outfallRetuneStart dt) s = .next u := by
  change execOutfallRetuneStart dt s = _
  exact State.occurs_idle_at at_u (State.withSome_of_none (Outfall.head_empty empty))

/-- The synthesiser that stands on the carrier of the head has nothing to retune to. -/
theorem execOutfallRetuneStart_there {x : Tx} (head : u.outfall.head = some x) (there : x.carrier = u.outfall.carrier)
    (locked : u.outfall.st = .locked) : exec (.outfallRetuneStart dt) s = .next u := by
  change execOutfallRetuneStart dt s = _
  exact State.occurs_idle_at at_u ((State.withSome_of head).trans (if_pos (by rw [there, locked]; simp)))

theorem execOutfallLockTimeout_early (early : u.clock < u.outfall.retunePs + u.outfall.lockTimeoutPs) :
    exec (.outfallLockTimeout dt) s = .next u := by
  change execOutfallLockTimeout dt s = _
  exact State.occurs_not_at at_u (by rw [decide_eq_false (Nat.not_le.2 early), Bool.and_false])

section
variable {f : Nat} (retunes : u.outfall.retuneTo = some f)
include retunes

/-- A retune on which no transmission waits runs to its end (R370). -/
theorem execOutfallLockTimeout_unwaited (unwaited : u.outfall.queue.any (fun x => x.carrier == f) = false) :
    exec (.outfallLockTimeout dt) s = .next u := by
  change execOutfallLockTimeout dt s = _
  exact State.occurs_idle_at at_u ((State.withSome_of retunes).trans (State.when_of_not unwaited))

end

section
variable (runs : u.outfallRuns = true)
include runs

theorem execOutfallRetuneStart_retunes {x : Tx} (idle : u.outfall.idle = true) (head : u.outfall.head = some x)
    (elsewhere : x.carrier ≠ u.outfall.carrier ∨ u.outfall.st ≠ .locked) :
    exec (.outfallRetuneStart dt) s = .next (u.retune x.carrier) := by
  change execOutfallRetuneStart dt s = _
  refine State.occurs_at at_u (by rw [runs, idle]; rfl) ((State.withSome_of head).trans (if_neg ?_))
  rcases elsewhere with carrier | unlocked
  · simp [carrier]
  · simp [unlocked]

section
variable {f : Nat} (retunes : u.outfall.retuneTo = some f)
include retunes

theorem execOutfallRetuneLocked_of : exec (.outfallRetuneLocked dt) s = .next (u.retuneLocked f) := by
  change execOutfallRetuneLocked dt s = _
  exact State.occurs_at at_u runs (State.withSome_of retunes)

theorem execOutfallLockTimeout_waited (timeout : u.outfall.retunePs + u.outfall.lockTimeoutPs ≤ u.clock)
    (waited : u.outfall.queue.any (fun x => x.carrier == f) = true) : exec (.outfallLockTimeout dt) s = .next (u.lockFailed f) := by
  change execOutfallLockTimeout dt s = _
  exact State.occurs_at at_u (by rw [runs, decide_eq_true timeout]; rfl) ((State.withSome_of retunes).trans (State.when_of waited))

end
end
end

section
variable {u : State} {f : Nat}

/-- A retune without a VCO calibration leaves what the last one found. -/
theorem State.retuneLocked_settling (settling : u.outfall.st = .settling) :
    u.retuneLocked f = { u with outfall := { u.outfall with
      st := .locked, carrier := f, retuneTo := none, ready := true, lockPs := u.clock } } := by
  simp [State.retuneLocked, State.modOut, settling]

/-- A calibration holds for its carrier and for the temperature of reach A (R369). -/
theorem State.retuneLocked_calibrating (calibrating : u.outfall.st = .calibrating) :
    u.retuneLocked f = { u with outfall := { u.outfall with
      st := .locked, carrier := f, retuneTo := none, ready := true, lockPs := u.clock
      calCarrier := f, calTemp := u.upkeep[(0 : Fin 4)].temp, forceCal := false } } := by
  simp [State.retuneLocked, State.modOut, calibrating]

end

/-- Settles O51: an admitted TRANSMIT and a tone go by their refusals (`State.toneRefusal`), ABORT by whether the Outfall is ready, and the
synthesiser's events by the head, by the carrier that the retune is for and by what waits on it. -/
theorem transmitAndTone : Obligations.TransmitAndTone := by
  constructor
  · intro s dt src id a via u w x ignored
    refine ⟨fun up own enabled named fresh version room =>
        ⟨execTransmit_taken rfl up own enabled named fresh version room, execTransmit_refused rfl up own enabled named fresh version room⟩,
      fun awake => ?_⟩
    rw [execOutfallToneStart_of rfl awake]
    exact ⟨fun taken => congrArg Host.Outcome.next (State.startTone_taken taken),
      fun unready => congrArg Host.Outcome.next (State.startTone_unready unready),
      fun ready refused => congrArg Host.Outcome.next (State.startTone_refused ready refused),
      execOutfallAbort_ready rfl awake, execOutfallAbort_unready rfl awake⟩
  · intro s dt f x l u o serving full on
    have runs : u.outfallRuns = true := State.outfallRuns_of serving full on
    refine ⟨fun idle head => ⟨execOutfallRetuneStart_retunes rfl runs idle head, execOutfallRetuneStart_there rfl head⟩,
      execOutfallRetuneStart_empty rfl, Outfall.head_unheld, Outfall.head_held, fun retunes => ?_⟩
    rw [execOutfallRetuneLocked_of rfl runs retunes]
    exact ⟨fun settling => congrArg Host.Outcome.next (State.retuneLocked_settling settling),
      fun calibrating => congrArg Host.Outcome.next (State.retuneLocked_calibrating calibrating),
      execOutfallLockTimeout_waited rfl runs retunes, execOutfallLockTimeout_unwaited rfl retunes, execOutfallLockTimeout_early rfl⟩

/-! ### Coexistence: BLANK_OUT, the request and the grant (R372 to R374) -/

section
variable {o : Outfall} {a : OnAir} {now : Nat}

theorem Outfall.revoke_empty (empty : o.air = none) : o.revoke now = o := by
  simp [Outfall.revoke, empty]

section
variable (air : o.air = some a)
include air

/-- Before the ramp start the wait for a grant goes on (R374). -/
theorem Outfall.revoke_waiting (waiting : a.started = false) : o.revoke now = { o with air := some { a with cxOk := false } } := by
  simp [Outfall.revoke, air, waiting]

theorem Outfall.revoke_cuts (started : a.started = true) (stays : a.ending now = false) (coex : a.tx.coex = true) (whole : a.status = 0) :
    o.revoke now = o.cutAir a txCxRevoked txCxRevoked now := by
  simp [Outfall.revoke, air, started, stays, coex, whole, txCompleted]

theorem Outfall.revoke_ending (started : a.started = true) (ending : a.ending now = true) : o.revoke now = o := by
  simp [Outfall.revoke, air, started, ending]

theorem Outfall.airFree_onAir (started : a.started = true) : o.airFree = false := by
  simp [Outfall.airFree, air, started]

end
end

section
variable {s u : State} {dt : Nat} (at_u : s.advance dt = u)
include at_u

theorem execCxGntAssert_of : exec (.cxGntAssert dt) s = .next { u with
    pins := { u.pins with cxGnt := true }, outfall := { u.outfall with air := u.outfall.air.map (fun a => { a with cxOk := true }) } } := by
  change execCxGntAssert dt s = _
  exact State.occurs_at at_u rfl rfl

theorem execCxGntRelease_of {o : Outfall} (revoked : u.outfall.revoke u.clock = o) :
    exec (.cxGntRelease dt) s = .next { u with pins := { u.pins with cxGnt := false }, outfall := o } := by
  subst revoked
  change execCxGntRelease dt s = _
  exact State.occurs_at at_u rfl rfl

theorem execOutfallBlankOutAssert_not (stays : u.sends = false ∨ u.outfall.airFree = false) :
    exec (.outfallBlankOutAssert dt) s = .next u := by
  change execOutfallBlankOutAssert dt s = _
  exact State.occurs_not_at at_u (Bool.and_eq_false_iff.2 stays)

theorem execOutfallBlankOutAssert_none (unheld : u.outfall.lbtHeld = []) (unready : u.headReady 20000 = none) :
    exec (.outfallBlankOutAssert dt) s = .next u := by
  change execOutfallBlankOutAssert dt s = _
  refine State.occurs_idle_at at_u ?_
  dsimp only
  rw [State.lbtSettle_unheld unheld, unready, State.withSome_of_none rfl]

theorem execOutfallBlankOutAssert_of {x : Tx} (sends : u.sends = true) (free : u.outfall.airFree = true) (unheld : u.outfall.lbtHeld = [])
    (head : u.headReady 20000 = some x) : exec (.outfallBlankOutAssert dt) s = .next (u.blankFor x) := by
  change execOutfallBlankOutAssert dt s = _
  refine State.occurs_at at_u (by rw [sends, free]; rfl) ?_
  rw [State.lbtSettle_unheld unheld]
  exact State.withSome_of head

theorem execOutfallBlankOutRelease_of (runs : u.outfallRuns = true) (empty : u.outfall.air = none) (blanks : u.pins.blankOut = true)
    (passed : u.outfall.lastEndPs + 20000000 ≤ u.clock) (done : u.rampNear = false ∨ u.sends = false) :
    exec (.outfallBlankOutRelease dt) s = .next (u.driveBlank false false) := by
  change execOutfallBlankOutRelease dt s = _
  exact State.occurs_at at_u (by rw [runs, empty, blanks, decide_eq_true passed, Bool.and_eq_false_iff.2 done]; rfl) rfl

theorem execOutfallBlankOutRelease_early (early : u.clock < u.outfall.lastEndPs + 20000000) :
    exec (.outfallBlankOutRelease dt) s = .next u := by
  change execOutfallBlankOutRelease dt s = _
  exact State.occurs_not_at at_u (by rw [decide_eq_false (Nat.not_le.2 early), Bool.and_false, Bool.false_and])

section
variable {a : OnAir} (air : u.outfall.air = some a)
include air

theorem execCxDenied_of (runs : u.outfallRuns = true) (waiting : a.started = false) (coex : a.tx.coex = true) (ungranted : a.cxOk = false)
    (passed : a.cxAsked + u.outfall.cxWaitPs ≤ u.clock) : exec (.cxDenied dt) s = .next
      ((u.driveBlank false false).dropWhere (fun x => x.order == a.tx.order) txCxDenied txCxDenied) := by
  change execCxDenied dt s = _
  exact State.occurs_at at_u runs ((State.withSome_of air).trans (if_neg (by simp [waiting, coex, ungranted, passed])))

theorem execCxDenied_early (early : u.clock < a.cxAsked + u.outfall.cxWaitPs) : exec (.cxDenied dt) s = .next u := by
  change execCxDenied dt s = _
  exact State.occurs_idle_at at_u ((State.withSome_of air).trans (if_pos (by simp [early])))

end
end

/-! ### The ramp start (R383, R385) -/

/-- The latest start of an entry has come (R385). -/
def Tx.latestCome (x : Tx) (now : Nat) : Bool := match x.latest with | some l => decide (l ≤ now) | none => false

section
variable {u : State} {a : OnAir}

/-- The head that may ramp now: its due time has come, and so has the first ramp start after the last retune and transmission (R383). -/
theorem State.headReady_now {x : Tx} (head : u.headReady 0 = some x) : u.outfall.head = some x ∧ u.outfall.st = .locked ∧
    x.carrier = u.outfall.carrier ∧ x.due ≤ u.nowNs ∧ u.outfall.rampFrom ≤ u.clock := by
  obtain ⟨first, may⟩ := Option.filter_eq_some_iff.1 head
  simp only [Bool.and_eq_true, beq_iff_eq, decide_eq_true_eq, Nat.zero_mul, Nat.add_zero] at may
  obtain ⟨⟨⟨locked, carrier⟩, due⟩, allowed⟩ := may
  exact ⟨first, locked, carrier, due, allowed⟩

theorem State.toRamp_blanked (air : u.outfall.air = some a) (waiting : a.started = false) (granted : a.tx.coex = false ∨ a.cxOk = true)
    (passed : a.blankPs + 20000000 ≤ u.clock) (head : (u.headReady 0).map (fun x => x.order) = some a.tx.order) : u.toRamp = some a := by
  have grant : (a.tx.coex && !a.cxOk) = false := by
    rcases granted with alone | ok
    · rw [alone, Bool.false_and]
    · rw [ok, Bool.not_true, Bool.and_false]
  simp [State.toRamp, air, waiting, grant, passed, head]

theorem State.toRamp_early (air : u.outfall.air = some a)
    (early : (u.headReady 0).map (fun x => x.order) ≠ some a.tx.order ∨ u.clock < a.blankPs + 20000000) : u.toRamp = none := by
  rw [State.toRamp, air]
  refine if_pos ?_
  rcases early with other | early
  · rw [bne_iff_ne.2 other, Bool.or_true, Bool.true_or, Bool.true_or]
  · rw [decide_eq_true early, Bool.or_true]

theorem State.toRamp_unheld (empty : u.outfall.air = none) (unheld : u.blankHeld = false) : u.toRamp = none := by
  rw [State.toRamp, empty]
  exact if_neg (Bool.eq_false_iff.1 unheld)

end

section
variable {s u : State} {dt : Nat} {a : OnAir} (at_u : s.advance dt = u)
include at_u

theorem execOutfallRampStart_none (none_ramps : u.toRamp = none) : exec (.outfallRampStart dt) s = .next u := by
  change execOutfallRampStart dt s = _
  exact State.occurs_idle_at at_u (State.withSome_of_none none_ramps)

section
variable (ramps : u.toRamp = some a)
include ramps

theorem execOutfallRampStart_inTime (sends : u.sends = true) (in_time : ∀ l, a.tx.latest = some l → u.nowNs ≤ l) :
    exec (.outfallRampStart dt) s = .next (u.rampStart a) := by
  change execOutfallRampStart dt s = _
  refine State.occurs_at at_u sends ((State.withSome_of ramps).trans (if_neg ?_))
  cases latest : a.tx.latest with
  | none => exact Bool.false_ne_true
  | some l => simpa using in_time l latest

theorem execOutfallRampStart_late {l : Nat} (latest : a.tx.latest = some l) (late : l < u.nowNs) :
    exec (.outfallRampStart dt) s = .next u := by
  change execOutfallRampStart dt s = _
  refine State.occurs_idle_at at_u ((State.withSome_of ramps).trans (if_pos ?_))
  rw [latest]
  exact decide_eq_true late

end

/-! ### The level loop, the ramp-down and late drops (R375, R385, R386) -/

theorem execOutfallLateDrop_of (runs : u.outfallRuns = true) (unheld : u.outfall.lbtHeld = []) :
    exec (.outfallLateDrop dt) s = .next (u.dropWhere (fun x => x.latestCome u.nowNs) txLate txLate) := by
  change execOutfallLateDrop dt s = _
  refine State.occurs_at at_u runs ?_
  rw [State.lbtSettle_unheld unheld]
  rfl

section
variable {readings : List DetReading} (air : u.outfall.air = some a)
include air

theorem execOutfallLevelLoopEnd_of (runs : u.outfallRuns = true) (started : a.started = true) (up : a.down = false) (unset : a.corr = none)
    (some_reading : readings ≠ []) (passed : a.startPs + a.tx.loopPs ≤ u.clock) :
    exec (.outfallLevelLoopEnd dt readings) s = .next (u.levelLoopEnd readings a) := by
  change execOutfallLevelLoopEnd dt readings s = _
  exact State.occurs_at at_u runs ((State.withSome_of air).trans (if_pos (by simp [started, up, unset, some_reading, passed])))

theorem execOutfallLevelLoopEnd_early (early : u.clock < a.startPs + a.tx.loopPs) :
    exec (.outfallLevelLoopEnd dt readings) s = .next u := by
  change execOutfallLevelLoopEnd dt readings s = _
  exact State.occurs_idle_at at_u ((State.withSome_of air).trans (if_neg (by simp [early])))

theorem execOutfallRampDownStart_of (runs : u.outfallRuns = true) (started : a.started = true) (up : a.down = false)
    (due : a.downPs ≤ u.clock) : exec (.outfallRampDownStart dt) s = .next
      { u with outfall := { u.outfall with st := .rampDown, air := some { a with down := true } } } := by
  change execOutfallRampDownStart dt s = _
  exact State.occurs_at at_u runs (by simp [State.modOut, air, started, up, due])

theorem execOutfallRampDownStart_early (early : u.clock < a.downPs) : exec (.outfallRampDownStart dt) s = .next u := by
  change execOutfallRampDownStart dt s = _
  refine State.occurs_idle_at at_u ?_
  dsimp only [State.modOut]
  rw [air]
  dsimp only
  rw [decide_eq_false (Nat.not_le.2 early), Bool.and_false, if_neg Bool.false_ne_true]

theorem execOutfallRampEnd_of (runs : u.outfallRuns = true) (started : a.started = true) (down : a.down = true)
    (passed : a.downPs + a.tx.rampPs ≤ u.clock) : exec (.outfallRampEnd dt) s = .next (u.rampEnd a) := by
  change execOutfallRampEnd dt s = _
  exact State.occurs_at at_u runs ((State.withSome_of air).trans (if_pos (by simp [started, down, passed])))

theorem execOutfallRampEnd_early (early : u.clock < a.downPs + a.tx.rampPs) : exec (.outfallRampEnd dt) s = .next u := by
  change execOutfallRampEnd dt s = _
  exact State.occurs_idle_at at_u ((State.withSome_of air).trans (if_neg (by simp [early])))

end
end

/-- What the level loop leaves in the Outfall, before the post of a fallback (R375 to R377, R379). -/
def Outfall.looped (o : Outfall) (a : OnAir) (q : Loop) (now : Nat) : Outfall :=
  { o with
    st := .onAir, fallback := o.fallback.setIf q.fell now, limit := o.limit.setIf q.limited now
    air := some { a with level := q.level.map (fun p => clamp (-127) 127 (roundDiv p 25)), corr := some (q.driver - targetLevel a.tx.level)
                         fallback := q.fell, limited := q.limited } }

section
variable {u : State} {a : OnAir} {readings : List DetReading} {q : Loop} (ended : u.outfall.loop a.tx readings = q)
include ended

theorem State.levelLoopEnd_inRange (kept : q.fell = false) :
    u.levelLoopEnd readings a = u.modOut (fun o => o.looped a q u.clock) := by
  subst ended
  rw [State.levelLoopEnd, State.when_of_not kept]
  rfl

theorem State.levelLoopEnd_falls (fell : q.fell = true) :
    u.levelLoopEnd readings a = (u.modOut (fun o => o.looped a q u.clock)).post 7 0xFF 0xFFFF 0x71 2 [] := by
  subst ended
  rw [State.levelLoopEnd, State.when_of fell]
  rfl

end

/-! ### The end of a transmission (R387) -/

section
variable {u : State} {x : Tx} {event status reason tflags stamp : Nat} {level : Option Int} {start : Option Nat}

@[simp] theorem State.txReport_outfall : (u.txReport x event status tflags level start stamp).outfall = u.outfall :=
  State.emit_outfall ..

@[simp] theorem State.txReport_pins : (u.txReport x event status tflags level start stamp).pins = u.pins :=
  State.emit_pins ..

@[simp] theorem State.txRespond_outfall : (u.txRespond x status reason).outfall = u.outfall := by
  unfold State.txRespond
  split
  · split
    · rfl
    · exact State.respond_outfall ..
  · rfl

@[simp] theorem State.txRespond_pins : (u.txRespond x status reason).pins = u.pins := by
  unfold State.txRespond
  split
  · split
    · rfl
    · exact State.respond_pins ..
  · rfl

end

theorem Outfall.storeCorr_frame (o : Outfall) (f : Nat) (v : Int) : o.storeCorr f v = { o with corr := (o.storeCorr f v).corr } := by
  unfold Outfall.storeCorr
  split
  · rfl
  · split <;> rfl

/-- The correction of the band 136 to 174 MHz (R379). -/
theorem Outfall.storeCorr_vhf {o : Outfall} {f : Nat} {v : Int} (low : 136000000 ≤ f) (high : f ≤ 174000000) :
    (o.storeCorr f v).corr.1 = v := by
  rw [Outfall.storeCorr, if_neg (by omega), if_pos high]

section
variable (u : State) (a : OnAir)

theorem State.rampEnd_pins : (u.rampEnd a).pins = { u.pins with driver := false } := by
  simp [State.rampEnd, State.modOut]

theorem State.rampEnd_outfall : (u.rampEnd a).outfall = { u.outfall with
    st := .locked, air := none, lastEndPs := u.clock, corr := (u.rampEnd a).outfall.corr, lastLevel := (u.rampEnd a).outfall.lastLevel
    forwarded := if a.tx.isRelay ∧ a.status = 0 then u.outfall.forwarded + 1 else u.outfall.forwarded
    watches := (u.rampEnd a).outfall.watches } := by
  cases corr : a.corr with
  | none => simp [State.rampEnd, State.modOut, corr, txCompleted]
  | some v =>
    simp only [State.rampEnd, State.modOut, corr, State.txRespond_outfall, State.txReport_outfall]
    rw [Outfall.storeCorr_frame]
    simp [txCompleted]

theorem State.rampEnd_corr {a : OnAir} {v : Int} (measured : a.corr = some v) :
    (u.rampEnd a).outfall.corr = (u.outfall.storeCorr a.tx.carrier v).corr := by
  simp [State.rampEnd, State.modOut, measured]

end

/-- Settles O52: a grant that goes away is `Outfall.revoke`; BLANK_OUT and the ramp go by the head that is ready (`State.headReady`,
`State.toRamp`), and the other events on air by the instants that their own transmission gives. -/
theorem outfallOnAir : Obligations.OutfallOnAir := by
  constructor
  · intro s dt x a u o lines
    refine ⟨execCxGntAssert_of rfl, fun empty => execCxGntRelease_of rfl (Outfall.revoke_empty empty), fun air =>
      ⟨fun waiting => execCxGntRelease_of rfl (Outfall.revoke_waiting air waiting),
        fun started stays coex whole => execCxGntRelease_of rfl (Outfall.revoke_cuts air started stays coex whole),
        fun started ending => execCxGntRelease_of rfl (Outfall.revoke_ending air started ending)⟩, fun serving full on => ?_⟩
    have runs : u.outfallRuns = true := State.outfallRuns_of serving full on
    refine ⟨fun free unheld undozed => ⟨execOutfallBlankOutAssert_of rfl (State.sends_of runs undozed) free unheld,
        execOutfallBlankOutAssert_none rfl unheld⟩,
      fun stays => execOutfallBlankOutAssert_not rfl ?_,
      fun empty blanks => ⟨fun passed done => execOutfallBlankOutRelease_of rfl runs empty blanks passed (done.imp_right State.sends_requested),
        execOutfallBlankOutRelease_early rfl⟩,
      fun air waiting coex ungranted => ⟨execCxDenied_of rfl air runs waiting coex ungranted, execCxDenied_early rfl air⟩⟩
    exact stays.imp State.sends_requested (fun ⟨_, air, started⟩ => Outfall.airFree_onAir air started)
  · intro s dt a readings u o q looped w serving full on
    have runs : u.outfallRuns = true := State.outfallRuns_of serving full on
    refine ⟨fun undozed air waiting granted passed head => ?_, fun x => State.headReady_now,
      fun air early => execOutfallRampStart_none rfl (State.toRamp_early air early),
      fun empty unheld => execOutfallRampStart_none rfl (State.toRamp_unheld empty unheld),
      fun air started up => ⟨fun unset some_reading passed => ?_, execOutfallLevelLoopEnd_early rfl air,
        execOutfallRampDownStart_of rfl air runs started up, execOutfallRampDownStart_early rfl air⟩,
      fun air started down => ⟨fun passed => ⟨execOutfallRampEnd_of rfl air runs started down passed, ?_⟩, execOutfallRampEnd_early rfl air⟩,
      execOutfallLateDrop_of rfl runs⟩
    · have ramps : u.toRamp = some a := State.toRamp_blanked air waiting granted passed head
      exact ⟨execOutfallRampStart_inTime rfl ramps (State.sends_of runs undozed), fun l => execOutfallRampStart_late rfl ramps⟩
    · rw [execOutfallLevelLoopEnd_of rfl air runs started up unset some_reading passed]
      exact ⟨fun kept => congrArg Host.Outcome.next (State.levelLoopEnd_inRange rfl kept),
        fun fell => congrArg Host.Outcome.next (State.levelLoopEnd_falls rfl fell)⟩
    · have after := u.rampEnd_outfall a
      refine ⟨congrArg Outfall.air after, congrArg Outfall.st after, congrArg Outfall.lastEndPs after, congrArg Pins.driver (u.rampEnd_pins a),
        (congrArg Outfall.queue after :), congrArg Outfall.forwarded after, fun c measured low high => ?_⟩
      exact (congrArg Prod.fst (u.rampEnd_corr measured)).trans (Outfall.storeCorr_vhf low high)

/-! ### The relay's intake (R388, R390) -/

section
variable {u : State} {c d : Fin 256} {q : Ended} {h : BitVec 128}

/-- A refusal counts, whether it is reported or not. -/
theorem State.relayRefuse_outfall (u : State) (c : Fin 256) (q : Ended) (h : BitVec 128) (n : Nat) :
    (u.relayRefuse c q h n).outfall = { u.outfall with refused := u.outfall.refused + 1 } := by
  unfold State.relayRefuse State.when
  split
  · exact State.txReport_outfall
  · rfl

theorem State.relayTake_refused (new : u.takenNow h = none) (refused : u.relayRefusal q h ≠ 0) :
    (u.relayTake c q h).outfall = { u.outfall with refused := u.outfall.refused + 1 } := by
  simp only [State.relayTake, new, if_neg refused]
  exact State.relayRefuse_outfall ..

theorem State.relayTake_queued (new : u.takenNow h = none) (taken : u.relayRefusal q h = 0) :
    u.relayTake c q h = u.relayQueue c q h := by
  simp only [State.relayTake, new, if_pos taken]

/-- A message that the relay queues enters the duplicate cache, the oldest of 1,024 leaving it (R390). -/
theorem State.relayQueue_cache (u : State) (c : Fin 256) (q : Ended) (h : BitVec 128) : (u.relayQueue c q h).outfall.cache =
    (if 1024 ≤ u.outfall.cache.length then u.outfall.cache.drop 1 else u.outfall.cache) ++ [relayKey h] := rfl

/-- The message of a lower context takes the place of the one that was queued before it. -/
theorem State.relaySwap_outfall (u : State) (c d : Fin 256) (q : Ended) (h : BitVec 128) :
    (u.relaySwap c d q h).outfall.refused = u.outfall.refused + 1 ∧ (u.relaySwap c d q h).outfall.cache = u.outfall.cache ∧
      (u.relaySwap c d q h).outfall.queue.length = u.outfall.queue.length := by
  rw [State.relaySwap, State.relayRefuse_outfall]
  exact ⟨rfl, rfl, List.length_map ..⟩

theorem State.relayTake_again (before : u.takenNow h = some d) : (u.relayTake c q h).outfall.refused = u.outfall.refused + 1 ∧
    (u.relayTake c q h).outfall.cache = u.outfall.cache ∧ (u.relayTake c q h).outfall.queue.length = u.outfall.queue.length := by
  simp only [State.relayTake, before]
  split
  · exact u.relaySwap_outfall ..
  · rw [State.relayRefuse_outfall]
    exact ⟨rfl, rfl, rfl⟩

end

section
variable {s u : State} {dt : Nat} (at_u : s.advance dt = u)
include at_u

section
variable {c : Fin 256}

theorem execRelayIntake_of {q : Ended} {h : BitVec 128} (serving : u.serving = true) (on : u.outfall.relayOn = true)
    (source : u.outfall.isSource c = true) (waits : u.ctxs[c].eab.ended.find? (Ended.forRelay u.clock) = some q)
    (header : q.rx.header = some h) {v : State} (marked : u.modEab c (fun e => { e with ended := markRelayed u.clock e.ended }) = v) :
    exec (.relayIntake dt c) s = .next (v.relayTake (v.recordCtx c) q h) := by
  subst marked
  change execRelayIntake dt c s = _
  exact State.occurs_at at_u (by rw [serving, on, source]; rfl) ((State.withSome_of waits).trans (State.withSome_of header))

theorem execRelayIntake_off (off : u.outfall.relayOn = false) : exec (.relayIntake dt c) s = .next u := by
  change execRelayIntake dt c s = _
  exact State.occurs_not_at at_u (by rw [off, Bool.and_false, Bool.false_and])

theorem execRelayIntake_none (settled : u.ctxs[c].eab.ended.find? (Ended.forRelay u.clock) = none) :
    exec (.relayIntake dt c) s = .next u := by
  change execRelayIntake dt c s = _
  exact State.occurs_idle_at at_u (State.withSome_of_none settled)

end

/-! ### Listen before talk (R392) -/

section
variable {x : Tx} (unheld : u.outfall.lbtHeld = []) (head : u.outfall.head = some x)
include unheld head

theorem execRelayLbtCheck_passes (passes : x.isRelay = false ∨ u.lbtBusy = false) : exec (.relayLbtCheck dt) s = .next u := by
  change execRelayLbtCheck dt s = _
  refine State.occurs_idle_at at_u ?_
  dsimp only
  rw [State.lbtSettle_unheld unheld, head]
  exact if_neg (Bool.eq_false_iff.1 (Bool.and_eq_false_iff.2 passes))

theorem execRelayLbtCheck_holds (runs : u.outfallRuns = true) (empty : u.outfall.air = none) (relay : x.isRelay = true)
    (busy : u.lbtBusy = true) : exec (.relayLbtCheck dt) s = .next
      ({ u with outfall := { u.outfall with lbtHeld := [x.order] } } : State).lbtSettle := by
  change execRelayLbtCheck dt s = _
  refine State.occurs_at at_u (by rw [runs, empty]; rfl) ?_
  dsimp only
  rw [State.lbtSettle_unheld unheld, head]
  refine (if_pos (by rw [relay, busy]; rfl)).trans ?_
  rw [State.modOut, unheld, List.nil_append]

end

/-! ### Confirmation (R393) -/

section
variable {w : Watch} (watches : u.outfall.watches = [w])
include watches

theorem execRelayConfirmed_of {q : Ended} (serving : u.serving = true) (confirms : u.confirming w = some q) :
    exec (.relayConfirmed dt) s = .next (u.watchEnd w 4 (some q.rx.reported.1) (q.rx.syncStamp.getD q.rx.detectStamp)) := by
  change execRelayConfirmed dt s = _
  have first : u.outfall.watches.find? (fun w => (u.confirming w).isSome) = some w := by
    rw [watches, List.find?_singleton, confirms]
    rfl
  exact State.occurs_at at_u serving ((State.withSome_of first).trans (State.withSome_of confirms))

theorem execRelayConfirmed_none (waits : u.confirming w = none) : exec (.relayConfirmed dt) s = .next u := by
  change execRelayConfirmed dt s = _
  exact State.occurs_idle_at at_u (State.withSome_of_none (by rw [watches, List.find?_singleton, waits]; rfl))

theorem execRelayNotConfirmed_of (serving : u.serving = true) (waits : u.confirming w = none) (ended : w.rampEndPs + 10 * msPs ≤ u.clock) :
    exec (.relayNotConfirmed dt) s = .next (u.watchEnd w 5 none u.nowNs) := by
  change execRelayNotConfirmed dt s = _
  exact State.occurs_at at_u serving (State.withSome_of (by rw [watches, List.find?_singleton, waits, decide_eq_true ended]; rfl))

theorem execRelayNotConfirmed_open (open_ : (u.confirming w).isSome = true ∨ u.clock < w.rampEndPs + 10 * msPs) :
    exec (.relayNotConfirmed dt) s = .next u := by
  change execRelayNotConfirmed dt s = _
  refine State.occurs_idle_at at_u (State.withSome_of_none ?_)
  rw [watches, List.find?_singleton]
  refine if_neg ?_
  rcases open_ with confirmed | early
  · simp [Option.isSome_iff_ne_none.1 confirmed]
  · simp [early]

end
end

/-- Settles O53: the intake goes by whether another source context delivered the message in this FAB cycle and by what refuses it
(`State.relayTake`), a relayed head by whether the LBT context receives, and the one watch by the copy that confirms it. -/
theorem relayDecisions : Obligations.RelayDecisions := by
  intro s dt c d q h w x u o taken serving
  have window : 10 * msPs = 10 ^ 10 := by norm_num [msPs]
  refine ⟨fun on source waits header => execRelayIntake_of rfl serving on source waits header rfl,
    fun idle => idle.elim (execRelayIntake_off rfl) (execRelayIntake_none rfl),
    fun new refused => ?_, State.relayTake_again, fun new free => ?_,
    fun full on empty unheld head => ⟨execRelayLbtCheck_passes rfl unheld head,
      execRelayLbtCheck_holds rfl unheld head (State.outfallRuns_of serving full on) empty⟩,
    fun watches => ⟨execRelayConfirmed_of rfl watches serving, execRelayConfirmed_none rfl watches, ?_⟩⟩
  · rw [State.relayTake_refused new refused]
    exact ⟨rfl, rfl⟩
  · rw [State.relayTake_queued new free, State.relayQueue_cache]
    exact ⟨by simp [relayKey], rfl⟩
  · rw [← window]
    exact ⟨execRelayNotConfirmed_of rfl watches serving, execRelayNotConfirmed_open rfl watches⟩

end Sys2Proof.Machine

/-! ## Calibration and maintenance: calibration runs, CAL_CMD and QRP CAL, temperatures, self-tests and the fallow rotation -/

namespace Sys2Proof.Machine

/-! ### The injection switch and its ramps (R408, R413, R414) -/

section
variable {s : State} {r : Fin 4}

/-- The switch stays closed while a burst is received (R414). -/
theorem State.openSwitch_burst (burst : s.burstIn r = true) : s.openSwitch r = s := by
  unfold State.openSwitch
  split
  · rfl
  · rw [burst, Bool.true_or, if_pos rfl]

/-- The switch stays open while a burst is received (R414). -/
theorem State.closeSwitch_burst (burst : s.burstIn r = true) : s.closeSwitch r = s := by
  refine State.withSome_of_none (Option.filter_eq_none_iff.2 fun a _ closes => ?_)
  rw [burst, Bool.not_true, Bool.and_false] at closes
  exact Bool.false_ne_true closes

theorem RampTone.lower_rising {i : RampTone} (rising : i.downPs = none) (now : Nat) : i.lower now = { i with downPs := some now } := by
  rw [RampTone.lower, rising, Option.getD_none, Nat.min_self]

/-- The end of a point, measured or not, ramps its injection down (R413, R414). -/
theorem State.endPoint_inject {i : RampTone} (injected : s.upkeep[r].inject = some i) (a : Activity) (o : Option PointResult) :
    (s.endPoint r a o).upkeep[r].inject = some (i.lower s.clock) := by
  rw [State.endPoint, if_pos (by rw [injected]; rfl), State.modUpkeep_same, injected, Option.map_some]

end

/-! ### Blocks and the check block of a point (R413 to R415) -/

theorem blockTime_eq : 10 * msPs = 10 ^ 10 := by norm_num [msPs]

section
variable {s : State} {r : Fin 4} {a b : Activity}

theorem State.runOf_of {k : ActKind} (running : s.upkeep[r].running = some a) (kind : a.kind = k) : s.runOf r k = some a := by
  rw [State.runOf, running, Option.filter_some, if_pos (beq_iff_eq.2 kind)]

/-- What a block needs to be kept, besides its samples being unmarked. -/
theorem State.blockEnds_iff : s.blockEnds r a b = true ↔ b = a ∧ a.slot.isSome = true ∧ a.blockPs + 10 ^ 10 ≤ s.clock ∧
    s.burstDuring r = false ∧ ∃ i, s.upkeep[r].inject = some i ∧ i.downPs = none := by
  rw [State.blockEnds, ← blockTime_eq]
  cases s.upkeep[r].inject with
  | none => simp
  | some t => simp [and_assoc]

theorem State.not_blockEnds (spoiled : s.burstDuring r = true ∨ b ≠ a) : s.blockEnds r a b = false := by
  refine Bool.eq_false_iff.2 fun ends => ?_
  obtain ⟨same, _, _, quiet, _⟩ := State.blockEnds_iff.1 ends
  rcases spoiled with burst | moved
  · exact Bool.false_ne_true (quiet.symm.trans burst)
  · exact moved same

/-- After eight blocks the check block of a point without an end is due 10 ms after its start (R413). -/
theorem State.checkBlock_due (unended : a.outcome = none) (elapsed : a.blockPs + 10 ^ 10 ≤ s.clock) (complete : a.blocks.length = 8) :
    ¬ (a.outcome.isSome || a.blocks.length != 8 || decide (s.clock < a.blockPs + 10 * msPs)) = true := by
  rw [unended, complete, blockTime_eq, decide_eq_false (Nat.not_lt.2 elapsed)]
  decide

section
variable {f : Nat} {rest : List Nat} (points : a.points = f :: rest)
include points

theorem State.slotTaken_of : s.slotTaken r a =
    (s.modUpkeep r (fun x => { x with running := some (s.holdSlot r f s.clock a) })).closeSwitch r := by
  rw [State.slotTaken, points]

section
variable {power : Int} {snr : Nat} {marked : Bool}

theorem State.absBlock_early (early : s.clock < a.blockPs + 10 ^ 10) : s.absBlock r power snr marked a = s := by
  rw [State.absBlock, points]
  exact if_pos (by rw [blockTime_eq, decide_eq_true early, Bool.or_true])

section
variable (unended : a.outcome = none) (elapsed : a.blockPs + 10 ^ 10 ≤ s.clock)
include unended elapsed

/-- The next block begins; `absBlock_kept` and `absBlock_discarded` say what becomes of the one that ends. -/
theorem State.absBlock_over : s.absBlock r power snr marked a = s.modUpkeep r (fun x => { x with
    running := some { s.holdSlot r f s.clock a with
      blockPs := s.clock
      blocks := if s.blockEnds r a (s.holdSlot r f s.clock a) && !marked && decide (a.blocks.length < 8) then a.blocks ++ [(power, snr)]
        else a.blocks } }) := by
  rw [State.absBlock, points]
  exact if_neg (by rw [unended, blockTime_eq, decide_eq_false (Nat.not_lt.2 elapsed)]; decide)

theorem State.absBlock_kept (stays : s.holdSlot r f s.clock a = a) (ends : s.blockEnds r a a = true) (unmarked : marked = false)
    (few : a.blocks.length < 8) : s.absBlock r power snr marked a =
      s.modUpkeep r (fun x => { x with running := some { a with blockPs := s.clock, blocks := a.blocks ++ [(power, snr)] } }) := by
  rw [State.absBlock_over points unended elapsed, stays, if_pos (by rw [ends, unmarked, decide_eq_true few]; rfl)]

theorem State.absBlock_discarded
    (spoiled : marked = true ∨ s.burstDuring r = true ∨ s.holdSlot r f s.clock a ≠ a ∨ 8 ≤ a.blocks.length) :
    s.absBlock r power snr marked a = s.modUpkeep r (fun x => { x with
      running := some { s.holdSlot r f s.clock a with blockPs := s.clock, blocks := a.blocks } }) := by
  rw [State.absBlock_over points unended elapsed, if_neg]
  rcases spoiled with mark | burst | moved | full
  · simp [mark]
  · simp [State.not_blockEnds (.inl burst)]
  · simp [State.not_blockEnds (.inr moved)]
  · simp [full]

end
end

section
variable {check : Option Int}

theorem State.pointDone_early (early : s.clock < a.blockPs + 10 ^ 10) : s.pointDone r check a = s := by
  rw [State.pointDone, points]
  exact if_pos (by rw [blockTime_eq, decide_eq_true early, Bool.or_true])

theorem State.pointDone_incomplete (incomplete : a.blocks.length ≠ 8) : s.pointDone r check a = s := by
  rw [State.pointDone, points]
  exact if_pos (by rw [bne_iff_ne.2 incomplete, Bool.or_true, Bool.true_or])

section
variable (unended : a.outcome = none) (elapsed : a.blockPs + 10 ^ 10 ≤ s.clock) (complete : a.blocks.length = 8)
include unended elapsed complete

theorem State.pointDone_measured {p : Int} (checked : check = some p) (stays : s.holdSlot r f s.clock a = a)
    (ends : s.blockEnds r a a = true) : s.pointDone r check a = s.endPoint r a (some
      { corr := pointCorr a.level a.blocks, residual := pointResidual a.level (pointCorr a.level a.blocks) p, snr := pointSnr a.blocks }) := by
  rw [State.pointDone, points]
  refine (if_neg (State.checkBlock_due unended elapsed complete)).trans ?_
  rw [stays, checked, Option.filter_some, if_pos ends]

theorem State.pointDone_repeats (spoiled : check = none ∨ s.burstDuring r = true ∨ s.holdSlot r f s.clock a ≠ a) :
    s.pointDone r check a =
      s.modUpkeep r (fun x => { x with running := some { s.holdSlot r f s.clock a with blockPs := s.clock } }) := by
  have discarded : check.filter (fun _ => s.blockEnds r a (s.holdSlot r f s.clock a)) = none := by
    rcases spoiled with marked | elsewhere
    · rw [marked, Option.filter_none]
    · exact Option.filter_eq_none_iff.2 fun _ _ => Bool.eq_false_iff.1 (State.not_blockEnds elsewhere)
  rw [State.pointDone, points]
  refine (if_neg (State.checkBlock_due unended elapsed complete)).trans ?_
  rw [discarded]

end
end

/-- A point has 2 s, and 1 s without a slot (R414, R415). -/
theorem State.pointOverdue_of (unended : a.outcome = none)
    (late : a.pointPs + 2 * 10 ^ 12 ≤ s.clock ∨ ∃ n, a.noSlotPs = some n ∧ n + 10 ^ 12 ≤ s.clock) : s.pointOverdue a = true := by
  rw [State.pointOverdue, points, unended, secPs_eq]
  refine Bool.and_eq_true_iff.2 ⟨rfl, Bool.or_eq_true_iff.2 (late.imp decide_eq_true fun ⟨n, waits, slotless⟩ => ?_)⟩
  rw [waits]
  exact decide_eq_true slotless

end

theorem State.pointOverdue_not (early : s.clock < a.pointPs + 2 * 10 ^ 12) (slotted : a.noSlotPs = none) : s.pointOverdue a = false := by
  rw [State.pointOverdue, slotted, secPs_eq, decide_eq_false (Nat.not_le.2 early)]
  simp

end

/-! ### Events of a run -/

section
variable {s u : State} {dt : Nat} {r : Fin 4} {a : Activity} (at_u : s.advance dt = u)
include at_u

section
variable {table : StepTable} {g : Int} (running : u.upkeep[r].running = some a) (recal : a.kind = .recal)
include running recal

/-- The gain fit ends once the sweep has: 93 steps of 0.4 ms (R408). -/
theorem execFegrComplete_swept (up : u.reachUp r = true) (unready : a.ready = false) (swept : a.startedPs + replicaSweepPs ≤ u.clock) :
    exec (.fegrComplete dt r table g) s = .next
      (u.modUpkeep r (fun x => { x with running := some { a with table := some table, gainErr := some g, ready := true } })) := by
  change execFegrComplete dt r table g s = _
  refine State.occurs_at at_u up (State.withSome_of ?_)
  rw [State.runOf_of running recal, Option.filter_some, if_pos (by rw [unready, decide_eq_true swept]; rfl)]

theorem execFegrComplete_sweeping (sweeps : u.clock < a.startedPs + replicaSweepPs) : exec (.fegrComplete dt r table g) s = .next u := by
  change execFegrComplete dt r table g s = _
  refine State.occurs_idle_at at_u (State.withSome_of_none ?_)
  rw [State.runOf_of running recal, Option.filter_some, if_neg (by rw [decide_eq_false (Nat.not_le.2 sweeps), Bool.and_false]; decide)]

end

section
variable {v : State} (up : u.reachUp r = true) (settled : u.calSettle r = v) (runs : v.runOf r .absolute = some a)
include up settled runs

theorem execCalAbsBlock_of {power : Int} {snr : Nat} {marked : Bool} :
    exec (.calAbsBlock dt r power snr marked) s = .next (v.absBlock r power snr marked a) := by
  subst settled
  change execCalAbsBlock dt r power snr marked s = _
  exact State.occurs_at at_u up (State.withSome_of runs)

theorem execCalPointComplete_of {check : Option Int} : exec (.calPointComplete dt r check) s = .next (v.pointDone r check a) := by
  subst settled
  change execCalPointComplete dt r check s = _
  exact State.occurs_at at_u up (State.withSome_of runs)

theorem execCalSlotTaken_of : exec (.calSlotTaken dt r) s = .next (v.slotTaken r a) := by
  subst settled
  change execCalSlotTaken dt r s = _
  exact State.occurs_at at_u up (State.withSome_of runs)

theorem execCalPointTimeout_overdue (overdue : v.pointOverdue a = true) : exec (.calPointTimeout dt r) s = .next (v.endPoint r a none) := by
  subst settled
  change execCalPointTimeout dt r s = _
  exact State.occurs_at at_u up (State.withSome_of (by rw [runs, Option.filter_some_pos overdue]))

theorem execCalPointTimeout_early (early : v.pointOverdue a = false) : exec (.calPointTimeout dt r) s = .next v := by
  subst settled
  change execCalPointTimeout dt r s = _
  exact State.occurs_at at_u up (State.withSome_of_none (by rw [runs, Option.filter_some, if_neg (Bool.eq_false_iff.1 early)]))

end
end

/-- Settles O56: a block and the check block go by whether the measurement kept its slot and was quiet (`State.blockEnds_iff`), a point's loss
by its two times (`State.pointOverdue`), and the switch by the burst alone. -/
theorem calibrationRuns : Obligations.CalibrationRuns := by
  intro s dt snr r a table g power check marked f rest i u v run b kept up
  refine ⟨fun a running recal unready => ⟨execFegrComplete_swept rfl running recal up unready, execFegrComplete_sweeping rfl running recal⟩,
    fun running absolute points unended => ?_, fun t burst => ⟨State.openSwitch_burst burst, State.closeSwitch_burst burst⟩,
    fun t o injected rising => ?_⟩
  · have runs : v.runOf r .absolute = some a := State.runOf_of running absolute
    rw [execCalAbsBlock_of rfl up rfl runs, execCalPointComplete_of rfl up rfl runs, execCalSlotTaken_of rfl up rfl runs,
      State.slotTaken_of points]
    have stays (holds : kept) : v.holdSlot r f v.clock a = a := holds.1
    have ends (elapsed : a.blockPs + 10 ^ 10 ≤ v.clock) (holds : kept) : v.blockEnds r a a = true := by
      obtain ⟨_, slot, quiet, injected⟩ := holds
      exact State.blockEnds_iff.2 ⟨rfl, slot, elapsed, quiet, i, injected⟩
    refine ⟨fun early => ⟨congrArg Host.Outcome.next (State.absBlock_early points early),
        congrArg Host.Outcome.next (State.pointDone_early points early)⟩,
      fun elapsed => ⟨fun holds unmarked few => congrArg Host.Outcome.next ?_,
        fun spoiled => congrArg Host.Outcome.next (State.absBlock_discarded points unended elapsed spoiled),
        fun complete => ⟨fun p holds checked => congrArg Host.Outcome.next ?_,
          fun spoiled => congrArg Host.Outcome.next (State.pointDone_repeats points unended elapsed complete spoiled)⟩⟩,
      fun incomplete => congrArg Host.Outcome.next (State.pointDone_incomplete points incomplete),
      fun late => execCalPointTimeout_overdue rfl up rfl runs (State.pointOverdue_of points unended late),
      fun early slotted => execCalPointTimeout_early rfl up rfl runs (State.pointOverdue_not early slotted), rfl⟩
    · exact State.absBlock_kept points unended elapsed (stays holds) (ends elapsed holds) unmarked few
    · exact State.pointDone_measured points unended elapsed complete checked (stays holds) (ends elapsed holds)
  · rw [State.endPoint_inject injected, RampTone.lower_rising rising]

/-! ### CAL_CMD (R408, R412, R420 to R422, R428) -/

section
variable {s : State} {r : Fin 4} {points : Nat} {cmds : List (BitVec 32)}

theorem State.calRun_recal : s.calRun r 1 points cmds = s.request r { kind := .recal, cmds := cmds } := rfl

theorem State.calRun_absolute_blocked (blocked : (s.absoluteAsked points).points.any (s.pointBlocked r) = true) :
    s.calRun r 2 points cmds = (s, 0x82) :=
  if_pos blocked

theorem State.calRun_absolute_free (free : (s.absoluteAsked points).points.any (s.pointBlocked r) = false) :
    s.calRun r 2 points [] = s.request r (s.absoluteAsked points) :=
  if_neg (Bool.eq_false_iff.1 free)

end

section
variable {s u : State} {dt : Nat} (at_u : s.advance dt = u) (awake : u.awake = true)
include at_u awake

theorem execCalLoad_of : exec (.calLoad dt) s = .next u.loadSet := by
  change execCalLoad dt s = _
  exact State.occurs_at at_u awake rfl

theorem execCalApplySet_up {store : Bool} (up : u.reachUp u.cal.reach = true) :
    exec (.calApplySet dt store) s = .next (u.applySet store 0) := by
  change execCalApplySet dt store s = _
  exact State.occurs_at at_u awake (State.calTrigger_up _ _ _ up)

theorem execCalApplySet_down {store : Bool} (down : u.reachUp u.cal.reach = false) :
    exec (.calApplySet dt store) s = .next (u.writeIgnored 0x1004) := by
  change execCalApplySet dt store s = _
  exact State.occurs_at at_u awake (State.calTrigger_down _ _ _ down)

section
variable {r : Fin 4} {n : Fin 16} {node op : BitVec 3} {store : Bool}

section
variable (up : u.reachUp r = true)
include up

theorem execCalRecalibration_up : exec (.calRecalibration dt r) s = .next (u.request r { kind := .recal }).1 := by
  change execCalRecalibration dt r s = _
  exact State.occurs_at at_u awake (State.calTrigger_up _ _ _ up)

theorem execCalAbsolute_free (free : (u.absoluteAsked n.val).points.any (u.pointBlocked r) = false) :
    exec (.calAbsolute dt r n) s = .next (u.request r (u.absoluteAsked n.val)).1 := by
  change execCalAbsolute dt r n s = _
  exact State.occurs_at at_u awake ((State.calTrigger_up _ _ _ up).trans (congrArg Prod.fst (State.calRun_absolute_free free)))

theorem execCalAbsolute_blocked (blocked : (u.absoluteAsked n.val).points.any (u.pointBlocked r) = true) :
    exec (.calAbsolute dt r n) s = .next u := by
  change execCalAbsolute dt r n s = _
  exact State.occurs_at at_u awake ((State.calTrigger_up _ _ _ up).trans (congrArg Prod.fst (State.calRun_absolute_blocked blocked)))

theorem execCalSelftest_up : exec (.calSelftest dt r) s = .next (u.request r { kind := .selftest }).1 := by
  change execCalSelftest dt r s = _
  exact State.occurs_at at_u awake (State.calTrigger_up _ _ _ up)

theorem execCalRollback_up : exec (.calRollback dt r node store) s = .next (u.rollback r node.toNat store 0) := by
  change execCalRollback dt r node store s = _
  exact State.occurs_at at_u awake (State.calTrigger_up _ _ _ up)

theorem execCalAbort_up : exec (.calAbort dt r op) s = .next (u.calAbort r (opNames op.toNat) 1 1) := by
  change execCalAbort dt r op s = _
  exact State.occurs_at at_u awake (State.calTrigger_up _ _ _ up)

end

/-- An operation for a reach that is not ready is a write that is discarded with a post (R79). -/
theorem execCalOperation_down (down : u.reachUp r = false) {i : Instr}
    (operation : i ∈ [Instr.calRecalibration dt r, .calAbsolute dt r n, .calSelftest dt r, .calRollback dt r node store, .calAbort dt r op]) :
    exec i s = .next (u.writeIgnored 0x1004) := by
  have discards (f : State → State) : s.occurs dt State.awake (fun t => t.calTrigger r f) = .next (u.writeIgnored 0x1004) :=
    State.occurs_at at_u awake (State.calTrigger_down _ _ _ down)
  simp only [List.mem_cons, List.not_mem_nil, or_false] at operation
  rcases operation with rfl | rfl | rfl | rfl | rfl <;> exact discards _

end
end

/-! ### QRP CAL (R543) -/

section
variable {s : State} {id : BitVec 32} {v : Word} (runs : bit v 31 = false)
include runs

theorem State.qrpCal_load (load : bits v 2 0 = 6) : s.qrpCal id v = s.loadSet.respond id 0x30 stCompleted 0 [] := by
  rw [State.qrpCal, runs, load]
  rfl

section
variable (recal : bits v 2 0 = 1)
include recal

theorem State.qrpCal_recal_down (down : s.reachUp (Fin.ofNat 4 (bits v 9 8)) = false) : s.qrpCal id v = s.refuse id 0x30 0x83 := by
  rw [State.qrpCal, runs, recal]
  exact if_neg (Bool.eq_false_iff.1 down)

theorem State.qrpCal_recal_up (up : s.reachUp (Fin.ofNat 4 (bits v 9 8)) = true) : s.qrpCal id v =
    let q := s.request (Fin.ofNat 4 (bits v 9 8)) { kind := .recal, cmds := [id] }
    if q.2 = 0 then q.1 else s.refuse id 0x30 q.2 := by
  simp only [State.qrpCal, runs, recal, if_neg Bool.false_ne_true, if_pos up, State.calRun_recal] <;> rfl

end
end

theorem execQrpCal_of {s u : State} {dt : Nat} (at_u : s.advance dt = u) {src : Peer} {id : BitVec 32} {v : Word} (up : u.hostUp = true)
    (own : u.fromCollector src = true) (enabled : u.host.cmdEn = true) (named : id ≠ 0) (fresh : u.host.cmds.find? (fun c => c.id == id) = none)
    (version : 1 ≤ u.sessionVersion) (room : u.host.open_.length < 32) :
    exec (.qrpCal dt src id v) s = .next ((u.heard.remember id 0x30).qrpCal id v) := by
  change execQrpCal dt src id v s = _
  exact State.occurs_at at_u rfl (State.command_admitted _ _ _ _ _ _ _ up own enabled named fresh version (.inr room))

/-- Settles O55: each operation goes by whether its reach is ready (`State.calTrigger`), LOAD by none, and an admitted QRP CAL by its word
(`State.qrpCal`). -/
theorem calCommands : Obligations.CalCommands := by
  intro s dt r n node op store src id v u w ignored
  refine ⟨fun awake => ⟨fun up => ⟨execCalRecalibration_up rfl awake up, execCalAbsolute_free rfl awake up,
      execCalAbsolute_blocked rfl awake up, execCalSelftest_up rfl awake up, execCalRollback_up rfl awake up, execCalAbort_up rfl awake up⟩,
      fun down i => execCalOperation_down rfl awake down, execCalApplySet_up rfl awake, execCalApplySet_down rfl awake,
      execCalLoad_of rfl awake⟩,
    fun up own enabled named fresh version room runs => ?_⟩
  rw [execQrpCal_of rfl up own enabled named fresh version room]
  exact ⟨fun load => congrArg Host.Outcome.next (State.qrpCal_load runs load),
    fun recal down => congrArg Host.Outcome.next (State.qrpCal_recal_down runs recal down),
    fun recal ready => congrArg Host.Outcome.next (State.qrpCal_recal_up runs recal ready)⟩

/-! ### Temperatures and self-tests (R398, R422, R423) -/

theorem fallowPs_eq : fallowPs = 4 * 10 ^ 10 := by norm_num [fallowPs, msPs]

/-- The VTN-8120 has reaches A and B. -/
theorem State.reachExists_eq {s : State} {small : Bool} (part : s.part.is8120 = small) (r : Fin 4) :
    s.reachExists r = !(small && decide (2 ≤ r.val)) := by
  rw [State.reachExists, part]

section
variable {s u : State} {dt : Nat} (at_u : s.advance dt = u)
include at_u

section
variable {tA tB tC tD : Int} (serving : u.serving = true) (due : ∀ p, u.upkeep[(0 : Fin 4)].tempPs = some p → p + 10 ^ 11 ≤ u.clock)
include serving due

theorem execTempSensorRead_due : exec (.tempSensorRead dt tA tB tC tD) s = .next
    (u.forEach ([((0 : Fin 4), tA), (1, tB), (2, tC), (3, tD)].filter (fun p => u.reachExists p.1)) (fun p t => t.tempRead p.1 p.2)) := by
  change execTempSensorRead dt tA tB tC tD s = _
  have period : 100 * msPs = 10 ^ 11 := by norm_num [msPs]
  exact State.occurs_at at_u (by rw [serving, period, Bool.true_and]; exact State.since_of due) rfl

theorem execTempSensorRead_8120 (small : u.part.is8120 = true) :
    exec (.tempSensorRead dt tA tB tC tD) s = .next ((u.tempRead 0 tA).tempRead 1 tB) := by
  rw [execTempSensorRead_due at_u serving due]
  simp [State.forEach, State.reachExists_eq small]

theorem execTempSensorRead_8140 (full : u.part.is8120 = false) :
    exec (.tempSensorRead dt tA tB tC tD) s = .next ((((u.tempRead 0 tA).tempRead 1 tB).tempRead 2 tC).tempRead 3 tD) := by
  rw [execTempSensorRead_due at_u serving due]
  simp [State.forEach, State.reachExists_eq full]

end

/-- Every SELFTEST_PERIOD minutes (R422). -/
theorem execSelftestDue_due (serving : u.serving = true) (enabled : bits u.cal.ctrl 15 0 ≠ 0)
    (due : u.selftestPs + bits u.cal.ctrl 15 0 * 60 * 10 ^ 12 ≤ u.clock) : exec (.selftestDue dt) s = .next
      (({ u with selftestPs := u.clock } : State).forEach (allReaches.filter u.reachUp) (fun r t => t.ownRequest r .selftest)) := by
  change execSelftestDue dt s = _
  exact State.occurs_at at_u (by rw [serving, bne_iff_ne.2 enabled, secPs_eq, decide_eq_true due]; rfl) rfl

theorem execSelftestDue_early (early : u.clock < u.selftestPs + bits u.cal.ctrl 15 0 * 60 * 10 ^ 12) :
    exec (.selftestDue dt) s = .next u := by
  change execSelftestDue dt s = _
  exact State.occurs_not_at at_u (by rw [secPs_eq, decide_eq_false (Nat.not_le.2 early), Bool.and_false])

section
variable {r : Fin 4} {a : Activity}

section
variable {bad : List Mismatch} (runs : u.runOf r .selftest = some a)
include runs

theorem execSelftestComplete_over (up : u.reachUp r = true) (elapsed : a.startedPs + 10 ^ 9 ≤ u.clock) :
    exec (.selftestComplete dt r bad) s = .next (u.selftestEnd r bad a) := by
  change execSelftestComplete dt r bad s = _
  exact State.occurs_at at_u up (State.withSome_of (by rw [runs, Option.filter_some, msPs_eq, if_pos (decide_eq_true elapsed)]))

theorem execSelftestComplete_early (early : u.clock < a.startedPs + 10 ^ 9) : exec (.selftestComplete dt r bad) s = .next u := by
  change execSelftestComplete dt r bad s = _
  refine State.occurs_idle_at at_u (State.withSome_of_none ?_)
  rw [runs, Option.filter_some, msPs_eq, if_neg (by rw [decide_eq_false (Nat.not_le.2 early)]; decide)]

end

/-! ### Admissions, commit points and the fallow rotation (R111, R113, R403, R405, R425) -/

section
variable (up : u.reachUp r = true)
include up

theorem execMaintenanceAdmit_of {t : State} (settled : u.forEach allReaches (fun q t => t.calSettle q) = t)
    (admitted : t.admissible r = some a) : exec (.maintenanceAdmit dt r) s = .next
      ((t.modUpkeep r (fun x => { x with queue := x.queue.erase a })).startRun r a) := by
  subst settled
  change execMaintenanceAdmit dt r s = _
  exact State.occurs_at at_u up (State.withSome_of admitted)

section
variable (quiet : u.burstIn r = false)
include quiet

theorem execCalCommitPoint_quiet : exec (.calCommitPoint dt r) s = .next (u.calCommit r) := by
  change execCalCommitPoint dt r s = _
  exact State.occurs_at at_u (by rw [up, quiet]; rfl) rfl

theorem execFallowTrimCommit_quiet : exec (.fallowTrimCommit dt r) s = .next
    (u.modFallow r (fun f => { f with trims := f.waiting.foldl (fun v p => v.set p.1 p.2) f.trims, waiting := [] })) := by
  change execFallowTrimCommit dt r s = _
  exact State.occurs_at at_u (by rw [up, quiet]; rfl) rfl

end

/-- The 17th boundary of a rotation is its end (R406). -/
theorem execFallowBoundary_due {e : TrimError} {spur : Int} (free : u.fallowSuspended r = false)
    (due : u.fallow[r].boundPs + 4 * 10 ^ 10 ≤ u.clock) {v : State}
    (bounded : u.modFallow r (fun f => f.boundary e u.clock (u.burstIn r)) = v) : exec (.fallowBoundary dt r e spur) s = .next
      (if (u.fallow[r].periods + 1) % 17 = 0 then v.rotationDone r spur else v) := by
  subst bounded
  change execFallowBoundary dt r e spur s = _
  refine State.occurs_at at_u (by rw [up, free, fallowPs_eq, decide_eq_true due]; rfl) ?_
  dsimp only
  rw [State.modFallow_same]
  rfl

end

theorem execCalCommitPoint_burst (burst : u.burstIn r = true) : exec (.calCommitPoint dt r) s = .next u := by
  change execCalCommitPoint dt r s = _
  exact State.occurs_not_at at_u (by rw [burst, Bool.not_true, Bool.and_false])

theorem execFallowBoundary_idle {e : TrimError} {spur : Int}
    (idle : u.fallowSuspended r = true ∨ u.clock < u.fallow[r].boundPs + 4 * 10 ^ 10) : exec (.fallowBoundary dt r e spur) s = .next u := by
  change execFallowBoundary dt r e spur s = _
  refine State.occurs_not_at at_u ?_
  rcases idle with suspended | early
  · rw [suspended, Bool.not_true, Bool.and_false, Bool.false_and]
  · rw [fallowPs_eq, decide_eq_false (Nat.not_le.2 early), Bool.and_false]

end
end

section
variable {f : Fallow} {e : TrimError} {now : Nat} (measured : f.swept now = false)
include measured

theorem Fallow.boundary_trims_quiet : (f.boundary e now false).trims = f.trims.set f.index (trimStep f.trims[f.index] e) := by
  simp [Fallow.boundary, measured]

theorem Fallow.boundary_waiting_burst : (f.boundary e now true).waiting = f.waiting ++ [(f.index, trimStep f.trims[f.index] e)] := by
  simp [Fallow.boundary, measured]

end

theorem Fallow.boundary_trims_burst (f : Fallow) (e : TrimError) (now : Nat) : (f.boundary e now true).trims = f.trims := by
  simp [Fallow.boundary]

/-- Settles O54: each event goes by its due time and by the burst in its reach, and the rotation's boundary by `Fallow.boundary`. -/
theorem maintenanceEvents : Obligations.MaintenanceEvents := by
  intro s dt n r tA tB tC tD spur e bad a u f l bounded trim
  refine ⟨fun serving due => ⟨execTempSensorRead_8120 rfl serving due, execTempSensorRead_8140 rfl serving due⟩,
    execSelftestDue_due rfl, execSelftestDue_early rfl,
    fun up => ⟨execMaintenanceAdmit_of rfl up rfl,
      fun runs => ⟨execSelftestComplete_over rfl runs up, execSelftestComplete_early rfl runs⟩,
      execCalCommitPoint_quiet rfl up, execCalCommitPoint_burst rfl, fun free due => ?_, execFallowBoundary_idle rfl,
      execFallowTrimCommit_quiet rfl up⟩,
    fun measured => ⟨Fallow.boundary_trims_quiet measured, f.boundary_trims_burst e n, Fallow.boundary_waiting_burst measured⟩, rfl, rfl⟩
  rw [execFallowBoundary_due rfl up free due (rfl : bounded = bounded)]
  exact ⟨fun within => congrArg Host.Outcome.next (if_neg within), fun rotated => congrArg Host.Outcome.next (if_pos rotated)⟩

end Sys2Proof.Machine

/-! ## Configuration, image and journal: the OTP store, the KEYS block, the journal's records and its commands -/

namespace Sys2Proof.Machine

/-! ### The bounds at reset, and the OTP store -/

/-- Settles O3: at reset the flash is blank, the mailbox empty, the fraction 0 and no OTP operation runs. -/
theorem resetIsSound : Obligations.ResetIsSound where
  flash := State.reset_flash_wf
  ring := by decide
  ptr := by decide
  second := by decide
  otp := by
    intro n k busy
    cases busy

/-- What a step keeps of the state before it, but for the queue of commands. -/
theorem step_keeps {s t : State} (stepped : step s = .next t) : ∃ rest, Keeps { s with pending := rest } t := by
  cases queue : s.pending with
  | nil =>
    rw [stepRunsFrontCommand.2 s queue] at stepped
    obtain rfl := Host.Outcome.next.inj stepped
    exact ⟨s.pending, s.advance_keeps 1⟩
  | cons c rest =>
    rw [step_of_front queue] at stepped
    obtain ⟨u, next, keeps⟩ := exec_keeps c { s with pending := rest }
    obtain rfl : u = t := Host.Outcome.next.inj (next.symm.trans stepped)
    exact ⟨rest, keeps⟩

/-- Settles O5: every step keeps what is programmed (`step_keeps`), and a reset puts the fuses into effect as it leaves them. -/
theorem otpOnlyGains : Obligations.OtpOnlyGains := by
  constructor
  · intro s t sound stepped
    obtain ⟨rest, keeps⟩ := step_keeps stepped
    exact ⟨keeps.slot (sound.withPending rest), keeps.auth, keeps.still⟩
  · intro s dt us low
    exact ⟨_, execReset_of low, rfl, rfl⟩

/-! ### The bytes of an appended record (R490) -/

/-- Header and payload of a record (Table 13.9). -/
theorem JRec.length_bytes (r : JRec) (commit : Byte) : (r.bytes commit).length = 16 + r.payload.length := by
  simp only [JRec.bytes, bytesOf, List.length_append, List.length_cons, List.length_nil]

/-- A record is programmed at the end of the log (R490). -/
theorem State.programRecord_flash (s : State) (typ key : Nat) (p : List Byte) (commit : Byte) :
    (s.programRecord typ key p commit).flash =
      Memory.program s.flash s.journal.next (JRec.bytes ⟨typ, key, s.journal.seq + 1, p⟩ commit) := by
  simp only [State.programRecord]

/-- Settles O33: the record's bytes are programmed at the end of the log, and programming only clears bits. -/
theorem appendedRecordBytes : Obligations.AppendedRecordBytes := by
  intro s typ key a p commit t head rest start bytes wf
  have record : JRec.bytes ⟨typ, key, s.journal.seq + 1, p⟩ commit = bytes := by simp only [JRec.bytes, bytes, head, rest]
  have length : bytes.length = 16 + p.length := by rw [← record, JRec.length_bytes]
  have flash : t.flash = Memory.program s.flash start bytes := by
    rw [State.programRecord_flash, record]
    rfl
  rw [flash]
  refine ⟨fun outside => Memory.read_program_other _ _ _ _ (by omega), fun i h => Memory.read_program_same _ _ _ _ wf h, ?_, rfl⟩
  exact (Nat.add_assoc ..).symm

end Sys2Proof.Machine

namespace Sys2Proof.Machine

/-! ### The KEYS block (R485, R486) -/

section
variable {k : Keys} {confirm : BitVec 16} {op : Nat} {slot : Fin 8}

theorem Keys.refusal_unconfirmed (other : confirm ≠ 0x4B59) : k.refusal confirm op slot = 3 := if_pos other

theorem Keys.refusal_fuse (fuse : op ≠ 1) : k.refusal 0x4B59 op slot = 0 := by
  simp [Keys.refusal, fuse]

theorem Keys.refusal_holds (holds : k.slotSet slot = true) : k.refusal 0x4B59 1 slot = 1 := by
  simp [Keys.refusal, holds]

theorem Keys.refusal_zero (free : k.slotSet slot = false) (zero : k.word = 0) : k.refusal 0x4B59 1 slot = 2 := by
  simp [Keys.refusal, free, zero]

theorem Keys.refusal_free (free : k.slotSet slot = false) (key : k.word ≠ 0) : k.refusal 0x4B59 1 slot = 0 := by
  rw [Keys.refusal, if_neg (by decide), if_neg (by simp [free]), if_neg (fun zero => key zero.2)]

/-- A command while an operation runs is ignored. -/
theorem Keys.command_ignored (busy : k.busy.isSome = true) : k.command confirm op slot = k.wipe := if_pos busy

section
variable (idle : k.busy = none)
include idle

theorem Keys.command_begins (taken : k.refusal confirm op slot = 0) :
    k.command confirm op slot = { k with busy := some (op, slot, k.word), dataPs := none, result := 0 } := by
  rw [Keys.command, if_neg (by simp [idle]), if_neg (not_not.2 taken)]

theorem Keys.command_refused {n : Nat} (refused : k.refusal confirm op slot = n) (reason : n ≠ 0) :
    k.command confirm op slot = { k.wipe with result := n } := by
  subst refused
  rw [Keys.command, if_neg (by simp [idle]), if_pos reason]

end
end

section
variable {s u : State} {dt : Nat} (at_u : s.advance dt = u) (awake : u.awake = true)
include at_u awake

theorem execKeysDataWrite_of (n : Fin 4) (v : Word) : exec (.keysDataWrite dt n v) s = .next (u.writeKeyData n v) := by
  change execKeysDataWrite dt n v s = _
  exact State.occurs_at at_u awake rfl

theorem execKeysDataClear_of {p : Nat} (idle : u.keys.busy = none) (written : u.keys.dataPs = some p) (passed : p + 10 ^ 12 ≤ u.clock) :
    exec (.keysDataClear dt) s = .next { u with keys := u.keys.wipe } := by
  change execKeysDataClear dt s = _
  refine State.occurs_at at_u ?_ rfl
  simp only [awake, idle, written, secPs_eq, decide_eq_true passed, Option.isNone_none, Bool.and_self]

section
variable {confirm : BitVec 16} {slot : Fin 8} {k : Keys}

theorem execKeysProgramKey_of (commanded : u.keys.command confirm 1 slot = k) :
    exec (.keysProgramKey dt confirm slot) s = .next { u with keys := k } := by
  subst commanded
  change execKeysProgramKey dt confirm slot s = _
  exact State.occurs_at at_u awake rfl

theorem execKeysBlowAuthReq_of (commanded : u.keys.command confirm 2 0 = k) :
    exec (.keysBlowAuthReq dt confirm) s = .next { u with keys := k } := by
  subst commanded
  change execKeysBlowAuthReq dt confirm s = _
  exact State.occurs_at at_u awake rfl

theorem execKeysBlowStillOff_of (commanded : u.keys.command confirm 3 0 = k) :
    exec (.keysBlowStillOff dt confirm) s = .next { u with keys := k } := by
  subst commanded
  change execKeysBlowStillOff dt confirm s = _
  exact State.occurs_at at_u awake rfl

end

theorem execKeysOperationEnd_of {op : Nat} {slot : Fin 8} {key : BitVec 128} (runs : u.keys.busy = some (op, slot, key)) (ok : Bool) :
    exec (.keysOperationEnd dt ok) s = .next (u.keysEnd op slot key ok) := by
  change execKeysOperationEnd dt ok s = _
  exact State.occurs_at at_u awake (State.withSome_of runs)

end

/-- Settles O35: a command goes by `Keys.command`, whose outcome is that of `Keys.refusal`, and the operation's end by `State.keysEnd`. -/
theorem keysBlock : Obligations.KeysBlock := by
  intro s dt n v confirm slot key u k wiped awake
  have program {c : BitVec 16} {k : Keys} := execKeysProgramKey_of (s := s) (dt := dt) rfl awake (confirm := c) (slot := slot) (k := k)
  have auth {c : BitVec 16} {k : Keys} := execKeysBlowAuthReq_of (s := s) (dt := dt) rfl awake (confirm := c) (k := k)
  have still {c : BitVec 16} {k : Keys} := execKeysBlowStillOff_of (s := s) (dt := dt) rfl awake (confirm := c) (k := k)
  refine ⟨execKeysDataWrite_of rfl awake n v, fun p idle written passed => execKeysDataClear_of rfl awake idle written passed,
    fun idle => ⟨fun free key => program (Keys.command_begins idle (Keys.refusal_free free key)),
      fun holds => program (Keys.command_refused idle (Keys.refusal_holds holds) one_ne_zero),
      fun free zero => program (Keys.command_refused idle (Keys.refusal_zero free zero) two_ne_zero),
      auth (Keys.command_begins idle (Keys.refusal_fuse (by decide))),
      still (Keys.command_begins idle (Keys.refusal_fuse (by decide))), fun other => ?_⟩,
    fun busy => ⟨program (Keys.command_ignored busy), auth (Keys.command_ignored busy), still (Keys.command_ignored busy)⟩,
    fun runs => execKeysOperationEnd_of rfl awake runs true, fun runs => execKeysOperationEnd_of rfl awake runs true,
    fun runs => execKeysOperationEnd_of rfl awake runs true, fun busy => ?_⟩
  · have refused {op : Nat} {slot : Fin 8} : k.command confirm op slot = { wiped with result := 3 } :=
      Keys.command_refused idle (Keys.refusal_unconfirmed other) three_ne_zero
    exact ⟨program refused, auth refused, still refused⟩
  · obtain ⟨⟨op, slot, key⟩, runs⟩ := Option.isSome_iff_exists.1 busy
    exact execKeysOperationEnd_of rfl awake runs false

end Sys2Proof.Machine

namespace Sys2Proof.Machine

/-! ### The operations of JOURNAL_CMD (R81, R498, R501) -/

/-- A flash operation goes by its region: below 16 MiB and clear of the journal's banks (R501). -/
theorem State.flashOp_eq (s : State) (a n : Nat) (op : FlashOp) :
    s.flashOp a n op = if 16777216 < a + n ∨ (s.journal.base ≠ 0 ∧ a < s.journal.base * 65536 + 2 * bankBytes ∧ s.journal.base * 65536 < a + n)
      then { s with journal := { s.journal with result := 5 } } else s.windowSession (.flash op) := by
  simp only [State.flashOp, State.regionRefused, Bool.or_eq_true, Bool.and_eq_true, decide_eq_true_eq, bne_iff_ne, and_assoc]

section
variable {s u : State} {dt : Nat} {f : State → State} (at_u : s.advance dt = u) (awake : u.awake = true)
include at_u awake

theorem State.occurs_journalOp_busy (busy : u.journal.busy = true) :
    s.occurs dt State.awake (fun t => t.journalOp f) = .next (u.post 7 0xFF 0xFFFF 0x70 0 (bytesOf 2 0x201C)) :=
  State.occurs_at at_u awake (u.journalOp_busy f busy)

theorem State.occurs_journalOp_idle (idle : u.journal.busy = false) :
    s.occurs dt State.awake (fun t => t.journalOp f) = .next (f u) :=
  State.occurs_at at_u awake (u.journalOp_idle f idle)

end

/-- Settles O34: each operation is taken unless one runs (`State.journalOp`), and those of the flash go by `State.flashOp_eq`. -/
theorem journalCommands : Obligations.JournalCommands := by
  intro s dt len key u a ignored flash awake
  have region (at_ n : Nat) (op : FlashOp) : flash at_ n op = u.flashOp at_ n op := (State.flashOp_eq u at_ n op).symm
  constructor
  · intro busy i operation
    have refused {f : State → State} : s.occurs dt State.awake (fun t => t.journalOp f) = .next ignored :=
      State.occurs_journalOp_busy rfl awake busy
    simp only [List.mem_cons, List.not_mem_nil, or_false] at operation
    rcases operation with rfl | rfl | rfl | rfl | rfl | rfl | rfl <;> exact refused
  · intro idle
    simp only [region]
    have taken {f : State → State} : s.occurs dt State.awake (fun t => t.journalOp f) = .next (f u) :=
      State.occurs_journalOp_idle rfl awake idle
    exact ⟨taken, taken, taken, taken, taken, taken, taken⟩

/-! ### Appends, compactions and the replay (R490 to R498) -/

section
variable {s u : State} {dt : Nat} (at_u : s.advance dt = u) (awake : u.awake = true)
include at_u awake

section
variable {cls typ key : Nat} {p : List Byte} {w : Bool}

theorem execJournalAppend_of (runs : u.journal.running = some ⟨.append cls typ key p, w⟩) (ok : Bool) :
    exec (.journalAppend dt ok) s = .next (u.appendEnd ⟨.append cls typ key p, w⟩ typ key p ok) := by
  change execJournalAppend dt ok s = _
  exact State.occurs_at at_u awake (State.withSome_of runs)

theorem execJournalCompaction_of (runs : u.journal.running = some ⟨.compact cls, w⟩) (ok : Bool) :
    exec (.journalCompaction dt ok) s = .next (u.compactEnd ⟨.compact cls, w⟩ ok) := by
  change execJournalCompaction dt ok s = _
  exact State.occurs_at at_u awake (State.withSome_of runs)

end

section
variable (free : u.journal.running = none) (ok : Bool)
include free

theorem execJournalAppend_free : exec (.journalAppend dt ok) s = .next u := by
  change execJournalAppend dt ok s = _
  exact State.occurs_at at_u awake (State.withSome_of_none free)

theorem execJournalCompaction_free : exec (.journalCompaction dt ok) s = .next u := by
  change execJournalCompaction dt ok s = _
  exact State.occurs_at at_u awake (State.withSome_of_none free)

end

theorem execJournalReplayComplete_of (loaded : u.image.accepted = true ∨ u.image.refused = true) (unready : u.journal.ready = false) :
    exec (.journalReplayComplete dt) s = .next u.replayDone := by
  change execJournalReplayComplete dt s = _
  exact State.occurs_at at_u (by simp [awake, loaded, unready]) rfl

end

/-- The flash with the active bank, its generation and the failed compactions in a row. -/
def State.store (s : State) : List Host.Cell × Fin 2 × BitVec 32 × Nat :=
  (s.flash, s.journal.bank, s.journal.gen, s.journal.failedCompactions)

section
variable (s : State)

theorem State.windowOutcome_running (j : Session) (n : Nat) : (s.windowOutcome j n).journal.running = s.journal.running := by
  unfold State.windowOutcome
  split <;> rfl

theorem State.windowOutcome_store (j : Session) (n : Nat) : (s.windowOutcome j n).store = s.store := by
  unfold State.windowOutcome
  split <;> rfl

/-- A session starts without a change of flash or bank; only a flash operation acts at once (R501). -/
theorem State.journalStart_store {j : Session} (journalled : ∀ op, j.job ≠ .flash op) : (s.journalStart j).store = s.store := by
  unfold State.journalStart
  split
  · exact absurd ‹_› (journalled _)
  · exact absurd ‹_› (journalled _)
  · split <;> rfl

theorem State.journalRequest_store {j : Session} (journalled : ∀ op, j.job ≠ .flash op) : (s.journalRequest j).1.store = s.store := by
  unfold State.journalRequest
  split
  · rfl
  · split
    · exact s.journalStart_store journalled
    · rfl

theorem State.compactionDue_store : s.compactionDue.store = s.store := by
  unfold State.compactionDue
  split
  · rfl
  · split
    · exact s.journalStart_store (fun _ => Job.noConfusion)
    · rfl

theorem State.faultRecord_store (e : MboxEntry) : (s.faultRecord e).store = s.store := by
  unfold State.faultRecord
  split
  · rfl
  · exact State.journalRequest_store _ (fun _ => Job.noConfusion)

theorem State.post_store (src reach ctx code sev : Nat) (data : List Byte) : (s.post src reach ctx code sev data).store = s.store :=
  State.faultRecord_store _ _

theorem State.post_minor_running (src reach ctx code : Nat) (data : List Byte) :
    (s.post src reach ctx code 0 data).journal.running = s.journal.running := by
  rw [s.post_minor src reach ctx code 0 data (by decide)]

/-- The end of a compaction whose read-back agrees (R498). -/
theorem State.compactEnd_ok (j : Session) :
    (s.compactEnd j true).store =
      (Memory.erase s.newBank.1 (bankAddr s.journal.base s.journal.bank) bankBytes, s.journal.bank + 1, s.journal.gen + 1, 0) ∧
    (s.compactEnd j true).journal.running = none := by
  unfold State.compactEnd
  generalize s.newBank = new
  simp only [↓reduceIte]
  split <;> exact ⟨(State.post_store ..).trans (State.windowOutcome_store ..),
    (State.post_minor_running ..).trans (State.windowOutcome_running ..)⟩

/-- The end of the first compaction in a row whose read-back fails (R491). -/
theorem State.compactEnd_failed (j : Session) (first : s.journal.failedCompactions = 0) :
    (s.compactEnd j false).store =
      (Memory.erase s.flash (bankAddr s.journal.base (s.journal.bank + 1)) bankBytes, s.journal.bank, s.journal.gen, 1) := by
  unfold State.compactEnd
  simp only [Bool.false_eq_true, ↓reduceIte, first]
  exact (State.compactionDue_store _).trans ((State.post_store ..).trans (State.windowOutcome_store ..))

end

section
variable {s : State} (based : s.journal.base ≠ 0)

theorem State.replayDone_none (baseless : s.journal.base = 0) :
    s.replayDone = { s with journal := { s.journal with ready := true, noJournal := true } } := if_pos baseless

include based

theorem State.replayDone_bank {b : Fin 2} {g : BitVec 32} (active : activeBank s.flash s.journal.base = some (b, g)) :
    s.replayDone = s.replayBank b g := by
  rw [State.replayDone, if_neg based, active]

theorem State.replayDone_formats (unformatted : activeBank s.flash s.journal.base = none) : s.replayDone =
    ({ s with journal := { s.journal with ready := true, bank := 1, gen := 0, fill := 32, seq := 0 } } : State).compactionDue := by
  rw [State.replayDone, if_neg based, unformatted]
  rfl

end

/-- Settles O32: an append ends by `State.appendEnd`, a compaction by `State.compactEnd`, and the replay by the banks that are committed. -/
theorem journalAppendAndCompaction : Obligations.JournalAppendAndCompaction := by
  constructor
  · intro s dt cls typ key p w ok u idle awake
    refine ⟨fun runs => ⟨execJournalAppend_of rfl awake runs true, execJournalAppend_of rfl awake runs false⟩, fun runs => ?_,
      fun runs first => ?_, fun free => ⟨execJournalAppend_free rfl awake free ok, execJournalCompaction_free rfl awake free ok⟩⟩
    · obtain ⟨store, ended⟩ := u.compactEnd_ok ⟨.compact cls, w⟩
      obtain ⟨flash, bank, gen, -⟩ := by simpa only [State.store, Prod.mk.injEq] using store
      exact ⟨_, execJournalCompaction_of rfl awake runs true, bank, gen, ended, flash⟩
    · have store := u.compactEnd_failed ⟨.compact cls, w⟩ first
      obtain ⟨flash, bank, gen, failed⟩ := by simpa only [State.store, Prod.mk.injEq] using store
      exact ⟨_, execJournalCompaction_of rfl awake runs false, bank, gen, failed, flash⟩
  · intro s dt u awake loaded unready
    rw [execJournalReplayComplete_of rfl awake loaded unready]
    exact ⟨fun baseless => congrArg Host.Outcome.next (State.replayDone_none baseless),
      fun based b g active => congrArg Host.Outcome.next (State.replayDone_bank based active),
      fun based none => congrArg Host.Outcome.next (State.replayDone_formats based none)⟩

end Sys2Proof.Machine

/-! ## Key material, and registers at reset -/

namespace Sys2Proof.Machine

/-! ### What CAL_STATUS shows -/

section
variable (s : State)

/-- Records of the part itself leave the contexts as they are. -/
theorem State.release_part_ctxs {x : Record} (own : 256 ≤ x.ctx) : (s.release x).ctxs = s.ctxs := by
  unfold State.release State.bumpReleased
  rw [State.enqueue_ctxs, dif_neg (Nat.not_lt.2 own)]

theorem State.emit_part_ctxs {ctx : Nat} (own : 256 ≤ ctx) (typ : Nat) (reach : Option (Fin 4)) (stamp : Nat) (payload : List Byte) :
    (s.emit typ ctx reach stamp payload).ctxs = s.ctxs :=
  State.release_part_ctxs s own

theorem State.respondOne_ctxs (id : BitVec 32) (op status reason : Nat) (result : List Byte) :
    (s.respondOne id op status reason result).ctxs = s.ctxs := by
  unfold State.respondOne State.response
  dsimp only
  rw [State.emit_part_ctxs _ (by decide)]

theorem State.foldl_ctxs {α : Type} {f : State → α → State} (step : ∀ s a, (f s a).ctxs = s.ctxs) (l : List α) :
    (l.foldl f s).ctxs = s.ctxs := by
  induction l generalizing s with
  | nil => rfl
  | cons a l ih => rw [List.foldl_cons, ih, step]

theorem State.respond_ctxs (id : BitVec 32) (op status reason : Nat) (result : List Byte) :
    (s.respond id op status reason result).ctxs = s.ctxs := by
  unfold State.respond
  dsimp only
  split
  · exact State.respondOne_ctxs ..
  · rw [State.foldl_ctxs _ (fun u p => State.respondOne_ctxs ..)]
    dsimp only
    rw [State.respondOne_ctxs]

theorem State.endActivity_ctxs (r : Fin 4) (a : Activity) (q : CalReport) (qrp : Nat) : (s.endActivity r a q qrp).ctxs = s.ctxs := by
  unfold State.endActivity State.forEach State.calReport
  dsimp only
  rw [State.foldl_ctxs _ (fun u id => State.respond_ctxs ..), State.emit_part_ctxs _ (by decide)]

theorem State.foldl_upkeep {α : Type} {f : State → α → State} (step : ∀ s a, (f s a).upkeep = s.upkeep) (l : List α) :
    (l.foldl f s).upkeep = s.upkeep := by
  induction l generalizing s with
  | nil => rfl
  | cons a l ih => rw [List.foldl_cons, ih, step]

theorem State.endActivity_upkeep (r : Fin 4) (a : Activity) (q : CalReport) (qrp : Nat) : (s.endActivity r a q qrp).upkeep = s.upkeep := by
  unfold State.endActivity State.forEach State.calReport
  dsimp only
  rw [State.foldl_upkeep _ (fun u id => State.respond_upkeep ..), State.emit_upkeep]

end

/-- What the byte of a reach in CAL_STATUS is made of (Table 11.7). -/
def State.calShown (s : State) (r : Fin 4) : Option ActKind × Nat × Bool :=
  (s.upkeep[r].running.map Activity.kind, s.upkeep[r].queue.length, s.migratingInto r)

section
variable {s : State} {r : Fin 4}

theorem State.calShown_modUpkeep (f : Upkeep → Upkeep) : (s.modUpkeep r f).calShown r =
    ((f s.upkeep[r]).running.map Activity.kind, (f s.upkeep[r]).queue.length, s.migratingInto r) := by
  unfold State.calShown
  rw [State.modUpkeep_same]
  rfl

theorem State.holdSlot_kind (f now : Nat) (a : Activity) : (s.holdSlot r f now a).kind = a.kind := by
  unfold State.holdSlot
  split
  · rfl
  · split <;> rfl

theorem State.running_of_runOf {k : ActKind} {a : Activity} {p : Activity → Bool} (run : (s.runOf r k).filter p = some a) :
    s.upkeep[r].running = some a :=
  (Option.filter_eq_some_iff.1 (Option.filter_eq_some_iff.1 run).1).1

/-- Neither the slot of a point nor its switch closing shows there. -/
theorem State.closeSwitch_calShown : (s.closeSwitch r).calShown r = s.calShown r := by
  unfold State.closeSwitch State.withSome
  split
  case h_1 a run =>
    rw [State.calShown_modUpkeep, State.calShown, State.running_of_runOf run]
    rfl
  case h_2 => rfl

theorem State.retrySlot_calShown : (s.retrySlot r).calShown r = s.calShown r := by
  unfold State.retrySlot State.withSome
  split
  case h_1 a run =>
    dsimp only
    split
    · rw [State.calShown_modUpkeep, State.calShown, State.running_of_runOf run]
      dsimp only
      rw [Option.map_some, Option.map_some, State.holdSlot_kind]
    · rfl
  case h_2 => rfl

theorem State.calSettle_calShown : (s.calSettle r).calShown r = (s.openSwitch r).calShown r :=
  State.closeSwitch_calShown.trans State.retrySlot_calShown

theorem State.startPoint_calShown (a : Activity) (start : Nat) : (s.startPoint r a start).calShown r =
    (if (s.skipPoints r a.points).1.isEmpty && a.measured.isEmpty then none else some a.kind, s.upkeep[r].queue.length, s.migratingInto r) := by
  unfold State.startPoint
  dsimp only
  cases (s.skipPoints r a.points).1 with
  | cons f l =>
    dsimp only
    rw [State.calShown_modUpkeep, Option.map_some, State.holdSlot_kind]
    rfl
  | nil =>
    dsimp only
    split
    next none_measured =>
      rw [State.calShown, State.migratingInto, State.endActivity_ctxs, State.endActivity_upkeep, none_measured, State.modUpkeep_same]
      rfl
    next measured =>
      rw [State.calShown_modUpkeep, Bool.not_eq_true _ |>.mp measured]
      rfl

/-- The byte of a reach is made of what the settled reach shows. -/
theorem State.calByte_congr {t : State} (shown : (s.calSettle r).calShown r = (t.calSettle r).calShown r) : s.calByte r = t.calByte r := by
  unfold State.calByte
  dsimp only
  simp only [State.calShown, Prod.mk.injEq] at shown
  obtain ⟨kind, queue, into⟩ := shown
  rw [queue, into]
  generalize (s.calSettle r).upkeep[r].running = a at kind ⊢
  generalize (t.calSettle r).upkeep[r].running = b at kind ⊢
  cases a with
  | none => rw [Option.map_none, eq_comm, Option.map_eq_none_iff] at kind; rw [kind]
  | some a =>
    obtain ⟨b, rfl, same⟩ := Option.map_eq_some_iff.1 kind.symm
    dsimp only
    rw [same]

variable {k : Keys}

theorem State.skipPoints_keys (l : List Nat) : ({ s with keys := k } : State).skipPoints r l = s.skipPoints r l := by
  induction l with
  | nil => rfl
  | cons f l ih =>
    unfold State.skipPoints
    rw [ih]
    rfl

theorem State.startPoint_keys (a : Activity) (start : Nat) :
    (({ s with keys := k } : State).startPoint r a start).calShown r = (s.startPoint r a start).calShown r := by
  rw [State.startPoint_calShown, State.startPoint_calShown, State.skipPoints_keys]
  rfl

theorem State.openSwitch_keys : (({ s with keys := k } : State).openSwitch r).calShown r = (s.openSwitch r).calShown r := by
  have ends : ({ s with keys := k } : State).burstEndPs r = s.burstEndPs r := rfl
  have burst : ({ s with keys := k } : State).burstIn r = s.burstIn r := rfl
  have run : ({ s with keys := k } : State).runOf r .absolute = s.runOf r .absolute := rfl
  unfold State.openSwitch
  simp only [ends, burst, run]
  split
  · rfl
  · split
    · rfl
    · cases s.runOf r .absolute with
      | none => rfl
      | some a => exact State.startPoint_keys (s := s.modUpkeep r (fun u => { u with inject := none })) ..

theorem State.peekCal_keys (a : Nat) : ({ s with keys := k } : State).peekCal a = s.peekCal a := by
  have byte (r : Fin 4) : ({ s with keys := k } : State).calByte r = s.calByte r := State.calByte_congr
    (State.calSettle_calShown.trans (State.openSwitch_keys.trans State.calSettle_calShown.symm))
  unfold State.peekCal
  simp only [byte]

theorem State.stillWord_congr {t : State} (still : t.still = s.still) (part : t.part = s.part) (a : Nat) : t.stillWord a = s.stillWord a := by
  rw [State.stillWord.eq_def, State.stillWord.eq_def s, still, part]

theorem State.peekStill_congr {t : State} (still : t.still = s.still) (part : t.part = s.part) (a : Nat) : t.peekStill a = s.peekStill a := by
  rw [State.peekStill.eq_def, State.peekStill.eq_def s, still, State.stillWord_congr still part]

/-- Of two states that agree but for their keys, only the JOURNAL block can show a difference (Table 15.5). -/
theorem State.peek_keys {t : State} (agree : t = { s with keys := t.keys }) (journal : ∀ a, t.peekJournal a = s.peekJournal a)
    (addr : Addr) : t.peek addr = s.peek addr := by
  have cal (a : Nat) : t.peekCal a = s.peekCal a := by rw [agree, State.peekCal_keys]
  obtain ⟨still, part, rtc⟩ : t.still = s.still ∧ t.part = s.part ∧ t.rtc = s.rtc := by
    rw [agree]
    exact ⟨rfl, rfl, rfl⟩
  have stillwater (a : Nat) : t.peekStill a = s.peekStill a := State.peekStill_congr still part a
  obtain ⟨ident, ready, health, reach, has⟩ : (∀ a, t.peekIdent a = s.peekIdent a) ∧ (∀ a, t.peekReady a = s.peekReady a) ∧
      (∀ a, t.peekHealth a = s.peekHealth a) ∧ (∀ r a, t.peekReach r a = s.peekReach r a) ∧ (∀ r, t.reachExists r = s.reachExists r) := by
    rw [agree]
    exact ⟨fun _ => rfl, fun _ => rfl, fun _ => rfl, fun _ _ => rfl, fun _ => rfl⟩
  obtain ⟨ctx, engine, clock, outfall⟩ : (∀ a, t.peekCtx a = s.peekCtx a) ∧ (∀ a, t.peekEngine a = s.peekEngine a) ∧
      (∀ r a, t.peekRtc r a = s.peekRtc r a) ∧ (∀ a, t.peekOutfall a = s.peekOutfall a) := by
    rw [agree]
    exact ⟨fun _ => rfl, fun _ => rfl, fun _ _ => rfl, fun _ => rfl⟩
  obtain ⟨tw, host, test⟩ : (∀ a, t.peekTw a = s.peekTw a) ∧ (∀ a, t.peekHost a = s.peekHost a) ∧ (∀ a, t.peekTest a = s.peekTest a) := by
    rw [agree]
    exact ⟨fun _ => rfl, fun _ => rfl, fun _ => rfl⟩
  rw [State.peek.eq_def, State.peek.eq_def s]
  simp only [still, rtc, journal, cal, stillwater, ident, ready, health, reach, has, ctx, engine, clock, outfall, tw, host, test]

end
end Sys2Proof.Machine
namespace Sys2Proof.Machine

/-! ### Key material (R484) -/

section
variable {addr : Addr} (low : 0x2800 ≤ addr.toNat) (high : addr.toNat ≤ 0x2FFF)
include low high

theorem State.peek_keysBlock (s : State) : s.peek addr = 0 := by
  unfold State.peek
  dsimp only
  rw [if_neg (by omega), if_neg (by omega), if_neg (by omega), if_neg (by omega), if_neg (by omega), if_neg (by omega), if_neg (by omega),
    if_neg (by omega), if_neg (by omega), if_neg (by omega), if_neg (by omega), if_neg (by omega), if_pos (by omega)]

theorem qrpRefused_keysBlock : qrpRefused addr = true :=
  decide_eq_true (.inl ⟨low, by omega⟩)

end

/-- One register or pair is taken in every version (Table 14.6). -/
theorem State.countRefusal_one (s : State) : s.countRefusal 1 = 0 := by
  simp [State.countRefusal]

section
variable {s : State}

/-- Of the slots it shows which ones hold a key. -/
theorem State.peekJournal_keys {data : Vector Word 4} {slots : Vector (Option (BitVec 128)) 8}
    (occupied : ∀ n : Fin 8, slots[n].isSome = s.keys.slots[n].isSome) (a : Nat) :
    ({ s with keys := { s.keys with data := data, slots := slots } } : State).peekJournal a = s.peekJournal a := by
  have shown (n : Fin 8) : ({ s.keys with data := data, slots := slots } : Keys).slotSet n = s.keys.slotSet n := by
    simp only [Keys.slotSet, occupied]
  simp only [State.peekJournal, shown]

end

/-- Settles O7: the block lies where a read gives 0 and QRP is refused, and elsewhere only the JOURNAL block looks at the keys. -/
theorem keysAreNeverRead : Obligations.KeysAreNeverRead := by
  refine ⟨fun s dt addr low high => ⟨s.peek_keysBlock low high, fun v => ?_, fun id v => ?_, fun id => ?_⟩,
    fun s addr data slots => ⟨fun block => s.peek_keysBlock block.1 block.2, fun occupied => State.peek_keys
      (t := { s with keys := { s.keys with data := data, slots := slots } }) rfl (State.peekJournal_keys occupied) addr⟩⟩
  · change execRegisterWrite dt .qrp addr v s = _
    refine State.occurs_not _ _ _ _ ?_
    simp only [State.canWrite, qrpRefused_keysBlock low high, Bool.not_true, Bool.and_false]
  · simp [State.qrpWrite, State.countRefusal_one, qrpRefused_keysBlock low high]
  · simp [State.qrpRead, State.countRefusal_one, addrsFrom, qrpRefused_keysBlock low high]

/-- Settles O9: closed facts of the state at reset, one per register. -/
theorem resetRegisterValues : Obligations.ResetRegisterValues := by
  unfold Obligations.ResetRegisterValues
  simp only [List.forall_mem_cons, List.not_mem_nil, false_implies, implies_true, and_true]
  decide +kernel

end Sys2Proof.Machine

/-! ## Register writes and the health window -/

namespace Sys2Proof.Machine

/-! ### Register writes (R8, R13, R561) -/

/-- The bits of a field of a word that holds a byte at bit 8. -/
theorem bits_fieldAt_byte (h : BitVec 8) : BitVec.ofNat 8 (bits (fieldAt h.toNat 8) 15 8) = h := by
  have bound := h.isLt
  apply BitVec.eq_of_toNat_eq
  simp only [bits, fieldAt, BitVec.toNat_ofNat]
  omega

/-- Only HOST_MAX, the TW block's addresses and TW_CMD wait for the end of a transaction (R556, R561, Table 15.10). -/
theorem State.busEnd_other (s : State) (stop : Bool) {a : Nat} (v : Word) (other : a ∉ [0x44, 0x1C00, 0x1C04, 0x1C0C]) :
    s.busEnd stop a v = s := by
  unfold State.busEnd
  split
  case h_5 => rfl
  all_goals exact absurd (by decide) other

section
variable (x : Reach) (b : Bool) (now : Nat)

/-- The blanking interval is none of the registers' values. -/
theorem Reach.blankStep_front : (x.blankStep b now).regs = x.regs ∧ (x.blankStep b now).live = x.live := by
  unfold Reach.blankStep
  split
  case h_2 => split <;> exact ⟨rfl, rfl⟩
  all_goals exact ⟨rfl, rfl⟩

end

section
variable (s : State) (r : Fin 4)

theorem State.blankUpdate_front : (s.blankUpdate r).reaches[r].regs = s.reaches[r].regs ∧ (s.blankUpdate r).reaches[r].live = s.reaches[r].live := by
  unfold State.blankUpdate
  split
  · exact ⟨rfl, rfl⟩
  · obtain ⟨regs, live⟩ := (s.reaches[r].settle s.clock).blankStep_front (s.blankSource r) s.clock
    rw [State.modReach_same, regs, live, Reach.settle_regs, Reach.settle_live]
    exact ⟨rfl, rfl⟩

/-- A front-end register takes its value at once; the value in force follows where the reach is ready (R79). -/
theorem State.writeFront_front (f : FrontRegs → FrontRegs) :
    (s.writeFront r f).reaches[r].regs = f s.reaches[r].regs ∧
    (s.writeFront r f).reaches[r].live = if s.reaches[r].st = .ready then f s.reaches[r].live else s.reaches[r].live := by
  unfold State.writeFront
  rw [(State.blankUpdate_front _ r).1, (State.blankUpdate_front _ r).2, State.modReach_same]
  simp only [Reach.settle_regs, Reach.settle_live, Reach.settle_st, beq_iff_eq, and_self]

end

section
variable {s : State} (unfrozen : s.still.frozen = false) (via : Via) (id : BitVec 32) (v : Word)
include unfrozen

theorem State.writeReg_scratch : s.writeReg via id 0x3F00 v = { s with scratch := v } := by
  simp [State.writeReg, unfrozen]

theorem State.writeReg_readyHealth {addr : Addr} (low : 0x100 ≤ addr.toNat) (high : addr.toNat < 0x400) :
    s.writeReg via id addr v = s.writeReadyHealth (addr.toNat / 4 * 4) v := by
  unfold State.writeReg
  dsimp only
  rw [if_neg (by simp [unfrozen]), if_neg (by omega), if_pos (by omega)]

theorem State.writeReg_version {addr : Addr} (low : addr.toNat < 0x100) :
    s.writeReg via id addr v = s.writeTw (addr.toNat / 4 * 4) v := by
  unfold State.writeReg
  dsimp only
  rw [if_neg (by simp [unfrozen]), if_pos (by omega)]

theorem State.writeReg_reachA {addr : Addr} (low : 0x400 ≤ addr.toNat) (high : addr.toNat < 0x500) :
    s.writeReg via id addr v = s.writeReach 0 (addr.toNat / 4 * 4 % 0x100) v := by
  have reach : Fin.ofNat 4 ((addr.toNat / 4 * 4 - 0x400) / 0x100) = 0 := by
    apply Fin.ext
    simp only [Fin.val_ofNat]
    omega
  unfold State.writeReg
  dsimp only
  rw [if_neg (by simp [unfrozen]), if_neg (by omega), if_neg (by omega), if_pos (by omega), reach, if_pos (by simp [State.reachExists])]

/-- No chapter assigns an address from 0x4000 on (Table 17.1). -/
theorem State.writeReg_unassigned {addr : Addr} (beyond : 0x4000 ≤ addr.toNat) : s.writeReg via id addr v = s := by
  unfold State.writeReg
  dsimp only
  rw [if_neg (by simp [unfrozen]), if_neg (by omega), if_neg (by omega), if_neg (by omega), if_neg (by omega), if_neg (by omega),
    if_neg (by omega), if_neg (by omega), if_neg (by omega), if_neg (by omega), if_neg (by omega), if_neg (by omega), if_neg (by omega),
    if_neg (by omega), if_neg (by omega)]

end

section
variable {s u : State} {dt : Nat} (at_u : s.advance dt = u)
include at_u

theorem execRegisterWrite_of {via : Via} {addr : Addr} (reached : u.canWrite via addr = true) (v : Word) :
    exec (.registerWrite dt via addr v) s = .next (u.writeWhole via 0 addr v) := by
  change execRegisterWrite dt via addr v s = _
  exact State.occurs_at at_u reached rfl

section
variable (awake : u.awake = true)
include awake

/-- The two-wire bus reaches every register of an awake part; one that waits for no end of its transaction takes its value at once. -/
theorem execRegisterWrite_bus {addr : Addr} {v : Word} {t : State} (written : u.writeReg .twoWire 0 addr v = t)
    (other : addr.toNat / 4 * 4 ∉ [0x44, 0x1C00, 0x1C04, 0x1C0C]) : exec (.registerWrite dt .twoWire addr v) s = .next t := by
  have reached : u.canWrite .twoWire addr = true := by simp [State.canWrite, awake]
  rw [execRegisterWrite_of at_u reached, State.writeWhole, State.busEnd_other _ _ _ other, written]

theorem execVersionHandshake_of (h : BitVec 8) : exec (.versionHandshake dt h) s = .next { u with
    tw := { u.tw with hostMax := h, active := if 2 ≤ h.toNat then 2 else u.tw.active } } := by
  have unfrozen := State.unfrozen_of_awake awake
  change execVersionHandshake dt h s = _
  refine State.occurs_at at_u awake ?_
  rw [State.writeWhole, State.writeReg_version unfrozen _ _ _ (by decide), unfrozen]
  simp [State.writeTw, State.busEnd, Tw.handshake, bits_fieldAt_byte]

end
end

/-- Settles O14: a write that the transport lets through is `State.writeWhole`, which each block's write carries out. -/
theorem registerWrites : Obligations.RegisterWrites := by
  constructor
  case right =>
    intro s dt h u awake
    exact execVersionHandshake_of rfl awake h
  intro s dt via addr v u
  refine ⟨fun reached => execRegisterWrite_of rfl reached v, fun awake => ?_⟩
  have unfrozen := State.unfrozen_of_awake awake
  refine ⟨execRegisterWrite_bus rfl awake (State.writeReg_scratch unfrozen ..) (by decide),
    execRegisterWrite_bus rfl awake (State.writeReg_readyHealth unfrozen _ _ _ (by decide) (by decide)) (by decide),
    execRegisterWrite_bus rfl awake (State.writeReg_readyHealth unfrozen _ _ _ (by decide) (by decide)) (by decide),
    ?_, fun beyond => execRegisterWrite_bus rfl awake (State.writeReg_unassigned unfrozen _ _ _ beyond) ?_⟩
  case refine_2 =>
    simp only [List.mem_cons, List.not_mem_nil, or_false]
    omega
  obtain ⟨regs, live⟩ := u.writeFront_front 0 (fun f => { f with spate := v &&& 0x1FF1F })
  refine ⟨_, execRegisterWrite_bus rfl awake (State.writeReg_reachA unfrozen _ _ _ (by decide) (by decide)) (by decide), ?_⟩
  have written : u.writeReach 0 ((0x0424 : Addr).toNat / 4 * 4 % 0x100) v = u.writeFront 0 (fun f => { f with spate := v &&& 0x1FF1F }) := rfl
  rw [written]
  refine ⟨congrArg FrontRegs.spate regs, fun ready => ?_, fun unready => ?_⟩
  · exact congrArg FrontRegs.spate (live.trans (if_pos ready))
  · exact live.trans (if_neg unready)

end Sys2Proof.Machine

namespace Sys2Proof.Machine

/-! ### The health window (R35, R612, R613, R614) -/

/-- The alert goes on while an entry with ALERT is left, or one was skipped (R614). -/
theorem Mailbox.alertLeft_eq (m : Mailbox) : m.alertLeft = { m with
    alertPending := m.alertPending && (m.alertSkip || m.pending.any (fun e => e.alert))
    alertSev := if m.alertSkip || m.pending.any (fun e => e.alert) then m.alertSev else 0 } := by
  unfold Mailbox.alertLeft
  cases m.alertSkip || m.pending.any (fun e => e.alert) <;> simp

section
variable {m : Mailbox}

theorem Mailbox.next_of {e : MboxEntry} {l : List MboxEntry} (pending : m.pending = e :: l) : m.next = { m with
    pending := l, rdPtr := (m.rdPtr + 1) % 1024
    alertPending := m.alertPending && (m.alertSkip || l.any (fun e => e.alert))
    alertSev := if m.alertSkip || l.any (fun e => e.alert) then m.alertSev else 0 } := by
  simp only [Mailbox.next, pending, Mailbox.alertLeft_eq]

theorem Mailbox.next_empty (empty : m.pending = []) : m.next = m := by
  simp only [Mailbox.next, empty]

theorem Mailbox.flush_eq (m : Mailbox) : m.flush = { m with
    pending := [], rdPtr := (m.rdPtr + m.pending.length) % 1024
    alertPending := m.alertPending && m.alertSkip, alertSev := if m.alertSkip then m.alertSev else 0 } := by
  simp only [Mailbox.flush, Mailbox.alertLeft_eq, List.any_nil, Bool.or_false]

end

/-- The payload of a health record is Table 1.9 without STAMP. -/
theorem MboxEntry.payload_eq (e : MboxEntry) : e.bytes.drop 8 =
    bytesOf 1 e.source ++ bytesOf 1 e.reach ++ bytesOf 2 e.ctx ++ bytesOf 2 e.code ++ bytesOf 1 e.severity ++
      [if e.alert then 1 else 0] ++ fit 16 e.data := by
  simp only [MboxEntry.bytes, List.append_assoc]
  exact List.drop_left' rfl

section
variable {s u : State} {dt : Nat} (at_u : s.advance dt = u) (awake : u.awake = true)
include at_u awake

theorem execHealthStatusRead_of : exec (.healthStatusRead dt) s = .next { u with
    mailbox := u.mailbox.capture
    readData := [flag u.mailbox.pending.isEmpty 31 ||| fieldAt u.mailbox.pending.length 16 ||| fieldAt u.mailbox.rdPtr 0] } := by
  have running : u.unread.still.frozen = false := State.unfrozen_of_awake awake
  have effect : u.unread.readEffect 0x204 = { u.unread with mailbox := u.mailbox.capture } := if_neg (Bool.eq_false_iff.1 running)
  change execHealthStatusRead dt s = _
  exact State.occurs_at at_u awake (State.readOne_of effect rfl)

theorem execHealthNext_of {m : Mailbox} (passed : u.mailbox.next = m) : exec (.healthNext dt) s = .next { u with mailbox := m } := by
  subst passed
  change execHealthNext dt s = _
  exact State.occurs_at at_u awake rfl

theorem execHealthFlush_of {m : Mailbox} (passed : u.mailbox.flush = m) : exec (.healthFlush dt) s = .next { u with mailbox := m } := by
  subst passed
  change execHealthFlush dt s = _
  exact State.occurs_at at_u awake rfl

theorem execMailboxConsume_of {e : MboxEntry} {l : List MboxEntry} (waits : u.mailbox.toConsume = e :: l) : exec (.mailboxConsume dt) s =
    .next (({ u with mailbox := { u.mailbox with toConsume := l } } : State).healthRecord e) := by
  change execMailboxConsume dt s = _
  exact State.occurs_at at_u awake (by rw [waits])

theorem execMailboxConsume_none (empty : u.mailbox.toConsume = []) : exec (.mailboxConsume dt) s = .next u := by
  change execMailboxConsume dt s = _
  exact State.occurs_at at_u awake (by rw [empty])

end

/-- Settles O13: the window's commands are `Mailbox.capture`, `Mailbox.next` and `Mailbox.flush`, whose alert goes by `Mailbox.alertLeft`. -/
theorem healthWindow : Obligations.HealthWindow := by
  constructor
  · intro s dt u m left awake
    exact ⟨execHealthStatusRead_of rfl awake, fun e l pending => execHealthNext_of rfl awake (Mailbox.next_of pending),
      fun empty => execHealthNext_of rfl awake (Mailbox.next_empty empty), execHealthFlush_of rfl awake (Mailbox.flush_eq m)⟩
  · intro s dt e l u awake
    refine ⟨fun waits => ?_, execMailboxConsume_none rfl awake⟩
    rw [execMailboxConsume_of rfl awake waits, State.healthRecord, MboxEntry.payload_eq]

end Sys2Proof.Machine

/-! ## Real-time clock: staged time, civil time, rate trimming, and the backup domain -/

namespace Sys2Proof.Machine

/-! ### What reports and trim windows leave of the clock -/

/-- The RTC block apart from its reports, its trim window and CAL_WRAP. -/
def Rtc.time (r : Rtc) : Rtc :=
  { r with reports := [], calWrap := {}, winStartNs := 0, winState := 0, srcFirst := none, srcLast := none, srcCount := 0, mainsLast := none }

section
variable (s : State)

theorem State.timeReport_rtc (event : Nat) (err : Option Int) (before after : List Byte) :
    (s.timeReport event err before after).rtc = { s.rtc with reports := (s.timeReport event err before after).rtc.reports } := by
  unfold State.timeReport
  dsimp only
  split
  · rw [State.emit_rtc]
  · rfl

theorem State.timeReport_clock (event : Nat) (err : Option Int) (before after : List Byte) :
    (s.timeReport event err before after).clock = s.clock := by
  unfold State.timeReport
  dsimp only
  split
  · rw [State.emit_clock]
  · rfl

theorem State.timeReport_time (event : Nat) (err : Option Int) (before after : List Byte) :
    (s.timeReport event err before after).rtc.time = s.rtc.time := by
  rw [State.timeReport_rtc]
  rfl

theorem State.timeReport_nowNs (event : Nat) (err : Option Int) (before after : List Byte) :
    (s.timeReport event err before after).nowNs = s.nowNs := by
  unfold State.nowNs
  rw [State.timeReport_rtc]

theorem State.discardWindow_time : s.discardWindow.rtc.time = s.rtc.time := by
  unfold State.discardWindow
  split
  · rfl
  · exact State.timeReport_time s ..

theorem State.sourceEvent_time (station source : Nat) : (s.sourceEvent station source).rtc.time = s.rtc.time := by
  unfold State.sourceEvent
  split
  · rfl
  · cases s.rtc.srcLast with
    | none => rfl
    | some a =>
      dsimp only
      split
      · exact State.discardWindow_time s
      · rfl

theorem State.crystalTick_time : s.crystalTick.rtc.time = s.rtc.time := by
  unfold State.crystalTick
  split
  · exact State.sourceEvent_time s ..
  · rfl

theorem State.requestDoze_rtc : s.requestDoze.rtc = s.rtc := by
  unfold State.requestDoze
  split <;> rfl

theorem State.requestExit_rtc : s.requestExit.rtc = s.rtc := by
  unfold State.requestExit
  split <;> rfl

theorem State.scheduleStep_rtc (was : Bool) : (s.scheduleStep was).rtc = s.rtc := by
  unfold State.scheduleStep State.enterWindow
  split
  · split
    · exact State.requestDoze_rtc s
    · rfl
  · split
    · exact State.requestExit_rtc s
    · rfl

theorem State.stepTime_time (event seconds fracPs : Nat) : (s.stepTime event seconds fracPs).rtc.time =
    { s.rtc.time with seconds := seconds, fracPs := fracPs, timeLost := false, staged := none, cancelled := none, autoset := none } := by
  unfold State.stepTime
  dsimp only
  rw [State.scheduleStep_rtc, State.discardWindow_time, State.timeReport_time]
  rfl

theorem State.calendarWrap_time : s.calendarWrap.rtc.time = s.rtc.time := by
  unfold State.calendarWrap
  split
  · exact State.timeReport_time _ ..
  · rfl

theorem State.calendarWrap_clock : s.calendarWrap.clock = s.clock := by
  unfold State.calendarWrap
  split
  · exact State.timeReport_clock _ ..
  · rfl

theorem State.civilChanges_time (before : Nat) : (s.civilChanges before).rtc.time =
    { s.rtc.time with offset := s.rtc.offsetNext.getD s.rtc.offset, summer := s.rtc.summerNext.getD s.rtc.summer
                      offsetNext := none, summerNext := none } := by
  unfold State.civilChanges
  dsimp only
  split
  · rfl
  · exact State.timeReport_time _ ..

theorem State.stepTime_civil (event seconds fracPs : Nat) : (s.stepTime event seconds fracPs).rtc.offset = s.rtc.offset ∧
    (s.stepTime event seconds fracPs).rtc.summer = s.rtc.summer ∧ (s.stepTime event seconds fracPs).rtc.offsetNext = s.rtc.offsetNext ∧
    (s.stepTime event seconds fracPs).rtc.summerNext = s.rtc.summerNext := by
  have time := State.stepTime_time s event seconds fracPs
  exact ⟨(congrArg Rtc.offset time :), (congrArg Rtc.summer time :), (congrArg Rtc.offsetNext time :), (congrArg Rtc.summerNext time :)⟩

/-- A step of the count does not change civil time's own fields. -/
theorem State.boundarySteps_civil : s.boundarySteps.rtc.offset = s.rtc.offset ∧ s.boundarySteps.rtc.summer = s.rtc.summer ∧
    s.boundarySteps.rtc.offsetNext = s.rtc.offsetNext ∧ s.boundarySteps.rtc.summerNext = s.rtc.summerNext := by
  unfold State.boundarySteps State.autosetStep
  split
  · split
    · exact State.stepTime_civil s ..
    · exact ⟨rfl, rfl, rfl, rfl⟩
  · split
    · exact ⟨rfl, rfl, rfl, rfl⟩
    · split
      · exact State.stepTime_civil s ..
      · exact ⟨rfl, rfl, rfl, rfl⟩
  · exact ⟨rfl, rfl, rfl, rfl⟩

end

/-! ### The second boundary (R594, R597 to R602) -/

/-- One more second of the count, at its first instant. -/
def State.nextSecond (s : State) : State := { s with rtc := { s.rtc with seconds := (s.rtc.seconds + 1) % 2 ^ 40, fracPs := 0 } }

section
variable (s : State)

/-- Which staged write a boundary meets depends on the clock and on what is staged alone. -/
theorem State.stagedNow_congr {t : State} (clock : t.clock = s.clock) (time : t.rtc.time = s.rtc.time) : t.stagedNow = s.stagedNow := by
  have staged : t.rtc.staged = s.rtc.staged := (congrArg Rtc.staged time :)
  have cancelled : t.rtc.cancelled = s.rtc.cancelled := (congrArg Rtc.cancelled time :)
  unfold State.stagedNow
  rw [staged, cancelled, clock]

/-- The count at the boundary, before the staged write. -/
def State.boundary (s : State) : State := s.nextSecond.calendarWrap

theorem State.boundary_time : s.boundary.rtc.time = s.nextSecond.rtc.time := State.calendarWrap_time _
theorem State.boundary_clock : s.boundary.clock = s.clock := State.calendarWrap_clock _

theorem State.boundary_stagedNow : s.boundary.stagedNow = s.stagedNow :=
  (State.stagedNow_congr s.nextSecond (State.boundary_clock s) (State.boundary_time s)).trans rfl

theorem State.secondBoundary_eq : s.secondBoundary = (s.boundary.boundarySteps.civilChanges s.nextSecond.nowNs).crystalTick := rfl

/-- The count after the boundary is the one that the staged write or the autoset leaves. -/
theorem State.secondBoundary_time : s.secondBoundary.rtc.time = { s.boundary.boundarySteps.rtc.time with
    offset := s.rtc.offsetNext.getD s.rtc.offset, summer := s.rtc.summerNext.getD s.rtc.summer, offsetNext := none, summerNext := none } := by
  have time := State.boundary_time s
  obtain ⟨offset, summer, offsetNext, summerNext⟩ := State.boundarySteps_civil s.boundary
  rw [State.secondBoundary_eq, State.crystalTick_time, State.civilChanges_time, offset, summer, offsetNext, summerNext,
    show s.boundary.rtc.offset = s.rtc.offset from (congrArg Rtc.offset time :),
    show s.boundary.rtc.summer = s.rtc.summer from (congrArg Rtc.summer time :),
    show s.boundary.rtc.offsetNext = s.rtc.offsetNext from (congrArg Rtc.offsetNext time :),
    show s.boundary.rtc.summerNext = s.rtc.summerNext from (congrArg Rtc.summerNext time :)]

end

section
variable {s : State}

theorem State.boundarySteps_due {v at_ : Nat} (staged : s.stagedNow = some (v, at_)) (due : at_ + msPs ≤ s.clock) :
    s.boundary.boundarySteps = s.boundary.stepTime 1 v 0 := by
  have met : s.boundary.boundaryDue at_ = true := by simpa [State.boundaryDue, State.boundary_clock] using due
  unfold State.boundarySteps
  rw [State.boundary_stagedNow, staged]
  exact if_pos met

theorem State.boundarySteps_early {v at_ : Nat} (staged : s.stagedNow = some (v, at_)) (early : s.clock < at_ + msPs) :
    s.boundary.boundarySteps = s.boundary := by
  have waits : s.boundary.boundaryDue at_ = false := by simpa [State.boundaryDue, State.boundary_clock] using early
  unfold State.boundarySteps
  rw [State.boundary_stagedNow, staged]
  exact if_neg (by rw [waits]; exact Bool.false_ne_true)

theorem State.boundarySteps_idle (none_staged : s.stagedNow = none) (no_autoset : s.rtc.autoset = none) :
    s.boundary.boundarySteps = s.boundary := by
  have autoset : s.boundary.rtc.autoset = none := (congrArg Rtc.autoset (State.boundary_time s)).trans no_autoset
  unfold State.boundarySteps
  rw [State.boundary_stagedNow, none_staged, autoset]

/-- A boundary that neither a write nor an autoset steps counts one second. -/
theorem State.secondBoundary_counts (plain : s.boundary.boundarySteps = s.boundary) :
    s.secondBoundary.rtc.seconds = (s.rtc.seconds + 1) % 2 ^ 40 ∧ s.secondBoundary.rtc.fracPs = 0 ∧
    s.secondBoundary.rtc.staged = s.rtc.staged ∧ s.secondBoundary.rtc.timeLost = s.rtc.timeLost := by
  have time := State.secondBoundary_time s
  rw [plain, State.boundary_time] at time
  exact ⟨(congrArg Rtc.seconds time :), (congrArg Rtc.fracPs time :), (congrArg Rtc.staged time :), (congrArg Rtc.timeLost time :)⟩

theorem State.civilChanges_idle (before : Nat) (offset : s.rtc.offsetNext = none) (summer : s.rtc.summerNext = none) :
    s.civilChanges before = s := by
  have same : ({ s with rtc := { s.rtc with offsetNext := none, summerNext := none } } : State) = s := by
    rw [← offset, ← summer]
  unfold State.civilChanges
  simp [offset, summer, same, Rtc.civilShift]

/-- A boundary that no step, no civil change and no wrap falls on is the next second and, for REFCLK, a source event. -/
theorem State.secondBoundary_plain (none_staged : s.stagedNow = none) (no_autoset : s.rtc.autoset = none)
    (offset : s.rtc.offsetNext = none) (summer : s.rtc.summerNext = none) (no_wrap : (s.rtc.seconds + 1) % 2 ^ 40 % calendarSeconds ≠ 0) :
    s.secondBoundary = s.nextSecond.crystalTick := by
  have boundary : s.boundary = s.nextSecond := by
    unfold State.boundary State.calendarWrap
    exact if_neg (by simp only [State.nextSecond, Bool.and_eq_true]; exact fun wrap => no_wrap (of_decide_eq_true wrap.1))
  rw [State.secondBoundary_eq, State.boundarySteps_idle none_staged no_autoset, boundary,
    State.civilChanges_idle (s := s.nextSecond) _ offset summer]

theorem State.crystalTick_idle (idle : s.rtc.src ≠ 1 ∨ s.rtc.winState = 0) : s.crystalTick = s := by
  unfold State.crystalTick State.sourceEvent
  split
  · exact if_pos (idle.resolve_left (not_not.2 ‹_›))
  · rfl

/-- The first source event of a window, or the first one after a loss, meets no jump. -/
theorem State.sourceEvent_first (runs : s.rtc.winState ≠ 0) (first : s.rtc.srcLast = none) (station source : Nat) :
    s.sourceEvent station source = { s with rtc := { s.rtc with srcFirst := some (s.rtc.srcFirst.getD (station, source))
                                                                srcLast := some (station, source), srcCount := s.rtc.srcCount + 1 } } := by
  unfold State.sourceEvent
  rw [if_neg runs, first]
  exact if_neg Bool.false_ne_true

theorem State.cancelled_stagedNow {n : Nat} (later : 0 < n) (staged : s.rtc.staged ≠ none) : (s.rtcCancel.advance n).stagedNow = none := by
  obtain ⟨p, present⟩ := Option.ne_none_iff_exists'.1 staged
  unfold State.rtcCancel State.stagedNow State.advance
  rw [present]
  exact if_neg (by simp only [fabPs]; omega)

end

theorem execRtcSecondBoundary_of {s u : State} {dt : Nat} (at_u : s.advance dt = u) :
    exec (.rtcSecondBoundary dt) s = .next u.secondBoundary := by
  change execRtcSecondBoundary dt s = _
  exact State.occurs_at at_u rfl rfl

section
variable {s u : State} {dt : Nat} (at_u : s.advance dt = u) (awake : u.awake = true)
include at_u awake

theorem execRtcCommit_of : exec (.rtcCommit dt) s = .next u.rtcCommit := by
  change execRtcCommit dt s = _
  exact State.occurs_at at_u awake rfl

theorem execRtcCancel_of : exec (.rtcCancel dt) s = .next u.rtcCancel := by
  change execRtcCancel dt s = _
  exact State.occurs_at at_u awake rfl

theorem execRtcOffsetWrite_of (v : BitVec 8) : exec (.rtcOffsetWrite dt v) s = .next (u.writeOffset v) := by
  change execRtcOffsetWrite dt v s = _
  exact State.occurs_at at_u awake rfl

theorem execRtcStepUp_of : exec (.rtcStepUp dt) s = .next (u.civilStep true false) := by
  change execRtcStepUp dt s = _
  exact State.occurs_at at_u awake rfl

theorem execRtcStepDown_of : exec (.rtcStepDown dt) s = .next (u.civilStep false true) := by
  change execRtcStepDown dt s = _
  exact State.occurs_at at_u awake rfl

end

/-- Settles O25: the boundary keeps the count that its step leaves, since reports, civil changes and source events do not touch it. -/
theorem stagedTime : Obligations.StagedTime := by
  constructor
  · intro s dt u v awake
    refine ⟨fun low => ?_, fun high => ?_, u.rtcCancel, execRtcCancel_of rfl awake, rfl, fun p staged => ?_, rfl, ?_⟩
    · rw [execRtcCommit_of rfl awake]
      exact congrArg Host.Outcome.next (if_neg (Nat.not_le.2 (Nat.lt_succ_of_le low)))
    · rw [execRtcCommit_of rfl awake]
      exact congrArg Host.Outcome.next (if_pos (Nat.succ_le_of_lt high))
    · unfold State.rtcCancel State.stagedNow
      rw [staged]
      exact if_pos rfl
    · exact fun n later staged => State.cancelled_stagedNow later staged
  · intro s dt u
    refine ⟨u.secondBoundary, execRtcSecondBoundary_of rfl, fun v at_ staged due => ?_, fun v at_ staged early => ?_,
      fun none_staged no_autoset => ?_, fun none_staged no_autoset offset summer no_wrap => ?_⟩
    · have time := State.secondBoundary_time u
      rw [State.boundarySteps_due staged due, State.stepTime_time] at time
      exact ⟨(congrArg Rtc.seconds time :), (congrArg Rtc.fracPs time :), (congrArg Rtc.staged time :), (congrArg Rtc.timeLost time :)⟩
    · exact State.secondBoundary_counts (State.boundarySteps_early staged early)
    · obtain ⟨seconds, fracPs, -, timeLost⟩ := State.secondBoundary_counts (State.boundarySteps_idle none_staged no_autoset)
      exact ⟨seconds, fracPs, timeLost⟩
    · intro v
      rw [State.secondBoundary_plain none_staged no_autoset offset summer no_wrap]
      refine ⟨fun idle => State.crystalTick_idle (s := v) idle, fun refclk runs first => ?_⟩
      exact (if_pos refclk).trans (State.sourceEvent_first (s := v) runs first ..)

/-! ### Civil time (R601, R602) -/

theorem signed_byte (v : BitVec 8) : signed 8 v.toNat = v.toInt := by
  unfold signed
  rw [BitVec.toInt_eq_toNat_cond, Nat.mod_eq_of_lt v.isLt]
  split <;> split <;> omega

section
variable {s : State}

theorem State.civilStep_changes (up : Bool) (flips : s.rtc.summer = !up) :
    s.civilStep up (!up) = { s with rtc := { s.rtc with summerNext := some up } } := by
  unfold State.civilStep
  rw [flips]
  exact if_neg (by cases up <;> decide)

theorem State.civilStep_same (up : Bool) (kept : s.rtc.summer = up) : s.civilStep up (!up) = s := by
  unfold State.civilStep
  rw [kept]
  exact if_pos (by cases up <;> decide)

end

theorem State.writeReg_rtc {s : State} (unfrozen : s.still.frozen = false) (via : Via) (id : BitVec 32) (v : Word) {addr : Addr}
    (low : 0x1400 ≤ addr.toNat) (high : addr.toNat < 0x1800) : s.writeReg via id addr v = s.writeRtc (addr.toNat / 4 * 4) v := by
  unfold State.writeReg
  dsimp only
  rw [if_neg (by simp [unfrozen]), if_neg (by omega), if_neg (by omega), if_neg (by omega), if_neg (by omega), if_neg (by omega),
    if_neg (by omega), if_pos (by omega)]

/-- Settles O26: what the next boundary takes is what the last write left. -/
theorem civilTime : Obligations.CivilTime := by
  constructor
  · intro s dt v u
    refine ⟨fun awake => ⟨fun low high => ?_, fun out => ?_⟩, u.secondBoundary, execRtcSecondBoundary_of rfl,
      (congrArg Rtc.offset (State.secondBoundary_time u) :), (congrArg Rtc.offsetNext (State.secondBoundary_time u) :)⟩ <;>
      rw [execRtcOffsetWrite_of rfl awake, State.writeOffset, signed_byte]
    · exact congrArg Host.Outcome.next (if_pos ⟨low, high⟩)
    · exact congrArg Host.Outcome.next (if_neg (by omega))
  · intro s dt v u
    refine ⟨fun awake => ⟨fun winter => ?_, fun summer => ?_, fun summer => ?_, fun winter => ?_, fun up down => ?_⟩, u.secondBoundary,
      execRtcSecondBoundary_of rfl, (congrArg Rtc.summer (State.secondBoundary_time u) :), (congrArg Rtc.summerNext (State.secondBoundary_time u) :)⟩
    · rw [execRtcStepUp_of rfl awake, ← State.civilStep_changes true winter, Bool.not_true]
    · rw [execRtcStepUp_of rfl awake]
      exact congrArg Host.Outcome.next (State.civilStep_same true summer)
    · rw [execRtcStepDown_of rfl awake, ← State.civilStep_changes false summer, Bool.not_false]
    · rw [execRtcStepDown_of rfl awake]
      exact congrArg Host.Outcome.next (State.civilStep_same false winter)
    · refine execRegisterWrite_bus rfl awake ?_ (by decide)
      rw [State.writeReg_rtc (State.unfrozen_of_awake awake) _ _ _ (by decide) (by decide)]
      exact if_pos (by rw [up, down]; rfl)

end Sys2Proof.Machine

namespace Sys2Proof.Machine

/-! ### Rate trimming (R603 to R605) -/

section
variable (s : State)

theorem State.journalStart_rtc (j : Session) : (s.journalStart j).rtc = s.rtc := by
  unfold State.journalStart
  split
  · rfl
  · rfl
  · split <;> rfl

theorem State.journalRequest_rtc (j : Session) : (s.journalRequest j).1.rtc = s.rtc := by
  unfold State.journalRequest
  split
  · rfl
  · split
    · exact State.journalStart_rtc s j
    · rfl

/-- The elapsed times and the events of a window: station time and source time in thirds of 1 ns (R603). -/
def State.windowMeasured (s : State) (deltaS deltaR events : Nat) : Nat × Nat × Nat :=
  if s.rtc.src = 1 && decide (s.rtc.srcCount < 2) then (3 * deltaS, 3 * deltaR, max events 2)
  else match s.rtc.srcFirst, s.rtc.srcLast with
    | some a, some b => (3 * (b.1 - a.1), b.2 - a.2, s.rtc.srcCount)
    | _, _ => (0, 0, 0)

/-- The error of a window, in 1/64 ppm. -/
def windowError (dS dR : Nat) : Int := clamp (-32767) 32767 (trimError dS dR)

/-- A window that moved TRIM by −e, reported, with the next one running. -/
def State.trimmed (s : State) (e : Int) : State :=
  (({ s with rtc := { s.rtc with trim := clamp (-32768) 32767 (s.rtc.trim - e), lastErr := BitVec.ofInt 16 e, trimEndNs := s.nowNs } } :
    State).timeReport 5 (some e) (bytesOf 8 s.rtc.winStartNs) (bytesOf 8 s.nowNs)).newWindow 3

theorem State.windowEnd_eq (deltaS deltaR events : Nat) :
    let m := s.windowMeasured deltaS deltaR events
    let e := windowError m.1 m.2.1
    s.windowEnd deltaS deltaR events =
      if m.2.2 < 2 || 2 * m.2.1 < 3 * s.rtc.windowNs || m.2.1 = 0 || (s.rtc.src = 1 && s.refs.noRef) then s.discardWindow
      else ((s.trimmed e).journalRequest
        ⟨.append 4 4 0 (trimRecord (clamp (-32768) 32767 (s.rtc.trim - e)) s.rtc.src s.nowNs e), false⟩).1 := rfl

end

section
variable {s : State}

theorem State.newWindow_running (state : Nat) (source : s.rtc.src ≠ 0) :
    (s.newWindow state).rtc.winState = state ∧ (s.newWindow state).rtc.winStartNs = s.nowNs :=
  ⟨if_neg source, rfl⟩

theorem State.trimmed_rtc (e : Int) (source : s.rtc.src ≠ 0) :
    (s.trimmed e).rtc.trim = clamp (-32768) 32767 (s.rtc.trim - e) ∧ (s.trimmed e).rtc.lastErr = BitVec.ofInt 16 e ∧
    (s.trimmed e).rtc.trimEndNs = s.nowNs ∧ (s.trimmed e).rtc.winState = 3 ∧ (s.trimmed e).rtc.winStartNs = s.nowNs := by
  let t : State := { s with rtc := { s.rtc with trim := clamp (-32768) 32767 (s.rtc.trim - e), lastErr := BitVec.ofInt 16 e, trimEndNs := s.nowNs } }
  have time : (s.trimmed e).rtc.time = t.rtc.time := State.timeReport_time t ..
  have source' : (t.timeReport 5 (some e) (bytesOf 8 s.rtc.winStartNs) (bytesOf 8 s.nowNs)).rtc.src ≠ 0 := by
    rw [State.timeReport_rtc]
    exact source
  obtain ⟨state, start⟩ := State.newWindow_running 3 source'
  exact ⟨(congrArg Rtc.trim time :), (congrArg Rtc.lastErr time :), (congrArg Rtc.trimEndNs time :), state,
    start.trans (State.timeReport_nowNs t ..)⟩

section
variable {deltaS deltaR events dS dR n : Nat} (measured : s.windowMeasured deltaS deltaR events = (dS, dR, n))
include measured

/-- A window long enough, over two events or more, moves TRIM. -/
theorem State.windowEnd_moves (source : s.rtc.src ≠ 0) (enough : 2 ≤ n) (some_time : 0 < dR) (long : 3 * s.rtc.windowNs ≤ 2 * dR)
    (reference : s.rtc.src ≠ 1 ∨ s.refs.noRef = false) : ∃ t, s.windowEnd deltaS deltaR events = t ∧
      t.rtc.trim = clamp (-32768) 32767 (s.rtc.trim - windowError dS dR) ∧ t.rtc.lastErr = BitVec.ofInt 16 (windowError dS dR) ∧
      t.rtc.trimEndNs = s.nowNs ∧ t.rtc.winState = 3 ∧ t.rtc.winStartNs = s.nowNs := by
  have taken : (n < 2 || 2 * dR < 3 * s.rtc.windowNs || dR = 0 || (s.rtc.src = 1 && s.refs.noRef)) = false := by
    have referred : (s.rtc.src = 1 && s.refs.noRef) = false := by
      rcases reference with other | present
      · rw [decide_eq_false other, Bool.false_and]
      · rw [present, Bool.and_false]
    rw [decide_eq_false (Nat.not_lt.2 enough), decide_eq_false (Nat.not_lt.2 long), decide_eq_false some_time.ne', referred]
    rfl
  refine ⟨_, rfl, ?_⟩
  rw [State.windowEnd_eq, measured]
  dsimp only
  rw [taken, if_neg Bool.false_ne_true, State.journalRequest_rtc]
  exact State.trimmed_rtc _ source

/-- A short window, one of fewer than two events, and one without its reference are discarded. -/
theorem State.windowEnd_discards (lacks : n < 2 ∨ 2 * dR < 3 * s.rtc.windowNs ∨ s.rtc.src = 1 ∧ s.refs.noRef = true) :
    s.windowEnd deltaS deltaR events = s.discardWindow := by
  rw [State.windowEnd_eq, measured]
  refine if_pos ?_
  rcases lacks with few | short | ⟨refclk, no_reference⟩
  · simp [few]
  · simp [short]
  · simp [refclk, no_reference]

end

theorem State.windowMeasured_refclk (deltaS deltaR events : Nat) (refclk : s.rtc.src = 1) (few : s.rtc.srcCount < 2) :
    s.windowMeasured deltaS deltaR events = (3 * deltaS, 3 * deltaR, max events 2) :=
  if_pos (by simp [refclk, few])

theorem State.windowMeasured_events (deltaS deltaR events : Nat) {a b : Nat × Nat} (enough : 2 ≤ s.rtc.srcCount) (first : s.rtc.srcFirst = some a)
    (last : s.rtc.srcLast = some b) : s.windowMeasured deltaS deltaR events = (3 * (b.1 - a.1), b.2 - a.2, s.rtc.srcCount) := by
  unfold State.windowMeasured
  rw [if_neg (by simp [Nat.not_lt.2 enough]), first, last]

theorem State.windowMeasured_few (deltaS deltaR events : Nat) (other : s.rtc.src ≠ 1) (few : s.rtc.srcCount < 2) :
    (s.windowMeasured deltaS deltaR events).2.2 < 2 := by
  unfold State.windowMeasured
  rw [if_neg (by simp [other])]
  split
  · exact few
  · exact Nat.zero_lt_two

theorem State.mainsEdge_other (other : s.rtc.src ≠ 4) : s.mainsEdge = s :=
  if_pos (by simp [other])

/-- The first edge of a window is at source time 0. -/
theorem State.mainsEdge_first (mains : s.rtc.src = 4) (runs : s.rtc.winState ≠ 0) (no_edge : s.rtc.mainsLast = none)
    (no_event : s.rtc.srcLast = none) : s.mainsEdge = { s with rtc := { s.rtc with
      srcFirst := some (s.rtc.srcFirst.getD (s.nowNs, 0)), srcLast := some (s.nowNs, 0), srcCount := s.rtc.srcCount + 1
      mainsLast := some s.clock } } := by
  have event := State.sourceEvent_first runs no_event s.nowNs 0
  unfold State.mainsEdge
  rw [if_neg (by simp [mains, runs]), no_edge]
  simp only [Bool.false_eq_true, if_false, no_event, event]

end

section
variable {s u : State} {dt : Nat} (at_u : s.advance dt = u) (awake : u.awake = true)
include at_u awake

theorem execRtcTrimWrite_of (v : BitVec 16) : exec (.rtcTrimWrite dt v) s = .next (u.writeTrim v) := by
  change execRtcTrimWrite dt v s = _
  exact State.occurs_at at_u awake rfl

theorem execMainsInEdge_of : exec (.mainsInEdge dt) s = .next u.mainsEdge := by
  change execMainsInEdge dt s = _
  exact State.occurs_at at_u awake rfl

theorem execRtcTrimWindowEnd_of (deltaS deltaR events : Nat) (runs : u.rtc.winState ≠ 0) (elapsed : u.rtc.winStartNs + u.rtc.windowNs ≤ u.nowNs) :
    exec (.rtcTrimWindowEnd dt deltaS deltaR events) s = .next (u.windowEnd deltaS deltaR events) := by
  change execRtcTrimWindowEnd dt deltaS deltaR events s = _
  exact State.occurs_at at_u (by simp [awake, runs, elapsed]) rfl

end

/-- Settles O27: `State.windowMeasured` says what a window measured, and its two ends follow from it. -/
theorem rateTrimming : Obligations.RateTrimming := by
  intro s dt dS dR n v u err moved awake
  have moves {ds dr k : Nat} (measured : u.windowMeasured dS dR n = (ds, dr, k)) (runs : u.rtc.winState ≠ 0)
      (elapsed : u.rtc.winStartNs + u.rtc.windowNs ≤ u.nowNs) (source : u.rtc.src ≠ 0) (enough : 2 ≤ k) (some_time : 0 < dr)
      (long : 3 * u.rtc.windowNs ≤ 2 * dr) (reference : u.rtc.src ≠ 1 ∨ u.refs.noRef = false) : moved (err ds dr) := by
    obtain ⟨t, ends, rest⟩ := State.windowEnd_moves measured source enough some_time long reference
    exact ⟨t, (execRtcTrimWindowEnd_of rfl awake dS dR n runs elapsed).trans (congrArg Host.Outcome.next ends), rest⟩
  have discards {ds dr k : Nat} (measured : u.windowMeasured dS dR n = (ds, dr, k)) (runs : u.rtc.winState ≠ 0)
      (elapsed : u.rtc.winStartNs + u.rtc.windowNs ≤ u.nowNs)
      (lacks : k < 2 ∨ 2 * dr < 3 * u.rtc.windowNs ∨ u.rtc.src = 1 ∧ u.refs.noRef = true) :
      exec (.rtcTrimWindowEnd dt dS dR n) s = .next u.discardWindow :=
    (execRtcTrimWindowEnd_of rfl awake dS dR n runs elapsed).trans (congrArg Host.Outcome.next (State.windowEnd_discards measured lacks))
  refine ⟨execRtcTrimWrite_of rfl awake v, fun runs source elapsed => ⟨fun refclk few => ?_, fun a b enough first last => ?_, fun other few => ?_⟩,
    fun other => ?_, fun mains runs no_edge no_event => ?_⟩
  · have measured := State.windowMeasured_refclk dS dR n refclk few
    refine ⟨fun some_time long reference => ?_, fun lacks => ?_⟩
    · exact moves measured runs elapsed source (Nat.le_max_right ..) (by omega) (by omega) (.inr reference)
    · exact discards measured runs elapsed (.inr (lacks.imp (fun short => by omega) (fun no_reference => ⟨refclk, no_reference⟩)))
  · have measured := State.windowMeasured_events dS dR n enough first last
    refine ⟨fun some_time long reference => ?_, fun short => ?_⟩
    · exact moves measured runs elapsed source enough (by omega) long reference
    · exact discards measured runs elapsed (.inr (.inl short))
  · exact discards rfl runs elapsed (.inl (State.windowMeasured_few dS dR n other few))
  · exact (execMainsInEdge_of rfl awake).trans (congrArg Host.Outcome.next (State.mainsEdge_other other))
  · exact (execMainsInEdge_of rfl awake).trans (congrArg Host.Outcome.next (State.mainsEdge_first mains runs no_edge no_event))

end Sys2Proof.Machine

namespace Sys2Proof.Machine

/-! ### The backup domain and the supply monitors (R586 to R589, R627) -/

section
variable {s : State}

/-- The first switch-over since VALID was cleared stamps the seconds count (R587). -/
theorem State.toVbat_first (first : s.rtc.swValid.on = false) : s.toVbat = { s with rtc := { s.rtc with
    onVbat := true, lastSwitchNs := s.nowNs, swValid := { on := true, atPs := s.clock }, swStamp := s.rtc.seconds } } := by
  unfold State.toVbat
  rw [first]
  rfl

theorem State.toVbat_later (later : s.rtc.swValid.on = true) : s.toVbat = { s with rtc := { s.rtc with
    onVbat := true, lastSwitchNs := s.nowNs, swValid := { on := true, atPs := s.clock }, swCount := min (s.rtc.swCount + 1) 255 } } := by
  unfold State.toVbat
  rw [later]
  rfl

theorem State.domainOutage_short (oscillator : Bool) {us : Nat} (short : us < 1800) : s.domainOutage oscillator us = s := by
  unfold State.domainOutage
  rw [if_neg (by omega), if_pos (by simp [short])]

theorem State.monitors_of (locked : s.phase = .locked) (unfrozen : s.still.frozen = false) : s.monitors = true := by
  unfold State.monitors
  rw [locked, unfrozen]
  rfl

end

section
variable {s u : State} {dt : Nat} (at_u : s.advance dt = u)
include at_u

theorem execRtcSwitchToVbat_of (main : u.rtc.onVbat = false) {a18 vbat : Nat} (fails : a18 < 1550) (present : 1500 ≤ vbat) :
    exec (.rtcSwitchToVbat dt a18 vbat) s = .next u.toVbat := by
  change execRtcSwitchToVbat dt a18 vbat s = _
  exact State.occurs_at at_u (by simp [main, fails, present]) rfl

theorem execRtcReturnToMain_of (onVbat : u.rtc.onVbat = true) {a18 vbat us : Nat}
    (returns : (1650 < a18 ∧ 1000 ≤ us) ∨ (1500 ≤ a18 ∧ vbat < 1500)) : exec (.rtcReturnToMain dt a18 vbat us) s =
      .next { u with rtc := { u.rtc with onVbat := false, returned := some (u.rtc.lastSwitchNs, u.nowNs) } } := by
  change execRtcReturnToMain dt a18 vbat us s = _
  exact State.occurs_at at_u (by rw [onVbat, Bool.true_and]; exact decide_eq_true returns) rfl

theorem execRtcDomainLost_of (oscillator : Bool) (us : Nat) :
    exec (.rtcDomainLost dt oscillator us) s = .next (u.domainOutage oscillator us) := by
  change execRtcDomainLost dt oscillator us s = _
  exact State.occurs_at at_u rfl rfl

theorem execVbatMeasure_of (unfrozen : u.still.frozen = false) (due : u.since u.rtc.vbatPs (3600 * secPs) = true) (mv : Nat) :
    exec (.vbatMeasure dt mv) s = .next { u with rtc := { u.rtc with vbatLow := decide (mv < 1800), vbatPs := some u.clock } } := by
  change execVbatMeasure dt mv s = _
  exact State.occurs_at at_u (by rw [unfrozen, due]; rfl) rfl

section
variable (runs : u.monitors = true) (k : Fin 6)
include runs

/-- A supply newly outside its window for 10 µs is latched and posted. -/
theorem execSupplyOutOfRange_of {mv ioc us : Nat} (inside : u.pins.supplyNow.getLsbD k.val = false) (out : u.pins.supplyOut k mv ioc = true)
    (long : 10 ≤ us) : exec (.supplyOutOfRange dt k mv ioc us) s = .next (({ u with pins := { u.pins with
      supplyNow := u.pins.supplyNow ||| BitVec.ofNat 6 (2 ^ k.val)
      supplyLatched := u.pins.supplyLatched.set k { on := true, atPs := u.clock } } } : State).supplyPost k) := by
  change execSupplyOutOfRange dt k mv ioc us s = _
  exact State.occurs_at at_u (by rw [runs, inside, out, decide_eq_true long]; rfl) rfl

theorem execSupplyMonitorRepeat_of (outside : u.pins.supplyNow.getLsbD k.val = true) (due : u.since u.pins.supplyPostPs[k] secPs = true) :
    exec (.supplyMonitorRepeat dt k) s = .next (u.supplyPost k) := by
  change execSupplyMonitorRepeat dt k s = _
  exact State.occurs_at at_u (by rw [runs, outside, due]; rfl) rfl

theorem execSupplyBackInRange_of {mv ioc : Nat} (inside : u.pins.supplyOut k mv ioc = false) :
    exec (.supplyBackInRange dt k mv ioc) s = .next { u with pins := { u.pins with
      supplyNow := u.pins.supplyNow &&& ~~~(BitVec.ofNat 6 (2 ^ k.val)) } } := by
  change execSupplyBackInRange dt k mv ioc s = _
  exact State.occurs_at at_u (by rw [runs, inside]; rfl) rfl

end
end

/-- Settles O28: each event by the rule of its condition; the outage by its length. -/
theorem suppliesAndDomain : Obligations.SuppliesAndDomain := by
  constructor
  · intro s dt a18 vbat us v u
    refine ⟨fun main fails present => ⟨fun first => ?_, fun later => ?_⟩, fun awake clears meets => ?_,
      fun onVbat returns => execRtcReturnToMain_of rfl onVbat returns⟩
    · rw [execRtcSwitchToVbat_of rfl main fails present, State.toVbat_first first]
    · rw [execRtcSwitchToVbat_of rfl main fails present, State.toVbat_later later]
    · refine execRegisterWrite_bus rfl awake ?_ (by decide)
      rw [State.writeReg_rtc (State.unfrozen_of_awake awake) _ _ _ (by decide) (by decide)]
      refine if_pos ?_
      rw [clears]
      rcases meets with off | other
      · simp [off]
      · simp [other]
  · intro s dt mv ioc us osc k u b posted
    refine ⟨fun long => ?_, fun short => ?_, fun unfrozen due => execVbatMeasure_of rfl unfrozen (by rwa [secPs_eq]) mv, fun locked unfrozen => ?_⟩
    · rw [execRtcDomainLost_of rfl]
      exact congrArg Host.Outcome.next (if_pos long)
    · rw [execRtcDomainLost_of rfl, State.domainOutage_short osc short]
    · have runs := State.monitors_of locked unfrozen
      exact ⟨fun inside out long => execSupplyOutOfRange_of rfl runs k inside out long,
        fun outside due => execSupplyMonitorRepeat_of rfl runs k outside (by rwa [secPs_eq]),
        fun inside => execSupplyBackInRange_of rfl runs k inside⟩

end Sys2Proof.Machine

/-! ## The two-wire bus and the freeze -/

namespace Sys2Proof.Machine

/-! ### What a frozen part does not do (R577, R580) -/

/-- A condition that no frozen part meets once its FAB PLL has locked. -/
def Stands (cond : State → Bool) : Prop := ∀ t : State, t.still.frozen = true → t.phase = .locked → cond t = false

section
variable {p q : State → Bool}

theorem Stands.and (h : Stands p) : Stands (fun t => p t && q t) := fun t frozen locked => by
  dsimp only
  rw [h t frozen locked, Bool.false_and]

theorem Stands.or (hp : Stands p) (hq : Stands q) : Stands (fun t => p t || q t) := fun t frozen locked => by
  dsimp only
  rw [hp t frozen locked, hq t frozen locked, Bool.or_false]

end

theorem Stands.unfrozen : Stands (fun t => !t.still.frozen) := fun _ frozen _ => congrArg Bool.not frozen

theorem Stands.monitors : Stands State.monitors := fun t frozen _ => by
  rw [State.monitors, frozen, Bool.not_true, Bool.and_false]

theorem Stands.scheduleRuns : Stands State.scheduleRuns := Stands.monitors

theorem Stands.awake : Stands State.awake := Stands.monitors.and

theorem Stands.serving : Stands State.serving := Stands.awake.and

theorem Stands.refsRun : Stands State.refsRun := fun t frozen _ => by
  rw [State.refsRun, frozen, Bool.not_true, Bool.and_false]

theorem Stands.reachAccess (r : Fin 4) : Stands (fun t => t.reachAccess r) := Stands.awake.and

theorem Stands.reachUp (r : Fin 4) : Stands (fun t => t.reachUp r) := Stands.serving.and

theorem Stands.reachRuns (r : Fin 4) : Stands (fun t => t.reachRuns r) := Stands.serving.and.and

theorem Stands.reachStarts (r : Fin 4) : Stands (fun t => t.reachStarts r) := Stands.serving.and.and.and

theorem Stands.sampling (r : Fin 4) : Stands (fun t => t.sampling r) := Stands.serving.and

theorem Stands.engineUp (e : Fin 8) : Stands (fun t => t.engineUp e) := (Stands.reachUp _).and.and

theorem Stands.chainRuns (c : Fin 256) : Stands (fun t => t.chainRuns c) := fun t frozen locked => by
  dsimp only [State.chainRuns]
  cases t.ctxs[c].place with
  | none => exact Bool.and_false _
  | some p =>
    have down : t.reachUp p.reach = false := Stands.reachUp p.reach t frozen locked
    dsimp only
    rw [down, Bool.and_false]

theorem Stands.engineServes (c : Fin 256) (std : Nat) : Stands (fun t => t.engineServes c std) := (Stands.chainRuns c).and.and.and.and

theorem Stands.eabServes (c : Fin 256) : Stands (fun t => t.eabServes c) := Stands.engineServes c stdEab

theorem Stands.followsPilot (c : Fin 256) : Stands (fun t => t.followsPilot c) := (Stands.engineServes c stdFm).and.and.and

theorem Stands.outfallRuns : Stands State.outfallRuns := Stands.serving.and.and

theorem Stands.sends : Stands State.sends := Stands.outfallRuns.and

theorem Stands.portRuns : Stands State.portRuns := Stands.serving.and

theorem Stands.hostUp : Stands State.hostUp := Stands.serving.and.and.and

theorem Stands.sendable : Stands State.sendable := Stands.hostUp.and

section
variable {s : State} {dt : Nat} {cond : State → Bool} {f : State → State} (frozen : s.still.frozen = true) (locked : s.phase = .locked)
include frozen locked

/-- An event whose condition stands only lets time pass. -/
theorem State.occurs_stands (stands : Stands cond) : ∃ n, s.occurs dt cond f = .next (s.advance n) :=
  ⟨dt, State.occurs_not _ _ _ _ (stands (s.advance dt) frozen locked)⟩

/-- A QRP command reaches no part whose host port is down. -/
theorem State.occurs_command_stands (src : Peer) (id : BitVec 32) (op : Nat) (life : Bool) (minVersion : Nat) (g : State → State) :
    ∃ n, s.occurs dt (fun _ => true) (fun t => t.command src id op life minVersion g) = .next (s.advance n) := by
  have down : (s.advance dt).hostUp = false := Stands.hostUp (s.advance dt) frozen locked
  refine ⟨dt, State.occurs_idle ?_⟩
  unfold State.command State.datagram
  rw [down]
  rfl

/-- A detector delivers nothing while its reach does not sample. -/
theorem State.occurs_spate_stands (d : SpateDet) (levels : List Int) :
    ∃ n, s.occurs dt State.spateValid (fun t => t.spateDeliver d levels) = .next (s.advance n) := by
  have still (r : Fin 4) : (s.advance dt).sampling r = false := Stands.sampling r (s.advance dt) frozen locked
  refine ⟨dt, State.occurs_idle ?_⟩
  unfold State.spateDeliver
  cases d with
  | trib r n =>
    dsimp only
    rw [still]
    rfl
  | ctx c =>
    dsimp only
    rw [still, Bool.not_false, Bool.or_true]
    rfl

end

/-- Settles O6: each command by the guard that its condition begins with, which stands in a freeze. -/
theorem freezeHoldsTheState : Obligations.FreezeHoldsTheState := by
  intro c s frozen locked acts
  have stops {dt : Nat} {cond : State → Bool} {f : State → State} (stands : Stands cond) :=
    State.occurs_stands (dt := dt) (f := f) frozen locked stands
  cases c
  case reset | powerOnReset | powerOnResetRelease | resetNRelease | blankInAssert | blankInRelease | cxGntAssert | cxGntRelease |
      registerWrite | stillSelWrite | twWrite | twRead | twSdaRelease | rtcSwitchToVbat | rtcReturnToMain | rtcDomainLost |
      rtcSecondBoundary =>
    exact Bool.noConfusion acts
  case reachOvrRead | reachChainRead | engineRead | hostportCountsRead | twStatusRead | healthLostRead | ctxStatusRead | healthStatusRead
      | healthNext | healthFlush | rtcSecondsRead | mailboxConsume | journalAppend | journalCompaction | dozeEnter | dozeExit | syncGo |
      ctxLoad | ctxCommitWindow | outfallToneStart | outfallAbort | calRecalibration | calAbsolute | calSelftest | calApplySet | calRollback
      | calLoad | calAbort | wardenVote | proposalLapse | tmrMismatch | eccCorrected | eccScrub | eccUncorrectable | journalRead |
      journalWrite | journalFlashRead | journalProgram | journalErase4k | journalErase64k | journalCompact | keysDataWrite | keysProgramKey
      | keysBlowAuthReq | keysBlowStillOff | keysOperationEnd | hostportLinkWrite | hostportAddressWrite | versionHandshake | twCmdReset |
      twCmdFreeze | rtcCommit | rtcCancel | rtcStepUp | rtcStepDown | rtcOffsetWrite | rtcTrimWrite | mainsInEdge | journalSessionGrant |
      dozeFabIdleStop | proposalRaise | engineRestartComplete | wardenRestartComplete | wardenHeartbeatTimeout | wardenMiscompare |
      tmrRepair | programPageReload | imageLoadComplete | journalReplayComplete | keysDataClear | rtcTrimWindowEnd =>
    dsimp only [exec]
    refine stops ?_
    repeat with_reducible refine Stands.and ?_
    exact Stands.awake
  case frameBoundary | syncNAssert | syncResetApply | runOutEnd | relayConfirmed | relayNotConfirmed | recordRelease | afLearnedJournal |
      crossFadeEnd | dozeEntry | eabRecordHandover | eabReplayJournal | scoutCheckStart | scoutCheckEnd | afSwitchDecision | landingStart |
      landingReady | landingFailed | afSwitch | twinCombineTimeout | twinSelectionChange | relayIntake | tempSensorRead | selftestDue =>
    dsimp only [exec]
    refine stops ?_
    repeat with_reducible refine Stands.and ?_
    exact Stands.serving
  case agcWindowEnd | agcClipReduction | agcDeferredIncrease | blankingIntervalEnd | overrangeSample | sampleClamped =>
    dsimp only [exec]
    refine stops ?_
    repeat with_reducible refine Stands.and ?_
    exact Stands.sampling _
  case reachAgcWrite | reachAttnWrite | reachTribWrite =>
    dsimp only [exec]
    refine stops ?_
    exact Stands.reachAccess _
  case fallowBoundary | fallowTrimCommit | maintenanceAdmit | fegrComplete | calAbsBlock | calPointComplete | calPointTimeout |
      calSlotTaken | calCommitPoint | selftestComplete =>
    dsimp only [exec]
    refine stops ?_
    repeat with_reducible refine Stands.and ?_
    exact Stands.reachUp _
  case subadcFaultDetect =>
    dsimp only [exec]
    refine stops ?_
    repeat with_reducible refine Stands.and ?_
    exact Stands.reachRuns _
  case reachPllLock | adcSettled | initialFallowPassEnd | reachReady | bringupTimeout =>
    dsimp only [exec]
    refine stops ?_
    repeat with_reducible refine Stands.and ?_
    exact Stands.reachStarts _
  case firstValidSample | contextAgcWindow =>
    dsimp only [exec]
    refine stops ?_
    repeat with_reducible refine Stands.and ?_
    exact Stands.chainRuns _
  case engineRound | engineWatchdog =>
    dsimp only [exec]
    refine stops ?_
    exact Stands.engineUp _
  case fmCarrierLock | fmCarrierLockLost | fmPilotDecision | rdsBlock | rdsGroupComplete | amLockGained | amLockLost | amDetectorSwitch |
      dabFrameSync | dabFrameSyncLost | dabFicDecode | dabLogicalFrame | dabSuperframe | dabReconfiguration =>
    dsimp only [exec]
    refine stops ?_
    repeat with_reducible refine Stands.and ?_
    exact Stands.engineServes _ _
  case fmStereoToMono | fmMonoToStereo =>
    dsimp only [exec]
    refine stops ?_
    repeat with_reducible refine Stands.and ?_
    exact Stands.followsPilot _
  case eabLock | eabLockLost | eabPreambleDetect | eabPreambleEnd | eabFalsePreamble | eabSyncFound | eabNoSync | eabHeaderDecoded |
      eabCodewordDecoded | eabBurstEnd | eabShadowDrop | eabLevelRise | eabNfBlock | eabNfReport | eabShadowDetect =>
    dsimp only [exec]
    refine stops ?_
    repeat with_reducible refine Stands.and ?_
    exact Stands.eabServes _
  case outfallRetuneStart | outfallLockTimeout | outfallBlankOutRelease | relayLbtCheck | outfallRetuneLocked | cxDenied |
      outfallLevelLoopEnd | outfallRampDownStart | outfallRampEnd | outfallLateDrop =>
    dsimp only [exec]
    refine stops ?_
    repeat with_reducible refine Stands.and ?_
    exact Stands.outfallRuns
  case outfallBlankOutAssert | outfallRampStart =>
    dsimp only [exec]
    refine stops ?_
    repeat with_reducible refine Stands.and ?_
    exact Stands.sends
  case linkUp | sessionTimeout | datagramDiscarded | linkDown =>
    dsimp only [exec]
    refine stops ?_
    repeat with_reducible refine Stands.and ?_
    exact Stands.portRuns
  case arpResolve | arpRefresh | icmpEcho | arpReply | arpRequest | hello | bye | nak =>
    dsimp only [exec]
    refine stops ?_
    repeat with_reducible refine Stands.and ?_
    exact Stands.hostUp
  case recordsKeepalive | recordsSend =>
    dsimp only [exec]
    refine stops ?_
    repeat with_reducible refine Stands.and ?_
    exact Stands.sendable
  case dozeWindowStart | dozeWindowEnd | dozeExitSequence | dozeTwWake =>
    dsimp only [exec]
    refine stops ?_
    repeat with_reducible refine Stands.and ?_
    exact Stands.scheduleRuns
  case supplyOutOfRange | supplyMonitorRepeat | supplyBackInRange =>
    dsimp only [exec]
    refine stops ?_
    repeat with_reducible refine Stands.and ?_
    exact Stands.monitors
  case refLost | refclkRestored =>
    dsimp only [exec]
    refine stops ?_
    repeat with_reducible refine Stands.and ?_
    exact Stands.refsRun
  case transmit | regRead | regWrite | ctxRead | ctxCommit | qrpCal | syncReset | doze | abort | status =>
    dsimp only [exec]
    exact State.occurs_command_stands frozen locked _ _ _ _ _ _
  case spateFlagRaise | spateFlagClear =>
    dsimp only [exec]
    exact State.occurs_spate_stands frozen locked _ _
  case stillNFreeze | vbatMeasure | twAraRead | holdoverExit | refRevert | refRecovered =>
    dsimp only [exec]
    exact stops (fun t frozen _ => by simp [frozen])
  case refClassify =>
    dsimp only [exec]
    exact stops (fun t _ locked => by simp [locked])
  case confluencePllLock =>
    dsimp only [exec]
    exact stops (fun t _ locked => by simp [locked])
  case pcmRecord =>
    dsimp only [exec]
    exact stops ((Stands.engineServes _ stdFm).or (Stands.engineServes _ stdAm)).and

end Sys2Proof.Machine

namespace Sys2Proof.Machine

/-! ### The freeze instant (R575 to R577) -/

/-- A word with CONFIRM and the command 2 reads back as these two (Table 15.10). -/
theorem bits_twFreezeWord (confirm : BitVec 16) :
    bits (fieldAt confirm.toNat 16 ||| 2) 31 16 = confirm.toNat ∧ bits (fieldAt confirm.toNat 16 ||| 2) 1 0 = 2 := by
  have bound := confirm.isLt
  have joined : (fieldAt confirm.toNat 16 ||| 2).toNat = 2 ^ 16 * confirm.toNat + 2 := by
    rw [Nat.two_pow_add_eq_or_of_lt (by norm_num), fieldAt, BitVec.toNat_or, BitVec.toNat_ofNat, Nat.mod_eq_of_lt (by omega), Nat.mul_comm]
    rfl
  simp only [bits, joined]
  omega

/-- The freeze of TW_CMD acts on its own CONFIRM alone (Table 15.10). -/
theorem State.twCommand_freeze (s : State) (confirm : BitVec 16) : s.twCommand (fieldAt confirm.toNat 16 ||| 2) =
    if confirm = 0x5354 then (if s.freezePermitted then s.freeze true else s.writeIgnored 0x1C0C) else s := by
  obtain ⟨key, cmd⟩ := bits_twFreezeWord confirm
  have spelled : confirm.toNat = 0x5354 ↔ confirm = 0x5354 := BitVec.toNat_inj (y := 0x5354#16)
  simp only [State.twCommand, key, cmd, spelled]

theorem State.freezePermitted_iff (s : State) : s.freezePermitted = true ↔
    s.phase = .locked ∧ s.image.accepted = true ∧ s.image.stillOk = true ∧ s.keys.stillInEffect = false := by
  simp [State.freezePermitted, and_assoc]

theorem State.stillAsserted_long {s : State} {ns : Nat} (long : 200 ≤ ns) : s.stillAsserted ns = s.freeze false :=
  if_pos long

/-- Between 50 ns and 200 ns the filter's draw decides. -/
theorem State.stillAsserted_short {s : State} {ns : Nat} (short : ns < 200) :
    s.stillAsserted ns = { s.freeze false with draws := s.draws + 1 } ∨ s.stillAsserted ns = { s with draws := s.draws + 1 } := by
  unfold State.stillAsserted
  rw [if_neg (by omega)]
  dsimp only
  split
  · exact .inl rfl
  · exact .inr rfl

section
variable {s u : State} {dt : Nat} (at_u : s.advance dt = u)
include at_u

theorem execStillNFreeze_of {ns : Nat} (unfrozen : u.still.frozen = false) (permitted : u.freezePermitted = true) (long : 50 ≤ ns) :
    exec (.stillNFreeze dt ns) s = .next (u.stillAsserted ns) := by
  change execStillNFreeze dt ns s = _
  exact State.occurs_at at_u (by simp [unfrozen, permitted, long]) rfl

theorem execStillNFreeze_not {ns : Nat} (lacks : u.freezePermitted = false ∨ ns < 50) : exec (.stillNFreeze dt ns) s = .next u := by
  change execStillNFreeze dt ns s = _
  refine State.occurs_not_at at_u ?_
  rcases lacks with refused | short
  · rw [refused, Bool.and_false, Bool.false_and]
  · rw [decide_eq_false (Nat.not_le.2 short), Bool.and_false]

theorem execTwCmdFreeze_of (awake : u.awake = true) (confirm : BitVec 16) : exec (.twCmdFreeze dt confirm) s = .next
    (if confirm = 0x5354 then (if u.freezePermitted then u.freeze true else u.writeIgnored 0x1C0C) else u) := by
  change execTwCmdFreeze dt confirm s = _
  exact State.occurs_at at_u awake (State.twCommand_freeze u confirm)

end

/-- Settles O15: `State.freeze` is the freeze instant; its two sources differ in the filter and in the CONFIRM. -/
theorem freezeInstant : Obligations.FreezeInstant := by
  intro s dt ns confirm v u frozen permitted
  have refused (not_permitted : ¬ permitted) : u.freezePermitted = false :=
    Bool.eq_false_iff.2 (mt u.freezePermitted_iff.1 not_permitted)
  refine ⟨fun unfrozen allowed long => ?_, fun unfrozen allowed enough short => ?_, fun lacks => execStillNFreeze_not rfl (lacks.imp_left refused),
    fun awake allowed => ?_, fun awake not_permitted => ?_, fun awake other => ?_, fun freezes => ?_⟩
  · rw [execStillNFreeze_of rfl unfrozen (u.freezePermitted_iff.2 allowed) (by omega), State.stillAsserted_long long]
    rfl
  · rw [execStillNFreeze_of rfl unfrozen (u.freezePermitted_iff.2 allowed) enough]
    exact (State.stillAsserted_short short).imp (congrArg Host.Outcome.next) (congrArg Host.Outcome.next)
  · rw [execTwCmdFreeze_of rfl awake, if_pos rfl, if_pos (u.freezePermitted_iff.2 allowed)]
    rfl
  · rw [execTwCmdFreeze_of rfl awake, if_pos rfl, if_neg (mt u.freezePermitted_iff.1 not_permitted)]
  · rw [execTwCmdFreeze_of rfl awake, if_neg other]
  · change execStillSelWrite dt v s = _
    exact State.occurs_at rfl freezes rfl

end Sys2Proof.Machine

namespace Sys2Proof.Machine

/-! ### Transactions of the two-wire bus (R552 to R580) -/

section
variable (s : State)

/-- A read in the TEST block acts on nothing (Table 17.9). -/
theorem State.readEffect_test {addr : Addr} (low : 0x3F00 ≤ addr.toNat) : s.readEffect addr = s := by
  unfold State.readEffect
  dsimp only
  by_cases frozen : s.still.frozen = true
  · rw [if_pos frozen, if_neg (by omega)]
  · rw [if_neg frozen, if_neg (by omega), if_neg (by omega), if_neg (by omega), if_neg (by omega), if_neg (by omega), if_neg (by omega),
      if_neg (by omega), if_neg (by omega)]

theorem State.peek_test {addr : Addr} (low : 0x3F00 ≤ addr.toNat) (high : addr.toNat < 0x4000) :
    s.peek addr = s.peekTest (addr.toNat / 4 * 4) := by
  unfold State.peek
  dsimp only
  rw [if_neg (by omega), if_neg (by omega), if_neg (by omega), if_neg (by omega), if_neg (by omega), if_neg (by omega), if_neg (by omega),
    if_neg (by omega), if_neg (by omega), if_neg (by omega), if_neg (by omega), if_neg (by omega), if_neg (by omega), if_neg (by omega),
    if_pos (by omega)]

theorem State.readReg_scratch : s.readReg 0x3F00 = { s with readData := s.readData ++ [s.scratch] } := by
  rw [State.readReg, State.readEffect_test s (by decide), State.peek_test s (by decide) (by decide)]
  rfl

theorem State.readReg_pattern : s.readReg 0x3F04 = { s with readData := s.readData ++ [0x5AA5C33C] } := by
  rw [State.readReg, State.readEffect_test s (by decide), State.peek_test s (by decide) (by decide)]
  rfl

end

/-- The part sends bytes and, where PEC is in force, the PEC of every byte since the START (R562, R563). -/
def Tw.sendWord (t : Tw) (pec : Bool) (l : List Byte) : Tw :=
  let check := if pec then [crc8 (t.bus ++ l)] else []
  { t with bus := t.bus ++ (l ++ check), sent := t.sent ++ (l ++ check) }

section
variable (s : State)

theorem State.sendWord_eq (w : Word) : s.sendWord w = { s with tw := s.tw.sendWord s.pecOn (bytesOf 4 w.toNat) } := by
  have pec : (s.sendBus (bytesOf 4 w.toNat)).pecOn = s.pecOn := rfl
  have bus : (s.sendBus (bytesOf 4 w.toNat)).tw.bus = s.tw.bus ++ bytesOf 4 w.toNat := rfl
  unfold State.sendWord Tw.sendWord
  dsimp only
  rw [pec, bus]
  generalize bytesOf 4 w.toNat = l
  generalize crc8 (s.tw.bus ++ l) = b
  cases s.pecOn with
  | false => simp [State.sendBus, State.onBus]
  | true => simp [State.sendBus, State.onBus, List.append_assoc]

/-- A read of PATTERN, whether the controller takes its last byte or not. -/
theorem State.twRegs_pattern (whole : Bool) : s.twRegs 0x3F04 whole 1 = { s with
    readData := s.readData ++ [0x5AA5C33C]
    tw := { (if whole then s.tw.sendWord s.pecOn [0x5A, 0xA5, 0xC3, 0x3C] else s.tw) with next := 0x3F08 } } := by
  have bytes : bytesOf 4 (0x5AA5C33C : Word).toNat = [0x5A, 0xA5, 0xC3, 0x3C] := by decide
  have peeked : s.peek 0x3F04 = 0x5AA5C33C := State.peek_test s (by decide) (by decide)
  cases whole with
  | false =>
    rw [State.twRegs, if_pos (by decide), State.readPart, if_pos (by decide), peeked]
    rfl
  | true =>
    rw [State.twRegs, if_neg (by decide), peeked, State.readReg_pattern, State.sendWord_eq, bytes]
    rfl

/-- SCRATCH and PATTERN read in one transaction. -/
theorem State.twRegs_scratch (whole : Bool) : s.twRegs 0x3F00 whole 2 = { s with
    readData := s.readData ++ [s.scratch] ++ [0x5AA5C33C]
    tw := (((s.readReg 0x3F00).sendWord s.scratch).accessed 0x3F00 |>.twRegs 0x3F04 whole 1).tw } := by
  have peeked : s.peek 0x3F00 = s.scratch := State.peek_test s (by decide) (by decide)
  have second : (0x3F00 : Addr) + 4 = 0x3F04 := by decide
  rw [State.twRegs, if_neg (by simp), peeked, second, State.twRegs_pattern, State.sendWord_eq, State.readReg_scratch]
  rfl

end

section
variable {s : State} {a : BitVec 7}

theorem State.addressed_stranger {f : State → State} (unfrozen : s.still.frozen = false) (stranger : s.tw.start.answers a = false) :
    s.addressed a f = { s with tw := s.tw.start } := by
  simp [State.addressed, unfrozen, stranger]

theorem State.addressed_frozen (f : State → State) (frozen : s.still.frozen = true) :
    s.addressed s.tw.start.primary f = f { s with tw := s.tw.start } := by
  simp [State.addressed, frozen]

end

/-- An address byte of a write, and the two bytes of a register (R557). -/
theorem addrByte_write (a : BitVec 7) : addrByte a false = a.setWidth 8 <<< 1 := by
  simp [addrByte]

end Sys2Proof.Machine

namespace Sys2Proof.Machine

section
variable (s : State) (a : Addr) (v : Word) (pec : Byte)

theorem State.twWords_one (ro : Bool) : s.twWords ro a [⟨v, 4, pec⟩] =
    if ro || (s.still.frozen && a != 0x3010) then (s.ack false, [])
    else if (s.onBus (bytesOf 4 v.toNat)).pecOn && crc8 (s.tw.bus ++ bytesOf 4 v.toNat) != pec then
      ({ s with tw := { s.tw with
        bus := s.tw.bus ++ bytesOf 4 v.toNat, pecErrors := s.tw.pecErrors.add 255 s.clock, acked := s.tw.acked ++ [false] } }, [])
    else (((s.onBus (bytesOf 4 v.toNat ++ if (s.onBus (bytesOf 4 v.toNat)).pecOn then [pec] else [])).writeReg .twoWire 0 a v).ack true
      |>.accessed a, [(a, v)]) := by
  have twice : (s.onBus (bytesOf 4 v.toNat)).onBus [pec] = s.onBus (bytesOf 4 v.toNat ++ [pec]) := by
    simp [State.onBus, List.append_assoc]
  rw [State.twWords, if_neg (by decide : ¬ 4 < 4)]
  dsimp only
  rw [twice]
  cases (s.onBus (bytesOf 4 v.toNat)).pecOn with
  | false => simp; rfl
  | true => simp; rfl

/-- A register whose write ends with its last byte has nothing left for the STOP. -/
theorem State.twEnd_one (stop : Bool) (settled : ∀ t : State, t.busEnd stop a.toNat v = t) : s.twEnd stop [(a, v)] = s := by
  rw [State.twEnd, settled, State.twEnd, ite_self]

end

section
variable {s : State} {v : Word} {pec : Byte} {ro : Bool}

/-- Refused: the word is not taken at all. -/
theorem State.twWords_refused {a : Addr} (refused : ro = true ∨ s.still.frozen = true ∧ a ≠ 0x3010) :
    s.twWords ro a [⟨v, 4, pec⟩] = (s.ack false, []) := by
  rw [State.twWords_one]
  refine if_pos ?_
  rcases refused with readOnly | ⟨frozen, other⟩
  · rw [readOnly, Bool.true_or]
  · rw [frozen, bne_iff_ne.2 other, Bool.true_and, Bool.or_true]

section
variable (writable : ro = false) (unfrozen : s.still.frozen = false)
include writable unfrozen

theorem State.twWords_plain (off : s.tw.pec = false) : s.twWords ro 0x3F00 [⟨v, 4, pec⟩] = ({ s with
    scratch := v
    tw := { s.tw with bus := s.tw.bus ++ bytesOf 4 v.toNat, acked := s.tw.acked ++ [true], next := 0x3F04 } }, [(0x3F00, v)]) := by
  have pecOn : (s.onBus (bytesOf 4 v.toNat)).pecOn = false := Bool.and_eq_false_iff.2 (.inl off)
  rw [State.twWords_one, if_neg (by simp [writable, unfrozen]), pecOn, if_neg (by simp), if_neg (by decide), List.append_nil,
    State.writeReg_scratch (s := s.onBus _) unfrozen]
  rfl

section
variable (on : s.tw.pec = true)
include on

omit writable in
theorem State.onBus_pecOn (l : List Byte) : (s.onBus l).pecOn = true :=
  Bool.and_eq_true_iff.2 ⟨on, congrArg Bool.not unfrozen⟩

theorem State.twWords_checked (good : crc8 (s.tw.bus ++ bytesOf 4 v.toNat) = pec) : s.twWords ro 0x3F00 [⟨v, 4, pec⟩] = ({ s with
    scratch := v
    tw := { s.tw with bus := s.tw.bus ++ bytesOf 4 v.toNat ++ [pec], acked := s.tw.acked ++ [true], next := 0x3F04 } }, [(0x3F00, v)]) := by
  rw [State.twWords_one, if_neg (by simp [writable, unfrozen]), State.onBus_pecOn unfrozen on, good, if_neg (by simp), if_pos rfl,
    State.writeReg_scratch (s := s.onBus _) unfrozen, List.append_assoc]
  rfl

theorem State.twWords_spoiled (bad : crc8 (s.tw.bus ++ bytesOf 4 v.toNat) ≠ pec) : s.twWords ro 0x3F00 [⟨v, 4, pec⟩] = ({ s with
    tw := { s.tw with
      bus := s.tw.bus ++ bytesOf 4 v.toNat, pecErrors := s.tw.pecErrors.add 255 s.clock, acked := s.tw.acked ++ [false] } }, []) := by
  rw [State.twWords_one, if_neg (by simp [writable, unfrozen]), State.onBus_pecOn unfrozen on, if_pos (by simpa using bad)]

end
end

/-- In a freeze STILL_SEL takes its bytes without a PEC (R579, R580). -/
theorem State.twWords_stillSel (writable : ro = false) (frozen : s.still.frozen = true) : s.twWords ro 0x3010 [⟨v, 4, pec⟩] = ({ s with
    still := { s.still with region := BitVec.ofNat 5 (bits v 28 24), offset := BitVec.ofNat 13 (bits v 12 0) }
    tw := { s.tw with bus := s.tw.bus ++ bytesOf 4 v.toNat, acked := s.tw.acked ++ [true], next := 0x3014 } }, [(0x3010, v)]) := by
  have pecOn : (s.onBus (bytesOf 4 v.toNat)).pecOn = false := Bool.and_eq_false_iff.2 (.inr (congrArg Bool.not frozen))
  have next : (0x3010 : Addr) + 4 = 0x3014 := by decide
  have written : (s.onBus (bytesOf 4 v.toNat)).writeReg .twoWire 0 0x3010 v = (s.onBus (bytesOf 4 v.toNat)).writeStillSel v := by
    unfold State.writeReg
    dsimp only
    exact (if_pos frozen).trans (if_pos (by decide))
  rw [State.twWords_one, if_neg (by simp [writable]), pecOn, if_neg (by simp), if_neg (by decide), List.append_nil, written]
  simp only [State.writeStillSel, State.ack, State.accessed, State.onBus, next]

end

/-- A transaction under way: the address byte and the register's bytes of a write, and of a read the second address byte, have passed. -/
def State.writing (w : State) (a : BitVec 7) (reg : Addr) : State :=
  { w with tw := { w.tw with bus := w.tw.bus ++ (a.setWidth 8 <<< 1) :: bytesOf 2 reg.toNat, next := regAddr reg } }

def State.reading (w : State) (a : BitVec 7) (reg : Addr) : State :=
  { w with tw := { w.tw with
    bus := w.tw.bus ++ (((a.setWidth 8 <<< 1) :: bytesOf 2 reg.toNat) ++ [a.setWidth 8 <<< 1 ||| 1]), next := regAddr reg } }

section
variable {s u : State} {dt : Nat} (at_u : s.advance dt = u) (up : u.busUp = true)
include at_u up

/-- A write transaction from the state `w` that has met its address. -/
theorem execTwWrite_of {a : BitVec 7} {reg : Addr} {l : List TwWord} {stop ro : Bool} {w : State}
    (met : ∀ f, u.addressed a f = f w) (access : (!w.still.frozen && w.tw.readOnly a) = ro) {r : State × List (Addr × Word)}
    (words : (w.writing a reg).twWords ro (regAddr reg) l = r) : exec (.twWrite dt a reg l stop) s = .next (r.1.twEnd stop r.2) := by
  subst words access
  change execTwWrite dt a reg l stop s = _
  refine State.occurs_at at_u up ((met _).trans ?_)
  rw [addrByte_write]
  rfl

theorem execTwWrite_stranger {a : BitVec 7} {reg : Addr} {l : List TwWord} {stop : Bool} (unfrozen : u.still.frozen = false)
    (stranger : u.tw.start.answers a = false) : exec (.twWrite dt a reg l stop) s = .next { u with tw := u.tw.start } := by
  change execTwWrite dt a reg l stop s = _
  exact State.occurs_at at_u up (State.addressed_stranger unfrozen stranger)

theorem execTwRead_stranger {a : BitVec 7} {reg : Option Addr} {n : Nat} {whole : Bool} (unfrozen : u.still.frozen = false)
    (stranger : u.tw.start.answers a = false) : exec (.twRead dt a reg n whole) s = .next { u with tw := u.tw.start, readData := [] } := by
  change execTwRead dt a reg n whole s = _
  exact State.occurs_at at_u up (State.addressed_stranger (s := { u with readData := [] }) unfrozen stranger)

/-- A read transaction from the state `w` that has met its address. -/
theorem execTwRead_of {a : BitVec 7} {reg : Addr} {n : Nat} {whole : Bool} {w : State}
    (met : ∀ f, ({ u with readData := [] } : State).addressed a f = f w) : exec (.twRead dt a (some reg) n whole) s = .next
      ((w.reading a reg).twRegs (regAddr reg) whole n) := by
  change execTwRead dt a (some reg) n whole s = _
  refine State.occurs_at at_u up ((met _).trans ?_)
  dsimp only
  rw [addrByte_write]
  rfl

end

end Sys2Proof.Machine

namespace Sys2Proof.Machine

section
variable {s u : State} {dt : Nat} (at_u : s.advance dt = u) (up : u.busUp = true)
include at_u up

theorem execTwSdaRelease_of {us : Nat} (long : (if u.still.frozen then 35000 else 34900) ≤ us) : exec (.twSdaRelease dt us) s = .next
    { u with tw := { u.tw with
      ignoring := true, sdaReleases := if u.still.frozen then u.tw.sdaReleases else u.tw.sdaReleases.add 255 u.clock } } := by
  change execTwSdaRelease dt us s = _
  exact State.occurs_at at_u (by rw [up, decide_eq_true long]; rfl) rfl

section
variable (unfrozen : u.still.frozen = false)
include unfrozen

omit up unfrozen in
theorem execTwAraRead_idle (others : Byte) (idle : u.mailbox.alertPending = false) : exec (.twAraRead dt others) s = .next u := by
  change execTwAraRead dt others s = _
  exact State.occurs_not_at at_u (by rw [idle, Bool.and_false])

section
variable (pending : u.mailbox.alertPending = true) (runs : u.doze.fabAwake = true)
include pending runs

theorem execTwAraRead_won {others mine : Byte} (own : ({ u with tw := u.tw.start } : State).araAddress.setWidth 8 <<< 1 ||| 1 = mine)
    (wins : mine ≤ others) : exec (.twAraRead dt others) s = .next { u with
      tw := { u.tw.start with araByte := some mine }, doze := { u.doze with lastTwPs := u.clock }
      mailbox := { u.mailbox with alertPending := false, alertSev := 0, alertSkip := false } } := by
  change execTwAraRead dt others s = _
  refine State.occurs_at at_u (by rw [up, unfrozen, pending]; rfl) ?_
  dsimp only
  rw [runs, own, if_neg (by decide), if_pos wins]
  rfl

theorem execTwAraRead_lost {others mine : Byte} (own : ({ u with tw := u.tw.start } : State).araAddress.setWidth 8 <<< 1 ||| 1 = mine)
    (loses : ¬ mine ≤ others) : exec (.twAraRead dt others) s = .next { u with
      tw := { u.tw.start with araByte := some mine, araLost := u.tw.start.araLost.add 255 u.clock }
      doze := { u.doze with lastTwPs := u.clock } } := by
  change execTwAraRead dt others s = _
  refine State.occurs_at at_u (by rw [up, unfrozen, pending]; rfl) ?_
  dsimp only
  rw [runs, own, if_neg (by decide), if_neg loses]

end
end
end

/-- Settles O16: a transaction that meets its address is the words of `State.twWords` or the registers of `State.twRegs`. -/
theorem busTransactions : Obligations.BusTransactions := by
  constructor
  · intro s dt a v pec stop whole u tw w head sent locked ready
    have up : u.busUp = true := by rw [State.busUp, locked, ready]; rfl
    refine ⟨fun unfrozen runs => ?_, fun frozen => ?_⟩
    · have met (answers : tw.answers a = true) (f : State → State) : u.addressed a f = f w := State.addressed_served u unfrozen runs answers
      have writable {ro : Bool} (is : tw.readOnly a = ro) : (!w.still.frozen && w.tw.readOnly a) = ro := by
        rw [show w.still.frozen = false from unfrozen, Bool.not_false, Bool.true_and]
        exact is
      refine ⟨fun answers write off => ?_, fun answers write on good => ?_, fun answers write on bad => ?_, fun answers read => ?_,
        fun stranger reg l r n => ⟨execTwWrite_stranger rfl up unfrozen stranger, execTwRead_stranger rfl up unfrozen stranger⟩, fun answers => ?_⟩
      · rw [execTwWrite_of rfl up (met answers) (writable write) (State.twWords_plain (s := w.writing a 0x3F00) rfl unfrozen off)]
        rw [State.twEnd_one _ _ _ _ (fun t => t.busEnd_other _ _ (by decide))]
        rfl
      · rw [execTwWrite_of rfl up (met answers) (writable write) (State.twWords_checked (s := w.writing a 0x3F00) rfl unfrozen on good)]
        rw [State.twEnd_one _ _ _ _ (fun t => t.busEnd_other _ _ (by decide))]
        rfl
      · refine ⟨_, execTwWrite_of rfl up (met answers) (writable write) (State.twWords_spoiled (s := w.writing a 0x3F00) rfl unfrozen on bad), ?_⟩
        exact ⟨rfl, rfl, rfl, rfl⟩
      · rw [execTwWrite_of rfl up (met answers) (writable read) (State.twWords_refused (.inl rfl))]
        rfl
      · have met' (f : State → State) : ({ u with readData := [] } : State).addressed a f = f { w with readData := [] } :=
          State.addressed_served { u with readData := [] } unfrozen runs answers
        refine ⟨⟨_, (execTwRead_of rfl up met').trans (congrArg Host.Outcome.next (State.twRegs_pattern _ whole)), rfl, rfl, rfl, ?_, ?_⟩,
          _, (execTwRead_of rfl up met').trans (congrArg Host.Outcome.next (State.twRegs_scratch _ whole)), rfl,
          (congrArg (fun t : State => t.tw.next) (State.twRegs_pattern _ whole) :), rfl⟩
        · intro taken off
          subst taken
          change [] ++ ([0x5A, 0xA5, 0xC3, 0x3C] ++ if tw.pec && !u.still.frozen then _ else []) = _
          rw [off]
          rfl
        · intro taken on
          subst taken
          change [] ++ ([0x5A, 0xA5, 0xC3, 0x3C] ++ if tw.pec && !u.still.frozen then _ else []) = _
          rw [on, unfrozen]
          rfl
    · let w : State := { u with tw := tw }
      have met (f : State → State) : u.addressed tw.primary f = f w := State.addressed_frozen f frozen
      have met' (f : State → State) : ({ u with readData := [] } : State).addressed tw.primary f = f { w with readData := [] } :=
        State.addressed_frozen (s := { u with readData := [] }) f frozen
      have writable : (!w.still.frozen && w.tw.readOnly tw.primary) = false := by
        rw [show w.still.frozen = true from frozen]
        rfl
      refine ⟨?_, ?_, _, (execTwRead_of rfl up met').trans (congrArg Host.Outcome.next (State.twRegs_pattern _ whole)), rfl, rfl, rfl⟩
      · rw [execTwWrite_of rfl up met writable (State.twWords_refused (.inr ⟨frozen, by decide⟩))]
        rfl
      · rw [execTwWrite_of rfl up met writable (State.twWords_stillSel (s := w.writing tw.primary 0x3010) rfl frozen)]
        rw [State.twEnd_one _ _ _ _ (fun t => t.busEnd_other _ _ (by decide))]
        rfl
  · intro s dt us others u tw mine locked ready
    have up : u.busUp = true := by rw [State.busUp, locked, ready]; rfl
    refine ⟨fun unfrozen long => ?_, fun c => rfl, fun frozen long => ?_, fun unfrozen pending runs => ⟨fun wins => ?_, fun loses => ?_⟩,
      fun unfrozen idle => execTwAraRead_idle rfl others idle⟩
    · rw [execTwSdaRelease_of rfl up (by rwa [unfrozen]), unfrozen]
      rfl
    · rw [execTwSdaRelease_of rfl up (by rwa [frozen]), frozen]
      rfl
    · exact execTwAraRead_won rfl up unfrozen pending runs rfl wins
    · exact execTwAraRead_lost rfl up unfrozen pending runs rfl loses

end Sys2Proof.Machine

/-! ## Host port and QRP: the link, sessions, records and commands -/

namespace Sys2Proof.Machine

/-! ### Records on the wire (R505, R508, R512) -/

/-- An IPv4 payload leaves in at least one datagram. -/
theorem ipFragments_ne_nil {mtu : Nat} (room : 28 ≤ mtu) (head : BitVec 24) (proto : Nat) (src dst : Word) (l : List Byte) :
    ipFragments mtu head proto src dst l ≠ [] := by
  unfold ipFragments
  dsimp only
  split
  · exact List.cons_ne_nil _ _
  · rename_i long
    have some_fragment : 0 < (l.length + (mtu - 20) / 8 * 8 - 1) / ((mtu - 20) / 8 * 8) := Nat.div_pos (by omega) (by omega)
    simp only [ne_eq, List.map_eq_nil_iff, List.range_eq_nil]
    omega

theorem HPort.mtu_room (h : HPort) : 28 ≤ h.mtu := by
  unfold HPort.mtu HPort.frameMax
  split <;> decide

/-- A datagram of records is carried by at least one frame. -/
theorem HPort.frames_records_ne_nil {h : HPort} {q : QSession} (session : h.session = some q) (v d : Nat) (l : List Record) :
    h.frames (.records v d l) ≠ [] := by
  have carried : h.datagram (.records v d l) = some (q.peer, datagramHead v 0x10 d ++ l.flatMap (fun r => r.bytes v)) := by
    rw [HPort.datagram, session, Option.map_some]
  unfold HPort.frames
  rw [carried]
  exact mt List.map_eq_nil_iff.1 (ipFragments_ne_nil h.mtu_room _ _ _ _ _)

/-- A running part with a session, 1 s after it last sent a datagram. -/
def silentSession : State := { State.reset with
  phase := .locked, clock := 10 ^ 12, pins := { porHold := false }, tw := { ready := true }
  host := { link := true, ip := 0x0A000001, mask := 0xFFFFFF00, sessions := 1, nextHop := some (0x0A000002, 0x020000000001, 0)
            session := some { peer := ⟨0x0A000002, 5000⟩, version := 3, timeoutS := 5, mask := 0, lastRxPs := 0 } } }

theorem silentSession_sends : (silentSession.advance 0).hostUp = true ∧ (silentSession.advance 0).host.resolved = true ∧
    (silentSession.advance 0).sendable = true ∧ (silentSession.advance 0).maySend = true ∧
    (silentSession.advance 0).host.lastTxPs + secPs ≤ (silentSession.advance 0).clock := by
  decide +kernel

section
variable {s u : State} {dt : Nat} (at_u : s.advance dt = u) {q : QSession}

include at_u in
theorem execRecordsKeepalive_of (sends : u.sendable = true) (session : u.host.session = some q) (silent : u.host.lastTxPs + secPs ≤ u.clock) :
    exec (.recordsKeepalive dt) s = .next (u.sendDatagram (fun d => .records q.version d [])) := by
  change execRecordsKeepalive dt s = _
  exact State.occurs_at at_u (by rw [sends, decide_eq_true silent]; rfl) (State.withSome_of session)

end

theorem State.sendDatagram_of {s : State} (may : s.maySend = true) (f : Nat → Frame) :
    s.sendDatagram f = (s.sendFrame (f s.host.dseq)).countDatagram :=
  if_pos may

/-- Refutes O38: the empty datagram also leaves its Ethernet frames on the wire, which the statement's next state leaves out
(`silentSession`, R505 and R512). -/
theorem not_recordFlow : ¬ Obligations.RecordFlow := by
  intro flow
  obtain ⟨up, resolved, sends, may, silent⟩ := silentSession_sends
  let q : QSession := { peer := ⟨0x0A000002, 5000⟩, version := 3, timeoutS := 5, mask := 0, lastRxPs := 0 }
  let r : Record := { typ := 0x40, ctx := 0xFFFF, reach := 0xFF, stamp := 0, payload := [] }
  obtain ⟨-, sending, -⟩ := flow.1 silentSession 0 q.peer q [] ⟨r, 0, 0⟩ []
  obtain ⟨-, keepalive, -⟩ := sending up resolved rfl
  have sent := keepalive (by rwa [secPs_eq] at silent)
  rw [execRecordsKeepalive_of rfl sends (q := q) rfl silent, State.sendDatagram_of may] at sent
  have wire := congrArg (fun t : State => t.host.wire) (Host.Outcome.next.inj sent)
  exact HPort.frames_records_ne_nil (q := q) rfl _ _ _ (List.append_right_eq_self.1 wire)

end Sys2Proof.Machine

namespace Sys2Proof.Machine

/-! ### The link and its registers (R504, R510, R515, R551) -/

section
variable {s u : State} {dt : Nat} (at_u : s.advance dt = u)
include at_u

section
variable (runs : u.portRuns = true)
include runs

theorem execLinkUp_of {syncUs : Nat} {an : Bool} (down : u.host.link = false) (held : 10000 ≤ syncUs) (mode : u.host.mode ≠ 0)
    (negotiated : an = true ∨ u.host.mode = 2 ∨ u.host.anEn = false) : exec (.linkUp dt syncUs an) s = .next (u.linkUp an) := by
  have complete : (an || u.host.mode == 2 || !u.host.anEn) = true := by
    rcases negotiated with done | fixed | off
    · rw [done, Bool.true_or, Bool.true_or]
    · rw [beq_iff_eq.2 fixed, Bool.or_true, Bool.true_or]
    · rw [off, Bool.not_false, Bool.or_true]
  change execLinkUp dt syncUs an s = _
  exact State.occurs_at at_u (by rw [runs, down, decide_eq_true held, bne_iff_ne.2 mode, complete]; rfl) rfl

theorem execLinkDown_of : exec (.linkDown dt) s = .next u.linkDown := by
  change execLinkDown dt s = _
  exact State.occurs_at at_u runs rfl

theorem execDatagramDiscarded_of (frame : List Byte) (link : u.host.link = true) : exec (.datagramDiscarded dt frame) s = .next (u.receive frame) := by
  change execDatagramDiscarded dt frame s = _
  exact State.occurs_at at_u (by rw [runs, link]; rfl) rfl

end

section
variable (awake : u.awake = true)
include awake

theorem execHostportLinkWrite_of (v : Word) : exec (.hostportLinkWrite dt v) s = .next (u.writeHostCtrl v) := by
  change execHostportLinkWrite dt v s = _
  exact State.occurs_at at_u awake rfl

theorem execHostportAddressWrite_of (addr : Addr) (v : Word) : exec (.hostportAddressWrite dt addr v) s = .next (u.writeHostAddress addr v) := by
  change execHostportAddressWrite dt addr v s = _
  exact State.occurs_at at_u awake rfl

end

/-! ### ARP and ICMP echo (R507, R508) -/

section
variable (up : u.hostUp = true)
include up

theorem execArpRequest_of (sender target : BitVec 32) (mac : BitVec 48) :
    exec (.arpRequest dt sender target mac) s = .next (u.arpAnswer sender target mac) := by
  change execArpRequest dt sender target mac s = _
  exact State.occurs_at at_u up rfl

theorem execArpResolve_of (hop : u.host.nextHopIp ≠ 0) (unresolved : u.host.resolved = false) : exec (.arpResolve dt) s = .next u.arpNext := by
  change execArpResolve dt s = _
  exact State.occurs_at at_u (by rw [up, bne_iff_ne.2 hop, unresolved]; rfl) rfl

theorem execArpRefresh_of {p : BitVec 32 × BitVec 48 × Nat} (resolved : u.host.resolved = true) (hop : u.host.nextHop = some p)
    (old : p.2.2 + 60 * secPs ≤ u.clock) :
    exec (.arpRefresh dt) s = .next (({ u with host := { u.host with nextHop := none } } : State).arpAsk 1) := by
  change execArpRefresh dt s = _
  exact State.occurs_at at_u (by simp [up, resolved, hop, old]) rfl

theorem execArpReply_of {sender : BitVec 32} {mac : BitVec 48} (hop : u.host.nextHopIp = sender) (some_hop : sender ≠ 0) :
    exec (.arpReply dt sender mac) s = .next (u.arpResolved sender mac) := by
  change execArpReply dt sender mac s = _
  exact State.occurs_at at_u (by rw [up, beq_iff_eq.2 hop, bne_iff_ne.2 some_hop]; rfl) rfl

theorem execIcmpEcho_of {sender : BitVec 32} {mac : BitVec 48} {ident seq : BitVec 16} {payload : List Byte} (fits : payload.length ≤ 1472) :
    exec (.icmpEcho dt sender mac ident seq payload) s = .next (u.sendFrame (.echoReply sender mac ident seq payload)) := by
  change execIcmpEcho dt sender mac ident seq payload s = _
  exact State.occurs_at at_u (by rw [up, decide_eq_true fits]; rfl) rfl

end
end

section
variable {s : State}

theorem State.receive_discard {frame : List Byte} (verdict : s.host.verdict frame = .discard) :
    s.receive frame = { s with host := { s.host with rxDiscards := s.host.rxDiscards.add 65535 s.clock } } := by
  rw [State.receive, verdict]
  rfl

theorem State.receive_taken {frame : List Byte} (verdict : s.host.verdict frame = .taken) : s.receive frame = s := by
  rw [State.receive, verdict]

theorem State.receive_bad {frame : List Byte} {b : BadCommand} (verdict : s.host.verdict frame = .bad b) : s.receive frame = s.badCommand b := by
  rw [State.receive, verdict]

/-- A request of another sender than the resolved next hop brings no mapping. -/
theorem State.arpAnswer_other {sender target : Word} (mac : BitVec 48) (other : s.host.resolved = false ∨ s.host.nextHopIp ≠ sender) :
    s.arpAnswer sender target mac = if target = s.host.ip then s.sendFrame (.arpReply sender mac) else s := by
  have unknown : (s.host.resolved && s.host.nextHopIp == sender) = false := by
    rcases other with unresolved | stranger
    · rw [unresolved, Bool.false_and]
    · rw [beq_false_of_ne stranger, Bool.and_false]
  rw [State.arpAnswer, unknown]
  rfl

/-- A request of the resolved next hop for another address renews its mapping. -/
theorem State.arpAnswer_hop {sender target : Word} (mac : BitVec 48) (resolved : s.host.resolved = true) (hop : s.host.nextHopIp = sender)
    (other : target ≠ s.host.ip) : s.arpAnswer sender target mac =
      { s with host := { s.host with nextHop := some (sender, mac, s.clock), arpTries := 0 } } := by
  rw [State.arpAnswer, resolved, beq_iff_eq.2 hop]
  exact if_neg other

theorem State.arpNext_first (first : s.host.arpTries = 0) : s.arpNext = s.arpAsk 1 :=
  if_pos first

section
variable (later : 1 ≤ s.host.arpTries) (few : s.host.arpTries ≤ 3)
include later few

theorem State.arpNext_repeat (due : s.host.arpPs + secPs ≤ s.clock) : s.arpNext = s.arpAsk (s.host.arpTries + 1) := by
  unfold State.arpNext
  dsimp only
  rw [if_neg (by omega), if_pos few, if_pos due]

theorem State.arpNext_waits (early : s.clock < s.host.arpPs + secPs) : s.arpNext = s := by
  unfold State.arpNext
  dsimp only
  rw [if_neg (by omega), if_pos few, if_neg (by omega)]

end

section
variable (many : 3 < s.host.arpTries)
include many

theorem State.arpNext_rests (early : s.clock < s.host.arpPs + 10 * secPs) : s.arpNext = s := by
  unfold State.arpNext
  dsimp only
  rw [if_neg (by omega), if_neg (by omega), if_neg (by omega)]

/-- After 10 s the requests begin again, with a post. -/
theorem State.arpNext_again (due : s.host.arpPs + 10 * secPs ≤ s.clock) :
    s.arpNext = (s.arpAsk 1).post 7 0xFF 0xFFFF 0xA6 0 (bytesOf 4 s.host.nextHopIp.toNat) := by
  unfold State.arpNext
  dsimp only
  rw [if_neg (by omega), if_neg (by omega), if_pos due]

end

theorem State.arpResolved_of (no_ack : s.host.ackDue = false) (sender : Word) (mac : BitVec 48) :
    s.arpResolved sender mac = { s with host := { s.host with nextHop := some (sender, mac, s.clock), arpTries := 0 } } :=
  if_neg (by rw [show (s.host.learn sender mac s.clock).ackDue = false from no_ack]; exact Bool.false_ne_true)

end

/-- Settles O36: each event of the link by its condition, a write by its register, and the requests for the next hop by their count. -/
theorem hostPortLink : Obligations.HostPortLink := by
  constructor
  · intro s dt syncUs an v frame u h addressed
    refine ⟨fun runs => ⟨execLinkUp_of rfl runs, fun link => ?_, fun down => ?_, fun link verdict => ?_, fun link verdict => ?_⟩,
      fun awake => ⟨execHostportLinkWrite_of rfl awake v, execHostportAddressWrite_of rfl awake 0x2408 v,
        execHostportAddressWrite_of rfl awake 0x240C v, execHostportAddressWrite_of rfl awake 0x2410 v,
        execHostportAddressWrite_of rfl awake 0x2414 v, execHostportAddressWrite_of rfl awake 0x2418 v,
        execHostportAddressWrite_of rfl awake 0x241C v⟩⟩
    · exact (execLinkDown_of rfl runs).trans (congrArg Host.Outcome.next (if_pos link))
    · exact (execLinkDown_of rfl runs).trans (congrArg Host.Outcome.next (if_neg (Bool.eq_false_iff.1 down)))
    · rw [execDatagramDiscarded_of rfl runs frame link, State.receive_discard verdict]
    · rw [execDatagramDiscarded_of rfl runs frame link, State.receive_taken verdict]
  · intro s dt ip target mac ident seq p u h asked up
    refine ⟨fun other => ⟨fun own => ?_, fun foreign => ?_⟩, fun resolved hop foreign => ?_, fun hop unresolved => ⟨fun first => ?_,
      fun later few due => ?_, fun later few early => ?_, fun many early => ?_, fun many due => ?_⟩, fun q resolved hop old => ?_,
      fun hop some_hop no_ack => ?_, execIcmpEcho_of rfl up⟩
    · rw [execArpRequest_of rfl up, State.arpAnswer_other mac other, if_pos own]
    · rw [execArpRequest_of rfl up, State.arpAnswer_other mac other, if_neg foreign]
    · rw [execArpRequest_of rfl up, State.arpAnswer_hop mac resolved hop foreign]
    · rw [execArpResolve_of rfl up hop unresolved, State.arpNext_first first]
      rfl
    · rw [execArpResolve_of rfl up hop unresolved, State.arpNext_repeat later few (by rwa [secPs_eq])]
      rfl
    · rw [execArpResolve_of rfl up hop unresolved, State.arpNext_waits later few (by rwa [secPs_eq])]
    · rw [execArpResolve_of rfl up hop unresolved, State.arpNext_rests many (by rw [secPs_eq]; omega)]
    · refine ⟨_, execArpResolve_of rfl up hop unresolved, ?_⟩
      rw [State.arpNext_again many (by rw [secPs_eq]; omega), State.post_host]
      exact ⟨rfl, rfl, rfl⟩
    · exact execArpRefresh_of rfl up resolved hop (by rwa [secPs_eq])
    · rw [execArpReply_of rfl up hop some_hop, State.arpResolved_of no_ack]

end Sys2Proof.Machine

namespace Sys2Proof.Machine

/-! ### Sessions (R513 to R516) -/

/-- A state with another host port, which is all that a frame or a session's register changes. -/
def State.withHost (s : State) (h : HPort) : State := { s with host := h }

section
variable (s : State)

theorem State.reply_frame (f : Frame) : s.reply f = s.withHost (s.reply f).host := by
  unfold State.reply
  split <;> rfl

theorem State.reply_session (f : Frame) : (s.reply f).host.session = s.host.session := by
  unfold State.reply
  split <;> rfl

/-- A datagram of the session counts DSEQ and adds frames, and leaves the session's own fields. -/
theorem State.sendDatagram_host (f : Nat → Frame) :
    (s.sendDatagram f).host.session = s.host.session ∧ (s.sendDatagram f).host.sessions = s.host.sessions ∧
    (s.sendDatagram f).host.cmds = s.host.cmds ∧
    ((s.sendDatagram f).host.dseq = s.host.dseq ∨ (s.sendDatagram f).host.dseq = (s.host.dseq + 1) % 2 ^ 32) := by
  unfold State.sendDatagram
  split
  · exact ⟨rfl, rfl, rfl, .inr rfl⟩
  · exact ⟨rfl, rfl, rfl, .inl rfl⟩

theorem State.helloAck_host : s.helloAck.host.session = s.host.session ∧ s.helloAck.host.sessions = s.host.sessions ∧
    s.helloAck.host.cmds = s.host.cmds ∧ (s.helloAck.host.dseq = s.host.dseq ∨ s.helloAck.host.dseq = (s.host.dseq + 1) % 2 ^ 32) := by
  unfold State.helloAck
  cases session : s.host.session with
  | none => exact ⟨session, rfl, rfl, .inl rfl⟩
  | some q =>
    dsimp only
    split
    · rw [← session]
      exact State.sendDatagram_host _ _
    · exact ⟨session, rfl, rfl, .inl rfl⟩

/-- A session begins with its number, no commands, and DSEQ 0, or 1 once its HELLO_ACK has left. -/
theorem State.beginSession_host (src : Peer) (v : Nat) (timeout : BitVec 16) (mask : BitVec 128) :
    (s.beginSession src v timeout mask).host.session =
      some { peer := src, version := v, timeoutS := s.helloTimeout timeout, mask := mask, lastRxPs := s.clock } ∧
    (s.beginSession src v timeout mask).host.sessions = s.host.sessions + 1 ∧ (s.beginSession src v timeout mask).host.cmds = [] ∧
    (s.beginSession src v timeout mask).host.dseq ≤ 1 := by
  unfold State.beginSession
  dsimp only
  rw [State.post_host]
  obtain ⟨session, sessions, cmds, dseq⟩ := State.helloAck_host { s with host := { s.host with
    session := some { peer := src, version := v, timeoutS := s.helloTimeout timeout, mask := mask, lastRxPs := s.clock }
    sessions := s.host.sessions + 1, dseq := 0, lastTxPs := s.clock, cmds := [], arpTries := 0 } }
  refine ⟨session, sessions, cmds, ?_⟩
  rcases dseq with unsent | sent
  · exact unsent.trans_le (Nat.zero_le 1)
  · exact sent.trans_le (show (0 + 1) % 2 ^ 32 ≤ 1 by decide)

theorem State.endSession_frame (reason : Nat) : (s.endSession reason).host.session = none ∧ (s.endSession reason).queue = s.queue ∧
    (s.endSession reason).kept = s.kept ∧ (s.endSession reason).ctxs = s.ctxs := by
  unfold State.endSession
  cases session : s.host.session with
  | none => exact ⟨session, rfl, rfl, rfl⟩
  | some q =>
    dsimp only
    rw [State.post_host, State.post_queue, State.post_kept, State.post_ctxs, State.reply_frame]
    exact ⟨rfl, rfl, rfl, rfl⟩

end

section
variable {s : State} {src : Peer} {lo hi : Nat} {take : Bool} {timeout : BitVec 16} {mask : BitVec 128}

/-- A range of versions that holds none that the part speaks (R513). -/
theorem State.hello_version (lacks : hi < lo ∨ hi = 0 ∨ min 3 hi < lo) : s.hello src lo hi take timeout mask =
    (if s.fromCollector src then s.heard else s).reply (.helloReject src 1 1 3) := by
  unfold State.hello
  refine if_pos ?_
  rcases lacks with empty | zero | low
  · simp [empty]
  · simp [zero]
  · rw [decide_eq_true low, Bool.or_true]

section
variable (some_version : 1 ≤ hi) (meets : lo ≤ min 3 hi)
include some_version meets

theorem State.hello_meets : s.hello src lo hi take timeout mask =
    (let t := if s.fromCollector src then s.heard else s
     match t.host.session with
     | none => t.beginSession src (min 3 hi) timeout mask
     | some q =>
       if q.peer == src then
         if q.version = min 3 hi then t.helloAck else (t.endSession 0).beginSession src (min 3 hi) timeout mask
       else if take then (t.endSession 2).beginSession src (min 3 hi) timeout mask
       else t.reply (.helloReject src 2 1 3)) := by
  unfold State.hello
  exact if_neg (by simp; omega)

theorem State.hello_new (session : s.host.session = none) : s.hello src lo hi take timeout mask = s.beginSession src (min 3 hi) timeout mask := by
  have stranger : s.fromCollector src = false := by rw [State.fromCollector, session]
  rw [State.hello_meets some_version meets, stranger, if_neg Bool.false_ne_true]
  dsimp only
  rw [session]

section
variable {q : QSession} (session : s.host.session = some q)
include session

/-- The collector of the session is heard first. -/
theorem State.hello_own (own : q.peer = src) : s.hello src lo hi take timeout mask =
    if q.version = min 3 hi then s.heard.helloAck else (s.heard.endSession 0).beginSession src (min 3 hi) timeout mask := by
  have collector : s.fromCollector src = true := by
    rw [State.fromCollector, session]
    exact beq_iff_eq.2 own
  have heard : s.heard.host.session = some { q with lastRxPs := s.clock } := by rw [State.heard, session]; rfl
  rw [State.hello_meets some_version meets, collector, if_pos rfl]
  dsimp only
  rw [heard]
  exact if_pos (beq_iff_eq.2 own)

theorem State.hello_other (other : q.peer ≠ src) : s.hello src lo hi take timeout mask =
    if take then (s.endSession 2).beginSession src (min 3 hi) timeout mask else s.reply (.helloReject src 2 1 3) := by
  have stranger : s.fromCollector src = false := by
    rw [State.fromCollector, session]
    exact beq_false_of_ne other
  rw [State.hello_meets some_version meets, stranger, if_neg Bool.false_ne_true]
  dsimp only
  rw [session]
  exact if_neg (by rw [beq_false_of_ne other]; exact Bool.false_ne_true)

end
end
end

section
variable {s u : State} {dt : Nat} (at_u : s.advance dt = u)
include at_u

theorem execHello_of (up : u.hostUp = true) (src : Peer) (lo hi : BitVec 8) (take : Bool) (timeout : BitVec 16) (mask : BitVec 128) :
    exec (.hello dt src lo hi take timeout mask) s = .next (u.hello src lo.toNat hi.toNat take timeout mask) := by
  change execHello dt src lo hi take timeout mask s = _
  exact State.occurs_at at_u up rfl

theorem execBye_of (up : u.hostUp = true) (src : Peer) : exec (.bye dt src) s = .next (u.datagram src (fun t => t.endSession 0)) := by
  change execBye dt src s = _
  exact State.occurs_at at_u up rfl

theorem execSessionTimeout_of (runs : u.portRuns = true) {q : QSession} (session : u.host.session = some q)
    (elapsed : q.lastRxPs + q.timeoutS * secPs ≤ u.clock) : exec (.sessionTimeout dt) s = .next (u.endSession 1) := by
  change execSessionTimeout dt s = _
  exact State.occurs_at at_u (by simp [runs, State.timedOut, session, elapsed]) rfl

end

/-- Settles O37: a HELLO goes by its versions and by the session that it meets, and the session's fields are those of its beginning. -/
theorem sessions : Obligations.Sessions := by
  constructor
  · intro s dt src lo hi take timeout mask u v heard up
    rw [execHello_of rfl up]
    refine ⟨fun lacks => congrArg Host.Outcome.next (State.hello_version lacks), fun some_version meets =>
      ⟨fun session => congrArg Host.Outcome.next (State.hello_new some_version meets session), fun q session own same => ?_,
        fun q session own newer => ?_, fun q session other takes => ?_, fun q session other leaves => ?_⟩⟩
    · rw [State.hello_own some_version meets session own, if_pos same]
    · rw [State.hello_own some_version meets session own, if_neg newer]
    · rw [State.hello_other some_version meets session other, if_pos takes]
    · rw [State.hello_other some_version meets session other, if_neg (by rw [leaves]; exact Bool.false_ne_true)]
  · intro s dt src q u
    refine ⟨fun x v timeout mask => x.beginSession_host src v timeout mask, fun x reason => x.endSession_frame reason, fun up session own => ?_,
      fun up stranger => ?_, fun runs session elapsed => execSessionTimeout_of rfl runs session (by rwa [secPs_eq])⟩
    · have collector : u.fromCollector src = true := by
        rw [State.fromCollector, session]
        exact beq_iff_eq.2 own
      rw [execBye_of rfl up, State.datagram_of u src _ up collector]
    · rw [execBye_of rfl up, State.datagram_stranger u src _ up stranger, State.byeNoSession, secPs_eq]
      exact ⟨fun told => congrArg Host.Outcome.next (if_pos told),
        fun untold => congrArg Host.Outcome.next (if_neg (Bool.eq_false_iff.1 untold))⟩

end Sys2Proof.Machine

namespace Sys2Proof.Machine

/-! ### Which commands are admitted (R535 to R539) -/

section
variable {s : State} {src : Peer} {id : BitVec 32} {op least : Nat} {life : Bool} {f : State → State}

theorem State.command_down (down : s.hostUp = false) : s.command src id op life least f = s := by
  unfold State.command State.datagram
  rw [down]
  rfl

section
variable (up : s.hostUp = true) (own : s.fromCollector src = true)
include up own

theorem State.command_disabled (disabled : s.host.cmdEn = false) :
    s.command src id op life least f = s.heard.response id op stRefused 0x88 false [] := by
  rw [State.command, State.datagram_of s src _ up own]
  exact if_pos (congrArg Bool.not disabled)

variable (enabled : s.host.cmdEn = true)
include enabled

theorem State.command_enabled : s.command src id op life least f =
    if id = 0 then s.heard.response id op stRefused 0x82 false []
    else match s.host.cmds.find? (fun c => c.id == id) with
      | some c => s.heard.response id c.op c.status c.reason true []
      | none =>
        let u := s.heard.remember id op
        if u.sessionVersion < least then u.refuse id op 0x85
        else if life && decide (32 ≤ u.host.open_.length) then u.refuse id op 0x86
        else f u := by
  rw [State.command, State.datagram_of s src _ up own]
  exact if_neg (by rw [show s.heard.host.cmdEn = true from enabled]; exact Bool.false_ne_true)

theorem State.command_unnamed (unnamed : id = 0) : s.command src id op life least f = s.heard.response id op stRefused 0x82 false [] := by
  rw [State.command_enabled up own enabled, if_pos unnamed]

variable (named : id ≠ 0)
include named

theorem State.command_repeated {c : Cmd} (repeated : s.host.cmds.find? (fun c => c.id == id) = some c) :
    s.command src id op life least f = s.heard.response id c.op c.status c.reason true [] := by
  rw [State.command_enabled up own enabled, if_neg named, repeated]

variable (fresh : s.host.cmds.find? (fun c => c.id == id) = none)
include fresh

theorem State.command_early (early : s.sessionVersion < least) :
    s.command src id op life least f = (s.heard.remember id op).refuse id op 0x85 := by
  rw [State.command_enabled up own enabled, if_neg named, fresh]
  exact if_pos (by rwa [State.remember_sessionVersion, State.heard_sessionVersion])

theorem State.command_full (version : least ≤ s.sessionVersion) (lifecycle : life = true) (full : 32 ≤ s.host.open_.length) :
    s.command src id op life least f = (s.heard.remember id op).refuse id op 0x86 := by
  rw [State.command_enabled up own enabled, if_neg named, fresh]
  dsimp only
  rw [State.remember_sessionVersion, State.heard_sessionVersion, if_neg (Nat.not_lt.2 version)]
  exact if_pos (Bool.and_eq_true_iff.2 ⟨lifecycle, decide_eq_true full⟩)

end
end

/-- The codes of Table 14.14, as a list of cases. -/
theorem knownOps_iff (op : BitVec 16) : knownOps.contains op = true ↔ op = 0x01 ∨ op = 0x02 ∨ op = 0x10 ∨ op = 0x11 ∨ op = 0x20 ∨ op = 0x30 ∨
    op = 0x40 ∨ op = 0x41 ∨ op = 0xF0 ∨ op = 0xF1 := by
  simp [knownOps]

/-- Settles O39: `State.command` is the order of the checks, and a COMMAND that no function sees passes it with a refusal as its effect. -/
theorem commandAdmission : Obligations.CommandAdmission := by
  constructor
  · intro s src id op least life f t joined
    refine ⟨State.command_down, fun up stranger => s.datagram_stranger src _ up stranger, fun up own => ⟨State.command_disabled up own,
      State.command_unnamed up own, fun enabled named => ⟨fun c repeated => State.command_repeated up own enabled named repeated,
        fun fresh => ⟨State.command_early up own enabled named fresh, State.command_full up own enabled named fresh,
          fun version room => s.command_admitted src id op least life f up own enabled named fresh version room⟩⟩⟩⟩
  · intro s dt frame b u w verdict up own enabled named fresh version
    have refused : exec (.datagramDiscarded dt frame) s = .next (w.refuse b.id b.op.toNat (if knownOps.contains b.op then 0x81 else 0x80)) := by
      have link : u.portRuns = true ∧ u.host.link = true := by
        simp only [State.hostUp, Bool.and_eq_true] at up
        obtain ⟨⟨⟨serving, link⟩, -⟩, port⟩ := up
        exact ⟨Bool.and_eq_true_iff.2 ⟨serving, port⟩, link⟩
      rw [execDatagramDiscarded_of rfl link.1 frame link.2, State.receive_bad verdict]
      exact congrArg Host.Outcome.next (u.command_admitted _ _ _ _ _ _ up own enabled named fresh version (.inl rfl))
    refine ⟨fun known => ?_, fun unknown => ?_⟩
    · rw [refused, if_pos ((knownOps_iff _).2 known)]
    · rw [refused, if_neg (fun known : knownOps.contains b.op = true => unknown (List.contains_iff_mem.1 known))]

/-! ### Commands once admitted (R540 to R546) -/

section
variable {s : State} {id : BitVec 32}

theorem State.countRefusal_many {n : Nat} (many : n = 0 ∨ 64 < n) : s.countRefusal n = 0x82 :=
  if_pos many

theorem State.countRefusal_taken {n : Nat} (some_ : ¬ (n = 0 ∨ 64 < n)) (version : s.sessionVersion ≠ 1 ∨ n = 1) : s.countRefusal n = 0 := by
  unfold State.countRefusal
  rw [if_neg some_, if_neg (by omega)]

theorem State.qrpRead_many {a : Addr} {n : Nat} (many : n = 0 ∨ 64 < n) : s.qrpRead id a n = s.refuse id 0x01 0x82 := by
  unfold State.qrpRead
  rw [State.countRefusal_many many]
  exact if_pos (by decide)

section
variable {a : Addr} {n : Nat} (taken : s.countRefusal n = 0)
include taken

theorem State.qrpRead_refused (refused : (addrsFrom a n).any qrpRefused = true) : s.qrpRead id a n = s.refuse id 0x01 0x84 := by
  unfold State.qrpRead
  dsimp only
  rw [taken, refused]
  rfl

theorem State.qrpRead_taken (open_ : (addrsFrom a n).any qrpRefused = false) : s.qrpRead id a n =
    (s.readAll (addrsFrom a n)).respond id 0x01 0 0 ((s.readAll (addrsFrom a n)).readData.flatMap (fun x => bytesOf 4 x.toNat)) := by
  unfold State.qrpRead
  dsimp only
  rw [taken, open_, if_neg (not_not.2 rfl), if_neg Bool.false_ne_true, State.complete, stCompleted]

end

theorem State.qrpWrite_many {l : List (Addr × Word)} (many : l.length = 0 ∨ 64 < l.length) : s.qrpWrite id l = s.refuse id 0x02 0x82 := by
  unfold State.qrpWrite
  rw [State.countRefusal_many many]
  exact if_pos (by decide)

section
variable {l : List (Addr × Word)} (taken : s.countRefusal l.length = 0)
include taken

theorem State.qrpWrite_refused (refused : l.any (fun x => qrpRefused x.1) = true) : s.qrpWrite id l = s.refuse id 0x02 0x84 := by
  unfold State.qrpWrite
  rw [taken, refused]
  rfl

theorem State.qrpWrite_taken (open_ : l.any (fun x => qrpRefused x.1) = false) (runs : (s.writeAll id l).runsOn = true) :
    s.qrpWrite id l = (s.writeAll id l).respond id 0x02 0 0 [] := by
  unfold State.qrpWrite
  rw [taken, open_]
  exact if_pos runs

end

theorem State.qrpSync_ready (ready : ∃ r, s.reachUp r = true) : s.qrpSync id = (s.syncLater 2).respond id 0x40 0 0 [] := by
  obtain ⟨r, up⟩ := ready
  refine if_pos (List.any_eq_true.2 ⟨r, ?_, up⟩)
  fin_cases r <;> decide

theorem State.qrpSync_unready (unready : ∀ r, s.reachUp r = false) : s.qrpSync id = s.refuse id 0x40 0x83 :=
  if_neg (Bool.eq_false_iff.1 (List.any_eq_false.2 (fun r _ => Bool.eq_false_iff.1 (unready r))))

theorem State.qrpAbort_unknown {target : BitVec 32} (unknown : s.cmdOf target = none) : s.qrpAbort id target = s.respond id 0xF0 0 0x8A [] := by
  unfold State.qrpAbort
  rw [unknown]
  rfl

section
variable {target : BitVec 32} {c : Cmd} (known : s.cmdOf target = some c)
include known

theorem State.qrpAbort_ended (ended : s.unended c = false) : s.qrpAbort id target = s.respond id 0xF0 0 0x89 [] := by
  unfold State.qrpAbort
  rw [known]
  exact if_pos (congrArg Bool.not ended)

theorem State.qrpAbort_unended (unended : s.unended c = true) : s.qrpAbort id target =
    let first := !(s.host.abortWaits.any (fun x => x.1 == target && x.2.2)) && s.abortable c
    ({ s with host := { s.host with abortWaits := s.host.abortWaits ++ [(target, id, first)] } } : State).when first (fun t => t.abortWork c) := by
  unfold State.qrpAbort
  rw [known]
  exact if_neg (by rw [unended]; exact Bool.false_ne_true)

end
end

/-- Settles O40: each admitted command is its own function of the state (`State.qrpRead`, `State.qrpWrite`, `State.qrpCommit`,
`State.qrpSync`, `State.qrpAbort`). -/
theorem qrpCommands : Obligations.QrpCommands := by
  constructor
  · intro s dt src id a n l c p copy pair e1 e2 u w many up own enabled named fresh version
    have admitted {op : Nat} {life : Bool} {f : State → State} (room : life = false ∨ u.host.open_.length < 32) :
        s.occurs dt (fun _ => true) (fun t => t.command src id op life 1 f) = .next (f (w op)) :=
      State.occurs_at rfl rfl (u.command_admitted src id op 1 life f up own enabled named fresh version room)
    have same (op : Nat) : (w op).sessionVersion = u.sessionVersion := by
      rw [State.remember_sessionVersion, State.heard_sessionVersion]
    have taken {op k : Nat} (some_ : ¬ many k) (alone : u.sessionVersion ≠ 1 ∨ k = 1) : (w op).countRefusal k = 0 :=
      State.countRefusal_taken some_ (by rwa [same])
    have read : exec (.regRead dt src id a n) s = .next ((w 0x01).qrpRead id a n.toNat) := admitted (.inl rfl)
    have write : exec (.regWrite dt src id l) s = .next ((w 0x02).qrpWrite id l) := admitted (.inl rfl)
    have sync : exec (.syncReset dt src id) s = .next ((w 0x40).qrpSync id) := admitted (.inl rfl)
    have context : exec (.ctxRead dt src id c copy) s = .next (if 1 < copy.toNat then (w 0x10).refuse id 0x10 0x82
        else (w 0x10).complete id 0x10 ((w 0x10).ctxs[c].copyOf c copy.toNat).bytes) := admitted (.inl rfl)
    rw [read, write, sync, context]
    refine ⟨fun out => ?_, fun some_ alone refused => ?_, fun some_ alone allowed => ?_, fun out => ?_, fun some_ alone refused => ?_,
      fun some_ alone allowed runs => ?_, fun shown => ?_, fun beyond => ?_, fun room => admitted (.inr room), admitted (.inl rfl),
      fun ready => ?_, fun unready => ?_⟩
    · rw [State.qrpRead_many out]
    · rw [State.qrpRead_refused (taken some_ alone) refused]
    · rw [State.qrpRead_taken (taken some_ alone) allowed]
    · rw [State.qrpWrite_many out]
    · rw [State.qrpWrite_refused (taken some_ alone) refused]
    · rw [State.qrpWrite_taken (taken some_ alone) allowed runs]
    · rw [if_neg (Nat.not_lt.2 shown)]
      rfl
    · rw [if_pos beyond]
    · rw [State.qrpSync_ready (s := w 0x40) ready]
    · rw [State.qrpSync_unready (s := w 0x40) unready]
  · intro s dt src id target c u w up own enabled named fresh version
    have admitted {op : Nat} {f : State → State} :
        s.occurs dt (fun _ => true) (fun t => t.command src id op false 2 f) = .next (f (w op)) :=
      State.occurs_at rfl rfl (u.command_admitted src id op 2 false f up own enabled named fresh version (.inl rfl))
    have abort : exec (.abort dt src id target) s = .next ((w 0xF0).qrpAbort id target) := admitted
    rw [abort]
    refine ⟨fun unknown => ?_, fun known ended => ?_, fun known unended => ?_, admitted⟩
    · rw [State.qrpAbort_unknown unknown]
    · rw [State.qrpAbort_ended known ended]
    · rw [State.qrpAbort_unended known unended]
      rfl

end Sys2Proof.Machine

/-! ## Failure containment: proposals, votes, wardens and memory errors -/

namespace Sys2Proof.Machine

/-! ### Proposals and votes (R439 to R441) -/

section
variable {s : State} {r : Fin 4} {id : ProposalId}

/-- A proposal on the same engine or sub-ADC is one on the same reach and action. -/
theorem Proposal.like_of_isOn {p : Proposal} (on : p.isOn r id = true) : (p.reach == r && p.act == id.act) = true := by
  unfold Proposal.isOn at on
  exact (Bool.and_eq_true_iff.1 on).1

theorem State.no_isOn_of_no_like (none_like : s.proposals.find? (fun q => q.reach == r && q.act == id.act) = none) :
    s.proposals.find? (fun q => q.isOn r id) = none := by
  rw [List.find?_eq_none] at none_like ⊢
  exact fun p member on => none_like p member (Proposal.like_of_isOn on)

section
variable (proposer : Option (Fin 4)) (lines : BitVec 7) (drift : Bool) (evidencePs : Nat)

theorem State.propose_noQuorum (few : (s.voters r).length < 2) : s.propose proposer r id.act lines id.ident drift evidencePs =
    s.post (proposerSrc proposer) r.val 0xFFFF 0x13 3 (proposalData id.act lines.toNat) :=
  if_pos few

section
variable (quorum : 2 ≤ (s.voters r).length)
include quorum

/-- The first proposal on a reach and action. -/
theorem State.propose_first (first : s.proposals.find? (fun q => q.reach == r && q.act == id.act) = none) :
    s.propose proposer r id.act lines id.ident drift evidencePs = { s with proposals := s.proposals.filter (fun q => !q.isOn r id) ++
      [{ proposer := proposer, reach := r, act := id.act, lines := lines, ident := id.ident, drift := drift
         evidence := evidencePs, raisedPs := s.clock }] } := by
  unfold State.propose
  dsimp only
  rw [if_neg (Nat.not_lt.2 quorum), first, State.no_isOn_of_no_like first]
  rfl

theorem State.propose_live {p : Proposal} (there : s.proposals.find? (fun q => q.isOn r id) = some p) (live : p.live = true) :
    s.propose proposer r id.act lines id.ident drift evidencePs = s := by
  unfold State.propose
  dsimp only
  rw [if_neg (Nat.not_lt.2 quorum), there]
  exact if_pos live

end
end

section
variable (v : Vote) (l : List Proposal)

/-- The proposal that a vote is for (R440). -/
def State.votedOn (s : State) (v : Vote) : Option Proposal := s.proposals.find? (fun p => p.live && p.isOn v.reach v.id &&
  !p.votes.contains v.voter && decide (p.votes.length < 2) && decide (s.clock ≤ p.raisedPs + 20000000))

theorem State.count_none (none_there : s.votedOn v = none) : State.count (s, l) v = (s, l) := by
  unfold State.votedOn at none_there
  unfold State.count
  dsimp only
  rw [none_there]

variable {v} {p : Proposal} (there : s.votedOn v = some p)
include there

theorem State.count_ignored (ignored : (!(s.voters v.reach).contains v.voter || !s.agrees p v.lines) = true) : State.count (s, l) v = (s, l) := by
  unfold State.votedOn at there
  unfold State.count
  dsimp only
  rw [there]
  exact if_pos ignored

variable (agrees : (!(s.voters v.reach).contains v.voter || !s.agrees p v.lines) = false)
include agrees

theorem State.count_agrees : State.count (s, l) v =
    (let n := { p with votes := p.votes ++ [v.voter] }
     ({ s with proposals := s.proposals.map (fun x => if x == p then n else x) }, if 2 ≤ n.votes.length then l ++ [n] else l)) := by
  unfold State.votedOn at there
  unfold State.count
  dsimp only
  rw [there]
  exact if_neg (Bool.eq_false_iff.1 agrees)

/-- The second agreeing vote decides. -/
theorem State.count_second (second : p.votes.length = 1) : State.count (s, l) v =
    (let n := { p with votes := p.votes ++ [v.voter] }
     ({ s with proposals := s.proposals.map (fun x => if x == p then n else x) }, l ++ [n])) := by
  rw [State.count_agrees l there agrees]
  dsimp only
  rw [if_pos (by rw [List.length_append, second, List.length_singleton])]

theorem State.count_first (first : p.votes = []) : State.count (s, l) v =
    ({ s with proposals := s.proposals.map (fun x => if x == p then { p with votes := [v.voter] } else x) }, l) := by
  rw [State.count_agrees l there agrees]
  dsimp only
  rw [first, if_neg (by simp)]
  rfl

end

theorem State.votesCome_one (v : Vote) : s.votesCome [v] =
    if (State.count (s, []) v).2.isEmpty then (State.count (s, []) v).1 else (State.count (s, []) v).1.carryOut (State.count (s, []) v).2 := rfl

theorem State.lapse_undisputed {p : Proposal} (few : p.lapses < 2) : s.lapse p = { s with proposals := s.proposals.map (fun x =>
    let y := { x with lapses := p.lapses + 1, disputed := p.disputed }
    if x == p then { y with live := false, votes := [] } else if x.reach == p.reach && x.act == p.act then y else x) } := by
  have quiet : decide (3 ≤ p.lapses + 1) = false := decide_eq_false (by omega)
  unfold State.lapse
  simp only [quiet, Bool.false_and, Bool.or_false, Bool.false_eq_true, if_false]

end

section
variable {s u : State} {dt : Nat} (at_u : s.advance dt = u) (awake : u.awake = true)
include at_u awake

section
variable {r : Fin 4} {act : Action} {lines : BitVec 7} {ident : Nat} {drift : Bool} {ago : Nat} {n : State}
  (noted : u.noteLines r lines (u.clock - ago * 1000) = n)
include noted

theorem execProposalRaise_none (grounds : n.grounds r act lines ident drift = true) :
    exec (.proposalRaise dt none r act lines ident drift ago) s = .next (n.propose none r act lines ident drift (u.clock - ago * 1000)) := by
  subst noted
  change execProposalRaise dt none r act lines ident drift ago s = _
  exact State.occurs_at at_u (by rw [awake, grounds]; rfl) rfl

omit awake in
theorem execProposalRaise_groundless (groundless : n.grounds r act lines ident drift = false) :
    exec (.proposalRaise dt none r act lines ident drift ago) s = .next u := by
  subst noted
  change execProposalRaise dt none r act lines ident drift ago s = _
  exact State.occurs_not_at at_u (by rw [groundless, Bool.and_false, Bool.false_and])

end

theorem execWardenVote_one (voter : Option (Fin 4)) (r : Fin 4) (id : ProposalId) (seen : BitVec 7) :
    exec (.wardenVote dt voter r id { lines := seen }) s = .next (u.votesCome [⟨voter, r, id, seen⟩]) := by
  change execWardenVote dt voter r id { lines := seen } s = _
  exact State.occurs_at at_u awake rfl

theorem execProposalLapse_of {r : Fin 4} {id : ProposalId} {p : Proposal}
    (due : u.proposals.find? (fun q => q.live && q.isOn r id && decide (q.raisedPs + 20000000 ≤ u.clock)) = some p) :
    exec (.proposalLapse dt r id) s = .next (u.lapse p) := by
  change execProposalLapse dt r id s = _
  exact State.occurs_at at_u awake (State.withSome_of due)

end

/-- Settles O57: a proposal goes by its quorum and by the one that it finds, and a vote by `State.count`. -/
theorem proposalsAndVotes : Obligations.ProposalsAndVotes := by
  intro s dt ago r voter id lines seen drift p u n vote awake
  have vote_eq : exec vote s = .next (u.votesCome [⟨voter, r, id, seen⟩]) := execWardenVote_one rfl awake voter r id seen
  refine ⟨fun grounds => ⟨fun quorum first => ?_, fun few => ?_, fun quorum there live => ?_⟩,
    fun groundless => execProposalRaise_groundless rfl rfl groundless, ⟨fun none_there => ?_, fun there => ⟨fun voices stands sees => ?_, fun lacks => ?_⟩⟩,
    fun due few => (execProposalLapse_of rfl awake due).trans (congrArg Host.Outcome.next (State.lapse_undisputed few))⟩
  · rw [execProposalRaise_none rfl awake (n := n) rfl grounds, State.propose_first none lines drift _ quorum first]
    rfl
  · rw [execProposalRaise_none rfl awake (n := n) rfl grounds, State.propose_noQuorum none lines drift _ few]
    rfl
  · rw [execProposalRaise_none rfl awake (n := n) rfl grounds, State.propose_live none lines drift _ quorum there live]
  · rw [vote_eq, State.votesCome_one, State.count_none (s := u) ⟨voter, r, id, seen⟩ [] none_there]
    rfl
  · have agrees : (!(u.voters r).contains voter || !u.agrees p seen) = false := by
      rw [voices, State.agrees, stands, beq_iff_eq.2 sees]
      rfl
    rw [vote_eq, State.votesCome_one]
    refine ⟨fun second => ?_, fun first => ?_⟩
    · rw [State.count_second (v := ⟨voter, r, id, seen⟩) [] there agrees second]
      rfl
    · rw [State.count_first (v := ⟨voter, r, id, seen⟩) [] there agrees first]
      rfl
  · have ignored := State.count_ignored (s := u) (v := ⟨voter, r, id, seen⟩) [] there (by
      rcases lacks with mute | falls | blind
      · rw [mute, Bool.not_false, Bool.true_or]
      · rw [State.agrees, falls, Bool.false_and, Bool.not_false, Bool.or_true]
      · rw [State.agrees, beq_false_of_ne blind, Bool.and_false, Bool.not_false, Bool.or_true])
    rw [vote_eq, State.votesCome_one, ignored]
    rfl

end Sys2Proof.Machine

namespace Sys2Proof.Machine

/-! ### Wardens and the copies of the control logic (R437, R444 to R447, R642) -/

section
variable {s : State} {w : Fin 4} {l : List Nat} (fails : withNow s.wardens[w].failPs s.clock = l)
include fails

/-- A warden that has failed fewer than three times within an hour. -/
theorem State.wardenFails_few (few : l.length < 3) : s.wardenFails w =
    s.modWarden w (fun x => { x with failed := true, failPs := l, retired := x.retired || decide (3 ≤ l.length) }) := by
  subst fails
  exact if_neg (Nat.not_le.2 few)

theorem State.wardenFails_third (third : 3 ≤ l.length) : s.wardenFails w =
    (s.modWarden w (fun x => { x with failed := true, failPs := l, retired := x.retired || decide (3 ≤ l.length) })).post
      0 0xFF 0xFFFF 0x11 2 (bytesOf 1 w.val) := by
  subst fails
  exact if_pos third

end

section
variable {s : State} {k : Fin 3} (whole : s.tmr.retired = 0)
include whole

theorem State.tmrDiffers_of : s.tmrDiffers k = { s with tmr := { s.tmr with
    differs := s.tmr.differs ||| ((1 : BitVec 3) <<< k.val)
    sincePs := if s.tmr.differs.getLsbD k.val then s.tmr.sincePs else s.tmr.sincePs.set k s.clock } } := by
  unfold State.tmrDiffers
  rw [whole, if_neg (by simp), if_pos rfl]

omit whole in
/-- The first rewrite of a copy retires none. -/
theorem State.tmrRewrite_first (first : s.tmr.rewrites = []) : s.tmrRewrite k =
    ({ s with tmr := { s.tmr with differs := s.tmr.differs &&& ~~~((1 : BitVec 3) <<< k.val), rewrites := [(k, s.clock)] } } : State).post
      0 0xFF 0xFFFF 0x50 1 (bytesOf 1 k.val) := by
  unfold State.tmrRewrite
  simp [first]

end

section
variable {s u : State} {dt : Nat} (at_u : s.advance dt = u)
include at_u

theorem execSubadcFaultDetect_of {r : Fin 4} {i : Fin 17} {fault : SubAdcFault} (runs : u.reachRuns r = true) (works : u.wardenWorks r = true)
    (faulty : u.fallow[r].faulty i fault = true) (in_service : u.fallow[r].retired = none) : exec (.subadcFaultDetect dt r i fault) s = .next
      (u.modWarden r (fun w => { w with subadc := w.subadc.filter (fun q => q.1 != i) ++ [(i, isDrift fault)] })) := by
  change execSubadcFaultDetect dt r i fault s = _
  exact State.occurs_at at_u (by rw [runs, works, faulty, in_service]; rfl) rfl

theorem execSubadcFaultDetect_not {r : Fin 4} {i : Fin 17} {fault : SubAdcFault} (sound : u.fallow[r].faulty i fault = false) :
    exec (.subadcFaultDetect dt r i fault) s = .next u := by
  change execSubadcFaultDetect dt r i fault s = _
  exact State.occurs_not_at at_u (by rw [sound, Bool.and_false, Bool.false_and])

theorem execTmrRepair_early {k : Fin 3} (early : tickOf u.clock ≤ tickOf u.tmr.sincePs[k]) : exec (.tmrRepair dt k) s = .next u := by
  change execTmrRepair dt k s = _
  exact State.occurs_not_at at_u (by rw [decide_eq_false (Nat.not_lt.2 early), Bool.and_false])

section
variable (awake : u.awake = true)
include awake

theorem execWardenHeartbeatTimeout_of {w : Fin 4} (works : u.wardenWorks w = true) :
    exec (.wardenHeartbeatTimeout dt w) s = .next (u.wardenFails w) := by
  change execWardenHeartbeatTimeout dt w s = _
  exact State.occurs_at at_u (by rw [awake, works]; rfl) rfl

theorem execWardenMiscompare_of {w : Fin 4} (works : u.wardenWorks w = true) : exec (.wardenMiscompare dt w) s = .next (u.wardenFails w) := by
  change execWardenMiscompare dt w s = _
  exact State.occurs_at at_u (by rw [awake, works]; rfl) rfl

theorem execWardenRestartComplete_of {w : Fin 4} (restarting : u.wardens[w].restarting = true) : exec (.wardenRestartComplete dt w) s =
    .next (u.modWarden w (fun x => { x with failed := false, restarting := false })) := by
  change execWardenRestartComplete dt w s = _
  exact State.occurs_at at_u (by rw [awake, restarting]; rfl) rfl

theorem execEngineRestartComplete_of {e : Fin 8} (restarting : u.engines[e].restarting = true) : exec (.engineRestartComplete dt e) s = .next
    (((u.modEngine e (fun x => { x with restarting := false })).forEach (u.unitsOn e) (fun c v => v.afterRestart e c)).forEach
      (allCtxs.filter (fun c => u.ctxs[c].erased)) (fun c v => v.endErasure c)) := by
  change execEngineRestartComplete dt e s = _
  exact State.occurs_at at_u (by rw [awake, restarting]; rfl) rfl

theorem execTmrMismatch_of (k : Fin 3) : exec (.tmrMismatch dt k) s = .next (u.tmrDiffers k) := by
  change execTmrMismatch dt k s = _
  exact State.occurs_at at_u awake rfl

theorem execTmrRepair_of {k : Fin 3} (differs : u.tmr.differs.getLsbD k.val = true) (whole : u.tmr.retired = 0)
    (later : tickOf u.tmr.sincePs[k] < tickOf u.clock) : exec (.tmrRepair dt k) s = .next (u.tmrRewrite k) := by
  change execTmrRepair dt k s = _
  exact State.occurs_at at_u (by rw [awake, differs, whole, decide_eq_true later]; rfl) rfl

/-! ### Memory errors (R449, R450, Table 12.3) -/

theorem execEccCorrected_of (region : Fin 4) (n : Nat) : exec (.eccCorrected dt region n) s = .next (u.eccCount region n) := by
  change execEccCorrected dt region n s = _
  exact State.occurs_at at_u awake rfl

theorem execEccScrub_of : exec (.eccScrub dt) s = .next { u with ecc := { u.ecc with scrubPs := u.clock } } := by
  change execEccScrub dt s = _
  exact State.occurs_at at_u awake rfl

theorem execEccUncorrectable_of (area : EccArea) (addr : BitVec 32) : exec (.eccUncorrectable dt area addr) s = .next
    (((u.eccEffect addr.toNat area).withSome (u.ueReach area) (fun r t => t.modWarden r (fun w => { w with ue := true }))).post 0 0xFF 0xFFFF 0x41 1
      (bytesOf 1 (eccRegion area) ++ bytesOf 3 0 ++ bytesOf 4 addr.toNat)) := by
  change execEccUncorrectable dt area addr s = _
  exact State.occurs_at at_u awake rfl

theorem execProgramPageReload_of {page : Nat} (bad : u.ecc.badPages.contains page = true) (imageOk : Bool) {t : State}
    (taken : ({ u with ecc := { u.ecc with badPages := u.ecc.badPages.filter (· != page) } } : State) = t) :
    exec (.programPageReload dt page imageOk) s = .next (if imageOk && !t.image.changed then t else t.pageLost page) := by
  subst taken
  change execProgramPageReload dt page imageOk s = _
  exact State.occurs_at at_u (by rw [awake, bad]; rfl) rfl

end
end

section
variable {s : State} {region : Fin 4} (n : Nat)

theorem State.eccCount_posts (due : s.since s.ecc.postPs[region] secPs = true) : s.eccCount region n =
    ({ s with ecc := { s.ecc with counts := s.ecc.counts.set region 0, postPs := s.ecc.postPs.set region (some s.clock) } } : State).post
      0 0xFF 0xFFFF 0x40 0 (bytesOf 1 region.val ++ bytesOf 3 0 ++ bytesOf 4 (s.ecc.counts[region] + n)) :=
  if_pos due

theorem State.eccCount_counts (early : s.since s.ecc.postPs[region] secPs = false) : s.eccCount region n =
    { s with ecc := { s.ecc with counts := s.ecc.counts.set region (s.ecc.counts[region] + n) } } :=
  if_neg (Bool.eq_false_iff.1 early)

/-- An error in an engine's area of a context that an engine serves (Table 12.3). -/
theorem State.restoreCtx_due {c : Fin 256} (busy : s.ctxs[c].st ≠ .idle) (placed : s.ctxs[c].st ≠ .migrating) :
    (s.restoreCtx c).ctxs[c].restoreDue = true := by
  unfold State.restoreCtx
  rw [beq_false_of_ne busy, beq_false_of_ne placed, Bool.or_false, if_neg Bool.false_ne_true, State.modCtx_same]

end

/-- Settles O58: each event by its condition; a warden's failures are counted by `withNow`, a copy's rewrites by `State.tmrRewrite`. -/
theorem wardensAndMemory : Obligations.WardensAndMemory := by
  constructor
  · intro s dt w i fault e k u l failed awake
    have counted : withNow u.wardens[w].failPs u.clock = l := by rw [withNow, hourPs, secPs_eq]
    refine ⟨fun works => ⟨fun few => ?_, fun third => ?_, fun runs in_service faulty => execSubadcFaultDetect_of rfl runs works faulty in_service,
        execSubadcFaultDetect_not rfl⟩,
      execWardenRestartComplete_of rfl awake, execEngineRestartComplete_of rfl awake, fun whole => ?_,
      fun differs whole early => execTmrRepair_early rfl early, fun differs whole first later => ?_⟩
    · rw [execWardenHeartbeatTimeout_of rfl awake works, execWardenMiscompare_of rfl awake works, State.wardenFails_few counted few]
      exact ⟨rfl, rfl⟩
    · rw [execWardenHeartbeatTimeout_of rfl awake works, execWardenMiscompare_of rfl awake works, State.wardenFails_third counted third]
      exact ⟨rfl, rfl⟩
    · rw [execTmrMismatch_of rfl awake, State.tmrDiffers_of whole]
    · rw [execTmrRepair_of rfl awake differs whole later, State.tmrRewrite_first first]
  · intro s dt n page region area addr u e awake
    refine ⟨fun due => ?_, fun early => ?_, execEccScrub_of rfl awake, ⟨fun nowhere => ?_, fun r there => ?_⟩, fun e => rfl,
      fun c busy placed => State.restoreCtx_due busy placed, rfl, fun c => ?_, fun bad => ⟨fun unchanged => ?_, fun changed => ?_, ?_⟩⟩
    · rw [execEccCorrected_of rfl awake, State.eccCount_posts n (by rwa [secPs_eq])]
    · rw [execEccCorrected_of rfl awake, State.eccCount_counts n (by rwa [secPs_eq])]
    · rw [execEccUncorrectable_of rfl awake, State.withSome_of_none nowhere]
    · rw [execEccUncorrectable_of rfl awake, State.withSome_of there]
    · exact congrArg Ctx.snap (State.modCtx_same u c _)
    · rw [execProgramPageReload_of rfl awake bad true rfl]
      exact congrArg Host.Outcome.next (if_pos (congrArg Bool.not unchanged))
    · rw [execProgramPageReload_of rfl awake bad true rfl]
      exact congrArg Host.Outcome.next (if_neg (by rw [Bool.true_and]; exact Bool.eq_false_iff.1 (congrArg Bool.not changed)))
    · rw [execProgramPageReload_of rfl awake bad false rfl]
      rfl

end Sys2Proof.Machine
